-- ==== Sys2Proof/Word.lean ====
section
/-! DEFINITION. The word types of the IS-S2A and the two plain containers the state is written with. -/

namespace Sys2Proof

/-- One byte. -/
abbrev Byte := BitVec 8

/-- A scalar register, an address or a device register (R88, R366). -/
abbrev Word := BitVec 64

/-- One 32-bit lane (R90). -/
abbrev Lane := BitVec 32

/-- A vector register, a wide latch or a 512-byte stream entry: 4,096 bits, lane `j` at bits `32j` (R88, R91, R92). -/
abbrev Vec := BitVec 4096

/-- A predicate register: one bit for each lane (R88). -/
abbrev Pred := BitVec 128

/-- A 64-byte memory sector (R36), byte `k` at bits `8k`. -/
abbrev Sector := BitVec 512

/-- Plain data by number: a list of pairs, the first pair of a key giving its value. -/
abbrev Map (α : Type) := List (Nat × α)

/-- Byte memory: the cells that differ from what an unlisted address reads as. -/
abbrev Memory := List (Nat × Byte)

end Sys2Proof
end

