-- ==== Sys2Proof/Syntax.lean ====
section
/-! DEFINITION. The instructions of the IS-S2A: one constructor for each row of the table of operations
and events. The first 192 are slot instructions (R103 forms; the stop bit belongs to the bundle's framing,
R102, and is no field of an instruction). The other 101 are the steps the spec gives the other agents of the
device, first those the device takes of itself, then those its surroundings ask for; what the surroundings decide in
such a step (an error found, a byte arriving) is an operand. -/

namespace Sys2Proof

/-- A source field and its mode bit (R104): mode 0 names a register, mode 1 a latch, a pop or a peek. -/
structure Src where
  m : Bool
  f : BitVec 6
  deriving DecidableEq, Repr

/-- Scalar R form of class A or M (R166, R168): twin bit, destination, suppress bit, sources, port. -/
structure SRR where
  g : Bool
  d : BitVec 5
  n : Bool
  a : Src
  b : Src
  p : BitVec 2
  deriving DecidableEq, Repr

/-- Scalar I form (R169). -/
structure SRI where
  g : Bool
  d : BitVec 5
  n : Bool
  a : Src
  imm : BitVec 7
  p : BitVec 2
  deriving DecidableEq, Repr

/-- Scalar immediate shift (R169): the amount is IMM7[5:0]. -/
structure SSH where
  g : Bool
  d : BitVec 5
  n : Bool
  a : Src
  sh : BitVec 6
  p : BitVec 2
  deriving DecidableEq, Repr

/-- Scalar unary RF form (R171). -/
structure SU where
  g : Bool
  d : BitVec 5
  n : Bool
  a : Src
  p : BitVec 2
  deriving DecidableEq, Repr

/-- Vector R form of class V (R190, R194). -/
structure VRR where
  g : Bool
  d : BitVec 6
  n : Bool
  a : Src
  b : Src
  p : BitVec 2
  deriving DecidableEq, Repr

/-- Vector compare (R191, R196): D holds the condition and the predicate. -/
structure VCM where
  g : Bool
  c : BitVec 3
  k : BitVec 3
  n : Bool
  a : Src
  b : Src
  p : BitVec 2
  deriving DecidableEq, Repr

/-- Vector unary RF form (R193, R197, R198, R200, R203, R204). -/
structure VU where
  g : Bool
  d : BitVec 6
  n : Bool
  a : Src
  p : BitVec 2
  deriving DecidableEq, Repr

/-- R form with a 6-bit D and a suppress bit, of class P or L (R141, R142, R206). -/
structure PRR where
  d : BitVec 6
  n : Bool
  a : Src
  b : Src
  p : BitVec 2
  deriving DecidableEq, Repr

/-- R form with a 5-bit D and a suppress bit (R143, R207). -/
structure SR3 where
  d : BitVec 5
  n : Bool
  a : Src
  b : Src
  p : BitVec 2
  deriving DecidableEq, Repr

/-- R form with a 6-bit D and no suppress bit (`looph`, `vstg`, `bind`). -/
structure DAB6 where
  d : BitVec 6
  a : Src
  b : Src
  p : BitVec 2
  deriving DecidableEq, Repr

/-- Scalar load, I form (R139). -/
structure LDI where
  d : BitVec 5
  n : Bool
  a : Src
  imm : BitVec 7
  p : BitVec 2
  deriving DecidableEq, Repr

/-- Scalar store, I form with N = 0 (R139). -/
structure STI where
  d : BitVec 5
  a : Src
  imm : BitVec 7
  p : BitVec 2
  deriving DecidableEq, Repr

/-- Guarded store, I form with N = 1 (R145): `l` is the latch code. -/
structure GSI where
  l : BitVec 4
  a : Src
  imm : BitVec 7
  p : BitVec 2
  deriving DecidableEq, Repr

/-- An engine instruction naming a queue and a record address (R160, R286). -/
structure QA where
  q : BitVec 1
  a : Src
  p : BitVec 2
  deriving DecidableEq, Repr

/-- A 4-bit tile, array or stream number and one source. -/
structure KA where
  k : BitVec 4
  a : Src
  p : BitVec 2
  deriving DecidableEq, Repr

/-- A 4-bit tile, array or stream number and two sources. -/
structure KAB where
  k : BitVec 4
  a : Src
  b : Src
  p : BitVec 2
  deriving DecidableEq, Repr

/-- What a translated access needs (R23). -/
inductive AccessKind where
  | read | write | fetch | atomic
  deriving DecidableEq, Repr

/-- What the memory interface met when it transferred one codeword (R31): no error, the attempts that a transfer error cost, the lane
that was steered to a spare, or a failure with the lane that was identified, 0xFF for none. -/
inductive WriteOutcome where
  | clean
  | retried (tries : Nat)
  | laneRepaired (lane : BitVec 8)
  | failed (lane : BitVec 8)
  deriving DecidableEq, Repr

/-- What array ECC says of a codeword that has passed parity (R30, R31). -/
inductive EccOutcome where
  | clean
  | corrected (synd : BitVec 32)
  | uncorrectable (synd : BitVec 32)
  | miscorrected (synd : BitVec 32)
  deriving DecidableEq, Repr

/-- What the memory interface found when it read one codeword (R31): its transfer, then what array ECC says. -/
structure ReadOutcome where
  transfer : WriteOutcome
  ecc : EccOutcome
  deriving DecidableEq, Repr

/-- The replays that recovered a flit, and the lane that the link blames for them (R279, R280). -/
structure FlitReplays where
  tries : BitVec 16
  lane : BitVec 8
  deriving DecidableEq, Repr

/-- What an access from another device asks for (R282, R287). -/
inductive WindowKind where
  | read | write | land
  deriving DecidableEq, Repr

/-- What the target of a remote put or get answers (R282, R294). -/
inductive RemoteReply where
  | none
  | bytes (data : List (BitVec 8)) (poison : List Nat)
  | accepted
  | counted (cause : Option (BitVec 8))
  | refused
  | unreachable
  deriving DecidableEq, Repr

/-- What a rank of another device brings to a collective (R289): its rows, or its abort. -/
inductive RemoteShare where
  | rows (rank : Nat) (opf : BitVec 8) (len nrows : Nat) (data : List (BitVec 8)) (poison : List Nat)
  | aborted (rank : Nat)
  deriving DecidableEq, Repr

/-- What a rank of another device does about a block of an all-to-all (R292, R294): nothing; as the destination, it takes the block
or refuses it; as the source, it sends its bytes, with its own RADDR, DBSTR and RSTRIDE, which give their place. -/
inductive RemoteBlock where
  | none
  | accepted
  | refused
  | bytes (raddr : BitVec 64) (dbstr rstr : BitVec 32) (data : List (BitVec 8))
  deriving DecidableEq, Repr

/-- What a core of the control complex does: an access at a home slice (R65, R363), or the claim of an interrupt (R365). -/
inductive HostAccess where
  | load | store | amoSwap | amoAdd | amoAnd | amoOr | amoXor | amoMin | amoMax | amoMinu | amoMaxu | cboClean | cboInval | claim
  deriving DecidableEq, Repr

/-- The operations and events of the device, one constructor for each row of the table. -/
inductive Instr where
  /-- ADD (R166). Scalar add of A and B, modulo 2^64. -/
  | add (o : SRR)
  /-- SUB (R166). Scalar subtract of B from A. -/
  | sub (o : SRR)
  /-- AND (R166). Bitwise and of A and B. -/
  | and (o : SRR)
  /-- ANDN (R166). Bitwise and of A with not B. -/
  | andn (o : SRR)
  /-- OR (R166). Bitwise or of A and B. -/
  | or (o : SRR)
  /-- XOR (R166). Bitwise xor of A and B. -/
  | xor (o : SRR)
  /-- SLL (R166). Left shift of A by B[5:0]. -/
  | sll (o : SRR)
  /-- SRL (R166). Zero-filling right shift of A by B[5:0]. -/
  | srl (o : SRR)
  /-- SRA (R166). Sign-filling right shift of A by B[5:0]. -/
  | sra (o : SRR)
  /-- ROL (R166). Rotate A left by B[5:0]. -/
  | rol (o : SRR)
  /-- ROR (R166). Rotate A right by B[5:0]. -/
  | ror (o : SRR)
  /-- LEA (R168). Forms a local-aperture generic address from A + B. -/
  | lea (o : SRR)
  /-- SLT (R166). Signed less-than comparison giving 1 or 0. -/
  | slt (o : SRR)
  /-- SLTU (R166). Unsigned less-than comparison giving 1 or 0. -/
  | sltu (o : SRR)
  /-- MIN (R166). Signed minimum of A and B. -/
  | min (o : SRR)
  /-- MAX (R166). Signed maximum of A and B. -/
  | max (o : SRR)
  /-- MINU (R166). Unsigned minimum of A and B. -/
  | minu (o : SRR)
  /-- MAXU (R166). Unsigned maximum of A and B. -/
  | maxu (o : SRR)
  /-- MUL (R166). Low 64 bits of A times B on the multiplier. -/
  | mul (o : SRR)
  /-- MULH (R166). High 64 bits of the signed product. -/
  | mulh (o : SRR)
  /-- MULHU (R166). High 64 bits of the unsigned product. -/
  | mulhu (o : SRR)
  /-- DIV (R167). Signed quotient rounded toward zero with defined special cases. -/
  | div (o : SRR)
  /-- DIVU (R167). Unsigned quotient. -/
  | divu (o : SRR)
  /-- REM (R167). Signed remainder with the sign of A. -/
  | rem (o : SRR)
  /-- REMU (R167). Unsigned remainder. -/
  | remu (o : SRR)
  /-- SEL (R168). Selects A if the old D is nonzero, else B. -/
  | sel (o : SRR)
  /-- ADDI (R169). Adds a sign-extended 7-bit immediate to A. -/
  | addi (o : SRI)
  /-- ANDI (R169). Ands A with a sign-extended immediate. -/
  | andi (o : SRI)
  /-- ORI (R169). Ors A with a sign-extended immediate. -/
  | ori (o : SRI)
  /-- XORI (R169). Xors A with a sign-extended immediate. -/
  | xori (o : SRI)
  /-- SLLI (R169). Left shift of A by an immediate amount. -/
  | slli (o : SSH)
  /-- SRLI (R169). Zero-filling right shift of A by an immediate amount. -/
  | srli (o : SSH)
  /-- SRAI (R169). Sign-filling right shift of A by an immediate amount. -/
  | srai (o : SSH)
  /-- NOP (R107). Occupies a slot and does nothing. -/
  | nop
  /-- BCC (R173). Conditional branch on a test of A to a 16-byte-unit offset. -/
  | bcc (c : BitVec 3) (a : Src) (off : BitVec 13)
  /-- JAL (R174). Writes the return address to D and jumps by a signed immediate. -/
  | jal (d : BitVec 5) (imm : BitVec 17)
  /-- JR (R175). Jumps to the address in A and writes the return address to D. -/
  | jr (d : BitVec 5) (a : Src) (p : BitVec 2)
  /-- JR_GD (R175). Guarded jump that first compares a latch with its twin partner. -/
  | jrGd (d : BitVec 5) (a : Src) (l : BitVec 4) (p : BitVec 2)
  /-- LOOPH (R177). Opens a zero-overhead loop of n bundles with optional register rings. -/
  | looph (o : DAB6)
  /-- TRAP (R187). Commits its bundle and enters a software trap, cause 0x10. -/
  | trap (a : Src) (imm : BitVec 7) (p : BitVec 2)
  /-- LNCH (R183). Submits a launch record from the scratchpad to the distributor intake. -/
  | lnch (d : BitVec 5) (a : Src) (p : BitVec 2)
  /-- CWR (R184). Writes A to a per-context control register. -/
  | cwr (a : Src) (imm : BitVec 7) (p : BitVec 2)
  /-- CRDR (R184). Reads a per-context control register into D. -/
  | crdr (d : BitVec 5) (imm : BitVec 7) (p : BitVec 2)
  /-- DONE (R179). Ends the task once all its outstanding work has drained. -/
  | done
  /-- YIELD (R178). Commits its bundle and passes the core to the next ready context. -/
  | yield
  /-- WAITT (R180). Blocks the context until the PTP clock reaches A. -/
  | waitt (a : Src) (p : BitVec 2)
  /-- RDTIME (R180). Reads the PTP clock in nanoseconds into D. -/
  | rdtime (d : BitVec 5)
  /-- WNEXT (R181). Takes the next tile of the walker, stealing or returning -1 when empty. -/
  | wnext (d : BitVec 5)
  /-- WPOS (R181). Writes coordinate k of the current tile. -/
  | wpos (d : BitVec 5) (k : BitVec 2)
  /-- IFENCE (R182). Waits for earlier writes and discards fetched code and the instruction cache. -/
  | ifence
  /-- ERET (R329). Returns from a trap handler to EPC, releasing flight record and operand log. -/
  | eret
  /-- CLZ (R171). Counts leading zero bits of A. -/
  | clz (o : SU)
  /-- CTZ (R171). Counts trailing zero bits of A. -/
  | ctz (o : SU)
  /-- POPC (R171). Counts one bits of A. -/
  | popc (o : SU)
  /-- SEXT (R171). Sign-extends the low 8, 16 or 32 bits of A. -/
  | sext (o : SU) (w : BitVec 2)
  /-- ZEXT (R171). Zero-extends the low 8, 16 or 32 bits of A. -/
  | zext (o : SU) (w : BitVec 2)
  /-- CRD (R172). Reads a logical or physical coordinate of the task. -/
  | crd (g : Bool) (d : BitVec 5) (n : Bool) (k : BitVec 4) (p : BitVec 2)
  /-- LI (R170). Loads a sign-extended 17-bit immediate. -/
  | li (g : Bool) (d : BitVec 5) (imm : BitVec 17)
  /-- LIH (R170). Shifts D left 16 and ors in a 16-bit immediate. -/
  | lih (g : Bool) (d : BitVec 5) (imm : BitVec 16)
  /-- PSET (R214). Writes VMODE bits [10:0] from an immediate. -/
  | pset (imm : BitVec 11)
  /-- VADD (R190). Element-wise integer add. -/
  | vadd (o : VRR)
  /-- VSUB (R190). Element-wise integer subtract. -/
  | vsub (o : VRR)
  /-- VMUL (R190). Element-wise low integer product. -/
  | vmul (o : VRR)
  /-- VMULH (R190). Element-wise high integer product. -/
  | vmulh (o : VRR)
  /-- VMAD (R190). Element-wise integer multiply-add into D. -/
  | vmad (o : VRR)
  /-- VAND (R190). Element-wise and. -/
  | vand (o : VRR)
  /-- VOR (R190). Element-wise or. -/
  | vor (o : VRR)
  /-- VXOR (R190). Element-wise xor. -/
  | vxor (o : VRR)
  /-- VSHL (R190). Element-wise left shift. -/
  | vshl (o : VRR)
  /-- VSHR (R190). Element-wise zero-filling right shift. -/
  | vshr (o : VRR)
  /-- VSRA (R190). Element-wise arithmetic right shift. -/
  | vsra (o : VRR)
  /-- VMIN (R190). Element-wise integer minimum. -/
  | vmin (o : VRR)
  /-- VMAX (R190). Element-wise integer maximum. -/
  | vmax (o : VRR)
  /-- VCMP (R191). Integer compare writing a predicate and a mask latch. -/
  | vcmp (o : VCM)
  /-- VSEL (R192). Selects lanes of A or B under the active predicate, writing every lane. -/
  | vsel (o : VRR)
  /-- VABS (R193). Element-wise saturating absolute value. -/
  | vabs (o : VU)
  /-- VCLZ (R193). Element-wise leading-zero count. -/
  | vclz (o : VU)
  /-- VPOPC (R193). Element-wise population count. -/
  | vpopc (o : VU)
  /-- VSAT (R193). Element-wise clamp to a narrower integer range. -/
  | vsat (o : VU) (t : BitVec 2)
  /-- VFADD (R194). Element-wise float add rounded in VMODE.RM. -/
  | vfadd (o : VRR)
  /-- VFSUB (R194). Element-wise float subtract. -/
  | vfsub (o : VRR)
  /-- VFMUL (R194). Element-wise float multiply. -/
  | vfmul (o : VRR)
  /-- VFFMA (R194). Element-wise fused multiply-add with one rounding. -/
  | vffma (o : VRR)
  /-- VFMIN (R195). Element-wise float minimum with NaN rules. -/
  | vfmin (o : VRR)
  /-- VFMAX (R195). Element-wise float maximum with NaN rules. -/
  | vfmax (o : VRR)
  /-- VFSGN (R194). Replaces the sign of A with that of B. -/
  | vfsgn (o : VRR)
  /-- VFCMP (R196). Float compare writing a predicate and a mask latch. -/
  | vfcmp (o : VCM)
  /-- VFCLASS (R197). Writes a one-hot class mask per element. -/
  | vfclass (o : VU)
  /-- VRCP (R199). SFU reciprocal at 12 significant bits. -/
  | vrcp (o : VU)
  /-- VRSQ (R198). SFU reciprocal square root. -/
  | vrsq (o : VU)
  /-- VSQRT (R198). SFU square root. -/
  | vsqrt (o : VU)
  /-- VEXP2 (R198). SFU base-2 exponential by exp2_12. -/
  | vexp2 (o : VU)
  /-- VLOG2 (R198). SFU base-2 logarithm. -/
  | vlog2 (o : VU)
  /-- VTANH (R198). SFU hyperbolic tangent. -/
  | vtanh (o : VU)
  /-- VSILU (R198). SFU SiLU function. -/
  | vsilu (o : VU)
  /-- VCVT (R200). Converts one element per lane between formats, optionally with stochastic rounding. -/
  | vcvt (o : VU) (part : BitVec 2) (sr : Bool) (c : BitVec 4)
  /-- VQNT (R203). Quantises FP32 lanes into IB or MX blocks per cluster. -/
  | vqnt (o : VU) (sr : Bool) (c : BitVec 4)
  /-- VDQNT (R204). Decodes IB or MX blocks into FP32 lanes. -/
  | vdqnt (o : VU) (h : Bool) (c : BitVec 4)
  /-- VPERM (R206). Permutes lanes within each cluster by a vector index. -/
  | vperm (o : PRR)
  /-- VXCL (R206). Moves whole clusters by rotation or xor distance. -/
  | vxcl (o : PRR)
  /-- VSHF (R206). Shifts or rotates lanes within each cluster. -/
  | vshf (o : PRR)
  /-- LD (R139). Scalar 8-byte load from a generic address. -/
  | ld (o : LDI)
  /-- ST (R139). Scalar 8-byte store to a generic address. -/
  | st (o : STI)
  /-- ST_GD (R145). Guarded scalar store of a latch after a twin comparison. -/
  | stGd (o : GSI)
  /-- LDG (R139). Blocking scalar load from a global address. -/
  | ldg (o : LDI)
  /-- STG (R139). Scalar store to a global address through the operand log. -/
  | stg (o : STI)
  /-- STG_GD (R145). Guarded global scalar store of a latch. -/
  | stgGd (o : GSI)
  /-- VLD (R140). Local vector load of eight bank rows or a register-window block. -/
  | vld (d : BitVec 6) (n : Bool) (a : Src) (imm : BitVec 7) (p : BitVec 2)
  /-- VST (R140). Local vector store of active lanes. -/
  | vst (d : BitVec 6) (a : Src) (imm : BitVec 7) (p : BitVec 2)
  /-- VST_GD (R145). Guarded local vector store of a latch. -/
  | vstGd (o : GSI)
  /-- VLDG (R141). Blocking global load of 512 contiguous bytes. -/
  | vldg (o : PRR)
  /-- VSTG (R141). Global store of the active lanes of 512 bytes. -/
  | vstg (o : DAB6)
  /-- VSTG_GD (R145). Guarded global vector store of a latch. -/
  | vstgGd (l : BitVec 4) (a b : Src) (p : BitVec 2)
  /-- VSTG_PUSH (R158). Pushes one 512-byte entry to a write stream. -/
  | vstgPush (d : BitVec 6) (k : BitVec 4) (p : BitVec 2)
  /-- VGATH (R142). Blocking gather of 4-byte elements by lane offsets. -/
  | vgath (o : PRR)
  /-- VSCAT (R142). Scatter store of 4-byte elements in increasing lane order. -/
  | vscat (o : PRR)
  /-- AMO (R143). Scalar atomic on a generic address selected by A[2:0]. -/
  | amo (o : SR3)
  /-- AMOG (R143). Scalar atomic on a global address. -/
  | amog (o : SR3)
  /-- VAMO (R144). Per-lane global 32-bit atomics in lane order. -/
  | vamo (o : PRR)
  /-- FENCE (R149). Orders predecessor access classes before successor classes at a scope. -/
  | fence (scope : BitVec 3) (q r : BitVec 8)
  /-- QFENCE (R149). Places one joining entry in each named ferry or Sound-engine queue. -/
  | qfence (m : BitVec 4)
  /-- CINV (R150). Writes back and invalidates cache lines of a global range. -/
  | cinv (d : BitVec 6) (a : Src) (p : BitVec 2)
  /-- CWB (R150). Writes back Dirty sectors of a global range. -/
  | cwb (d : BitVec 6) (a : Src) (p : BitVec 2)
  /-- ACQ (R152). Acquire on a sync word, waiting until it reaches D. -/
  | acq (d : BitVec 6) (n : Bool) (a : Src) (scope : BitVec 3) (p : BitVec 2)
  /-- REL (R152). Release on a sync word, writing D after cleaning bound regions. -/
  | rel (d : BitVec 6) (n : Bool) (a : Src) (scope : BitVec 3) (p : BitVec 2)
  /-- UNBIND (R151). Removes bindings to an object, or all bindings. -/
  | unbind (n : Bool) (a : Src) (p : BitVec 2)
  /-- BIND (R151). Binds a global region to a sync object. -/
  | bind (o : DAB6)
  /-- FCOPY (R160). Enqueues a ferry copy command from a scratchpad record. -/
  | fcopy (o : QA)
  /-- FGATH (R160). Enqueues a ferry gather command. -/
  | fgath (o : QA)
  /-- FPUT (R287). Enqueues a Sound-engine put to a remote window. -/
  | fput (o : QA)
  /-- FGET (R287). Enqueues a Sound-engine get from a remote window. -/
  | fget (o : QA)
  /-- FCOLL (R289). Enqueues a collective reduction over a group. -/
  | fcoll (o : QA)
  /-- FA2A (R292). Enqueues an all-to-all transposing exchange over a group. -/
  | fa2a (o : QA)
  /-- FWAIT (R288). Blocks until the named Sound-engine queues' commands have completed. -/
  | fwait (m : BitVec 2) (p : BitVec 2)
  /-- BINIT (R153). Initialises a barrier object. -/
  | binit (n : Bool) (a b : Src) (p : BitVec 2)
  /-- BARV (R153). Performs ARRIVE on a barrier without release. -/
  | barv (n : Bool) (a : Src) (y : Bool) (p : BitVec 2)
  /-- BARV_REL (R153). Performs ARRIVE on a barrier as a release at a scope. -/
  | barvRel (scope : BitVec 3) (n : Bool) (a : Src) (y : Bool) (p : BitVec 2)
  /-- BWAIT (R153). Waits for a barrier generation change, then acquires. -/
  | bwait (scope : BitVec 3) (n : Bool) (a b : Src) (p : BitVec 2)
  /-- BXPECT (R153). Performs EXPECT of inbound bytes and outbound transfers. -/
  | bxpect (o : PRR)
  /-- COPEN (R161). Opens a containment region, snapshotting scalar registers and FFLAGS. -/
  | copen (d : BitVec 5) (n : Bool) (a : Src) (p : BitVec 2)
  /-- CCLOSE (R161). Closes the innermost containment region. -/
  | cclose (p : BitVec 2)
  /-- TCHK (R146). Compares two latches and traps on mismatch. -/
  | tchk (l k : BitVec 4) (p : BitVec 2)
  /-- SDESC (R156). Configures a stream from a descriptor. -/
  | sdesc (o : KA)
  /-- SBIND (R157). Starts a configured stream. -/
  | sbind (k : BitVec 4) (p : BitVec 2)
  /-- SCLOSE (R157). Closes a stream, dropping entries and pins. -/
  | sclose (k : BitVec 4) (p : BitVec 2)
  /-- TMMA (R227). Accumulates a panel product into an accumulator tile. -/
  | tmma (o : KAB)
  /-- TMMA_Z (R227). Panel product into a tile treated as zero first. -/
  | tmmaZ (o : KAB)
  /-- TMMG (R228). Ragged grouped product accumulating into a tile. -/
  | tmmg (o : KAB)
  /-- TMMG_Z (R228). Ragged grouped product into a zeroed tile. -/
  | tmmgZ (o : KAB)
  /-- ZZERO (R229). Zeroes a tile and sets its type tag. -/
  | zzero (e : Bool) (t : BitVec 4) (p : BitVec 2)
  /-- ZLD (R229). Loads a tile from the scratchpad. -/
  | zld (e : Bool) (t : BitVec 4) (a : Src) (p : BitVec 2)
  /-- ZST (R230). Stores a tile to the scratchpad with conversion. -/
  | zst (t : BitVec 4) (a : Src) (f : BitVec 4) (p : BitVec 2)
  /-- ZST_R (R225). Stores a tile and marks accumulator retirement. -/
  | zstR (t : BitVec 4) (a : Src) (f : BitVec 4) (p : BitVec 2)
  /-- ZCVT (R229). Converts a tile to FP32 with a scale. -/
  | zcvt (t u : BitVec 4) (b : Src) (p : BitVec 2)
  /-- ZACC (R229). Adds one tile into another of equal type. -/
  | zacc (t u : BitVec 4) (p : BitVec 2)
  /-- XMV (R246). Crossbar matrix-vector product of NV input vectors. -/
  | xmv (z : BitVec 2) (o : KAB)
  /-- XLOAD (R247). Commits target codes of a logical column to the shadow store. -/
  | xload (o : KAB)
  /-- XPROG (R249). Applies one programming pulse to masked cells of a column. -/
  | xprog (o : KA)
  /-- XVER (R248). Reads back a physical column and writes a verify record. -/
  | xver (o : KAB)
  /-- XREMAP (R250). Moves a logical column to the next spare column. -/
  | xremap (o : KA)
  /-- XDRIFT (R251). Runs a tide check and writes the corrected counts. -/
  | xdrift (o : KA)
  /-- XCAL_MEAS (R252). Measures offset and gain of all physical columns, then a tide check. -/
  | xcalMeas (k : BitVec 4) (p : BitVec 2)
  /-- XCAL_LDSC (R252). Loads the 256 column scales. -/
  | xcalLdsc (o : KA)
  /-- XCAL_LDOG (R252). Loads a software offset-and-gain table. -/
  | xcalLdog (o : KA)
  /-- XCAL_STOG (R252). Writes the current offset-and-gain table. -/
  | xcalStog (o : KA)
  /-- XSTAT (R253). Reads ARRSTAT of an array without queueing. -/
  | xstat (d : BitVec 5) (k : BitVec 4) (p : BitVec 2)
  /-- XFB (R254). Sets or clears FORCE for the digital fallback. -/
  | xfb (o : KA)
  /-- KVNEW (R265). Initialises a sequence descriptor. -/
  | kvnew (a b : Src) (p : BitVec 2)
  /-- KVAPP (R266). Appends one token to a sequence, rescaling if needed. -/
  | kvapp (d : BitVec 5) (a b : Src) (p : BitVec 2)
  /-- KVREF_INC (R268). Raises the reference count of a page. -/
  | kvrefInc (a b : Src) (p : BitVec 2)
  /-- KVREF_DEC (R268). Releases a page reference. -/
  | kvrefDec (a b : Src) (p : BitVec 2)
  /-- KVTRUNC (R269). Truncates a sequence and releases trailing pages. -/
  | kvtrunc (a b : Src) (p : BitVec 2)
  /-- KVFIND (R270). Looks up the next page by content hash and shares it. -/
  | kvfind (d : BitVec 5) (a b : Src) (p : BitVec 2)
  /-- KVPUB (R272). Chains and publishes a page in the hash table. -/
  | kvpub (d : BitVec 5) (a b : Src) (p : BitVec 2)
  /-- KVCOW (R267). Makes the tail page private by copy. -/
  | kvcow (a : Src) (p : BitVec 2)
  /-- KVSTRM (R273). Configures and starts a KV-bound stream, pinning its pages. -/
  | kvstrm (o : KAB)
  /-- RSEED (R163). Sets generator key and counter and empties the queue. -/
  | rseed (n : Bool) (a b : Src) (p : BitVec 2)
  /-- RSAVE (R163). Writes the random state image to the scratchpad. -/
  | rsave (n : Bool) (a : Src) (p : BitVec 2)
  /-- RLOAD (R163). Replaces the random state from an image. -/
  | rload (n : Bool) (a : Src) (p : BitVec 2)
  /-- VEXT (R207). Extracts one vector element into a scalar. -/
  | vext (o : SR3)
  /-- VINS (R207). Inserts a scalar into one vector element. -/
  | vins (o : PRR)
  /-- VBCAST (R208). Broadcasts a scalar to every element of active lanes. -/
  | vbcast (d : BitVec 6) (n : Bool) (a : Src) (p : BitVec 2)
  /-- VTRN (R209). Transposes 8x8 matrices across eight registers. -/
  | vtrn (d : BitVec 6) (p : BitVec 2)
  /-- VRED (R210). Tree reduction within each cluster. -/
  | vred (d : BitVec 6) (n : Bool) (a : Src) (op : BitVec 2) (h : Bool) (p : BitVec 2)
  /-- VSCAN (R211). Left-to-right prefix fold within each cluster. -/
  | vscan (d : BitVec 6) (n : Bool) (a : Src) (op : BitVec 2) (h : Bool) (p : BitVec 2)
  /-- VIOTA (R208). Writes element indices into active lanes. -/
  | viota (d : BitVec 6) (n : Bool) (c : Bool) (p : BitVec 2)
  /-- PAND (R212). Predicate and. -/
  | pand (d : BitVec 3) (n : Bool) (a b : BitVec 3) (p : BitVec 2)
  /-- POR (R212). Predicate or. -/
  | por (d : BitVec 3) (n : Bool) (a b : BitVec 3) (p : BitVec 2)
  /-- PXOR (R212). Predicate xor. -/
  | pxor (d : BitVec 3) (n : Bool) (a b : BitVec 3) (p : BitVec 2)
  /-- PNOT (R212). Predicate not. -/
  | pnot (d : BitVec 3) (n : Bool) (a : BitVec 3) (p : BitVec 2)
  /-- PPOP (R213). Counts the one bits of a predicate. -/
  | ppop (d : BitVec 5) (n : Bool) (a : BitVec 3) (p : BitVec 2)
  /-- PFIRST (R213). Finds the lowest set bit of a predicate. -/
  | pfirst (d : BitVec 5) (n : Bool) (a : BitVec 3) (p : BitVec 2)
  /-- RESULT_WRITE (R96). An in-flight result reaches its register and latch at its scheduled time. -/
  | resultWrite (core x : Nat)
  /-- CONTEXT_READY (R86). A blocked context's condition is met and it becomes ready to issue again. -/
  | contextReady (core x : Nat)
  /-- GENERATOR_APPEND (R134). The random generator appends one word to its queue. -/
  | generatorAppend (core x : Nat)
  /-- OPERAND_LOG_PERFORM (R148). A logged global access is performed, or faults, and its entry is released. -/
  | operandLogPerform (core x idx : Nat)
  /-- LATE_FAULT_DELIVERY (R326). A pending late fault is delivered to the context at a bundle boundary or while blocked. -/
  | lateFaultDelivery (core x : Nat)
  /-- SHOOTDOWN_COMPLETE (R29). Invalidation, pin drops and old accesses are done and BUSY falls. -/
  | shootdownComplete
  /-- TILE_FETCH_ENTRY_FILL (R42). The tile fetch unit reads and pins lines and fills a stream entry. -/
  | tileFetchEntryFill (core x k : Nat)
  /-- STREAM_GENERATOR_ROW (R155). A stream address generator reads the next row into its entries. -/
  | streamGeneratorRow (core x k : Nat)
  /-- WRITE_STREAM_DRAIN (R158). A write stream drains a full entry to its rows. -/
  | writeStreamDrain (core x k : Nat)
  /-- FERRY_TRANSFER (R48). The ferry performs one transfer of up to 512 bytes of a queued command. -/
  | ferryTransfer (core q : Nat)
  /-- FOLLOW_ON_HANDOFF (R51). A ferry hands its follow-on matrix word to the matrix queue. -/
  | followOnHandoff (core q : Nat)
  /-- MATRIX_INSTRUCTION_START (R216). The matrix unit starts the next queued instruction by context round-robin. -/
  | matrixInstructionStart (core : Nat)
  /-- MATRIX_STEP (R217). One K step of a matrix product starts, subject to the ramp limiter. -/
  | matrixStep (core : Nat)
  /-- MATRIX_INSTRUCTION_COMPLETE (R217). A matrix instruction writes its last result and sets its flags. -/
  | matrixInstructionComplete (core : Nat)
  /-- DUMMY_STEP (R232). The ramp limiter runs a dummy step on an idle matrix unit. -/
  | dummyStep (core : Nat)
  /-- RAMP_WINDOW_END (R316). A 1 us ramp window ends and the next bound is set. -/
  | rampWindowEnd (island : Nat)
  /-- CROSSBAR_INSTRUCTION_START (R242). The crossbar sequencer starts a queued instruction on a free array. -/
  | crossbarInstructionStart (core : Nat)
  /-- CROSSBAR_INSTRUCTION_COMPLETE (R242). A crossbar instruction writes its last result. -/
  | crossbarInstructionComplete (core arr : Nat)
  /-- DIGITAL_FALLBACK (R239). An xmv runs on the matrix unit once it reaches an instruction boundary. -/
  | digitalFallback (core arr : Nat)
  /-- TIDE_CHECK (R241). An automatic tide check falls due and runs between instructions. -/
  | tideCheck (core arr : Nat)
  /-- KV_OPERATION (R262). The KV unit performs an operation indivisibly once earlier accesses are performed. -/
  | kvOperation (core x : Nat)
  /-- KV_STREAM_ENTRY_FILL (R274). A KV-bound stream reads pages at the home slice and fills IB8 entries. -/
  | kvStreamEntryFill (core x k : Nat)
  /-- SOUND_TRANSFER (R287). The Sound engine moves a row of a put or get. -/
  | soundTransfer (core x q : Nat) (reply : RemoteReply)
  /-- SOUND_ACKNOWLEDGEMENT (R287). The initiator receives the acknowledgement of every put byte and counts OUTDONE. -/
  | soundAcknowledgement (core x q : Nat)
  /-- COLLECTIVE_JOIN (R289). A collective command joins by group and tag and waits for all ranks. -/
  | collectiveJoin (core x q : Nat)
  /-- COLLECTIVE_RUN (R290). All ranks have joined and the tree reduction runs. -/
  | collectiveRun (group tag : Nat) (remote : List RemoteShare)
  /-- COLLECTIVE_RESULT_WRITE (R290). A rank receives rank 0's final value and writes its result rows. -/
  | collectiveResultWrite (die group tag : Nat)
  /-- ALL_TO_ALL_EXCHANGE (R292). A block of an all-to-all lands at its rank. -/
  | allToAllExchange (group tag src dst : Nat) (remote : RemoteBlock) (poison : List Nat)
  /-- FABRIC_TIMEOUT (R294). A transfer or collective makes no progress for FTIMEOUT. -/
  | fabricTimeout (core x q : Nat)
  /-- QUEUE_SLOT_CONSUME (R301). A mapped slot clears PEND and takes records from its queue. -/
  | queueSlotConsume (slot : Nat)
  /-- SCHEDULER_PASS (R302). Every 10 us the queue scheduler maps and unmaps queues. -/
  | schedulerPass
  /-- LAUNCH_ACCEPT (R303). A record enters the die's intake and receives a launch id. -/
  | launchAccept (die : Nat)
  /-- DISTRIBUTOR_DECISION (R304). The distributor flips parity, places launches and chooses victims. -/
  | distributorDecision
  /-- AGE_EXPIRY (R305). An eligible launch has waited longer than AGE and reserves resources. -/
  | ageExpiry (launch : Nat)
  /-- TIMED_LAUNCH_LEAD (R318). START minus LEAD is reached and a timed launch becomes eligible. -/
  | timedLaunchLead (launch : Nat)
  /-- STEAL (R311). A steal request scans for a range and splits or takes one, or gives -1. -/
  | steal (core x : Nat)
  /-- TASK_END (R179). A done bundle's drains complete and the task ends. -/
  | taskEnd (core x : Nat)
  /-- SAVE_POINT (R332). A pre-emption victim reaches a save point and stops issuing. -/
  | savePoint (core x : Nat)
  /-- SAVE_POINT_TIMEOUT (R332). 16,384 cycles pass without a save point and the victim is taken. -/
  | savePointTimeout (core x : Nat)
  /-- CONTEXT_SAVE (R335). After the drains the context area is written and resources released. -/
  | contextSave (core x : Nat)
  /-- CONTEXT_RESTORE (R339). A saved task's area is checked and restored at resumption. -/
  | contextRestore (launch task : Nat)
  /-- ISLAND_RESET_END (R348). The island returns to service after its reset period. -/
  | islandResetEnd (island : Nat)
  /-- WAITT_EXPIRY (R180). The PTP clock reaches a waiting context's time and it becomes ready. -/
  | waittExpiry (core x : Nat)
  /-- CORRECTED_WRITEBACK (R32). A corrected codeword is written back to the array. -/
  | correctedWriteback (sec : Nat) (c0 c1 : WriteOutcome)
  /-- FATAL_RECOVERY (R356). Recovery microcode journals discarded launches and sets JREADY. -/
  | fatalRecovery
  /-- CHECKPOINT_COMMIT (R360). The checkpoint image's commit record is written and DONE set. -/
  | checkpointCommit
  /-- ETH_TRANSMIT (R373). An Ethernet port transmits a frame from its descriptor ring. -/
  | ethTransmit (port : Nat)
  /-- ERROR_THRESHOLD_WINDOW_END (R368). A 1 s ERRTH window ends and the corrected-event counts of each location start again. -/
  | errorThresholdWindowEnd
  /-- REFRESH_WINDOW_END (R35). A refresh window ends and the base die's per-row activation counts start again. -/
  | refreshWindowEnd (stack : Nat)
  /-- REFRESH_MANAGEMENT_END (R35). The refresh-management time after an alert ends and accesses to the bank proceed. -/
  | refreshManagementEnd (stack bank : Nat)
  /-- PAGE_WALK (R25). The island walker resolves a TLB miss through the page tables. -/
  | pageWalk (core x : Nat) (va : BitVec 64) (acc : AccessKind)
  /-- SHOOTDOWN (R28). A TLBSD write with GO starts a translation shootdown. -/
  | shootdown (v : BitVec 64)
  /-- HBM_SECTOR_FILL (R31). A sector is read from the stack with parity and ECC and filled into L2. -/
  | hbmSectorFill (sec : Nat) (c0 c1 : ReadOutcome)
  /-- PATROL_SCRUB (R34). The scrubber reads the next codeword and corrects it if needed. -/
  | patrolScrub (stack : Nat) (c : ReadOutcome)
  /-- ACTIVATION_ALERT (R35). The base die reports a row reaching ALERTTH and its neighbours are refreshed. -/
  | activationAlert (stack chan bank row : Nat) (count : BitVec 32)
  /-- RDC_EVICTION (R41). The remote-data cache evicts a line, writing back Dirty bytes. -/
  | rdcEviction (die line : Nat)
  /-- SQSTAT_HALT (R159). Writing HALT retries the faulted row of a stream generator or drain. -/
  | sqstatHalt (core x k : Nat)
  /-- FQSTAT_HALT (R53). Writing HALT resumes a halted ferry command from its first untransferred byte. -/
  | fqstatHalt (core x q : Nat)
  /-- FQSTAT_DISCARD (R53). Writing DISCARD drops the halted head ferry command. -/
  | fqstatDiscard (core x q : Nat)
  /-- NARROWS_SECTOR_RECEIVE (R278). A sector arrives over the Narrows with CRC check and replay. -/
  | narrowsSectorReceive (tries : BitVec 16) (ok : Bool)
  /-- STRAIT_FLIT_RECEIVE (R279). A flit arrives on a Strait port and is checked, replayed or forwarded. -/
  | straitFlitReceive (port dest : Nat) (tries : FlitReplays)
  /-- LINK_RETRAIN (R279). A Strait link retrains after replays fail. -/
  | linkRetrain (port : Nat) (lane : BitVec 8)
  /-- LINK_TRAINED (R280). A port completes training and comes up. -/
  | linkTrained (port : Nat) (far : BitVec 8) (fleet : BitVec 16)
  /-- PORT_TRAIN_TIMEOUT (R279). A port that cannot retrain within 1 ms is taken down. -/
  | portTrainTimeout (port : Nat) (lane : BitVec 8)
  /-- WINDOW_ACCESS (R282). An incoming remote access is checked against the window table and performed. -/
  | windowAccess (addr : BitVec 64) (kind : WindowKind) (len : Nat) (data : List (BitVec 8)) (poison : List Nat)
  /-- SNDQ_HALT (R284). Writing HALT resumes a halted Sound-engine command. -/
  | sndqHalt (core x q : Nat)
  /-- SNDQ_DISCARD (R284). Writing DISCARD drops the halted head Sound-engine command. -/
  | sndqDiscard (core x q : Nat)
  /-- QNOTIFY (R301). A QNOTIFY write sets PEND of a launch queue. -/
  | qnotify (n : BitVec 12)
  /-- PTPSTEP (R350). A PTPSTEP write adds a signed step to the clock. -/
  | ptpstep (v : BitVec 64)
  /-- PTPLO_READ (R350). A PTPLO read returns nanoseconds and latches the seconds. -/
  | ptploRead (hart : Nat)
  /-- PTPCTL_WRITE (R350). A PTPCTL write sets run, lock, timestamping and rate. -/
  | ptpctlWrite (v : BitVec 64)
  /-- JRDSEQ (R355). A JRDSEQ write selects the journal entry returned by JRD0-JRD3. -/
  | jrdseq (v : BitVec 64)
  /-- FATAL_DEVICE_FAULT (R356). A fatal fault stops every task and sets FATAL. -/
  | fatalDeviceFault (cause : BitVec 8)
  /-- RESTART (R356). A DEVCTL RESTART write reinitialises the tile side. -/
  | restart
  /-- POWER_WARNING (R358). The power-warning input starts the checkpoint sequence. -/
  | powerWarning
  /-- RESUME (R360). A PFCTL RESUME write resumes checkpointed launches. -/
  | resume
  /-- RESTORE (R360). A PFCTL RESTORE write copies a verified image back. -/
  | restore
  /-- BOOT (R370). At power-good the security core verifies firmware and boots the device. -/
  | boot
  /-- ATTCTL_NOP (R372). ATTCTL OP 0 does nothing. -/
  | attctlNop
  /-- ATTCTL_EXTEND (R372). Extends a measurement register with 32 bytes. -/
  | attctlExtend (idx : BitVec 3)
  /-- ATTCTL_QUOTE (R372). Writes a signed quote of the measurements. -/
  | attctlQuote
  /-- ATTCTL_PUBLIC_KEY (R372). Writes the identity public key. -/
  | attctlPublicKey
  /-- ATTCTL_FIRMWARE_UPDATE (R372). Verifies an image and writes it to the other boot slot. -/
  | attctlFirmwareUpdate
  /-- ATTCTL_INVALID_OP (R372). OP 5-7 sets ERR and does nothing else. -/
  | attctlInvalidOp (op : BitVec 3)
  /-- XDRIFTP_WRITE (R241). A PERIOD write stops or restarts automatic tide checks. -/
  | xdriftpWrite (shoal : Nat) (v : BitVec 64)
  /-- LINK_ENABLE (R368). A LINKCTL EN write enables or disables a Strait port. -/
  | linkEnable (port : Nat) (en : Bool)
  /-- ETH_RECEIVE (R373). An Ethernet port receives a frame into its ring. -/
  | ethReceive (port : Nat) (frame : List (BitVec 8))
  /-- STAMP_POP (R373). A STAMP read pops the timestamp FIFO. -/
  | stampPop (port : Nat)
  /-- PCIE_DMA (R373). An endpoint DMA is translated by the IOMMU and performed at the home slice. -/
  | pcieDma (pa : Nat) (write : Bool) (data : List (BitVec 8))
  /-- REGISTER_WRITE (R366). A store to a device register without behaviour of its own. -/
  | registerWrite (off : Nat) (v : BitVec 64)
  /-- APPLICATION_CORE_ACCESS (R65). An application-core load, store, atomic or cache-block operation is performed at a home slice. -/
  | applicationCoreAccess (hart : Nat) (op : HostAccess) (pa size : Nat) (data : BitVec 64)
  /-- RUNTIME_HALT_REQUEST (R330). The runtime's halt request makes a task escalate with cause 0x18. -/
  | runtimeHaltRequest (core x : Nat)
  /-- RUNTIME_KILL (R331). The runtime kills an escalated task instead of resuming it. -/
  | runtimeKill (launch task : Nat)
  /-- POWER_WARNING_DEASSERT (R368). The power-warning input is withdrawn. -/
  | powerWarningDeassert
  /-- POWER_LOSS (R359). The supply fails, ending all activity and leaving only retained state. -/
  | powerLoss
  /-- ETHERNET_LINK_DOWN (R373). An Ethernet port's link goes down or comes up, changing ETHCTL.UP and logging 0xB5. -/
  | ethernetLinkDown (port : Nat) (up : Bool)
  /-- PCIE_LINK_ERROR (R342). The PCIe root port detects a link error and logs cause 0xB6. -/
  | pcieLinkError
  /-- THERMAL_LIMIT (R343). A thermal limit is reached and cause 0xAD is offered to the severity matrix. -/
  | thermalLimit
  /-- SUPPLY_UNDERVOLTAGE (R343). Supply undervoltage is detected and cause 0xAE is offered to the severity matrix. -/
  | supplyUndervoltage
  /-- APPLICATION_CORE_MACHINE_CHECK (R343). An application core signals a machine check, logging cause 0xB7. -/
  | applicationCoreMachineCheck (hart : Nat)
  /-- RUNTIME_HEARTBEAT_MISSED (R343). The runtime heartbeat is missed and cause 0xBA is logged. -/
  | runtimeHeartbeatMissed
  deriving DecidableEq, Repr

end Sys2Proof
end

