-- ==== Sys2Proof/Decode.lean ====
section
/-! DEFINITION. The decoder: the 31 bits of a slot without its stop bit are read as an instruction, or refused by
name, by the slot frame and forms of R103 and the opcode map of R107. The encoder is written from the same fields. -/

namespace Sys2Proof

/-- Why the decoder refuses a slot (R108). -/
inductive Reject where
  /-- No instruction has this OP. -/
  | opcode
  /-- The OP is assigned, but no instruction has these FN, F or required-zero fields. -/
  | function
  deriving DecidableEq, Repr

/-- The `n` bits of `w` from bit `lo`. -/
def cut (w lo n : Nat) : Nat := w / 2 ^ lo % 2 ^ n

/-- A field of the slot as bits. -/
def fld (w lo n : Nat) : BitVec n := BitVec.ofNat n (cut w lo n)

/-- One bit of the slot. -/
def flag (w lo : Nat) : Bool := cut w lo 1 == 1

/-- A source field: its mode bit and its six bits (R104). -/
def src (w mode lo : Nat) : Src := ⟨flag w mode, fld w lo 6⟩

/-- A field put in its place. -/
def pFld {n : Nat} (v : BitVec n) (lo : Nat) : Nat := v.toNat * 2 ^ lo

/-- A bit put in its place. -/
def pFlag (b : Bool) (lo : Nat) : Nat := b.toNat * 2 ^ lo

/-- A source put in its place. -/
def pSrc (s : Src) (mode lo : Nat) : Nat := pFlag s.m mode + pFld s.f lo

/-- Reads a slot word, whose stop bit is not looked at. -/
def decodeWord (w : Nat) : Except Reject Instr :=
  match cut w 23 7 with
  | 0 =>
      if cut w 22 1 = 0 then .ok (.add ⟨flag w 30, fld w 17 5, flag w 16, src w 15 9, src w 8 2, fld w 0 2⟩)
      else if cut w 22 1 = 1 then .ok (.sub ⟨flag w 30, fld w 17 5, flag w 16, src w 15 9, src w 8 2, fld w 0 2⟩)
      else .error .function
  | 1 =>
      if cut w 22 1 = 0 then .ok (.and ⟨flag w 30, fld w 17 5, flag w 16, src w 15 9, src w 8 2, fld w 0 2⟩)
      else if cut w 22 1 = 1 then .ok (.andn ⟨flag w 30, fld w 17 5, flag w 16, src w 15 9, src w 8 2, fld w 0 2⟩)
      else .error .function
  | 2 =>
      if cut w 22 1 = 0 then .ok (.or ⟨flag w 30, fld w 17 5, flag w 16, src w 15 9, src w 8 2, fld w 0 2⟩)
      else if cut w 22 1 = 1 then .ok (.xor ⟨flag w 30, fld w 17 5, flag w 16, src w 15 9, src w 8 2, fld w 0 2⟩)
      else .error .function
  | 3 =>
      if cut w 22 1 = 0 then .ok (.sll ⟨flag w 30, fld w 17 5, flag w 16, src w 15 9, src w 8 2, fld w 0 2⟩)
      else if cut w 22 1 = 1 then .ok (.srl ⟨flag w 30, fld w 17 5, flag w 16, src w 15 9, src w 8 2, fld w 0 2⟩)
      else .error .function
  | 4 =>
      if cut w 22 1 = 0 then .ok (.sra ⟨flag w 30, fld w 17 5, flag w 16, src w 15 9, src w 8 2, fld w 0 2⟩)
      else if cut w 22 1 = 1 then .ok (.rol ⟨flag w 30, fld w 17 5, flag w 16, src w 15 9, src w 8 2, fld w 0 2⟩)
      else .error .function
  | 5 =>
      if cut w 22 1 = 0 then .ok (.ror ⟨flag w 30, fld w 17 5, flag w 16, src w 15 9, src w 8 2, fld w 0 2⟩)
      else if cut w 22 1 = 1 then .ok (.lea ⟨flag w 30, fld w 17 5, flag w 16, src w 15 9, src w 8 2, fld w 0 2⟩)
      else .error .function
  | 6 =>
      if cut w 22 1 = 0 then .ok (.slt ⟨flag w 30, fld w 17 5, flag w 16, src w 15 9, src w 8 2, fld w 0 2⟩)
      else if cut w 22 1 = 1 then .ok (.sltu ⟨flag w 30, fld w 17 5, flag w 16, src w 15 9, src w 8 2, fld w 0 2⟩)
      else .error .function
  | 7 =>
      if cut w 22 1 = 0 then .ok (.min ⟨flag w 30, fld w 17 5, flag w 16, src w 15 9, src w 8 2, fld w 0 2⟩)
      else if cut w 22 1 = 1 then .ok (.max ⟨flag w 30, fld w 17 5, flag w 16, src w 15 9, src w 8 2, fld w 0 2⟩)
      else .error .function
  | 8 =>
      if cut w 22 1 = 0 then .ok (.minu ⟨flag w 30, fld w 17 5, flag w 16, src w 15 9, src w 8 2, fld w 0 2⟩)
      else if cut w 22 1 = 1 then .ok (.maxu ⟨flag w 30, fld w 17 5, flag w 16, src w 15 9, src w 8 2, fld w 0 2⟩)
      else .error .function
  | 9 =>
      if cut w 22 1 = 0 then .ok (.mul ⟨flag w 30, fld w 17 5, flag w 16, src w 15 9, src w 8 2, fld w 0 2⟩)
      else if cut w 22 1 = 1 then .ok (.mulh ⟨flag w 30, fld w 17 5, flag w 16, src w 15 9, src w 8 2, fld w 0 2⟩)
      else .error .function
  | 10 =>
      if cut w 22 1 = 0 then .ok (.mulhu ⟨flag w 30, fld w 17 5, flag w 16, src w 15 9, src w 8 2, fld w 0 2⟩)
      else if cut w 22 1 = 1 then .ok (.div ⟨flag w 30, fld w 17 5, flag w 16, src w 15 9, src w 8 2, fld w 0 2⟩)
      else .error .function
  | 11 =>
      if cut w 22 1 = 0 then .ok (.divu ⟨flag w 30, fld w 17 5, flag w 16, src w 15 9, src w 8 2, fld w 0 2⟩)
      else if cut w 22 1 = 1 then .ok (.rem ⟨flag w 30, fld w 17 5, flag w 16, src w 15 9, src w 8 2, fld w 0 2⟩)
      else .error .function
  | 12 =>
      if cut w 22 1 = 0 then .ok (.remu ⟨flag w 30, fld w 17 5, flag w 16, src w 15 9, src w 8 2, fld w 0 2⟩)
      else if cut w 22 1 = 1 then .ok (.sel ⟨flag w 30, fld w 17 5, flag w 16, src w 15 9, src w 8 2, fld w 0 2⟩)
      else .error .function
  | 13 =>
      if cut w 22 1 = 0 then .ok (.addi ⟨flag w 30, fld w 17 5, flag w 16, src w 15 9, fld w 2 7, fld w 0 2⟩)
      else if cut w 22 1 = 1 then .ok (.andi ⟨flag w 30, fld w 17 5, flag w 16, src w 15 9, fld w 2 7, fld w 0 2⟩)
      else .error .function
  | 14 =>
      if cut w 22 1 = 0 then .ok (.ori ⟨flag w 30, fld w 17 5, flag w 16, src w 15 9, fld w 2 7, fld w 0 2⟩)
      else if cut w 22 1 = 1 then .ok (.xori ⟨flag w 30, fld w 17 5, flag w 16, src w 15 9, fld w 2 7, fld w 0 2⟩)
      else .error .function
  | 15 =>
      if cut w 8 1 = 0 ∧ cut w 22 1 = 0 then .ok (.slli ⟨flag w 30, fld w 17 5, flag w 16, src w 15 9, fld w 2 6, fld w 0 2⟩)
      else if cut w 8 1 = 1 ∧ cut w 22 1 = 0 then .ok (.srli ⟨flag w 30, fld w 17 5, flag w 16, src w 15 9, fld w 2 6, fld w 0 2⟩)
      else if cut w 8 1 = 0 ∧ cut w 22 1 = 1 then .ok (.srai ⟨flag w 30, fld w 17 5, flag w 16, src w 15 9, fld w 2 6, fld w 0 2⟩)
      else .error .function
  | 16 =>
      if cut w 0 23 = 0 ∧ cut w 30 1 = 0 then .ok (.nop)
      else .error .function
  | 17 =>
      if cut w 30 1 = 0 then .ok (.bcc (fld w 20 3) (src w 19 13) (fld w 0 13))
      else .error .function
  | 18 =>
      if cut w 22 1 = 0 ∧ cut w 30 1 = 0 then .ok (.jal (fld w 17 5) (fld w 0 17))
      else .error .function
  | 19 =>
      if cut w 2 7 = 0 ∧ cut w 16 1 = 0 ∧ cut w 22 1 = 0 ∧ cut w 30 1 = 0 then .ok (.jr (fld w 17 5) (src w 15 9) (fld w 0 2))
      else if cut w 6 3 = 4 ∧ cut w 16 1 = 0 ∧ cut w 22 1 = 0 ∧ cut w 30 1 = 0 then .ok (.jrGd (fld w 17 5) (src w 15 9) (fld w 2 4) (fld w 0 2))
      else .error .function
  | 20 =>
      if cut w 16 1 = 0 ∧ cut w 30 1 = 0 then .ok (.looph ⟨fld w 17 6, src w 15 9, src w 8 2, fld w 0 2⟩)
      else .error .function
  | 21 =>
      if cut w 16 7 = 0 ∧ cut w 30 1 = 0 then .ok (.trap (src w 15 9) (fld w 2 7) (fld w 0 2))
      else .error .function
  | 22 =>
      if cut w 2 7 = 0 ∧ cut w 16 1 = 0 ∧ cut w 22 1 = 0 ∧ cut w 30 1 = 0 then .ok (.lnch (fld w 17 5) (src w 15 9) (fld w 0 2))
      else .error .function
  | 23 =>
      if cut w 16 7 = 0 ∧ cut w 30 1 = 0 then .ok (.cwr (src w 15 9) (fld w 2 7) (fld w 0 2))
      else .error .function
  | 24 =>
      if cut w 9 8 = 0 ∧ cut w 22 1 = 0 ∧ cut w 30 1 = 0 then .ok (.crdr (fld w 17 5) (fld w 2 7) (fld w 0 2))
      else .error .function
  | 25 =>
      if cut w 0 23 = 0 ∧ cut w 30 1 = 0 then .ok (.done)
      else if cut w 0 23 = 4 ∧ cut w 30 1 = 0 then .ok (.yield)
      else if cut w 0 23 = 24 ∧ cut w 30 1 = 0 then .ok (.ifence)
      else if cut w 0 23 = 28 ∧ cut w 30 1 = 0 then .ok (.eret)
      else if cut w 0 17 = 12 ∧ cut w 22 1 = 0 ∧ cut w 30 1 = 0 then .ok (.rdtime (fld w 17 5))
      else if cut w 0 17 = 16 ∧ cut w 22 1 = 0 ∧ cut w 30 1 = 0 then .ok (.wnext (fld w 17 5))
      else if cut w 0 5 = 20 ∧ cut w 7 10 = 0 ∧ cut w 22 1 = 0 ∧ cut w 30 1 = 0 then .ok (.wpos (fld w 17 5) (fld w 5 2))
      else if cut w 2 7 = 2 ∧ cut w 16 7 = 0 ∧ cut w 30 1 = 0 then .ok (.waitt (src w 15 9) (fld w 0 2))
      else .error .function
  | 26 =>
      if cut w 2 3 = 5 ∧ cut w 9 7 = 0 ∧ cut w 22 1 = 0 then .ok (.crd (flag w 30) (fld w 17 5) (flag w 16) (fld w 5 4) (fld w 0 2))
      else if cut w 2 7 = 0 ∧ cut w 22 1 = 0 then .ok (.clz ⟨flag w 30, fld w 17 5, flag w 16, src w 15 9, fld w 0 2⟩)
      else if cut w 2 7 = 1 ∧ cut w 22 1 = 0 then .ok (.ctz ⟨flag w 30, fld w 17 5, flag w 16, src w 15 9, fld w 0 2⟩)
      else if cut w 2 7 = 2 ∧ cut w 22 1 = 0 then .ok (.popc ⟨flag w 30, fld w 17 5, flag w 16, src w 15 9, fld w 0 2⟩)
      else if cut w 2 3 = 3 ∧ cut w 7 2 = 0 ∧ cut w 22 1 = 0 then .ok (.sext ⟨flag w 30, fld w 17 5, flag w 16, src w 15 9, fld w 0 2⟩ (fld w 5 2))
      else if cut w 2 3 = 4 ∧ cut w 7 2 = 0 ∧ cut w 22 1 = 0 then .ok (.zext ⟨flag w 30, fld w 17 5, flag w 16, src w 15 9, fld w 0 2⟩ (fld w 5 2))
      else .error .function
  | 27 =>
      if cut w 16 1 = 0 ∧ cut w 22 1 = 1 then .ok (.lih (flag w 30) (fld w 17 5) (fld w 0 16))
      else if cut w 22 1 = 0 then .ok (.li (flag w 30) (fld w 17 5) (fld w 0 17))
      else .error .function
  | 28 =>
      if cut w 11 12 = 0 ∧ cut w 30 1 = 0 then .ok (.pset (fld w 0 11))
      else .error .function
  | 32 =>
      .ok (.vadd ⟨flag w 30, fld w 17 6, flag w 16, src w 15 9, src w 8 2, fld w 0 2⟩)
  | 33 =>
      .ok (.vsub ⟨flag w 30, fld w 17 6, flag w 16, src w 15 9, src w 8 2, fld w 0 2⟩)
  | 34 =>
      .ok (.vmul ⟨flag w 30, fld w 17 6, flag w 16, src w 15 9, src w 8 2, fld w 0 2⟩)
  | 35 =>
      .ok (.vmulh ⟨flag w 30, fld w 17 6, flag w 16, src w 15 9, src w 8 2, fld w 0 2⟩)
  | 36 =>
      .ok (.vmad ⟨flag w 30, fld w 17 6, flag w 16, src w 15 9, src w 8 2, fld w 0 2⟩)
  | 37 =>
      .ok (.vand ⟨flag w 30, fld w 17 6, flag w 16, src w 15 9, src w 8 2, fld w 0 2⟩)
  | 38 =>
      .ok (.vor ⟨flag w 30, fld w 17 6, flag w 16, src w 15 9, src w 8 2, fld w 0 2⟩)
  | 39 =>
      .ok (.vxor ⟨flag w 30, fld w 17 6, flag w 16, src w 15 9, src w 8 2, fld w 0 2⟩)
  | 40 =>
      .ok (.vshl ⟨flag w 30, fld w 17 6, flag w 16, src w 15 9, src w 8 2, fld w 0 2⟩)
  | 41 =>
      .ok (.vshr ⟨flag w 30, fld w 17 6, flag w 16, src w 15 9, src w 8 2, fld w 0 2⟩)
  | 42 =>
      .ok (.vsra ⟨flag w 30, fld w 17 6, flag w 16, src w 15 9, src w 8 2, fld w 0 2⟩)
  | 43 =>
      .ok (.vmin ⟨flag w 30, fld w 17 6, flag w 16, src w 15 9, src w 8 2, fld w 0 2⟩)
  | 44 =>
      .ok (.vmax ⟨flag w 30, fld w 17 6, flag w 16, src w 15 9, src w 8 2, fld w 0 2⟩)
  | 45 =>
      .ok (.vcmp ⟨flag w 30, fld w 20 3, fld w 17 3, flag w 16, src w 15 9, src w 8 2, fld w 0 2⟩)
  | 46 =>
      .ok (.vsel ⟨flag w 30, fld w 17 6, flag w 16, src w 15 9, src w 8 2, fld w 0 2⟩)
  | 47 =>
      if cut w 2 7 = 0 then .ok (.vabs ⟨flag w 30, fld w 17 6, flag w 16, src w 15 9, fld w 0 2⟩)
      else if cut w 2 7 = 1 then .ok (.vclz ⟨flag w 30, fld w 17 6, flag w 16, src w 15 9, fld w 0 2⟩)
      else if cut w 2 7 = 2 then .ok (.vpopc ⟨flag w 30, fld w 17 6, flag w 16, src w 15 9, fld w 0 2⟩)
      else if cut w 2 3 = 3 ∧ cut w 7 2 = 0 then .ok (.vsat ⟨flag w 30, fld w 17 6, flag w 16, src w 15 9, fld w 0 2⟩ (fld w 5 2))
      else .error .function
  | 48 =>
      .ok (.vfadd ⟨flag w 30, fld w 17 6, flag w 16, src w 15 9, src w 8 2, fld w 0 2⟩)
  | 49 =>
      .ok (.vfsub ⟨flag w 30, fld w 17 6, flag w 16, src w 15 9, src w 8 2, fld w 0 2⟩)
  | 50 =>
      .ok (.vfmul ⟨flag w 30, fld w 17 6, flag w 16, src w 15 9, src w 8 2, fld w 0 2⟩)
  | 51 =>
      .ok (.vffma ⟨flag w 30, fld w 17 6, flag w 16, src w 15 9, src w 8 2, fld w 0 2⟩)
  | 52 =>
      .ok (.vfmin ⟨flag w 30, fld w 17 6, flag w 16, src w 15 9, src w 8 2, fld w 0 2⟩)
  | 53 =>
      .ok (.vfmax ⟨flag w 30, fld w 17 6, flag w 16, src w 15 9, src w 8 2, fld w 0 2⟩)
  | 54 =>
      .ok (.vfsgn ⟨flag w 30, fld w 17 6, flag w 16, src w 15 9, src w 8 2, fld w 0 2⟩)
  | 55 =>
      .ok (.vfcmp ⟨flag w 30, fld w 20 3, fld w 17 3, flag w 16, src w 15 9, src w 8 2, fld w 0 2⟩)
  | 56 =>
      if cut w 2 7 = 0 then .ok (.vfclass ⟨flag w 30, fld w 17 6, flag w 16, src w 15 9, fld w 0 2⟩)
      else .error .function
  | 57 =>
      if cut w 2 7 = 0 then .ok (.vrcp ⟨flag w 30, fld w 17 6, flag w 16, src w 15 9, fld w 0 2⟩)
      else if cut w 2 7 = 1 then .ok (.vrsq ⟨flag w 30, fld w 17 6, flag w 16, src w 15 9, fld w 0 2⟩)
      else if cut w 2 7 = 2 then .ok (.vsqrt ⟨flag w 30, fld w 17 6, flag w 16, src w 15 9, fld w 0 2⟩)
      else if cut w 2 7 = 3 then .ok (.vexp2 ⟨flag w 30, fld w 17 6, flag w 16, src w 15 9, fld w 0 2⟩)
      else if cut w 2 7 = 4 then .ok (.vlog2 ⟨flag w 30, fld w 17 6, flag w 16, src w 15 9, fld w 0 2⟩)
      else if cut w 2 7 = 5 then .ok (.vtanh ⟨flag w 30, fld w 17 6, flag w 16, src w 15 9, fld w 0 2⟩)
      else if cut w 2 7 = 6 then .ok (.vsilu ⟨flag w 30, fld w 17 6, flag w 16, src w 15 9, fld w 0 2⟩)
      else .error .function
  | 58 =>
      .ok (.vcvt ⟨flag w 30, fld w 17 6, flag w 16, src w 15 9, fld w 0 2⟩ (fld w 7 2) (flag w 6) (fld w 2 4))
  | 59 =>
      if cut w 7 2 = 0 then .ok (.vqnt ⟨flag w 30, fld w 17 6, flag w 16, src w 15 9, fld w 0 2⟩ (flag w 6) (fld w 2 4))
      else .error .function
  | 60 =>
      if cut w 6 1 = 0 ∧ cut w 8 1 = 0 then .ok (.vdqnt ⟨flag w 30, fld w 17 6, flag w 16, src w 15 9, fld w 0 2⟩ (flag w 7) (fld w 2 4))
      else .error .function
  | 61 =>
      if cut w 30 1 = 0 then .ok (.vperm ⟨fld w 17 6, flag w 16, src w 15 9, src w 8 2, fld w 0 2⟩)
      else .error .function
  | 62 =>
      if cut w 30 1 = 0 then .ok (.vxcl ⟨fld w 17 6, flag w 16, src w 15 9, src w 8 2, fld w 0 2⟩)
      else .error .function
  | 63 =>
      if cut w 30 1 = 0 then .ok (.vshf ⟨fld w 17 6, flag w 16, src w 15 9, src w 8 2, fld w 0 2⟩)
      else .error .function
  | 64 =>
      if cut w 22 1 = 0 ∧ cut w 30 1 = 0 then .ok (.ld ⟨fld w 17 5, flag w 16, src w 15 9, fld w 2 7, fld w 0 2⟩)
      else .error .function
  | 65 =>
      if cut w 16 1 = 1 ∧ cut w 21 2 = 0 ∧ cut w 30 1 = 0 then .ok (.stGd ⟨fld w 17 4, src w 15 9, fld w 2 7, fld w 0 2⟩)
      else if cut w 16 1 = 0 ∧ cut w 22 1 = 0 ∧ cut w 30 1 = 0 then .ok (.st ⟨fld w 17 5, src w 15 9, fld w 2 7, fld w 0 2⟩)
      else .error .function
  | 66 =>
      if cut w 22 1 = 0 ∧ cut w 30 1 = 0 then .ok (.ldg ⟨fld w 17 5, flag w 16, src w 15 9, fld w 2 7, fld w 0 2⟩)
      else .error .function
  | 67 =>
      if cut w 16 1 = 1 ∧ cut w 21 2 = 0 ∧ cut w 30 1 = 0 then .ok (.stgGd ⟨fld w 17 4, src w 15 9, fld w 2 7, fld w 0 2⟩)
      else if cut w 16 1 = 0 ∧ cut w 22 1 = 0 ∧ cut w 30 1 = 0 then .ok (.stg ⟨fld w 17 5, src w 15 9, fld w 2 7, fld w 0 2⟩)
      else .error .function
  | 68 =>
      if cut w 30 1 = 0 then .ok (.vld (fld w 17 6) (flag w 16) (src w 15 9) (fld w 2 7) (fld w 0 2))
      else .error .function
  | 69 =>
      if cut w 16 1 = 1 ∧ cut w 21 2 = 0 ∧ cut w 30 1 = 0 then .ok (.vstGd ⟨fld w 17 4, src w 15 9, fld w 2 7, fld w 0 2⟩)
      else if cut w 16 1 = 0 ∧ cut w 30 1 = 0 then .ok (.vst (fld w 17 6) (src w 15 9) (fld w 2 7) (fld w 0 2))
      else .error .function
  | 70 =>
      if cut w 30 1 = 0 then .ok (.vldg ⟨fld w 17 6, flag w 16, src w 15 9, src w 8 2, fld w 0 2⟩)
      else .error .function
  | 71 =>
      if cut w 2 7 = 0 ∧ cut w 13 4 = 5 ∧ cut w 30 1 = 0 then .ok (.vstgPush (fld w 17 6) (fld w 9 4) (fld w 0 2))
      else if cut w 16 1 = 1 ∧ cut w 21 2 = 0 ∧ cut w 30 1 = 0 then .ok (.vstgGd (fld w 17 4) (src w 15 9) (src w 8 2) (fld w 0 2))
      else if cut w 16 1 = 0 ∧ cut w 30 1 = 0 then .ok (.vstg ⟨fld w 17 6, src w 15 9, src w 8 2, fld w 0 2⟩)
      else .error .function
  | 72 =>
      if cut w 30 1 = 0 then .ok (.vgath ⟨fld w 17 6, flag w 16, src w 15 9, src w 8 2, fld w 0 2⟩)
      else .error .function
  | 73 =>
      if cut w 30 1 = 0 then .ok (.vscat ⟨fld w 17 6, flag w 16, src w 15 9, src w 8 2, fld w 0 2⟩)
      else .error .function
  | 74 =>
      if cut w 22 1 = 0 ∧ cut w 30 1 = 0 then .ok (.amo ⟨fld w 17 5, flag w 16, src w 15 9, src w 8 2, fld w 0 2⟩)
      else .error .function
  | 75 =>
      if cut w 22 1 = 0 ∧ cut w 30 1 = 0 then .ok (.amog ⟨fld w 17 5, flag w 16, src w 15 9, src w 8 2, fld w 0 2⟩)
      else .error .function
  | 76 =>
      if cut w 30 1 = 0 then .ok (.vamo ⟨fld w 17 6, flag w 16, src w 15 9, src w 8 2, fld w 0 2⟩)
      else .error .function
  | 77 =>
      if cut w 4 19 = 262144 ∧ cut w 30 1 = 0 then .ok (.qfence (fld w 0 4))
      else if cut w 16 1 = 0 ∧ cut w 20 3 = 0 ∧ cut w 30 1 = 0 then .ok (.fence (fld w 17 3) (fld w 8 8) (fld w 0 8))
      else .error .function
  | 78 =>
      if cut w 2 7 = 4 ∧ cut w 17 6 = 0 ∧ cut w 30 1 = 0 then .ok (.unbind (flag w 16) (src w 15 9) (fld w 0 2))
      else if cut w 2 7 = 0 ∧ cut w 16 1 = 0 ∧ cut w 30 1 = 0 then .ok (.cinv (fld w 17 6) (src w 15 9) (fld w 0 2))
      else if cut w 2 7 = 1 ∧ cut w 16 1 = 0 ∧ cut w 30 1 = 0 then .ok (.cwb (fld w 17 6) (src w 15 9) (fld w 0 2))
      else if cut w 2 3 = 2 ∧ cut w 8 1 = 0 ∧ cut w 30 1 = 0 then .ok (.acq (fld w 17 6) (flag w 16) (src w 15 9) (fld w 5 3) (fld w 0 2))
      else if cut w 2 3 = 3 ∧ cut w 8 1 = 0 ∧ cut w 30 1 = 0 then .ok (.rel (fld w 17 6) (flag w 16) (src w 15 9) (fld w 5 3) (fld w 0 2))
      else .error .function
  | 79 =>
      if cut w 16 1 = 0 ∧ cut w 30 1 = 0 then .ok (.bind ⟨fld w 17 6, src w 15 9, src w 8 2, fld w 0 2⟩)
      else .error .function
  | 80 =>
      if cut w 2 7 = 0 ∧ cut w 16 1 = 0 ∧ cut w 18 5 = 0 ∧ cut w 30 1 = 0 then .ok (.fcopy ⟨fld w 17 1, src w 15 9, fld w 0 2⟩)
      else .error .function
  | 81 =>
      if cut w 2 7 = 0 ∧ cut w 16 1 = 0 ∧ cut w 18 5 = 0 ∧ cut w 30 1 = 0 then .ok (.fgath ⟨fld w 17 1, src w 15 9, fld w 0 2⟩)
      else .error .function
  | 82 =>
      if cut w 2 7 = 0 ∧ cut w 16 1 = 0 ∧ cut w 18 5 = 0 ∧ cut w 30 1 = 0 then .ok (.fput ⟨fld w 17 1, src w 15 9, fld w 0 2⟩)
      else .error .function
  | 83 =>
      if cut w 2 7 = 0 ∧ cut w 16 1 = 0 ∧ cut w 18 5 = 0 ∧ cut w 30 1 = 0 then .ok (.fget ⟨fld w 17 1, src w 15 9, fld w 0 2⟩)
      else .error .function
  | 84 =>
      if cut w 2 7 = 0 ∧ cut w 16 1 = 0 ∧ cut w 18 5 = 0 ∧ cut w 30 1 = 0 then .ok (.fcoll ⟨fld w 17 1, src w 15 9, fld w 0 2⟩)
      else .error .function
  | 85 =>
      if cut w 2 7 = 0 ∧ cut w 16 1 = 0 ∧ cut w 18 5 = 0 ∧ cut w 30 1 = 0 then .ok (.fa2a ⟨fld w 17 1, src w 15 9, fld w 0 2⟩)
      else .error .function
  | 86 =>
      if cut w 2 15 = 0 ∧ cut w 19 4 = 0 ∧ cut w 30 1 = 0 then .ok (.fwait (fld w 17 2) (fld w 0 2))
      else .error .function
  | 87 =>
      if cut w 17 6 = 0 ∧ cut w 30 1 = 0 then .ok (.binit (flag w 16) (src w 15 9) (src w 8 2) (fld w 0 2))
      else .error .function
  | 88 =>
      if cut w 2 6 = 0 ∧ cut w 17 6 = 0 ∧ cut w 30 1 = 0 then .ok (.barv (flag w 16) (src w 15 9) (flag w 8) (fld w 0 2))
      else if cut w 2 6 = 0 ∧ cut w 20 3 = 1 ∧ cut w 30 1 = 0 then .ok (.barvRel (fld w 17 3) (flag w 16) (src w 15 9) (flag w 8) (fld w 0 2))
      else .error .function
  | 89 =>
      if cut w 20 3 = 0 ∧ cut w 30 1 = 0 then .ok (.bwait (fld w 17 3) (flag w 16) (src w 15 9) (src w 8 2) (fld w 0 2))
      else .error .function
  | 90 =>
      if cut w 30 1 = 0 then .ok (.bxpect ⟨fld w 17 6, flag w 16, src w 15 9, src w 8 2, fld w 0 2⟩)
      else .error .function
  | 91 =>
      if cut w 2 7 = 0 ∧ cut w 22 1 = 0 ∧ cut w 30 1 = 0 then .ok (.copen (fld w 17 5) (flag w 16) (src w 15 9) (fld w 0 2))
      else .error .function
  | 92 =>
      if cut w 2 21 = 0 ∧ cut w 30 1 = 0 then .ok (.cclose (fld w 0 2))
      else .error .function
  | 93 =>
      if cut w 6 3 = 0 ∧ cut w 13 10 = 0 ∧ cut w 30 1 = 0 then .ok (.tchk (fld w 9 4) (fld w 2 4) (fld w 0 2))
      else .error .function
  | 94 =>
      if cut w 2 7 = 0 ∧ cut w 16 1 = 0 ∧ cut w 21 2 = 0 ∧ cut w 30 1 = 0 then .ok (.sdesc ⟨fld w 17 4, src w 15 9, fld w 0 2⟩)
      else .error .function
  | 95 =>
      if cut w 2 15 = 0 ∧ cut w 21 2 = 0 ∧ cut w 30 1 = 0 then .ok (.sbind (fld w 17 4) (fld w 0 2))
      else if cut w 2 15 = 0 ∧ cut w 21 2 = 2 ∧ cut w 30 1 = 0 then .ok (.sclose (fld w 17 4) (fld w 0 2))
      else .error .function
  | 96 =>
      if cut w 16 1 = 0 ∧ cut w 21 2 = 1 ∧ cut w 30 1 = 0 then .ok (.tmma ⟨fld w 17 4, src w 15 9, src w 8 2, fld w 0 2⟩)
      else if cut w 16 1 = 0 ∧ cut w 21 2 = 0 ∧ cut w 30 1 = 0 then .ok (.tmmaZ ⟨fld w 17 4, src w 15 9, src w 8 2, fld w 0 2⟩)
      else .error .function
  | 97 =>
      if cut w 16 1 = 0 ∧ cut w 21 2 = 1 ∧ cut w 30 1 = 0 then .ok (.tmmg ⟨fld w 17 4, src w 15 9, src w 8 2, fld w 0 2⟩)
      else if cut w 16 1 = 0 ∧ cut w 21 2 = 0 ∧ cut w 30 1 = 0 then .ok (.tmmgZ ⟨fld w 17 4, src w 15 9, src w 8 2, fld w 0 2⟩)
      else .error .function
  | 98 =>
      if cut w 2 15 = 0 ∧ cut w 22 1 = 0 ∧ cut w 30 1 = 0 then .ok (.zzero (flag w 21) (fld w 17 4) (fld w 0 2))
      else .error .function
  | 99 =>
      if cut w 2 7 = 0 ∧ cut w 16 1 = 0 ∧ cut w 22 1 = 0 ∧ cut w 30 1 = 0 then .ok (.zld (flag w 21) (fld w 17 4) (src w 15 9) (fld w 0 2))
      else .error .function
  | 100 =>
      if cut w 6 3 = 0 ∧ cut w 16 1 = 0 ∧ cut w 21 2 = 0 ∧ cut w 30 1 = 0 then .ok (.zst (fld w 17 4) (src w 15 9) (fld w 2 4) (fld w 0 2))
      else if cut w 6 3 = 0 ∧ cut w 16 1 = 0 ∧ cut w 21 2 = 1 ∧ cut w 30 1 = 0 then .ok (.zstR (fld w 17 4) (src w 15 9) (fld w 2 4) (fld w 0 2))
      else .error .function
  | 101 =>
      if cut w 13 4 = 0 ∧ cut w 21 2 = 0 ∧ cut w 30 1 = 0 then .ok (.zcvt (fld w 17 4) (fld w 9 4) (src w 8 2) (fld w 0 2))
      else .error .function
  | 102 =>
      if cut w 2 7 = 0 ∧ cut w 13 4 = 0 ∧ cut w 21 2 = 0 ∧ cut w 30 1 = 0 then .ok (.zacc (fld w 17 4) (fld w 9 4) (fld w 0 2))
      else .error .function
  | 103 =>
      if cut w 16 1 = 0 ∧ cut w 30 1 = 0 then .ok (.xmv (fld w 21 2) ⟨fld w 17 4, src w 15 9, src w 8 2, fld w 0 2⟩)
      else .error .function
  | 104 =>
      if cut w 16 1 = 0 ∧ cut w 21 2 = 0 ∧ cut w 30 1 = 0 then .ok (.xload ⟨fld w 17 4, src w 15 9, src w 8 2, fld w 0 2⟩)
      else .error .function
  | 105 =>
      if cut w 2 7 = 0 ∧ cut w 16 1 = 0 ∧ cut w 21 2 = 0 ∧ cut w 30 1 = 0 then .ok (.xprog ⟨fld w 17 4, src w 15 9, fld w 0 2⟩)
      else .error .function
  | 106 =>
      if cut w 16 1 = 0 ∧ cut w 21 2 = 0 ∧ cut w 30 1 = 0 then .ok (.xver ⟨fld w 17 4, src w 15 9, src w 8 2, fld w 0 2⟩)
      else .error .function
  | 107 =>
      if cut w 2 7 = 0 ∧ cut w 16 1 = 0 ∧ cut w 21 2 = 0 ∧ cut w 30 1 = 0 then .ok (.xremap ⟨fld w 17 4, src w 15 9, fld w 0 2⟩)
      else .error .function
  | 108 =>
      if cut w 2 7 = 0 ∧ cut w 16 1 = 0 ∧ cut w 21 2 = 0 ∧ cut w 30 1 = 0 then .ok (.xdrift ⟨fld w 17 4, src w 15 9, fld w 0 2⟩)
      else .error .function
  | 109 =>
      if cut w 2 15 = 0 ∧ cut w 21 2 = 0 ∧ cut w 30 1 = 0 then .ok (.xcalMeas (fld w 17 4) (fld w 0 2))
      else if cut w 2 7 = 0 ∧ cut w 16 1 = 0 ∧ cut w 21 2 = 1 ∧ cut w 30 1 = 0 then .ok (.xcalLdsc ⟨fld w 17 4, src w 15 9, fld w 0 2⟩)
      else if cut w 2 7 = 0 ∧ cut w 16 1 = 0 ∧ cut w 21 2 = 2 ∧ cut w 30 1 = 0 then .ok (.xcalLdog ⟨fld w 17 4, src w 15 9, fld w 0 2⟩)
      else if cut w 2 7 = 0 ∧ cut w 16 1 = 0 ∧ cut w 21 2 = 3 ∧ cut w 30 1 = 0 then .ok (.xcalStog ⟨fld w 17 4, src w 15 9, fld w 0 2⟩)
      else .error .function
  | 110 =>
      if cut w 2 7 = 0 ∧ cut w 13 4 = 0 ∧ cut w 22 1 = 0 ∧ cut w 30 1 = 0 then .ok (.xstat (fld w 17 5) (fld w 9 4) (fld w 0 2))
      else .error .function
  | 111 =>
      if cut w 2 7 = 0 ∧ cut w 16 1 = 0 ∧ cut w 21 2 = 0 ∧ cut w 30 1 = 0 then .ok (.xfb ⟨fld w 17 4, src w 15 9, fld w 0 2⟩)
      else .error .function
  | 112 =>
      if cut w 16 7 = 0 ∧ cut w 30 1 = 0 then .ok (.kvnew (src w 15 9) (src w 8 2) (fld w 0 2))
      else .error .function
  | 113 =>
      if cut w 16 1 = 0 ∧ cut w 22 1 = 0 ∧ cut w 30 1 = 0 then .ok (.kvapp (fld w 17 5) (src w 15 9) (src w 8 2) (fld w 0 2))
      else .error .function
  | 114 =>
      if cut w 16 7 = 0 ∧ cut w 30 1 = 0 then .ok (.kvrefInc (src w 15 9) (src w 8 2) (fld w 0 2))
      else if cut w 16 7 = 2 ∧ cut w 30 1 = 0 then .ok (.kvrefDec (src w 15 9) (src w 8 2) (fld w 0 2))
      else .error .function
  | 115 =>
      if cut w 16 7 = 0 ∧ cut w 30 1 = 0 then .ok (.kvtrunc (src w 15 9) (src w 8 2) (fld w 0 2))
      else .error .function
  | 116 =>
      if cut w 16 1 = 0 ∧ cut w 22 1 = 0 ∧ cut w 30 1 = 0 then .ok (.kvfind (fld w 17 5) (src w 15 9) (src w 8 2) (fld w 0 2))
      else .error .function
  | 117 =>
      if cut w 16 1 = 0 ∧ cut w 22 1 = 0 ∧ cut w 30 1 = 0 then .ok (.kvpub (fld w 17 5) (src w 15 9) (src w 8 2) (fld w 0 2))
      else .error .function
  | 118 =>
      if cut w 2 7 = 0 ∧ cut w 16 7 = 0 ∧ cut w 30 1 = 0 then .ok (.kvcow (src w 15 9) (fld w 0 2))
      else .error .function
  | 119 =>
      if cut w 16 1 = 0 ∧ cut w 21 2 = 0 ∧ cut w 30 1 = 0 then .ok (.kvstrm ⟨fld w 17 4, src w 15 9, src w 8 2, fld w 0 2⟩)
      else .error .function
  | 120 =>
      if cut w 17 6 = 0 ∧ cut w 30 1 = 0 then .ok (.rseed (flag w 16) (src w 15 9) (src w 8 2) (fld w 0 2))
      else .error .function
  | 121 =>
      if cut w 2 7 = 0 ∧ cut w 17 6 = 0 ∧ cut w 30 1 = 0 then .ok (.rsave (flag w 16) (src w 15 9) (fld w 0 2))
      else .error .function
  | 122 =>
      if cut w 2 7 = 0 ∧ cut w 17 6 = 0 ∧ cut w 30 1 = 0 then .ok (.rload (flag w 16) (src w 15 9) (fld w 0 2))
      else .error .function
  | 123 =>
      if cut w 22 1 = 0 ∧ cut w 30 1 = 0 then .ok (.vext ⟨fld w 17 5, flag w 16, src w 15 9, src w 8 2, fld w 0 2⟩)
      else .error .function
  | 124 =>
      if cut w 30 1 = 0 then .ok (.vins ⟨fld w 17 6, flag w 16, src w 15 9, src w 8 2, fld w 0 2⟩)
      else .error .function
  | 125 =>
      if cut w 2 15 = 1 ∧ cut w 30 1 = 0 then .ok (.vtrn (fld w 17 6) (fld w 0 2))
      else if cut w 2 3 = 4 ∧ cut w 6 10 = 0 ∧ cut w 30 1 = 0 then .ok (.viota (fld w 17 6) (flag w 16) (flag w 5) (fld w 0 2))
      else if cut w 2 7 = 0 ∧ cut w 30 1 = 0 then .ok (.vbcast (fld w 17 6) (flag w 16) (src w 15 9) (fld w 0 2))
      else if cut w 2 3 = 2 ∧ cut w 8 1 = 0 ∧ cut w 30 1 = 0 then .ok (.vred (fld w 17 6) (flag w 16) (src w 15 9) (fld w 6 2) (flag w 5) (fld w 0 2))
      else if cut w 2 3 = 3 ∧ cut w 8 1 = 0 ∧ cut w 30 1 = 0 then .ok (.vscan (fld w 17 6) (flag w 16) (src w 15 9) (fld w 6 2) (flag w 5) (fld w 0 2))
      else .error .function
  | 126 =>
      if cut w 2 7 = 0 ∧ cut w 12 4 = 0 ∧ cut w 20 3 = 3 ∧ cut w 30 1 = 0 then .ok (.pnot (fld w 17 3) (flag w 16) (fld w 9 3) (fld w 0 2))
      else if cut w 5 4 = 0 ∧ cut w 12 4 = 0 ∧ cut w 20 3 = 0 ∧ cut w 30 1 = 0 then .ok (.pand (fld w 17 3) (flag w 16) (fld w 9 3) (fld w 2 3) (fld w 0 2))
      else if cut w 5 4 = 0 ∧ cut w 12 4 = 0 ∧ cut w 20 3 = 1 ∧ cut w 30 1 = 0 then .ok (.por (fld w 17 3) (flag w 16) (fld w 9 3) (fld w 2 3) (fld w 0 2))
      else if cut w 5 4 = 0 ∧ cut w 12 4 = 0 ∧ cut w 20 3 = 2 ∧ cut w 30 1 = 0 then .ok (.pxor (fld w 17 3) (flag w 16) (fld w 9 3) (fld w 2 3) (fld w 0 2))
      else .error .function
  | 127 =>
      if cut w 2 7 = 0 ∧ cut w 12 4 = 0 ∧ cut w 22 1 = 0 ∧ cut w 30 1 = 0 then .ok (.ppop (fld w 17 5) (flag w 16) (fld w 9 3) (fld w 0 2))
      else if cut w 2 7 = 1 ∧ cut w 12 4 = 0 ∧ cut w 22 1 = 0 ∧ cut w 30 1 = 0 then .ok (.pfirst (fld w 17 5) (flag w 16) (fld w 9 3) (fld w 0 2))
      else .error .function
  | _ => .error .opcode

/-- The word of a slot instruction with S = 0; an event has no word. -/
def encode (i : Instr) : Option Nat :=
  match i with
  | .add o => some (0x00000000 + pFlag o.g 30 + pFld o.d 17 + pFlag o.n 16 + pSrc o.a 15 9 + pSrc o.b 8 2 + pFld
      o.p 0)
  | .sub o => some (0x00400000 + pFlag o.g 30 + pFld o.d 17 + pFlag o.n 16 + pSrc o.a 15 9 + pSrc o.b 8 2 + pFld
      o.p 0)
  | .and o => some (0x00800000 + pFlag o.g 30 + pFld o.d 17 + pFlag o.n 16 + pSrc o.a 15 9 + pSrc o.b 8 2 + pFld
      o.p 0)
  | .andn o => some (0x00C00000 + pFlag o.g 30 + pFld o.d 17 + pFlag o.n 16 + pSrc o.a 15 9 + pSrc o.b 8 2 +
      pFld o.p 0)
  | .or o => some (0x01000000 + pFlag o.g 30 + pFld o.d 17 + pFlag o.n 16 + pSrc o.a 15 9 + pSrc o.b 8 2 + pFld
      o.p 0)
  | .xor o => some (0x01400000 + pFlag o.g 30 + pFld o.d 17 + pFlag o.n 16 + pSrc o.a 15 9 + pSrc o.b 8 2 + pFld
      o.p 0)
  | .sll o => some (0x01800000 + pFlag o.g 30 + pFld o.d 17 + pFlag o.n 16 + pSrc o.a 15 9 + pSrc o.b 8 2 + pFld
      o.p 0)
  | .srl o => some (0x01C00000 + pFlag o.g 30 + pFld o.d 17 + pFlag o.n 16 + pSrc o.a 15 9 + pSrc o.b 8 2 + pFld
      o.p 0)
  | .sra o => some (0x02000000 + pFlag o.g 30 + pFld o.d 17 + pFlag o.n 16 + pSrc o.a 15 9 + pSrc o.b 8 2 + pFld
      o.p 0)
  | .rol o => some (0x02400000 + pFlag o.g 30 + pFld o.d 17 + pFlag o.n 16 + pSrc o.a 15 9 + pSrc o.b 8 2 + pFld
      o.p 0)
  | .ror o => some (0x02800000 + pFlag o.g 30 + pFld o.d 17 + pFlag o.n 16 + pSrc o.a 15 9 + pSrc o.b 8 2 + pFld
      o.p 0)
  | .lea o => some (0x02C00000 + pFlag o.g 30 + pFld o.d 17 + pFlag o.n 16 + pSrc o.a 15 9 + pSrc o.b 8 2 + pFld
      o.p 0)
  | .slt o => some (0x03000000 + pFlag o.g 30 + pFld o.d 17 + pFlag o.n 16 + pSrc o.a 15 9 + pSrc o.b 8 2 + pFld
      o.p 0)
  | .sltu o => some (0x03400000 + pFlag o.g 30 + pFld o.d 17 + pFlag o.n 16 + pSrc o.a 15 9 + pSrc o.b 8 2 +
      pFld o.p 0)
  | .min o => some (0x03800000 + pFlag o.g 30 + pFld o.d 17 + pFlag o.n 16 + pSrc o.a 15 9 + pSrc o.b 8 2 + pFld
      o.p 0)
  | .max o => some (0x03C00000 + pFlag o.g 30 + pFld o.d 17 + pFlag o.n 16 + pSrc o.a 15 9 + pSrc o.b 8 2 + pFld
      o.p 0)
  | .minu o => some (0x04000000 + pFlag o.g 30 + pFld o.d 17 + pFlag o.n 16 + pSrc o.a 15 9 + pSrc o.b 8 2 +
      pFld o.p 0)
  | .maxu o => some (0x04400000 + pFlag o.g 30 + pFld o.d 17 + pFlag o.n 16 + pSrc o.a 15 9 + pSrc o.b 8 2 +
      pFld o.p 0)
  | .mul o => some (0x04800000 + pFlag o.g 30 + pFld o.d 17 + pFlag o.n 16 + pSrc o.a 15 9 + pSrc o.b 8 2 + pFld
      o.p 0)
  | .mulh o => some (0x04C00000 + pFlag o.g 30 + pFld o.d 17 + pFlag o.n 16 + pSrc o.a 15 9 + pSrc o.b 8 2 +
      pFld o.p 0)
  | .mulhu o => some (0x05000000 + pFlag o.g 30 + pFld o.d 17 + pFlag o.n 16 + pSrc o.a 15 9 + pSrc o.b 8 2 +
      pFld o.p 0)
  | .div o => some (0x05400000 + pFlag o.g 30 + pFld o.d 17 + pFlag o.n 16 + pSrc o.a 15 9 + pSrc o.b 8 2 + pFld
      o.p 0)
  | .divu o => some (0x05800000 + pFlag o.g 30 + pFld o.d 17 + pFlag o.n 16 + pSrc o.a 15 9 + pSrc o.b 8 2 +
      pFld o.p 0)
  | .rem o => some (0x05C00000 + pFlag o.g 30 + pFld o.d 17 + pFlag o.n 16 + pSrc o.a 15 9 + pSrc o.b 8 2 + pFld
      o.p 0)
  | .remu o => some (0x06000000 + pFlag o.g 30 + pFld o.d 17 + pFlag o.n 16 + pSrc o.a 15 9 + pSrc o.b 8 2 +
      pFld o.p 0)
  | .sel o => some (0x06400000 + pFlag o.g 30 + pFld o.d 17 + pFlag o.n 16 + pSrc o.a 15 9 + pSrc o.b 8 2 + pFld
      o.p 0)
  | .addi o => some (0x06800000 + pFlag o.g 30 + pFld o.d 17 + pFlag o.n 16 + pSrc o.a 15 9 + pFld o.imm 2 +
      pFld o.p 0)
  | .andi o => some (0x06C00000 + pFlag o.g 30 + pFld o.d 17 + pFlag o.n 16 + pSrc o.a 15 9 + pFld o.imm 2 +
      pFld o.p 0)
  | .ori o => some (0x07000000 + pFlag o.g 30 + pFld o.d 17 + pFlag o.n 16 + pSrc o.a 15 9 + pFld o.imm 2 + pFld
      o.p 0)
  | .xori o => some (0x07400000 + pFlag o.g 30 + pFld o.d 17 + pFlag o.n 16 + pSrc o.a 15 9 + pFld o.imm 2 +
      pFld o.p 0)
  | .slli o => some (0x07800000 + pFlag o.g 30 + pFld o.d 17 + pFlag o.n 16 + pSrc o.a 15 9 + pFld o.sh 2 + pFld
      o.p 0)
  | .srli o => some (0x07800100 + pFlag o.g 30 + pFld o.d 17 + pFlag o.n 16 + pSrc o.a 15 9 + pFld o.sh 2 + pFld
      o.p 0)
  | .srai o => some (0x07C00000 + pFlag o.g 30 + pFld o.d 17 + pFlag o.n 16 + pSrc o.a 15 9 + pFld o.sh 2 + pFld
      o.p 0)
  | .nop => some (0x08000000)
  | .bcc c a off => some (0x08800000 + pFld c 20 + pSrc a 19 13 + pFld off 0)
  | .jal d imm => some (0x09000000 + pFld d 17 + pFld imm 0)
  | .jr d a p => some (0x09800000 + pFld d 17 + pSrc a 15 9 + pFld p 0)
  | .jrGd d a l p => some (0x09800100 + pFld d 17 + pSrc a 15 9 + pFld l 2 + pFld p 0)
  | .looph o => some (0x0A000000 + pFld o.d 17 + pSrc o.a 15 9 + pSrc o.b 8 2 + pFld o.p 0)
  | .trap a imm p => some (0x0A800000 + pSrc a 15 9 + pFld imm 2 + pFld p 0)
  | .lnch d a p => some (0x0B000000 + pFld d 17 + pSrc a 15 9 + pFld p 0)
  | .cwr a imm p => some (0x0B800000 + pSrc a 15 9 + pFld imm 2 + pFld p 0)
  | .crdr d imm p => some (0x0C000000 + pFld d 17 + pFld imm 2 + pFld p 0)
  | .done => some (0x0C800000)
  | .yield => some (0x0C800004)
  | .waitt a p => some (0x0C800008 + pSrc a 15 9 + pFld p 0)
  | .rdtime d => some (0x0C80000C + pFld d 17)
  | .wnext d => some (0x0C800010 + pFld d 17)
  | .wpos d k => some (0x0C800014 + pFld d 17 + pFld k 5)
  | .ifence => some (0x0C800018)
  | .eret => some (0x0C80001C)
  | .clz o => some (0x0D000000 + pFlag o.g 30 + pFld o.d 17 + pFlag o.n 16 + pSrc o.a 15 9 + pFld o.p 0)
  | .ctz o => some (0x0D000004 + pFlag o.g 30 + pFld o.d 17 + pFlag o.n 16 + pSrc o.a 15 9 + pFld o.p 0)
  | .popc o => some (0x0D000008 + pFlag o.g 30 + pFld o.d 17 + pFlag o.n 16 + pSrc o.a 15 9 + pFld o.p 0)
  | .sext o w => some (0x0D00000C + pFlag o.g 30 + pFld o.d 17 + pFlag o.n 16 + pSrc o.a 15 9 + pFld o.p 0 +
      pFld w 5)
  | .zext o w => some (0x0D000010 + pFlag o.g 30 + pFld o.d 17 + pFlag o.n 16 + pSrc o.a 15 9 + pFld o.p 0 +
      pFld w 5)
  | .crd g d n k p => some (0x0D000014 + pFlag g 30 + pFld d 17 + pFlag n 16 + pFld k 5 + pFld p 0)
  | .li g d imm => some (0x0D800000 + pFlag g 30 + pFld d 17 + pFld imm 0)
  | .lih g d imm => some (0x0DC00000 + pFlag g 30 + pFld d 17 + pFld imm 0)
  | .pset imm => some (0x0E000000 + pFld imm 0)
  | .vadd o => some (0x10000000 + pFlag o.g 30 + pFld o.d 17 + pFlag o.n 16 + pSrc o.a 15 9 + pSrc o.b 8 2 +
      pFld o.p 0)
  | .vsub o => some (0x10800000 + pFlag o.g 30 + pFld o.d 17 + pFlag o.n 16 + pSrc o.a 15 9 + pSrc o.b 8 2 +
      pFld o.p 0)
  | .vmul o => some (0x11000000 + pFlag o.g 30 + pFld o.d 17 + pFlag o.n 16 + pSrc o.a 15 9 + pSrc o.b 8 2 +
      pFld o.p 0)
  | .vmulh o => some (0x11800000 + pFlag o.g 30 + pFld o.d 17 + pFlag o.n 16 + pSrc o.a 15 9 + pSrc o.b 8 2 +
      pFld o.p 0)
  | .vmad o => some (0x12000000 + pFlag o.g 30 + pFld o.d 17 + pFlag o.n 16 + pSrc o.a 15 9 + pSrc o.b 8 2 +
      pFld o.p 0)
  | .vand o => some (0x12800000 + pFlag o.g 30 + pFld o.d 17 + pFlag o.n 16 + pSrc o.a 15 9 + pSrc o.b 8 2 +
      pFld o.p 0)
  | .vor o => some (0x13000000 + pFlag o.g 30 + pFld o.d 17 + pFlag o.n 16 + pSrc o.a 15 9 + pSrc o.b 8 2 + pFld
      o.p 0)
  | .vxor o => some (0x13800000 + pFlag o.g 30 + pFld o.d 17 + pFlag o.n 16 + pSrc o.a 15 9 + pSrc o.b 8 2 +
      pFld o.p 0)
  | .vshl o => some (0x14000000 + pFlag o.g 30 + pFld o.d 17 + pFlag o.n 16 + pSrc o.a 15 9 + pSrc o.b 8 2 +
      pFld o.p 0)
  | .vshr o => some (0x14800000 + pFlag o.g 30 + pFld o.d 17 + pFlag o.n 16 + pSrc o.a 15 9 + pSrc o.b 8 2 +
      pFld o.p 0)
  | .vsra o => some (0x15000000 + pFlag o.g 30 + pFld o.d 17 + pFlag o.n 16 + pSrc o.a 15 9 + pSrc o.b 8 2 +
      pFld o.p 0)
  | .vmin o => some (0x15800000 + pFlag o.g 30 + pFld o.d 17 + pFlag o.n 16 + pSrc o.a 15 9 + pSrc o.b 8 2 +
      pFld o.p 0)
  | .vmax o => some (0x16000000 + pFlag o.g 30 + pFld o.d 17 + pFlag o.n 16 + pSrc o.a 15 9 + pSrc o.b 8 2 +
      pFld o.p 0)
  | .vcmp o => some (0x16800000 + pFlag o.g 30 + pFld o.c 20 + pFld o.k 17 + pFlag o.n 16 + pSrc o.a 15 9 + pSrc
      o.b 8 2 + pFld o.p 0)
  | .vsel o => some (0x17000000 + pFlag o.g 30 + pFld o.d 17 + pFlag o.n 16 + pSrc o.a 15 9 + pSrc o.b 8 2 +
      pFld o.p 0)
  | .vabs o => some (0x17800000 + pFlag o.g 30 + pFld o.d 17 + pFlag o.n 16 + pSrc o.a 15 9 + pFld o.p 0)
  | .vclz o => some (0x17800004 + pFlag o.g 30 + pFld o.d 17 + pFlag o.n 16 + pSrc o.a 15 9 + pFld o.p 0)
  | .vpopc o => some (0x17800008 + pFlag o.g 30 + pFld o.d 17 + pFlag o.n 16 + pSrc o.a 15 9 + pFld o.p 0)
  | .vsat o t => some (0x1780000C + pFlag o.g 30 + pFld o.d 17 + pFlag o.n 16 + pSrc o.a 15 9 + pFld o.p 0 +
      pFld t 5)
  | .vfadd o => some (0x18000000 + pFlag o.g 30 + pFld o.d 17 + pFlag o.n 16 + pSrc o.a 15 9 + pSrc o.b 8 2 +
      pFld o.p 0)
  | .vfsub o => some (0x18800000 + pFlag o.g 30 + pFld o.d 17 + pFlag o.n 16 + pSrc o.a 15 9 + pSrc o.b 8 2 +
      pFld o.p 0)
  | .vfmul o => some (0x19000000 + pFlag o.g 30 + pFld o.d 17 + pFlag o.n 16 + pSrc o.a 15 9 + pSrc o.b 8 2 +
      pFld o.p 0)
  | .vffma o => some (0x19800000 + pFlag o.g 30 + pFld o.d 17 + pFlag o.n 16 + pSrc o.a 15 9 + pSrc o.b 8 2 +
      pFld o.p 0)
  | .vfmin o => some (0x1A000000 + pFlag o.g 30 + pFld o.d 17 + pFlag o.n 16 + pSrc o.a 15 9 + pSrc o.b 8 2 +
      pFld o.p 0)
  | .vfmax o => some (0x1A800000 + pFlag o.g 30 + pFld o.d 17 + pFlag o.n 16 + pSrc o.a 15 9 + pSrc o.b 8 2 +
      pFld o.p 0)
  | .vfsgn o => some (0x1B000000 + pFlag o.g 30 + pFld o.d 17 + pFlag o.n 16 + pSrc o.a 15 9 + pSrc o.b 8 2 +
      pFld o.p 0)
  | .vfcmp o => some (0x1B800000 + pFlag o.g 30 + pFld o.c 20 + pFld o.k 17 + pFlag o.n 16 + pSrc o.a 15 9 +
      pSrc o.b 8 2 + pFld o.p 0)
  | .vfclass o => some (0x1C000000 + pFlag o.g 30 + pFld o.d 17 + pFlag o.n 16 + pSrc o.a 15 9 + pFld o.p 0)
  | .vrcp o => some (0x1C800000 + pFlag o.g 30 + pFld o.d 17 + pFlag o.n 16 + pSrc o.a 15 9 + pFld o.p 0)
  | .vrsq o => some (0x1C800004 + pFlag o.g 30 + pFld o.d 17 + pFlag o.n 16 + pSrc o.a 15 9 + pFld o.p 0)
  | .vsqrt o => some (0x1C800008 + pFlag o.g 30 + pFld o.d 17 + pFlag o.n 16 + pSrc o.a 15 9 + pFld o.p 0)
  | .vexp2 o => some (0x1C80000C + pFlag o.g 30 + pFld o.d 17 + pFlag o.n 16 + pSrc o.a 15 9 + pFld o.p 0)
  | .vlog2 o => some (0x1C800010 + pFlag o.g 30 + pFld o.d 17 + pFlag o.n 16 + pSrc o.a 15 9 + pFld o.p 0)
  | .vtanh o => some (0x1C800014 + pFlag o.g 30 + pFld o.d 17 + pFlag o.n 16 + pSrc o.a 15 9 + pFld o.p 0)
  | .vsilu o => some (0x1C800018 + pFlag o.g 30 + pFld o.d 17 + pFlag o.n 16 + pSrc o.a 15 9 + pFld o.p 0)
  | .vcvt o part sr c => some (0x1D000000 + pFlag o.g 30 + pFld o.d 17 + pFlag o.n 16 + pSrc o.a 15 9 + pFld o.p
      0 + pFld part 7 + pFlag sr 6 + pFld c 2)
  | .vqnt o sr c => some (0x1D800000 + pFlag o.g 30 + pFld o.d 17 + pFlag o.n 16 + pSrc o.a 15 9 + pFld o.p 0 +
      pFlag sr 6 + pFld c 2)
  | .vdqnt o h c => some (0x1E000000 + pFlag o.g 30 + pFld o.d 17 + pFlag o.n 16 + pSrc o.a 15 9 + pFld o.p 0 +
      pFlag h 7 + pFld c 2)
  | .vperm o => some (0x1E800000 + pFld o.d 17 + pFlag o.n 16 + pSrc o.a 15 9 + pSrc o.b 8 2 + pFld o.p 0)
  | .vxcl o => some (0x1F000000 + pFld o.d 17 + pFlag o.n 16 + pSrc o.a 15 9 + pSrc o.b 8 2 + pFld o.p 0)
  | .vshf o => some (0x1F800000 + pFld o.d 17 + pFlag o.n 16 + pSrc o.a 15 9 + pSrc o.b 8 2 + pFld o.p 0)
  | .ld o => some (0x20000000 + pFld o.d 17 + pFlag o.n 16 + pSrc o.a 15 9 + pFld o.imm 2 + pFld o.p 0)
  | .st o => some (0x20800000 + pFld o.d 17 + pSrc o.a 15 9 + pFld o.imm 2 + pFld o.p 0)
  | .stGd o => some (0x20810000 + pFld o.l 17 + pSrc o.a 15 9 + pFld o.imm 2 + pFld o.p 0)
  | .ldg o => some (0x21000000 + pFld o.d 17 + pFlag o.n 16 + pSrc o.a 15 9 + pFld o.imm 2 + pFld o.p 0)
  | .stg o => some (0x21800000 + pFld o.d 17 + pSrc o.a 15 9 + pFld o.imm 2 + pFld o.p 0)
  | .stgGd o => some (0x21810000 + pFld o.l 17 + pSrc o.a 15 9 + pFld o.imm 2 + pFld o.p 0)
  | .vld d n a imm p => some (0x22000000 + pFld d 17 + pFlag n 16 + pSrc a 15 9 + pFld imm 2 + pFld p 0)
  | .vst d a imm p => some (0x22800000 + pFld d 17 + pSrc a 15 9 + pFld imm 2 + pFld p 0)
  | .vstGd o => some (0x22810000 + pFld o.l 17 + pSrc o.a 15 9 + pFld o.imm 2 + pFld o.p 0)
  | .vldg o => some (0x23000000 + pFld o.d 17 + pFlag o.n 16 + pSrc o.a 15 9 + pSrc o.b 8 2 + pFld o.p 0)
  | .vstg o => some (0x23800000 + pFld o.d 17 + pSrc o.a 15 9 + pSrc o.b 8 2 + pFld o.p 0)
  | .vstgGd l a b p => some (0x23810000 + pFld l 17 + pSrc a 15 9 + pSrc b 8 2 + pFld p 0)
  | .vstgPush d k p => some (0x2380A000 + pFld d 17 + pFld k 9 + pFld p 0)
  | .vgath o => some (0x24000000 + pFld o.d 17 + pFlag o.n 16 + pSrc o.a 15 9 + pSrc o.b 8 2 + pFld o.p 0)
  | .vscat o => some (0x24800000 + pFld o.d 17 + pFlag o.n 16 + pSrc o.a 15 9 + pSrc o.b 8 2 + pFld o.p 0)
  | .amo o => some (0x25000000 + pFld o.d 17 + pFlag o.n 16 + pSrc o.a 15 9 + pSrc o.b 8 2 + pFld o.p 0)
  | .amog o => some (0x25800000 + pFld o.d 17 + pFlag o.n 16 + pSrc o.a 15 9 + pSrc o.b 8 2 + pFld o.p 0)
  | .vamo o => some (0x26000000 + pFld o.d 17 + pFlag o.n 16 + pSrc o.a 15 9 + pSrc o.b 8 2 + pFld o.p 0)
  | .fence scope q r => some (0x26800000 + pFld scope 17 + pFld q 8 + pFld r 0)
  | .qfence m => some (0x26C00000 + pFld m 0)
  | .cinv d a p => some (0x27000000 + pFld d 17 + pSrc a 15 9 + pFld p 0)
  | .cwb d a p => some (0x27000004 + pFld d 17 + pSrc a 15 9 + pFld p 0)
  | .acq d n a scope p => some (0x27000008 + pFld d 17 + pFlag n 16 + pSrc a 15 9 + pFld scope 5 + pFld p 0)
  | .rel d n a scope p => some (0x2700000C + pFld d 17 + pFlag n 16 + pSrc a 15 9 + pFld scope 5 + pFld p 0)
  | .unbind n a p => some (0x27000010 + pFlag n 16 + pSrc a 15 9 + pFld p 0)
  | .bind o => some (0x27800000 + pFld o.d 17 + pSrc o.a 15 9 + pSrc o.b 8 2 + pFld o.p 0)
  | .fcopy o => some (0x28000000 + pFld o.q 17 + pSrc o.a 15 9 + pFld o.p 0)
  | .fgath o => some (0x28800000 + pFld o.q 17 + pSrc o.a 15 9 + pFld o.p 0)
  | .fput o => some (0x29000000 + pFld o.q 17 + pSrc o.a 15 9 + pFld o.p 0)
  | .fget o => some (0x29800000 + pFld o.q 17 + pSrc o.a 15 9 + pFld o.p 0)
  | .fcoll o => some (0x2A000000 + pFld o.q 17 + pSrc o.a 15 9 + pFld o.p 0)
  | .fa2a o => some (0x2A800000 + pFld o.q 17 + pSrc o.a 15 9 + pFld o.p 0)
  | .fwait m p => some (0x2B000000 + pFld m 17 + pFld p 0)
  | .binit n a b p => some (0x2B800000 + pFlag n 16 + pSrc a 15 9 + pSrc b 8 2 + pFld p 0)
  | .barv n a y p => some (0x2C000000 + pFlag n 16 + pSrc a 15 9 + pFlag y 8 + pFld p 0)
  | .barvRel scope n a y p => some (0x2C100000 + pFld scope 17 + pFlag n 16 + pSrc a 15 9 + pFlag y 8 + pFld p
      0)
  | .bwait scope n a b p => some (0x2C800000 + pFld scope 17 + pFlag n 16 + pSrc a 15 9 + pSrc b 8 2 + pFld p 0)
  | .bxpect o => some (0x2D000000 + pFld o.d 17 + pFlag o.n 16 + pSrc o.a 15 9 + pSrc o.b 8 2 + pFld o.p 0)
  | .copen d n a p => some (0x2D800000 + pFld d 17 + pFlag n 16 + pSrc a 15 9 + pFld p 0)
  | .cclose p => some (0x2E000000 + pFld p 0)
  | .tchk l k p => some (0x2E800000 + pFld l 9 + pFld k 2 + pFld p 0)
  | .sdesc o => some (0x2F000000 + pFld o.k 17 + pSrc o.a 15 9 + pFld o.p 0)
  | .sbind k p => some (0x2F800000 + pFld k 17 + pFld p 0)
  | .sclose k p => some (0x2FC00000 + pFld k 17 + pFld p 0)
  | .tmma o => some (0x30200000 + pFld o.k 17 + pSrc o.a 15 9 + pSrc o.b 8 2 + pFld o.p 0)
  | .tmmaZ o => some (0x30000000 + pFld o.k 17 + pSrc o.a 15 9 + pSrc o.b 8 2 + pFld o.p 0)
  | .tmmg o => some (0x30A00000 + pFld o.k 17 + pSrc o.a 15 9 + pSrc o.b 8 2 + pFld o.p 0)
  | .tmmgZ o => some (0x30800000 + pFld o.k 17 + pSrc o.a 15 9 + pSrc o.b 8 2 + pFld o.p 0)
  | .zzero e t p => some (0x31000000 + pFlag e 21 + pFld t 17 + pFld p 0)
  | .zld e t a p => some (0x31800000 + pFlag e 21 + pFld t 17 + pSrc a 15 9 + pFld p 0)
  | .zst t a f p => some (0x32000000 + pFld t 17 + pSrc a 15 9 + pFld f 2 + pFld p 0)
  | .zstR t a f p => some (0x32200000 + pFld t 17 + pSrc a 15 9 + pFld f 2 + pFld p 0)
  | .zcvt t u b p => some (0x32800000 + pFld t 17 + pFld u 9 + pSrc b 8 2 + pFld p 0)
  | .zacc t u p => some (0x33000000 + pFld t 17 + pFld u 9 + pFld p 0)
  | .xmv z o => some (0x33800000 + pFld z 21 + pFld o.k 17 + pSrc o.a 15 9 + pSrc o.b 8 2 + pFld o.p 0)
  | .xload o => some (0x34000000 + pFld o.k 17 + pSrc o.a 15 9 + pSrc o.b 8 2 + pFld o.p 0)
  | .xprog o => some (0x34800000 + pFld o.k 17 + pSrc o.a 15 9 + pFld o.p 0)
  | .xver o => some (0x35000000 + pFld o.k 17 + pSrc o.a 15 9 + pSrc o.b 8 2 + pFld o.p 0)
  | .xremap o => some (0x35800000 + pFld o.k 17 + pSrc o.a 15 9 + pFld o.p 0)
  | .xdrift o => some (0x36000000 + pFld o.k 17 + pSrc o.a 15 9 + pFld o.p 0)
  | .xcalMeas k p => some (0x36800000 + pFld k 17 + pFld p 0)
  | .xcalLdsc o => some (0x36A00000 + pFld o.k 17 + pSrc o.a 15 9 + pFld o.p 0)
  | .xcalLdog o => some (0x36C00000 + pFld o.k 17 + pSrc o.a 15 9 + pFld o.p 0)
  | .xcalStog o => some (0x36E00000 + pFld o.k 17 + pSrc o.a 15 9 + pFld o.p 0)
  | .xstat d k p => some (0x37000000 + pFld d 17 + pFld k 9 + pFld p 0)
  | .xfb o => some (0x37800000 + pFld o.k 17 + pSrc o.a 15 9 + pFld o.p 0)
  | .kvnew a b p => some (0x38000000 + pSrc a 15 9 + pSrc b 8 2 + pFld p 0)
  | .kvapp d a b p => some (0x38800000 + pFld d 17 + pSrc a 15 9 + pSrc b 8 2 + pFld p 0)
  | .kvrefInc a b p => some (0x39000000 + pSrc a 15 9 + pSrc b 8 2 + pFld p 0)
  | .kvrefDec a b p => some (0x39020000 + pSrc a 15 9 + pSrc b 8 2 + pFld p 0)
  | .kvtrunc a b p => some (0x39800000 + pSrc a 15 9 + pSrc b 8 2 + pFld p 0)
  | .kvfind d a b p => some (0x3A000000 + pFld d 17 + pSrc a 15 9 + pSrc b 8 2 + pFld p 0)
  | .kvpub d a b p => some (0x3A800000 + pFld d 17 + pSrc a 15 9 + pSrc b 8 2 + pFld p 0)
  | .kvcow a p => some (0x3B000000 + pSrc a 15 9 + pFld p 0)
  | .kvstrm o => some (0x3B800000 + pFld o.k 17 + pSrc o.a 15 9 + pSrc o.b 8 2 + pFld o.p 0)
  | .rseed n a b p => some (0x3C000000 + pFlag n 16 + pSrc a 15 9 + pSrc b 8 2 + pFld p 0)
  | .rsave n a p => some (0x3C800000 + pFlag n 16 + pSrc a 15 9 + pFld p 0)
  | .rload n a p => some (0x3D000000 + pFlag n 16 + pSrc a 15 9 + pFld p 0)
  | .vext o => some (0x3D800000 + pFld o.d 17 + pFlag o.n 16 + pSrc o.a 15 9 + pSrc o.b 8 2 + pFld o.p 0)
  | .vins o => some (0x3E000000 + pFld o.d 17 + pFlag o.n 16 + pSrc o.a 15 9 + pSrc o.b 8 2 + pFld o.p 0)
  | .vbcast d n a p => some (0x3E800000 + pFld d 17 + pFlag n 16 + pSrc a 15 9 + pFld p 0)
  | .vtrn d p => some (0x3E800004 + pFld d 17 + pFld p 0)
  | .vred d n a op h p => some (0x3E800008 + pFld d 17 + pFlag n 16 + pSrc a 15 9 + pFld op 6 + pFlag h 5 + pFld
      p 0)
  | .vscan d n a op h p => some (0x3E80000C + pFld d 17 + pFlag n 16 + pSrc a 15 9 + pFld op 6 + pFlag h 5 +
      pFld p 0)
  | .viota d n c p => some (0x3E800010 + pFld d 17 + pFlag n 16 + pFlag c 5 + pFld p 0)
  | .pand d n a b p => some (0x3F000000 + pFld d 17 + pFlag n 16 + pFld a 9 + pFld b 2 + pFld p 0)
  | .por d n a b p => some (0x3F100000 + pFld d 17 + pFlag n 16 + pFld a 9 + pFld b 2 + pFld p 0)
  | .pxor d n a b p => some (0x3F200000 + pFld d 17 + pFlag n 16 + pFld a 9 + pFld b 2 + pFld p 0)
  | .pnot d n a p => some (0x3F300000 + pFld d 17 + pFlag n 16 + pFld a 9 + pFld p 0)
  | .ppop d n a p => some (0x3F800000 + pFld d 17 + pFlag n 16 + pFld a 9 + pFld p 0)
  | .pfirst d n a p => some (0x3F800004 + pFld d 17 + pFlag n 16 + pFld a 9 + pFld p 0)
  | .resultWrite _ _ => none
  | .contextReady _ _ => none
  | .generatorAppend _ _ => none
  | .operandLogPerform _ _ _ => none
  | .lateFaultDelivery _ _ => none
  | .shootdownComplete => none
  | .tileFetchEntryFill _ _ _ => none
  | .streamGeneratorRow _ _ _ => none
  | .writeStreamDrain _ _ _ => none
  | .ferryTransfer _ _ => none
  | .followOnHandoff _ _ => none
  | .matrixInstructionStart _ => none
  | .matrixStep _ => none
  | .matrixInstructionComplete _ => none
  | .dummyStep _ => none
  | .rampWindowEnd _ => none
  | .crossbarInstructionStart _ => none
  | .crossbarInstructionComplete _ _ => none
  | .digitalFallback _ _ => none
  | .tideCheck _ _ => none
  | .kvOperation _ _ => none
  | .kvStreamEntryFill _ _ _ => none
  | .soundTransfer _ _ _ _ => none
  | .soundAcknowledgement _ _ _ => none
  | .collectiveJoin _ _ _ => none
  | .collectiveRun _ _ _ => none
  | .collectiveResultWrite _ _ _ => none
  | .allToAllExchange _ _ _ _ _ _ => none
  | .fabricTimeout _ _ _ => none
  | .queueSlotConsume _ => none
  | .schedulerPass => none
  | .launchAccept _ => none
  | .distributorDecision => none
  | .ageExpiry _ => none
  | .timedLaunchLead _ => none
  | .steal _ _ => none
  | .taskEnd _ _ => none
  | .savePoint _ _ => none
  | .savePointTimeout _ _ => none
  | .contextSave _ _ => none
  | .contextRestore _ _ => none
  | .islandResetEnd _ => none
  | .waittExpiry _ _ => none
  | .fatalRecovery => none
  | .checkpointCommit => none
  | .ethTransmit _ => none
  | .errorThresholdWindowEnd => none
  | .refreshWindowEnd _ => none
  | .refreshManagementEnd _ _ => none
  | .pageWalk _ _ _ _ => none
  | .shootdown _ => none
  | .hbmSectorFill _ _ _ => none
  | .correctedWriteback _ _ _ => none
  | .patrolScrub _ _ => none
  | .activationAlert _ _ _ _ _ => none
  | .rdcEviction _ _ => none
  | .sqstatHalt _ _ _ => none
  | .fqstatHalt _ _ _ => none
  | .fqstatDiscard _ _ _ => none
  | .narrowsSectorReceive _ _ => none
  | .straitFlitReceive _ _ _ => none
  | .linkRetrain _ _ => none
  | .linkTrained _ _ _ => none
  | .portTrainTimeout _ _ => none
  | .windowAccess _ _ _ _ _ => none
  | .sndqHalt _ _ _ => none
  | .sndqDiscard _ _ _ => none
  | .qnotify _ => none
  | .ptpstep _ => none
  | .ptploRead _ => none
  | .ptpctlWrite _ => none
  | .jrdseq _ => none
  | .fatalDeviceFault _ => none
  | .restart => none
  | .powerWarning => none
  | .resume => none
  | .restore => none
  | .boot => none
  | .attctlNop => none
  | .attctlExtend _ => none
  | .attctlQuote => none
  | .attctlPublicKey => none
  | .attctlFirmwareUpdate => none
  | .attctlInvalidOp _ => none
  | .xdriftpWrite _ _ => none
  | .linkEnable _ _ => none
  | .ethReceive _ _ => none
  | .stampPop _ => none
  | .pcieDma _ _ _ => none
  | .registerWrite _ _ => none
  | .applicationCoreAccess _ _ _ _ _ => none
  | .runtimeHaltRequest _ _ => none
  | .runtimeKill _ _ => none
  | .powerWarningDeassert => none
  | .powerLoss => none
  | .ethernetLinkDown _ _ => none
  | .pcieLinkError => none
  | .thermalLimit => none
  | .supplyUndervoltage => none
  | .applicationCoreMachineCheck _ => none
  | .runtimeHeartbeatMissed => none

/-- Four bytes of a slot, little-endian (R3, R103), read as an instruction. -/
def decodeSlot (b : List Byte) : Except Reject Instr :=
  decodeWord ((b.getD 0 0).toNat + 256 * (b.getD 1 0).toNat + 65536 * (b.getD 2 0).toNat +
    16777216 * (b.getD 3 0).toNat)

/-- The bytes of a slot word, lowest first (R3). -/
def slotBytes (w : Nat) : List Byte :=
  [BitVec.ofNat 8 (cut w 0 8), BitVec.ofNat 8 (cut w 8 8), BitVec.ofNat 8 (cut w 16 8), BitVec.ofNat 8 (cut w 24 8)]

/-- The instruction the decoder reads from a word of the table; every slot is one 32-bit word. -/
def decodeTableWord (_nbits w : Nat) : Option Instr := (decodeSlot (slotBytes w)).toOption

end Sys2Proof
end

