-- ==== Sys2Proof/Config.lean ====
section
/-! DEFINITION. What the spec leaves open: the free values. Nothing here has a body, so no proof can see a value. -/

namespace Sys2Proof.Config

/-- The values the spec leaves open (assumption 40): word `i` of the draw with number `n`, where `n` is the state's
counter of draws, so that every draw is a value of its own. Whoever takes one narrows it to the range the spec
allows. -/
opaque freeWord : Nat → Nat → BitVec 64

/-- The fused digest of the vendor's ML-DSA-44 public key (R370). -/
opaque keyDigest : List (BitVec 8)

/-- The fused minimum firmware version (R370). -/
opaque leastVersion : Nat

/-- The fused unique device secret (R370). -/
opaque deviceSecret : List (BitVec 8)

/-- ML-DSA-44 verification of FIPS 204: key, message and signature (R370). -/
opaque mldsaVerify : List (BitVec 8) → List (BitVec 8) → List (BitVec 8) → Bool

/-- The ML-DSA-44 public key of FIPS 204 key generation from a seed (R372): byte `i`. -/
opaque mldsaPublic : List (BitVec 8) → Nat → BitVec 8

/-- The ML-DSA-44 signature of a message under the key of a seed (R372): byte `i`. -/
opaque mldsaSign : List (BitVec 8) → List (BitVec 8) → Nat → BitVec 8

end Sys2Proof.Config
end

