-- ==== Sys2Proof/Machine/State.lean ====
section
/-! DEFINITION. What the device holds: every piece of state the spec names, as plain data. Per-core, per-context,
per-array and per-sector storage is held in sparse maps, whose reset value is read where nothing is listed. -/

namespace Sys2Proof.Machine

/-- Why a run stops with a fault. -/
inductive Fault where
  /-- Raised by `step` when the agenda's head is a slot instruction and no event, or an event of a part the device does not
  have: such an agenda describes nothing the surroundings of the device can do. Safe: the model stops where no device could be. -/
  | agendaMalformed
  deriving DecidableEq, Repr

/-- Why an instruction is refused. -/
inductive Refusal where
  /-- Raised by the dispatcher for a row of the table that has no meaning yet. Safe: the model stops. -/
  | notModelled (mnemonic : String)
  deriving DecidableEq, Repr

/-- A unit class (R107). -/
inductive Cls where
  | a | m | v | c | p | l | k | none
  deriving DecidableEq, Repr

/-- Where a result in flight is written (R96, R99, R186). `fl` carries flags only. -/
inductive Dest where
  | none
  | s (r : Nat)
  | v (r : Nat)
  | p (r : Nat)
  | ctl (n : Nat)
  deriving DecidableEq, Repr

/-- A result in flight, an entry of the flight record (R99): `left` schedule times remain of `lat`. -/
structure InFlight where
  left : Nat
  lat : Nat
  dest : Dest
  latch : Option Nat
  val : Vec
  mask : Pred
  flags : BitVec 5
  deriving DecidableEq, Repr

/-- The active loop (R100): remaining iterations, iteration, body start, body length in bundles, ring register,
and how many bundles of the body this iteration has issued. -/
structure Loop where
  rem : Word
  i : Word
  start : Word
  b : Nat
  ring : Word
  pos : Nat
  deriving DecidableEq, Repr

/-- An open containment region (R161): the snapshot of `s1`-`s31` and FFLAGS, the handler and the D code. -/
structure Region where
  regs : Map Word
  fflags : BitVec 5
  handler : Word
  d : Nat
  deriving DecidableEq, Repr

/-- A binding of a region to a sync object (R71, R151). -/
structure Binding where
  base : Word
  len : Word
  obj : Word
  deriving DecidableEq, Repr

/-- Random-bit queue and generator of a context (R134, R136): at most four words, oldest first. -/
structure Rand where
  key : Word
  ctr : Word
  words : List (BitVec 2048)
  deriving DecidableEq, Repr

/-- What a logged global operation does when it is performed (R147). -/
inductive LogOp where
  | load | store | vload | vstore | gather | scatter
  | amo (op : BitVec 3) | vamo (op : BitVec 2)
  | cinv | cwb
  | rel (scope : Nat)
  | acqRead | bwaitRead
  | binit | barrive (release : Bool) | bxpect
  deriving DecidableEq, Repr

/-- An entry of the operand log (R147, R148). `d` is the destination; `cmp` the compare value of a cas or the
second count of an EXPECT; `cause` is nonzero while the entry is faulted. -/
structure LogEntry where
  num : Nat
  op : LogOp
  addr : Word
  data : Vec
  offs : Vec
  cmp : Word
  mask : Pred
  d : Dest
  blocking : Bool
  cause : Byte
  word : BitVec 32
  deriving DecidableEq, Repr

/-- One 512-byte stream entry with its scales, its poison marks by 64-byte sector, the lines it holds (R42, R154) and, of a
pushed entry, its place among the numbered accesses of the context (R68, R158). -/
structure Entry where
  data : Vec
  scales : BitVec 128
  poison : BitVec 8
  lines : List Nat
  num : Nat
  deriving DecidableEq, Repr

/-- The KV side of a kind-4 stream (R273-R275): mode, first token, token count, pool, the pages of the snapshot, and
which of them are pinned now: `npin` of them from `lo`. -/
structure KvStream where
  mode : Bool
  first : Nat
  ntok : Nat
  pool : Nat
  pages : List Nat
  lo : Nat
  npin : Nat
  deriving DecidableEq, Repr

/-- A stream register (R154-R159). `row` is the next row to read or drain, `off` the bytes of that row already done, `pend`
the bytes of the entry being filled (of a write stream: bytes of the head entry already drained), `pendLines` the lines pinned
for it, and `after` the number that the first access after its `sbind` has (R69). -/
structure Stream where
  cfg : Bool
  started : Bool
  halt : Bool
  cause : Byte
  base : Word
  fmt : Nat
  scl : Bool
  kind : Nat
  loc : Bool
  rowlen : Nat
  count : Nat
  str0 : BitVec 32
  str1 : BitVec 32
  ext : Nat
  sstr : BitVec 16
  soff : BitVec 32
  row : Nat
  off : Nat
  blk : Nat
  pend : List Byte
  pendPoison : List Bool
  pendLines : List Nat
  after : Nat
  entries : List Entry
  consumed : Nat
  kv : Option KvStream
  deriving DecidableEq, Repr

/-- A ferry command (R45) with its progress: whether it has started, the row and the byte within it to transfer
next, the source address of that row once a gather has read it, the banks it holds in reservation tables, as core and bank
(R49), and the barrier counts it owes: one that is refused with 0x67 HALT applies again (R62). -/
structure FerryCmd where
  src : Word
  dst : Word
  rowlen : Nat
  nrows : Nat
  sstr : BitVec 32
  dstr : BitVec 32
  bankset : BitVec 32
  mcast : BitVec 16
  strm : Byte
  flags : Byte
  bar : Word
  mword : BitVec 32
  mopa : BitVec 32
  mopb : BitVec 32
  started : Bool
  row : Nat
  off : Nat
  rowsrc : Option Word
  rowbuf : List Byte
  rowpoison : List Bool
  held : List (Nat × Nat)
  owed : List (Nat × Nat)
  handing : Bool
  deriving DecidableEq, Repr

/-- A Sound-engine command (R285): kind 0 put, 1 get, 2 collective, 3 all-to-all, with the ranks of its group, and its
progress: the row and the byte within it to move next, whether every byte has been sent, the local banks it holds, the
bytes landed and not yet counted (R62), its number in the device and the cycle of its last progress (R294). -/
structure SoundCmd where
  kind : Nat
  laddr : Word
  raddr : Word
  peer : BitVec 16
  opf : Byte
  flags : Byte
  len : Nat
  nrows : Nat
  lstr : BitVec 32
  rstr : BitVec 32
  tag : BitVec 32
  bar : Word
  rbar : Word
  sbstr : BitVec 32
  dbstr : BitVec 32
  group : List (BitVec 16)
  started : Bool
  row : Nat
  off : Nat
  sent : Bool
  held : BitVec 32
  owed : Nat
  seq : Nat
  since : Nat
  deriving DecidableEq, Repr

/-- An entry of a ferry or Sound-engine queue: a command or a joining entry of `qfence` (R80, R149, R338). -/
inductive QEntry where
  | ferry (c : FerryCmd)
  | sound (c : SoundCmd)
  | join (mask : BitVec 4) (num : Nat)
  deriving DecidableEq, Repr

/-- An engine queue with its halt state (R53, R284). -/
structure Queue where
  entries : List QEntry
  halt : Bool
  cause : Byte
  deriving DecidableEq, Repr

/-- An entry of the matrix or crossbar queue (R216, R242): the word, the operand values, the group table of a
`tmmg`, the steps it counted (R225), the formats of a product's operands as they were at issue (R221, R378), the streams it names and,
for a resumed `xmv`, the vectors already done. -/
structure UnitEntry where
  word : BitVec 32
  a : Word
  b : Word
  table : List Word
  steps : Nat
  fmts : Nat × Nat
  streams : List Nat
  closed : List Nat
  done : Nat
  follow : Bool
  arrival : Nat
  deriving DecidableEq, Repr

/-- A late fault waiting to be delivered (R326): cause, SRC, SNUM and EINFO, and the detection time. -/
structure Pending where
  cause : Byte
  src : Nat
  snum : Nat
  info : Word
  seen : Nat
  deriving DecidableEq, Repr

/-- A walker's range (R310) with its owner line. -/
structure Range where
  next : Nat
  fin : Nat
  owner : Nat
  deriving DecidableEq, Repr

/-- The outcome of a steal held for the thief (R181, R311). -/
inductive StealOutcome where
  | none | asked | got | refused
  deriving DecidableEq, Repr

/-- A walker (R309-R312): its range, the current tile, a held outcome, and whether −1 has been received. -/
structure Walker where
  range : Range
  cur : Option Nat
  outcome : StealOutcome
  finished : Bool
  deriving DecidableEq, Repr

/-- A KV operation of a context (R262): sent from the bundle at an address with its operands, or its outcome held for
that bundle: the value for D, or the cause with its EINFO. -/
inductive KvOutcome where
  | none
  | sent (pc : Word) (i : Instr) (a b : Word)
  | value (pc : Word) (v : Word)
  | cause (pc : Word) (c : Byte) (info : Word)
  deriving DecidableEq, Repr

/-- A lease (R64, R314): the lending core of a direction, if the direction is present. -/
abbrev Lease := Option Nat

/-- A task placed on a context: its launch, its coordinates (R172) and the resources allocated to it (R56, R93). -/
structure Task where
  launch : Nat
  task : Nat
  crew : Nat
  rank : Nat
  ctxr : Nat
  stage : Nat
  line : Nat
  b0 : Nat
  banks : Nat
  tiles : List Nat
  leases : List Lease
  deriving DecidableEq, Repr

/-- What a blocked context waits for (R85); `load n` is the blocking log entries numbered from `n` on. -/
inductive Wait where
  | no
  | stream (k : Nat)
  | push (k : Nat)
  | queue (sound : Bool) (q : Nat)
  | matrixQueue | crossbarQueue
  | barrier (addr : Word) (gen : Nat)
  | syncWord (addr : Word) (least : Word)
  | syncLoad (e : LogEntry)
  | steal
  | time (t : Word)
  | load (n : Nat)
  | fence (p : BitVec 8)
  | fwait (marks : List Nat)
  | drains
  | release (e : LogEntry)
  | writes
  | intake
  | kv (i : Instr) (a b : Word)
  | closing (k : Nat)
  | other
  deriving DecidableEq, Repr

/-- Progress of a save (R332-R334): not chosen, chosen at a cycle, at a save point, or draining. -/
inductive SavePhase where
  | no
  | awaited (since : Nat)
  | stopped (reason : Nat)
  deriving DecidableEq, Repr

/-- A hardware context (R88) and the engine queues, streams and unit queues that belong to it. `randAt` is the cycle in which its
generator last worked or its random state was last set (R134). -/
structure Ctx where
  task : Option Task
  pc : Word
  regs : Map Word
  preds : Map Pred
  vmode : BitVec 64
  fflags : BitVec 5
  streams : Map Stream
  latches : Map Vec
  flight : List InFlight
  held : List InFlight
  clock : Nat
  heldClock : Nat
  loop : Option Loop
  rand : Rand
  randAt : Nat
  walker : Walker
  regions : List Region
  bindings : List Binding
  tvec : Word
  epc : Word
  ecause : Word
  einfo : Word
  emask : Word
  escr : Word
  hnd : Bool
  mxsat : Word
  mxrag : Word
  xbclip : Word
  stepCount : Nat
  log : List LogEntry
  logNext : Nat
  syncRead : Option (Word × Vec)
  fq : Map Queue
  sq : Map Queue
  mq : List UnitEntry
  xq : List UnitEntry
  pending : List Pending
  blocked : Wait
  kv : KvOutcome
  save : SavePhase
  victimOf : Option Nat
  handlerStart : Bool
  esc : Option (Byte × Bool × Word)
  area : Option Nat
  deriving DecidableEq, Repr

/-- A scratchpad row with its poison mark; a row that is listed has its written bit set (R58). -/
structure Row where
  data : Sector
  poison : Bool
  deriving DecidableEq, Repr

/-- A 512-byte row of an accumulator tile, listed when its written bit is set (R58, R59). -/
structure AccRow where
  data : Vec
  poison : Bool
  deriving DecidableEq, Repr

/-- A sector of an L2 slice (R38). -/
structure L2Sector where
  data : Sector
  dirty : Bool
  poison : Bool
  deriving DecidableEq, Repr

/-- A sector of a remote-data cache (R40): Dirty-partial is `full = false`, Clean is `mask = 0`. -/
structure RdcSector where
  data : Sector
  full : Bool
  mask : BitVec 64
  poison : Bool
  deriving DecidableEq, Repr

/-- A sector of the cache that the application cores share, with the bytes they have written and not written back (R363). -/
structure AppSector where
  data : Sector
  dirty : BitVec 64
  deriving DecidableEq, Repr

/-- A TLB entry (R25). -/
structure TlbEntry where
  asn : Nat
  gl : Bool
  va : Nat
  k : Nat
  pa : Nat
  rd : Bool
  wr : Bool
  ex : Bool
  dy : Bool
  deriving DecidableEq, Repr

/-- Who holds a translation pin or a line pin (R27, R42). -/
inductive Holder where
  | stream (k : Nat) | ferry (q : Nat) | sound (q : Nat)
  deriving DecidableEq, Repr

/-- A translation pin (R27): a hold on the translation of one page, which its holder uses for as long as it has it. -/
structure Pin where
  core : Nat
  x : Nat
  holder : Holder
  page : TlbEntry
  deriving DecidableEq, Repr

/-- A non-leaf entry that a walker has cached (R25): the address space and range it is for, its level and address, and the
node it points to. -/
structure CachedNode where
  asn : Nat
  level : Nat
  va : Nat
  pte : Nat
  node : Nat
  deriving DecidableEq, Repr

/-- A line pin (R42). -/
structure LinePin where
  core : Nat
  x : Nat
  k : Nat
  line : Nat
  deriving DecidableEq, Repr

/-- Operand bytes that the matrix unit has gathered for a step: element bytes, the scales of their 32-byte blocks and
how many bytes the panel has (R220, R221). -/
structure Panel where
  bytes : List Byte
  scales : List Byte
  full : Bool
  deriving DecidableEq, Repr

/-- What the matrix unit is doing (R216, R217): the context whose instruction runs, the next unit step or tile row, the cycle
before which nothing more happens, the flags and saturations gathered, the rows it will write, and the panels of
the next step. -/
structure MatrixBusy where
  x : Nat
  entry : UnitEntry
  step : Nat
  free : Nat
  flags : BitVec 5
  sat : Nat
  work : Map Vec
  pa : Panel
  pb : Panel
  deriving DecidableEq, Repr

/-- The crossbar instruction an array runs (R242): its context, the cycle it started, the cycle of its next result,
its flags and clipped counts, the words it read at its start, whether it runs on the matrix unit and whether it has given that unit
back (R239). -/
structure XbarBusy where
  x : Nat
  entry : UnitEntry
  began : Nat
  first : Nat
  free : Nat
  flags : BitVec 5
  clip : Nat
  words : List Lane
  fallback : Bool
  released : Bool
  deriving DecidableEq, Repr

/-- A digital fallback that holds a core's matrix unit (R239): its array, the steps it has started and the cycle at
which the last of them ends. -/
structure Fallback where
  arr : Nat
  steps : Nat
  free : Nat
  deriving DecidableEq, Repr

/-- Sixteen fetched instruction bytes held by a core (R182): address space, whether the page is global (R29), virtual address and
the bytes. -/
structure Fetched where
  asn : Nat
  gl : Bool
  va : Nat
  bytes : BitVec 128
  deriving DecidableEq, Repr

/-- A tile core: the running context, whether the core is to choose the next one (R86), the shared units, the reservation
table, the TLB and the debug registers. -/
structure Core where
  running : Nat
  idle : Bool
  stall : Nat
  matrix : Option MatrixBusy
  fallback : Option Fallback
  matrixLast : Nat
  /-- The cycle in which the unit's last instruction ended. -/
  matrixEnd : Option Nat
  warmHold : Nat
  xbarLast : Nat
  /-- The cycle in which the sequencer last started an instruction (R242). -/
  xbarAt : Option Nat
  ferryLast : Nat
  resv : Map Nat
  tlb : List TlbEntry
  icache : List Fetched
  bkpt : Map Word
  watch : Map Word
  fusedOff : Bool
  lentTo : Option (Nat × Nat)
  deriving DecidableEq, Repr

/-- A crossbar array (R235, R240). -/
structure XArray where
  avail : Bool
  cells : Map (BitVec 1024)
  remap : Map Nat
  retired : List Nat
  shadow : Map (BitVec 1024)
  shadowBad : List Nat
  colScale : Map Lane
  off : Map (BitVec 10)
  gain : Map (BitVec 16)
  ready : List Nat
  vmask : Map (BitVec 256)
  pulses : Map (BitVec 1024)
  cal : Bool
  calsw : Bool
  drift : Bool
  force : Bool
  mism : Nat
  trips : Nat
  tidedev : Nat
  tideDue : Option Nat
  /-- The cycle in which the automatic tide check that runs ends (R241). -/
  tideEnd : Option Nat
  free : Nat
  busy : Option XbarBusy
  deriving DecidableEq, Repr

/-- A launch record's fields (R298). -/
structure Record where
  entry : Word
  args : Word
  ext : List Nat
  order : Byte
  shape : Byte
  stages : Nat
  tpc : Nat
  crews : Nat
  cpc : Nat
  grain : Nat
  spkb : Nat
  zt : Nat
  prio : Nat
  depend : Nat
  start : Word
  done : Word
  deriving DecidableEq, Repr

/-- What has become of a launch (R303, R319, R353). -/
inductive LaunchState where
  | accepted | started | retired | discarded | checkpointed
  deriving DecidableEq, Repr

/-- A launch the distributor knows (R303-R319). -/
structure Launch where
  id : Nat
  rcd : Record
  state : LaunchState
  die : Nat
  asn : Nat
  ptroot : Nat
  pooldir : Word
  poolcnt : Nat
  queue : Nat
  qidx : Nat
  fromLnch : Bool
  prev : Option Nat
  depWait : Bool
  eligibleAt : Option Nat
  aged : Bool
  lead : Bool
  acceptedAt : Word
  crews : Nat
  tasks : Nat
  ended : List Nat
  killed : Bool
  ownerless : List (Nat × Range)
  startedAt : Nat
  dies : List Nat
  deriving DecidableEq, Repr

/-- A saved task (R335-R338): its task and core, why it was saved, where its area lies, and its context as it stood. What
the spec lays out in the area byte by byte is read back from there (R337). -/
structure Saved where
  launch : Nat
  task : Task
  core : Nat
  hot : Bool
  reason : Nat
  area : Nat
  size : Nat
  ctx : Ctx
  escalated : Bool
  deriving DecidableEq, Repr

/-- Resources of a core kept for a launch, or for one saved task of it (R305, R318): contexts, banks and tiles, or the
whole core; whether only launches of equal or lower PRIO are kept off (aging), and the contexts whose leaving it awaits. -/
structure Hold where
  launch : Nat
  task : Option Nat
  core : Nat
  ctxs : Nat
  banks : List Nat
  tiles : List Nat
  whole : Bool
  soft : Bool
  awaits : List (Nat × Nat)
  deriving DecidableEq, Repr

/-- The queue scheduler (R302): the cycle at which its next pass begins; of a pass that has unmapped and not yet mapped,
its cycle with the queues and slots it unmapped; the queues of this pass notified in the cycle of their unmapping with
the slots kept for them, the queues notified in the present cycle, and the slots kept by the pass before; the last queue each
level mapped; and the queues being taken from, by slot, with the TAIL read; and the launch last accepted from each queue (R303). -/
structure Sched where
  due : Nat
  passing : Option Nat
  unmapped : List (Nat × Nat)
  notified : List (Nat × Nat)
  heard : List Nat
  returning : List (Nat × Nat)
  last : Map Nat
  taking : Map Nat
  newest : Map Nat
  deriving DecidableEq, Repr

/-- Bytes with the poison of each. -/
abbrev Piece := List Byte × List Bool

/-- A rank of this device that has joined a collective or all-to-all (R289): the task, its queue, the command, and the
rows it contributes, of an all-to-all block by block. -/
structure Member where
  rank : Nat
  launch : Nat
  task : Nat
  q : Nat
  cmd : SoundCmd
  rows : List Piece
  deriving DecidableEq, Repr

/-- A collective or all-to-all in progress at this device (R289-R294): the group, its tag and ranks, the members that
have joined, the result rows with their flags once it has run, the ranks that have finished or faulted, the blocks
exchanged, as source and destination, whether it is aborted, and the cycle of its last progress (R294). -/
structure Coll where
  group : Nat
  tag : Nat
  ranks : List (BitVec 16)
  members : List Member
  result : Option (List Piece × BitVec 5)
  finished : List Nat
  blocks : List (Nat × Nat)
  failed : Bool
  since : Nat
  deriving DecidableEq, Repr

/-- What the Sound engine holds for a saved task (R293-R295): a result row for its local memory, the first row that has not
landed, bytes to count on a local barrier object, flags, a late fault with the cycle of its detection, the halt of the
queue, and the end of the head command. -/
inductive HeldEffect where
  | row (a : Word) (v : Piece)
  | landed (row : Nat)
  | count (loc : Bool) (bar : Word) (n : Nat)
  | flags (f : BitVec 5)
  | fault (cause : Byte) (info : Word) (seen : Nat)
  | halt (cause : Byte)
  | finished (cmd : SoundCmd)
  deriving DecidableEq, Repr

/-- One effect held for a queue of a saved task. -/
structure HeldResult where
  launch : Nat
  task : Nat
  q : Nat
  effect : HeldEffect
  deriving DecidableEq, Repr

/-- What the device answers an access from another device (R282): the bytes read, what an accepted write or update did,
with the cause a barrier object raised, or a refusal. -/
inductive WindowReply where
  | bytes (p : Piece)
  | done (cause : Option Byte)
  | refused
  deriving DecidableEq, Repr

/-- What leaves the device for others: bytes written to a window (R287, R292), a LAND on a barrier object named through one
(R287), rows of a collective with their flags for a rank, by its entry in the group, of another device (R290, R293), and traffic
routed on, with the ports that may carry it (R281). -/
inductive Sent where
  | write (devid : BitVec 8) (addr : Word) (data : Piece)
  | land (devid : BitVec 8) (bar : Word) (n : Nat)
  | values (rank : BitVec 16) (group tag : Nat) (rows : List Piece) (flags : BitVec 5)
  | onward (devid : BitVec 8) (ports : BitVec 18)
  deriving DecidableEq, Repr

/-- The registers of one Strait port, or of the Narrows (R367, R368). -/
structure Link where
  en : Bool
  up : Bool
  far : Byte
  fleet : BitVec 16
  replays : BitVec 32
  retrains : BitVec 16
  head : BitVec 32
  tail : BitVec 32
  ovf : Word
  log : Map (BitVec 128)
  deriving DecidableEq, Repr

/-- The registers and logs of one stack (R33, R34, R367). -/
structure Stack where
  scrubh : BitVec 8
  wbcor : Bool
  alertth : BitVec 18
  spares : Map Nat
  scrubAt : Nat
  ahead : BitVec 32
  atail : BitVec 32
  aovf : Word
  alog : Map (BitVec 256)
  thead : BitVec 32
  ttail : BitVec 32
  tovf : Word
  tlog : Map (BitVec 256)
  acts : Map Nat
  bankWait : List Nat
  deriving DecidableEq, Repr

/-- An Ethernet port (R352, R373). -/
structure Eth where
  ctl : BitVec 64
  up : Bool
  txbase : Word
  rxbase : Word
  txtail : Word
  rxtail : Word
  txhead : Word
  rxhead : Word
  stamps : List (BitVec 64)
  dropped : Word
  sent : List (List Byte)
  deriving DecidableEq, Repr

/-- The ramp limiter of an island (R316): the window that its counts belong to, and the cores whose next step it holds, with
the units of each, in the order in which they asked for it (R317). -/
structure Ramp where
  window : Nat
  step : BitVec 13
  last : Nat
  dummiesLast : Nat
  count : Nat
  dummies : Nat
  waiting : List (Nat × Nat)
  deriving DecidableEq, Repr

/-- An island's service state (R346, R348): whether a reset has been asked for, whether it is being reset, the cycles of its resets
within 10 s, and whether it is out; and what its walker has cached (R25). -/
structure Island where
  asked : Bool
  resetting : Bool
  resets : List Nat
  removed : Bool
  walks : List CachedNode
  deriving DecidableEq, Repr

/-- The device registers of R367 that hold one value each. -/
structure Regs where
  booted : Bool
  /-- The boot ROM has run since power-good (R370). -/
  romRun : Bool
  /-- The firmware has trained HBM, started the scrubbers and brought up the shoals (R370). -/
  hwUp : Bool
  replace : Bool
  taken : Bool
  jready : Bool
  fatal : Bool
  fabid : Word
  qtbase : Word
  lead : BitVec 16
  age : BitVec 16
  hotpar : BitVec 2
  escbase : Word
  eschead : BitVec 32
  esctail : BitVec 32
  esclost : Word
  sdBusy : Bool
  sdAsn : Nat
  sdAll : Bool
  sdva : Word
  sdnp : Word
  savebase : Map Word
  savelen : Map Word
  grpbase : Word
  ftimeout : Word
  elogbase : Word
  eloghead : BitVec 32
  eloglost : Word
  ptpRun : Bool
  ptpLocked : Bool
  tsen : BitVec 4
  adj : BitVec 32
  ptpns : Nat
  ptpfrac : Nat
  ptplatch : Map Word
  jbase : Word
  jnext : Word
  jack : Word
  jrdseq : Word
  jlost : Word
  pfDone : Bool
  imgvalid : Bool
  pfRefused : Bool
  /-- A write of PFCTL has been refused in this cycle, so that REFUSED is set whatever else is written to it (R366). -/
  pfRefusedNow : Bool
  pfActive : Bool
  /-- PCIe is disabled by the power-failure sequence (R358). -/
  pcieOff : Bool
  warning : Bool
  errth : Word
  inttgt : BitVec 4
  trcctl : BitVec 8
  trcbase : Word
  trchead : BitVec 32
  trctail : BitVec 32
  trclost : Word
  sevc : Map Word
  ckpttbl : Map Word
  route : Map Word
  fwin : Map (BitVec 128)
  pmc : Map Word
  xdriftp : Map (BitVec 32)
  xdriftBase : Map Nat
  ecam : Map Byte
  bootstat : Word
  fwver : Word
  meas : Map (BitVec 256)
  attErr : Bool
  attnonce : BitVec 256
  attbuf : Word
  lastBoot : Nat
  devinfo : Word
  deriving DecidableEq, Repr

/-- How the slot that ran last ended: it committed, it stopped its bundle with a cause of a rank of R109, or it
blocks the bundle (R85). -/
inductive SlotEnd where
  | commit
  | trap (rank : Nat) (cause : Byte) (info : Option Word) (extra : Nat) (src : Nat)
  | block (w : Wait)
  | stall
  deriving DecidableEq, Repr

/-- What the slots of the bundle being issued share (R87, R92, R106, R134): the bundle's address and length, the
number of slots that are no `nop`, the unit of the slot, the class and unit of the nearest earlier slot without G, the streams popped, whether
random bits were used, the branch target, the loop opened, stalls asked for, a trap to take after the commit,
poison consumed, and whether the bundle ends the context's turn. -/
structure Issue where
  pc : Word
  len : Nat
  slots : Nat
  slot : Nat
  words : List (BitVec 32)
  unit : Nat
  last : Option (Cls × Nat)
  twinned : Bool
  pops : List Nat
  sr : Bool
  checked : Bool
  target : Option Word
  opened : Option Loop
  stall : Nat
  after : Option (Byte × Word × Word)
  poisoned : Bool
  yields : Bool
  loads : Bool
  ends : Bool
  returns : Bool
  deriving DecidableEq, Repr

/-- A stored word of a core or an array that carries SEC-DED (R59, R240): a scratchpad row, a row of an accumulator tile, a
64-byte piece of a vector register, or the committed codes of a logical column. -/
inductive Stored where
  | spad (core bank row : Nat)
  | acc (core tile row : Nat)
  | vreg (core x r piece : Nat)
  | shadow (core arr col : Nat)
  deriving DecidableEq, Repr

/-- A codeword that array ECC corrected and that is to be written back: its sector, which half of it, and the ORIGIN of its record
(R32, R34). -/
structure WriteBack where
  sec : Nat
  half : Nat
  origin : Nat
  deriving DecidableEq, Repr

/-- What happens inside the device by chance, and no row of the table brings: an error of one bit or of two in a stored word
(R59, R240), a corrected error of an L2 slice (R368), a failed check of a result, of a unit or of an engine (R327), the other
failures, which are only reported (R342), a sector that leaves the cache of the application cores (R363), what the write of a
sector to its stack meets (R31), and a message-signalled interrupt of an endpoint behind the PCIe root port (R365). -/
inductive Chance where
  | bits (p : Stored) (double : Bool)
  | l2Bit (island : Nat)
  | result (core x i : Nat) (cause : Byte)
  | matrix (core : Nat) (cause : Byte)
  | crossbar (core arr : Nat) (cause : Byte)
  | stream (core x k : Nat)
  | ferry (core x q : Nat)
  | sound (core x q : Nat)
  | kv (core x : Nat)
  | note (cause : Byte) (loc : Nat)
  | evict (sec : Nat)
  | stackWrite (sec : Nat) (c0 c1 : WriteOutcome)
  | msi (hart id : Nat)
  deriving DecidableEq, Repr

/-- The whole device. -/
structure State where
  /-- External inputs and asynchronous events to happen next, in order (the model's own). -/
  agenda : List Instr
  /-- What is to happen by chance next (the model's own; R59, R240, R327, R363). -/
  chances : List Chance
  /-- How many free values have been taken (the model's own). -/
  free : Nat
  /-- 1.9 GHz cycles since reset. -/
  cycle : Nat
  /-- Codewords that are to be written back to the array (R32, R34). -/
  writeBacks : List WriteBack
  /-- The sectors that were read from or written to their stack in this cycle, with whether they were written (R31, R35). -/
  stackUse : List (Nat × Bool)
  /-- The core whose turn it is within the cycle (the model's own). -/
  cur : Nat
  /-- Whether the bundles of the cycle have issued and the other agents take the next step (the model's own). -/
  evTurn : Bool
  /-- How the slot that ran last ended (the model's own). -/
  slotEnd : SlotEnd
  /-- The bundle being issued. -/
  iss : Issue
  ctxs : Map Ctx
  cores : Map Core
  vregs : Map Vec
  /-- Poisoned 64-byte pieces of vector registers (R59), by eight times the register's key and the piece. -/
  vpoison : List Nat
  spad : Map Row
  acc : Map AccRow
  ztag : Map Bool
  arrays : Map XArray
  /-- The bytes of the HBM stacks, by physical address. -/
  mem : Memory
  /-- Sectors poisoned in the stacks. -/
  poison : List Nat
  l2 : Map L2Sector
  l2use : List Nat
  rdc : Map RdcSector
  /-- The cache of the application cores (R363). -/
  appCache : Map AppSector
  pins : List Pin
  linePins : List LinePin
  /-- The core, context and holder of every pin that has to wait at the end of the last cycle (the model's own: each wait is
  counted once in R368's counter of pin waits). -/
  pinWaits : List (Nat × Nat × Holder)
  joins : Nat
  launches : Map Launch
  nextLaunch : BitVec 32
  intake : Map (List Nat)
  saved : List Saved
  holds : List Hold
  slotsMapped : Map Nat
  sched : Sched
  hotRetired : Map Bool
  colls : List Coll
  soundSeq : Nat
  heldResults : List HeldResult
  links : Map Link
  hbm : Map Stack
  eths : Map Eth
  ramps : Map Ramp
  islands : Map Island
  regs : Regs
  /-- Corrected events of one location in the present window (R368), by location. -/
  errCounts : Map Nat
  /-- The locations and kinds that have logged their threshold in the present window (R368). -/
  errLogged : List Nat
  /-- Records of the error log that were made in this cycle, with their sources (R346). -/
  logDue : List (Nat × List Byte)
  /-- Records of the trace ring that were made in this cycle, with their kinds (R357). -/
  traceDue : List (Nat × List Byte)
  /-- How many 1 s windows of ERRTH have ended (R368). -/
  errWindow : Nat
  /-- Message-signalled interrupts raised to the application cores, newest last: the core and the identity (R365). -/
  interrupts : List (Nat × Nat)
  /-- The identities pending in the IMSIC of each application core (R365). -/
  imsic : Map (List Nat)
  /-- The value the last application-core or register access returned, or none for an access fault (R18, R366). -/
  hostData : Option Word
  /-- The checkpoint flash (R359, R373). -/
  flash : Map Byte
  /-- The checkpoint image's regions, as physical base, length and place in flash, in image order (R359). -/
  image : List (Nat × Nat × Nat)
  checkpointed : List Nat
  /-- The saved tasks and launches that the checkpoint image holds (R359). -/
  keptTasks : List Saved
  keptLaunches : List Launch
  /-- What this device has answered accesses from other devices, newest last (R282). -/
  replies : List WindowReply
  /-- What the device has sent to other devices, newest last (R281, R287). -/
  outbox : List Sent
  /-- The devices that traffic which arrived here for them, and which no port can carry on now, is still to be routed to, in the
  order of its arrival (R281). -/
  transit : List (BitVec 8)
  /-- The banks, by core, that have left a reservation table since the cycle's turns of the cores began: a bundle held on one issues
  in the next cycle (R61). -/
  freedBanks : List (Nat × Nat)
  deriving DecidableEq, Repr

/-! The reset values: those of the spec, and where the spec gives none the value the assumption log names. -/

/-- A generator before the task that will use it (R135). -/
def Rand.reset : Rand := { key := 0, ctr := 0, words := [] }

/-- An empty range. -/
def Range.reset : Range := { next := 0, fin := 0, owner := 0 }

/-- An empty walker. -/
def Walker.reset : Walker := { range := Range.reset, cur := none, outcome := .none, finished := false }

/-- An unconfigured, empty stream (R88). -/
def Stream.reset : Stream :=
  { cfg := false, started := false, halt := false, cause := 0, base := 0, fmt := 0, scl := false, kind := 0,
    loc := false, rowlen := 0, count := 0, str0 := 0, str1 := 0, ext := 0, sstr := 0, soff := 0, row := 0, off := 0,
    blk := 0, pend := [], pendPoison := [], pendLines := [], after := 0, entries := [], consumed := 0, kv := none }

/-- An empty engine queue (R53, R284). -/
def Queue.reset : Queue := { entries := [], halt := false, cause := 0 }

/-- A context that holds no task, with every register as at task start (R88). -/
def Ctx.reset : Ctx :=
  { task := none, pc := 0, regs := [], preds := [], vmode := 0, fflags := 0, streams := [], latches := [],
    flight := [], held := [], clock := 0, heldClock := 0, loop := none, rand := Rand.reset, randAt := 0, walker := Walker.reset, regions := [],
    bindings := [], tvec := 0, epc := 0, ecause := 0, einfo := 0, emask := 0, escr := 0, hnd := false,
    mxsat := 0, mxrag := 0, xbclip := 0, stepCount := 0, log := [], logNext := 0, syncRead := none, fq := [],
    sq := [], mq := [], xq := [], pending := [], blocked := .no, kv := .none, save := .no,
    victimOf := none, handlerStart := false, esc := none, area := none }

/-- A core after reset: nothing runs and nothing is reserved. -/
def Core.reset : Core :=
  { running := 0, idle := true, stall := 0, matrix := none, fallback := none, matrixLast := 3, matrixEnd := none, warmHold := 0,
    xbarLast := 3, xbarAt := none, ferryLast := 7,
    resv := [], tlb := [], icache := [], bkpt := [], watch := [], fusedOff := false,
    lentTo := none }

/-- An array after reset (R240): every column PROG, so none is ready. -/
def XArray.reset : XArray :=
  { avail := true, cells := [], remap := [], retired := [], shadow := [], shadowBad := [], colScale := [],
    off := [], gain := [], ready := [], vmask := [], pulses := [], cal := false, calsw := false, drift := false,
    force := false, mism := 0, trips := 0, tidedev := 0, tideDue := none, tideEnd := none, free := 0, busy := none }

/-- The queue scheduler after reset: its first pass comes after 10 µs. -/
def Sched.reset : Sched :=
  { due := 19000, passing := none, unmapped := [], notified := [], heard := [], returning := [], last := [], taking := [], newest := [] }

/-- A link after reset (R368). -/
def Link.reset : Link :=
  { en := false, up := false, far := 0, fleet := 0, replays := 0, retrains := 0, head := 0, tail := 0, ovf := 0,
    log := [] }

/-- A stack's registers after reset (R34): 24 hours, write-back on, an alert at 0x4000 activations. -/
def Stack.reset : Stack :=
  { scrubh := 24, wbcor := true, alertth := 0x4000, spares := [], scrubAt := 0, ahead := 0, atail := 0, aovf := 0,
    alog := [], thead := 0, ttail := 0, tovf := 0, tlog := [], acts := [], bankWait := [] }

/-- An Ethernet port after reset (R367). -/
def Eth.reset : Eth :=
  { ctl := 0, up := false, txbase := 0, rxbase := 0, txtail := 0, rxtail := 0, txhead := 0, rxhead := 0,
    stamps := [], dropped := 0, sent := [] }

/-- A ramp limiter after reset (R316): RAMPSTEP is 950. -/
def Ramp.reset : Ramp := { window := 0, step := 950, last := 0, dummiesLast := 0, count := 0, dummies := 0, waiting := [] }

/-- An island in service (R348). -/
def Island.reset : Island := { asked := false, resetting := false, resets := [], removed := false, walks := [] }

/-- The device registers after reset (R367, R368). -/
def Regs.reset : Regs :=
  { booted := false, romRun := false, hwUp := false, replace := false, taken := false, jready := false, fatal := false,
    fabid := 0, qtbase := 0, lead := 20,
    age := 1000, hotpar := 0, escbase := 0, eschead := 0, esctail := 0, esclost := 0, sdBusy := false,
    sdAsn := 0, sdAll := false, sdva := 0, sdnp := 0, savebase := [], savelen := [],
    grpbase := 0, ftimeout := 10000, elogbase := 0, eloghead := 0, eloglost := 0, ptpRun := false,
    ptpLocked := false, tsen := 0, adj := 0, ptpns := 0, ptpfrac := 0, ptplatch := [], jbase := 0, jnext := 1,
    jack := 0, jrdseq := 0, jlost := 0, pfDone := false, imgvalid := false, pfRefused := false, pfRefusedNow := false,
    pfActive := false, pcieOff := false, warning := false, errth := 0x0100_0100_0100_0100, inttgt := 0, trcctl := 0,
    trcbase := 0, trchead := 0, trctail := 0, trclost := 0, sevc := [], ckpttbl := [], route := [], fwin := [],
    pmc := [], xdriftp := [], xdriftBase := [], ecam := [], bootstat := 0, fwver := 0, meas := [], attErr := false,
    attnonce := 0, attbuf := 0, lastBoot := 0,
    devinfo := 0x0000_0000_1082_0000 }

/-- Nothing is being issued: a slot run by itself is the only slot of a four-slot bundle at address 0. -/
def Issue.reset : Issue :=
  { pc := 0, len := 16, slots := 1, slot := 0, words := [], unit := 0, last := none,
    twinned := false, pops := [], sr := false, checked := false, target := none, opened := none, stall := 0, after := none,
    poisoned := false, yields := false, loads := false, ends := false, returns := false }

/-- The device right after reset: no task, no program, memory with nothing listed, boot not yet done. -/
def State.reset : State :=
  { agenda := [], chances := [], free := 0, cycle := 0, writeBacks := [], stackUse := [], cur := 0,
    evTurn := false, slotEnd := .commit, iss := Issue.reset, ctxs := [], cores := [],
    vregs := [], vpoison := [], spad := [], acc := [], ztag := [], arrays := [], mem := [], poison := [], l2 := [], l2use := [],
    rdc := [], appCache := [], pins := [], linePins := [], pinWaits := [], joins := 0, launches := [], nextLaunch := 1, intake := [], saved := [],
    holds := [], slotsMapped := [], sched := Sched.reset, hotRetired := [], colls := [], soundSeq := 0,
    heldResults := [], links := [], hbm := [], eths := [], ramps := [], islands := [], regs := Regs.reset,
    errCounts := [], errLogged := [], logDue := [], traceDue := [], errWindow := 0, interrupts := [], imsic := [],
    hostData := some 0, flash := [], image := [], checkpointed := [], keptTasks := [], keptLaunches := [],
    replies := [], outbox := [], transit := [], freedBanks := [] }

end Sys2Proof.Machine
end

