-- ==== Sys2Proof/Machine/Bits.lean ====
section
/-! DEFINITION. The plain helpers of the machine: maps, byte memory, lanes, bytes and coordinates. -/

namespace Sys2Proof.Machine

/-- The value listed for `k`, if any: the first pair counts. -/
def mfind {α : Type} : Map α → Nat → Option α
  | [], _ => none
  | e :: t, k => if e.1 = k then some e.2 else mfind t k

/-- The value of `k`, or `d` where nothing is listed. -/
def mget {α : Type} (d : α) (m : Map α) (k : Nat) : α := (mfind m k).getD d

/-- The map without `k`. -/
def merase {α : Type} (m : Map α) (k : Nat) : Map α := m.filter (fun e => decide (e.1 ≠ k))

/-- Insertion in rising order of the keys. -/
def minsert {α : Type} : Map α → Nat → α → Map α
  | [], k, v => [(k, v)]
  | e :: t, k, v => if k < e.1 then (k, v) :: e :: t else e :: minsert t k v

/-- The map in which `k` has the value `v`. -/
def mset {α : Type} (m : Map α) (k : Nat) (v : α) : Map α := minsert (merase m k) k v

/-- What a byte of memory that nothing has written reads as (a choice of the model, assumption 3). -/
def unlistedByte : Byte := 0

/-- Reads one byte of memory. -/
def Mem.read (m : Memory) (a : Nat) : Byte := mget unlistedByte m a

/-- Writes one byte of memory; writing what an unlisted address reads as removes the entry. -/
def Mem.write (m : Memory) (a : Nat) (b : Byte) : Memory :=
  if b = unlistedByte then merase m a else mset m a b

/-- The canonical form: addresses strictly rising, and no entry that says what an unlisted address says. -/
abbrev Mem.wf (m : Memory) : Prop :=
  m.Pairwise (fun e f => e.1 < f.1) ∧ ∀ e ∈ m, e.2 ≠ unlistedByte

/-- Packs `n` fields of `w` bits, field 0 lowest. -/
def packNat (w : Nat) (f : Nat → Nat) : Nat → Nat
  | 0 => 0
  | n + 1 => packNat w f n + (f n % 2 ^ w) * 2 ^ (w * n)

/-- Lane `j` of a vector (R90). -/
def lane (v : Vec) (j : Nat) : Lane := v.extractLsb' (32 * j) 32

/-- The vector of 128 lanes. -/
def ofLanes (f : Nat → Lane) : Vec := BitVec.ofNat 4096 (packNat 32 (fun j => (f j).toNat) 128)

/-- The predicate of 128 bits. -/
def ofBits (f : Nat → Bool) : Pred := BitVec.ofNat 128 (packNat 1 (fun j => (f j).toNat) 128)

/-- Lanes of `new` where the mask is 1, of `old` elsewhere (R90). -/
def mergeLanes (mask : Pred) (new old : Vec) : Vec :=
  ofLanes (fun j => if mask.getLsbD j then lane new j else lane old j)

/-- Lanes of `v` where the mask is 1, 0 elsewhere (R90: what a latch receives). -/
def maskLanes (mask : Pred) (v : Vec) : Vec := ofLanes (fun j => if mask.getLsbD j then lane v j else 0)

/-- Byte `k` of a value. -/
def byteOf {w : Nat} (v : BitVec w) (k : Nat) : Byte := v.extractLsb' (8 * k) 8

/-- The first `n` bytes of a value, lowest first (R3). -/
def bytesOf {w : Nat} (v : BitVec w) (n : Nat) : List Byte := (List.range n).map (byteOf v)

/-- The number whose bytes are the list's, lowest first (R3). -/
def natOfBytes : List Byte → Nat
  | [] => 0
  | b :: t => b.toNat + 256 * natOfBytes t

/-- A value of `w` bits from bytes, lowest first (R3). -/
def ofBytes (w : Nat) (l : List Byte) : BitVec w := BitVec.ofNat w (natOfBytes l)

/-- `n` bytes of a list from `k`, with zeros past its end. -/
def slice (l : List Byte) (k n : Nat) : List Byte := (List.range n).map (fun i => (l.drop k).getD i 0)

/-- `n` bytes read as a number from offset `k`. -/
def field (l : List Byte) (k n : Nat) : Nat := natOfBytes ((l.drop k).take n)

/-- Bits `[hi:lo]` of a number. -/
def bits (v hi lo : Nat) : Nat := v / 2 ^ lo % 2 ^ (hi + 1 - lo)

/-- A signed number as a 64-bit word. -/
def wordOf (i : Int) : Word := BitVec.ofInt 64 i

/-- Cuts a list into pieces of `n`, at most `k` of them. -/
def chunks {α : Type} (n : Nat) : Nat → List α → List (List α)
  | 0, _ => []
  | k + 1, l => if l.isEmpty then [] else l.take n :: chunks n k (l.drop n)

/-- The whole of 4,096 bits as 512 bytes. -/
def vecBytes (v : Vec) : List Byte := bytesOf v 512

/-- 512 bytes as a vector. -/
def ofVecBytes (l : List Byte) : Vec := ofBytes 4096 (l.take 512)

/-- Bits 63:0 of a wide value (R91). -/
def lo64 (v : Vec) : Word := v.setWidth 64

/-- A scalar in bits 63:0 of a wide latch (R91). -/
def wide (v : Word) : Vec := v.setWidth 4096

/-- The die of a core (R7). -/
def coreDie (core : Nat) : Nat := core / 256 % 2

/-- The column of a core (R7). -/
def coreX (core : Nat) : Nat := core % 16

/-- The row of a core (R7). -/
def coreY (core : Nat) : Nat := core / 16 % 16

/-- The island of a core within the device (R7). -/
def coreIsland (core : Nat) : Nat := 16 * coreDie core + 4 * (coreY core / 4) + coreX core / 4

/-- The index of a core within its island (R45, R306). -/
def islandIndex (core : Nat) : Nat := 4 * (coreY core % 4) + coreX core % 4

/-- The core of an index within an island (R7, R306). -/
def islandCore (island i : Nat) : Nat :=
  256 * (island / 16) + 16 * (4 * (island % 16 / 4) + i / 4) + 4 * (island % 16 % 4) + i % 4

/-- The checkerboard parity of a core (R7). -/
def coreParity (core : Nat) : Nat := (coreX core + coreY core) % 2

/-- The shoal above a core (R9). -/
def coreShoal (core : Nat) : Nat := 8 * coreDie core + coreIsland core % 16 / 2

/-- The orthogonal neighbour in direction 0 N, 1 E, 2 S, 3 W, where the grid has one (R7, R15). -/
def neighbour (core dir : Nat) : Option Nat :=
  match dir with
  | 0 => if coreY core = 0 then none else some (core - 16)
  | 1 => if coreX core = 15 then none else some (core + 1)
  | 2 => if coreY core = 15 then none else some (core + 16)
  | _ => if coreX core = 0 then none else some (core - 1)

/-- The key of a context in the maps (R9). -/
def cid (core x : Nat) : Nat := 4 * core + x

/-- The die on which a physical address is homed (R10). -/
def homeDie (pa : Nat) : Nat := pa / 0x40_0000_0000 % 2

/-- An address the stacks back (R18). -/
def backed (pa : Nat) : Bool := pa < 0x80_0000_0000

/-- The stack of a physical address in the device (R19). -/
def stackOf (pa : Nat) : Nat :=
  4 * homeDie pa + (bits pa 10 9).xor (bits pa 22 21)

/-- The slice, of its die, that homes a physical address (R37). -/
def sliceOf (pa : Nat) : Nat := (bits pa 12 9).xor (bits pa 16 13)

/-- A physical address from the place of a codeword (R19): stack, channel, pseudo-channel, bank, row, line, sector. -/
def placePa (stack chan pc bank row line sec : Nat) : Nat :=
  0x40_0000_0000 * (stack / 4) + 64 * sec + 512 * (Nat.xor (stack % 4) line) + 2048 * chan + 65536 * pc +
    131072 * bank + 2097152 * line + 8388608 * row

end Sys2Proof.Machine
end

