-- ==== Sys2Proof/Machine/Access.lean ====
section
/-! DEFINITION. The one way to reach each register: contexts, cores, arrays, links and stacks by number, the
register files with their hard-wired members, the latches, the predicates and the PTP clock. -/

namespace Sys2Proof.Machine

/-- The context `x` of a core (R84). -/
def State.ctx (s : State) (core x : Nat) : Ctx := mget Ctx.reset s.ctxs (cid core x)

/-- Changes the context `x` of a core. -/
def State.updCtx (s : State) (core x : Nat) (f : Ctx → Ctx) : State :=
  { s with ctxs := mset s.ctxs (cid core x) (f (s.ctx core x)) }

/-- A core (R12). -/
def State.core (s : State) (core : Nat) : Core := mget Core.reset s.cores core

/-- Changes a core. -/
def State.updCore (s : State) (core : Nat) (f : Core → Core) : State :=
  { s with cores := mset s.cores core (f (s.core core)) }

/-- The running context of the core whose turn it is (R84). -/
def State.x (s : State) : Nat := (s.core s.cur).running

/-- The running context of the core whose turn it is. -/
def State.me (s : State) : Ctx := s.ctx s.cur s.x

/-- Changes the running context of the core whose turn it is. -/
def State.upd (s : State) (f : Ctx → Ctx) : State := s.updCtx s.cur s.x f

/-- Changes the record of the bundle being issued. -/
def State.updIss (s : State) (f : Issue → Issue) : State := { s with iss := f s.iss }

/-- Changes the device registers. -/
def State.updRegs (s : State) (f : Regs → Regs) : State := { s with regs := f s.regs }

/-- A stream register of a context (R88). -/
def Ctx.stream (c : Ctx) (k : Nat) : Stream := mget Stream.reset c.streams k

/-- Changes a stream register. -/
def Ctx.setStream (c : Ctx) (k : Nat) (q : Stream) : Ctx := { c with streams := mset c.streams k q }

/-- A ferry queue of a context (R44). -/
def Ctx.ferryQ (c : Ctx) (q : Nat) : Queue := mget Queue.reset c.fq q

/-- Changes a ferry queue. -/
def Ctx.setFerryQ (c : Ctx) (q : Nat) (v : Queue) : Ctx := { c with fq := mset c.fq q v }

/-- A Sound-engine queue of a context (R284). -/
def Ctx.soundQ (c : Ctx) (q : Nat) : Queue := mget Queue.reset c.sq q

/-- Changes a Sound-engine queue. -/
def Ctx.setSoundQ (c : Ctx) (q : Nat) (v : Queue) : Ctx := { c with sq := mset c.sq q v }

/-- The numbers of the commands in a context's Sound-engine queues. -/
def Ctx.soundSeqs (c : Ctx) : List Nat :=
  (List.range 2).flatMap (fun q => (c.soundQ q).entries.filterMap (fun e => match e with
    | .sound k => some k.seq
    | _ => none))

/-- Reads a scalar register; `s0` reads as 0 (R88). -/
def Ctx.readS (c : Ctx) (r : Nat) : Word := if r = 0 then 0 else mget 0 c.regs r

/-- Writes a scalar register; a write to `s0` is discarded (R88). -/
def Ctx.writeS (c : Ctx) (r : Nat) (v : Word) : Ctx := if r = 0 then c else { c with regs := mset c.regs r v }

/-- Reads a predicate; `p0` reads as all ones (R88). -/
def Ctx.readP (c : Ctx) (r : Nat) : Pred := if r = 0 then BitVec.allOnes 128 else mget 0 c.preds r

/-- Writes a predicate; a write to `p0` is discarded (R88). -/
def Ctx.writeP (c : Ctx) (r : Nat) (v : Pred) : Ctx := if r = 0 then c else { c with preds := mset c.preds r v }

/-- Where a vector register lies in the vector register files. -/
def vkey (core x r : Nat) : Nat := 64 * cid core x + r

/-- Reads a vector register (R88). -/
def State.readV (s : State) (core x r : Nat) : Vec := mget 0 s.vregs (vkey core x r)

/-- Writes a vector register. -/
def State.writeV (s : State) (core x r : Nat) (v : Vec) : State := { s with vregs := mset s.vregs (vkey core x r) v }

/-- A context that a save has stopped issues nothing more (R332). -/
def SavePhase.halted : SavePhase → Bool
  | .stopped _ => true
  | _ => false

/-- Why a victim is saved (R337): 0 for pre-emption, 2 for a power failure. -/
def State.saveReason (s : State) : Nat := if s.regs.pfActive then 2 else 0

/-- The active predicate of VMODE (R89). -/
def Ctx.ap (c : Ctx) : Pred := c.readP (bits c.vmode.toNat 2 0)

/-- The integer element width of VMODE in bits (R89). -/
def Ctx.iw (c : Ctx) : Nat :=
  match bits c.vmode.toNat 4 3 with
  | 0 => 32
  | 1 => 16
  | _ => 8

/-- The float format code of VMODE: 0 FP32, 1 BF16, 2 FP16 (R89). -/
def Ctx.ff (c : Ctx) : Nat := bits c.vmode.toNat 6 5

/-- Whether integer elements are unsigned (R89). -/
def Ctx.us (c : Ctx) : Bool := c.vmode.getLsbD 7

/-- The float rounding mode of VMODE (R89). -/
def Ctx.rm (c : Ctx) : Nat := bits c.vmode.toNat 10 8

/-- Whether a VMODE value holds no reserved value in IW, FF or RM (R89). -/
def vmodeOk (v : Nat) : Bool := bits v 4 3 != 3 && bits v 6 5 != 3 && bits v 10 8 < 5

/-- An array by its global number (R234). -/
def State.array (s : State) (n : Nat) : XArray := mget XArray.reset s.arrays n

/-- Changes an array. -/
def State.updArray (s : State) (n : Nat) (f : XArray → XArray) : State :=
  { s with arrays := mset s.arrays n (f (s.array n)) }

/-- A link: 0-17 the Strait ports, 18 the Narrows, which is always enabled (R367, R368). -/
def State.link (s : State) (n : Nat) : Link :=
  mget (if n = 18 then { Link.reset with en := true } else Link.reset) s.links n

/-- Changes a link. -/
def State.updLink (s : State) (n : Nat) (f : Link → Link) : State := { s with links := mset s.links n (f (s.link n)) }

/-- A stack (R9). -/
def State.stack (s : State) (n : Nat) : Stack := mget Stack.reset s.hbm n

/-- Changes a stack. -/
def State.updStack (s : State) (n : Nat) (f : Stack → Stack) : State := { s with hbm := mset s.hbm n (f (s.stack n)) }

/-- An Ethernet port (R373). -/
def State.eth (s : State) (n : Nat) : Eth := mget Eth.reset s.eths n

/-- Changes an Ethernet port. -/
def State.updEth (s : State) (n : Nat) (f : Eth → Eth) : State := { s with eths := mset s.eths n (f (s.eth n)) }

/-- An island's ramp limiter (R316). -/
def State.ramp (s : State) (n : Nat) : Ramp := mget Ramp.reset s.ramps n

/-- Changes an island's ramp limiter. -/
def State.updRamp (s : State) (n : Nat) (f : Ramp → Ramp) : State := { s with ramps := mset s.ramps n (f (s.ramp n)) }

/-- An island's service state (R348). -/
def State.island (s : State) (n : Nat) : Island := mget Island.reset s.islands n

/-- Changes an island's service state. -/
def State.updIsland (s : State) (n : Nat) (f : Island → Island) : State :=
  { s with islands := mset s.islands n (f (s.island n)) }

/-- A launch by its id. -/
def State.launch (s : State) (id : Nat) : Option Launch := mfind s.launches id

/-- Changes a launch, if it is known. -/
def State.updLaunch (s : State) (id : Nat) (f : Launch → Launch) : State :=
  match mfind s.launches id with
  | some l => { s with launches := mset s.launches id (f l) }
  | none => s

/-- Whether the power-failure sequence runs or has ended with the device idle (R358, R360). -/
def Regs.failing (r : Regs) : Bool := r.pfActive || r.pfDone

/-- Adds to a performance counter of an island (R368). -/
def State.count (s : State) (island n k : Nat) : State :=
  s.updRegs (fun r => { r with pmc := mset r.pmc (8 * island + n) (mget 0 r.pmc (8 * island + n) + BitVec.ofNat 64 k) })

/-- PTP time in nanoseconds, seconds × 10^9 + nanoseconds (R180, R350). -/
def State.now (s : State) : Word := BitVec.ofNat 64 s.regs.ptpns

/-- PTP nanoseconds within the second (R350). -/
def State.nsec (s : State) : Nat := s.regs.ptpns % 1000000000

/-- PTP seconds, 48 bits (R350). -/
def State.secs (s : State) : Nat := s.regs.ptpns / 1000000000 % 2 ^ 48

/-- The launch of the task on a context. -/
def State.launchOf (s : State) (core x : Nat) : Option Launch := (s.ctx core x).task.bind (fun t => s.launch t.launch)

/-- The address-space number of a context's task (R20). -/
def State.asnOf (s : State) (core x : Nat) : Nat := (s.launchOf core x).elim 0 (·.asn)

/-- The page-table root of a context's task (R20). -/
def State.rootOf (s : State) (core x : Nat) : Nat := (s.launchOf core x).elim 0 (·.ptroot)

/-- The heat class of a launch (R298). -/
def Record.heat (r : Record) : Nat := bits r.shape.toNat 5 4

/-- The KEEP bit of a launch (R298). -/
def Record.keep (r : Record) : Bool := r.shape.getLsbD 6

/-- The OVERLAP bit of a launch (R298). -/
def Record.overlap (r : Record) : Bool := r.shape.getLsbD 7

/-- The heat class of a context's task. -/
def State.heatOf (s : State) (core x : Nat) : Nat := (s.launchOf core x).elim 0 (·.rcd.heat)

/-- Takes the next free value's number (a value the spec leaves open). -/
def State.takeFree (s : State) : State := { s with free := s.free + 1 }

/-- The Dirty, Clean or unfilled sector key of a remote-data cache. -/
def rdcKey (die sec : Nat) : Nat := 0x2_0000_0000 * die + sec

/-- The scratchpad row key: core, physical bank, row (R56). -/
def rowKey (core bank row : Nat) : Nat := 32768 * core + 1024 * bank + row

/-- The accumulator row key: core, physical tile, row (R93). -/
def accKey (core tile row : Nat) : Nat := 64 * (16 * core + tile) + row

end Sys2Proof.Machine
end

