-- ==== Sys2Proof/Machine/Memory.lean ====
section
/-! DEFINITION. The memory side of the device: stacks, L2 slices, remote-data caches, translation, scratchpad and the
local address map (chapters 2 to 4 of the spec). -/

namespace Sys2Proof.Machine

/-! ## Sectors at their home -/

/-- A sector as the stack holds it. -/
def stackSector (m : Memory) (sec : Nat) : Sector :=
  BitVec.ofNat 512 (natOfBytes ((List.range 64).map (fun k => Mem.read m (64 * sec + k))))

/-- Stores a whole sector in the stack. -/
def storeStack (m : Memory) (sec : Nat) (v : Sector) : Memory :=
  (List.range 64).foldl (fun m k => Mem.write m (64 * sec + k) (byteOf v k)) m

/-- The bytes a 64-bit byte mask selects, as a mask of bits. -/
def byteMask (mask : BitVec 64) : Sector :=
  BitVec.ofNat 512 (packNat 8 (fun k => if mask.getLsbD k then 255 else 0) 64)

/-- The bytes of `new` that the mask selects, laid over `old`. -/
def mergeBytes (mask : BitVec 64) (new old : Sector) : Sector := (new &&& byteMask mask) ||| (old &&& ~~~byteMask mask)

/-- Every byte of a sector. -/
def allBytes : BitVec 64 := BitVec.allOnes 64

/-- Bytes `lo` to `lo + n - 1` of a sector. -/
def byteRange (lo n : Nat) : BitVec 64 := BitVec.ofNat 64 ((2 ^ n - 1) * 2 ^ lo)

/-- What a read at the home slice returns: the value of a sector and its poison mark (R36, R38). -/
def State.homeSector (s : State) (sec : Nat) : Sector × Bool :=
  match mfind s.l2 sec with
  | some e => (e.data, e.poison)
  | none => (stackSector s.mem sec, s.poison.contains sec)

/-- Writes a sector back to its stack with its poison mark (R32, R39); no corrected codeword of it is to be written back any more. -/
def State.toStack (s : State) (sec : Nat) (v : Sector) (bad : Bool) : State :=
  { s with stackUse := s.stackUse ++ [(sec, true)],
           writeBacks := s.writeBacks.filter (fun w => w.sec != sec),
           mem := storeStack s.mem sec v,
           poison := if bad then (if s.poison.contains sec then s.poison else s.poison ++ [sec])
                     else s.poison.filter (fun k => k != sec) }

/-- The sectors of a line (R36). -/
def lineSectors (line : Nat) : List Nat := (List.range 8).map (fun k => 8 * line + k)

/-- The set of an L2 line: its die, slice and O[21:13] (R37). -/
def l2Set (line : Nat) : Nat × Nat × Nat := (homeDie (512 * line), sliceOf (512 * line), bits (512 * line) 21 13)

/-- The set of a line in a remote-data cache bank (R37). -/
def rdcSet (line : Nat) : Nat × Nat := (sliceOf (512 * line), bits (512 * line) 19 13)

/-- Whether a line is pinned in a die's slice, for a line homed there, or in its remote-data cache: by a core of that die
(R42). -/
def State.linePinned (s : State) (die line : Nat) : Bool := s.linePins.any (fun p => p.line == line && coreDie p.core == die)

/-- The Dirty sectors of an L2 line go to the stack and become Clean (R39, R150). -/
def State.cleanLine (s : State) (line : Nat) : State :=
  (lineSectors line).foldl (fun s sec => match mfind s.l2 sec with
    | some e => if e.dirty then { (s.toStack sec e.data e.poison) with l2 := mset s.l2 sec { e with dirty := false } }
                else s
    | none => s) s

/-- An L2 eviction: the Dirty sectors are written back and the line leaves the slice (R39). -/
def State.evictLine (s : State) (line : Nat) : State :=
  let s := s.cleanLine line
  { s with l2 := (lineSectors line).foldl (fun m sec => merase m sec) s.l2,
           l2use := s.l2use.filter (fun k => k != line) }

/-- Makes a line the most recently used of its set, first evicting the least recently used unpinned line of a set
whose 16 ways are taken (R37, R39); R42 never lets all of them be pinned. -/
def State.useLine (s : State) (line : Nat) : State :=
  if s.l2use.contains line then { s with l2use := s.l2use.filter (fun k => k != line) ++ [line] }
  else
    let ways := s.l2use.filter (fun k => l2Set k == l2Set line)
    let s := if ways.length < 16 then s
      else match ways.find? (fun k => !s.linePinned (homeDie (512 * line)) k) with
        | some v => s.evictLine v
        | none => s
    { s with l2use := s.l2use ++ [line] }

/-- A read at a home slice: the sector is filled from its stack when it is Invalid (R38), which counts a miss (R368), and its
line becomes the most recently used (R39). -/
def State.fillHome (s : State) (sec : Nat) : State :=
  if !backed (64 * sec) then s else
  match mfind s.l2 sec with
  | some _ => s.useLine (sec / 8)
  | none =>
    let v := s.homeSector sec
    let s := s.useLine (sec / 8)
    let s := s.count (16 * homeDie (64 * sec) + sliceOf (64 * sec)) 7 1
    { s with l2 := mset s.l2 sec { data := v.1, dirty := false, poison := v.2 }, stackUse := s.stackUse ++ [(sec, false)] }

/-- Writes bytes of a sector at its home slice (R38). A whole-sector write does not read the stack and clears poison
(R32); `bad` says that the bytes written are themselves poisoned. An address that no stack backs takes no write (R18). -/
def State.homeWrite (s : State) (sec : Nat) (mask : BitVec 64) (v : Sector) (bad : Bool) : State :=
  if mask = 0 ∨ !backed (64 * sec) then s else
  let s := if mask = allBytes then s.useLine (sec / 8) else s.fillHome sec
  let old := s.homeSector sec
  { s with l2 := mset s.l2 sec { data := mergeBytes mask v old.1, dirty := true,
                                 poison := bad || (old.2 && mask != allBytes) } }

/-! ## The remote-data caches (R40, R41) -/

/-- Writes back the masked bytes of a remote-data cache sector, with its poison (R32): Dirty-full becomes Clean,
Dirty-partial Invalid. -/
def State.rdcClean (s : State) (die sec : Nat) : State :=
  match mfind s.rdc (rdcKey die sec) with
  | some e =>
    if e.mask = 0 then s else
    let s := s.homeWrite sec e.mask e.data e.poison
    { s with rdc := if e.full then mset s.rdc (rdcKey die sec) { e with mask := 0 } else merase s.rdc (rdcKey die sec) }
  | none => s

/-- The Dirty bytes of a sector are written back and the sector becomes Invalid (R41, R73). -/
def State.rdcDrop (s : State) (die sec : Nat) : State :=
  let s := s.rdcClean die sec
  { s with rdc := merase s.rdc (rdcKey die sec) }

/-- Eviction of a line of a remote-data cache (R41). -/
def State.rdcEvict (s : State) (die line : Nat) : State := (lineSectors line).foldl (fun s sec => s.rdcDrop die sec) s

/-- The lines a remote-data cache holds, in the order their sectors are listed. -/
def State.rdcLines (s : State) (die : Nat) : List Nat :=
  ((s.rdc.filter (fun e => e.1 / 0x2_0000_0000 == die)).map (fun e => e.1 % 0x2_0000_0000 / 8)).dedup

/-- Makes room for a line in its 16-way set (R37): the first listed unpinned line of a full set leaves (R41: any
line may be evicted at any time). -/
def State.rdcRoom (s : State) (die line : Nat) : State :=
  let held := s.rdcLines die
  if held.contains line then s
  else
    let ways := held.filter (fun k => rdcSet k == rdcSet line)
    if ways.length < 16 then s
    else match ways.find? (fun k => !s.linePinned die k) with
      | some v => s.rdcEvict die v
      | none => s

/-- A read through a remote-data cache fills an Invalid or Dirty-partial sector (R40). -/
def State.rdcFill (s : State) (die sec : Nat) : State :=
  match mfind s.rdc (rdcKey die sec) with
  | some e =>
    if e.full then s else
    let s := s.fillHome sec
    let h := s.homeSector sec
    { s with rdc := mset s.rdc (rdcKey die sec) { e with data := mergeBytes e.mask e.data h.1, full := true,
                                                         poison := e.poison || (h.2 && e.mask != allBytes) } }
  | none =>
    let s := (s.rdcRoom die (sec / 8)).fillHome sec
    let h := s.homeSector sec
    { s with rdc := mset s.rdc (rdcKey die sec) { data := h.1, full := true, mask := 0, poison := h.2 } }

/-- A core store through a remote-data cache: it sets its bytes in the mask and never causes a fill (R40). -/
def State.rdcWrite (s : State) (die sec : Nat) (mask : BitVec 64) (v : Sector) : State :=
  let s := s.rdcRoom die (sec / 8)
  let e := mget { data := 0, full := false, mask := 0, poison := false } s.rdc (rdcKey die sec)
  { s with rdc := mset s.rdc (rdcKey die sec)
                              { e with data := mergeBytes mask v e.data, mask := e.mask ||| mask, poison := e.poison && mask != allBytes } }

/-- A ferry write to a remote line also updates a Clean or Dirty copy, without changing its mask (R41). -/
def State.rdcThrough (s : State) (die sec : Nat) (mask : BitVec 64) (v : Sector) (bad : Bool) : State :=
  match mfind s.rdc (rdcKey die sec) with
  | some e => { s with rdc := mset s.rdc (rdcKey die sec)
                              { e with data := mergeBytes mask v e.data, poison := bad || (e.poison && mask != allBytes) } }
  | none => s

/-! ## Accesses by agents of a die -/

/-- What a load, tile fetch or ferry read by an agent of a die returns (R16, R40). -/
def State.viewSector (s : State) (die sec : Nat) : Sector × Bool :=
  if homeDie (64 * sec) = die then s.homeSector sec
  else match mfind s.rdc (rdcKey die sec) with
    | some e => if e.full then (e.data, e.poison)
                else (mergeBytes e.mask e.data (s.homeSector sec).1, e.poison || ((s.homeSector sec).2 && e.mask != allBytes))
    | none => s.homeSector sec

/-- The caches after that read. -/
def State.touchSector (s : State) (die sec : Nat) : State :=
  if homeDie (64 * sec) = die then s.fillHome sec else s.rdcFill die sec

/-- A store by a context of a die (R16, R40). -/
def State.coreWrite (s : State) (die sec : Nat) (mask : BitVec 64) (v : Sector) : State :=
  if homeDie (64 * sec) = die then s.homeWrite sec mask v false else s.rdcWrite die sec mask v

/-- A write by a ferry of a die: at the home slice, through any copy of a remote line (R41). -/
def State.ferryWrite (s : State) (die sec : Nat) (mask : BitVec 64) (v : Sector) (bad : Bool) : State :=
  let s := s.homeWrite sec mask v bad
  if homeDie (64 * sec) = die then s else s.rdcThrough die sec mask v bad

/-- The sectors that `n` bytes from `a` touch. -/
def sectorsOf (a n : Nat) : List Nat :=
  if n = 0 then [] else (List.range ((a + n - 1) / 64 - a / 64 + 1)).map (fun k => a / 64 + k)

/-- The part of a byte string written at `a` that falls in a sector: the mask and the bytes in place. -/
def pieceOf (a : Nat) (b : List Byte) (en : List Bool) (sec : Nat) : BitVec 64 × Sector :=
  let at' := fun k => if 64 * sec + k < a then b.length else 64 * sec + k - a
  (BitVec.ofNat 64 (packNat 1 (fun k => if at' k < b.length && en.getD (at' k) true then 1 else 0) 64),
   BitVec.ofNat 512 (packNat 8 (fun k => (b.getD (at' k) 0).toNat) 64))

/-- Bytes at physical addresses as the home slices hold them, with poison (R65: agents that use no cache). -/
def State.homeBytes (s : State) (pa n : Nat) : List Byte × Bool :=
  (((sectorsOf pa n).flatMap (fun k => bytesOf (s.homeSector k).1 64)).drop (pa % 64) |>.take n,
   (sectorsOf pa n).any (fun k => (s.homeSector k).2))

/-- The home slices after a read of bytes at physical addresses (R38, R39). -/
def State.touchBytes (s : State) (pa n : Nat) : State := (sectorsOf pa n).foldl State.fillHome s

/-- A read of bytes at physical addresses at the home slices: the bytes, whether any is poisoned, and the slices after it. -/
def State.readHome (s : State) (pa n : Nat) : (List Byte × Bool) × State := (s.homeBytes pa n, s.touchBytes pa n)

/-- Writes bytes at physical addresses at the home slices. -/
def State.homeStore (s : State) (pa : Nat) (b : List Byte) : State :=
  (sectorsOf pa b.length).foldl (fun s k => let p := pieceOf pa b [] k; s.homeWrite k p.1 p.2 false) s

/-- Eight bytes at a physical address at the home slice. -/
def State.homeWord (s : State) (pa : Nat) : Word := ofBytes 64 (s.homeBytes pa 8).1

/-! ## Translation (R20-R26) -/

/-- A canonical virtual address (R20). -/
def canonical (va : Word) : Bool := bits va.toNat 63 57 == if va.getLsbD 56 then 127 else 0

/-- The outcome of a walk: the leaf, as a TLB entry, with the address of its page-table entry, or a cause. -/
inductive Walk where
  | leaf (e : TlbEntry) (pte : Nat)
  | fault (cause : Byte)
  deriving DecidableEq, Repr

/-- Whether a page-table entry is malformed at a level (R21, R22). -/
def pteBad (e level : Nat) : Bool :=
  bits e 63 52 != 0 ||
  (if bits e 1 1 == 1 then
     level ≥ 2 || (level == 0 && bits e 11 8 > 8) || (level == 1 && bits e 11 8 < 9) ||
       bits e 51 12 % 2 ^ bits e 11 8 != 0
   else level == 0 || bits e 11 2 != 0)

/-- The walker that an island's cores and engines use, and what it has cached: whether a non-leaf entry of an address space
is held for the range of an address (R25). -/
def State.cachedNode (s : State) (walker : Option Nat) (asn va level pte : Nat) : Option Nat :=
  walker.bind (fun n => ((s.island n).walks.find? (fun c =>
    c.asn == asn && c.level == level && c.pte == pte && c.va == va / 2 ^ (12 + 9 * level) * 2 ^ (12 + 9 * level))).map (·.node))

/-- Keeps a non-leaf entry in a walker (R25). -/
def State.cacheNode (s : State) (walker : Option Nat) (asn va level pte node : Nat) : State :=
  match walker with
  | none => s
  | some n => s.updIsland n (fun i => { i with walks := i.walks ++
      [{ asn := asn, level := level, va := va / 2 ^ (12 + 9 * level) * 2 ^ (12 + 9 * level), pte := pte, node := node }] })

/-- What one level of a walk finds: the next node, or the end of the walk. -/
inductive NodeRead where
  | next (node : Nat)
  | done (w : Walk)
  deriving DecidableEq, Repr

/-- Reads the entry of a node at its home slice, or takes it from the walker's cache of non-leaf entries (R20, R24, R25). An
entry with V = 0 is not present whatever its other bits hold, and a node that no stack backs raises 0x46 (assumption 117). -/
def State.readNode (s : State) (walker : Option Nat) (asn va node level : Nat) : NodeRead × State :=
  let pte := node + 8 * bits va (12 + 9 * level + 8) (12 + 9 * level)
  match s.cachedNode walker asn va level pte with
  | some next => (.next next, s)
  | none =>
    if !backed pte then (.done (.fault 0x46), s)
    else
      let r := s.readHome pte 8
      let e := natOfBytes r.1.1
      if r.1.2 then (.done (.fault 0x48), r.2)
      else if bits e 0 0 = 0 then (.done (.fault 0x40), r.2)
      else if pteBad e level then (.done (.fault 0x45), r.2)
      else if bits e 1 1 = 1 then
        let k := bits e 11 8
        (.done (.leaf { asn := asn, gl := bits e 5 5 == 1, va := va / 2 ^ (12 + k) * 2 ^ (12 + k), k := k,
                        pa := bits e 51 12 * 4096, rd := bits e 2 2 == 1, wr := bits e 3 3 == 1, ex := bits e 4 4 == 1,
                        dy := bits e 7 7 == 1 } pte), r.2)
      else (.next (bits e 51 12 * 4096), r.2.cacheNode walker asn va level pte (bits e 51 12 * 4096))

/-- Walks the tree from a node at a level (R20). -/
def State.walk (s : State) (walker : Option Nat) (asn va : Nat) : Nat → Nat → Walk × State
  | node, 0 => match s.readNode walker asn va node 0 with
    | (.done w, s) => (w, s)
    | (.next _, s) => (.fault 0x45, s)
  | node, l + 1 => match s.readNode walker asn va node (l + 1) with
    | (.done w, s) => (w, s)
    | (.next n, s) => State.walk s walker asn va n l

/-- The permission an access lacks, if any (R23). -/
def permFault (e : TlbEntry) : AccessKind → Option Byte
  | .read => if e.rd then none else some 0x42
  | .write => if e.wr then none else some 0x41
  | .fetch => if e.ex then none else some 0x43
  | .atomic => if !e.rd then some 0x42 else if !e.wr then some 0x41 else none

/-- Whether an access writes, so that DY must be set (R24). -/
def accWrites : AccessKind → Bool
  | .write | .atomic => true
  | _ => false

/-- Whether a TLB entry translates an address of an address space (R25). -/
def TlbEntry.covers (e : TlbEntry) (asn va : Nat) : Bool :=
  (e.gl || e.asn == asn) && e.va == va / 2 ^ (12 + e.k) * 2 ^ (12 + e.k)

/-- Sets AC, and DY on a write, in a leaf at its home slice (R24). -/
def State.setAcDy (s : State) (pte : Nat) (w : Bool) : State :=
  let old := s.homeWord pte
  let new := old ||| (if w then 0xC0 else 0x40)
  if new = old then s else s.homeStore pte (bytesOf new 8)

/-- Who asks for a translation (R25): a core through its TLB and its island's walker, an engine of an island through its walker
alone, or an agent that no walker serves, which reads every entry. -/
inductive Asker where
  | core (n : Nat)
  | engine (island : Nat)
  | bare
  deriving DecidableEq, Repr

/-- The walker that serves an asker. -/
def Asker.walker : Asker → Option Nat
  | .core n => some (coreIsland n)
  | .engine n => some n
  | .bare => none

/-- The physical address of a virtual address by its leaf. -/
def TlbEntry.addr (e : TlbEntry) (va : Nat) : Nat := e.pa + va % 2 ^ (12 + e.k)

/-- Whether an access needs the DY bit of a leaf to be set: a write does, a translation that needs no permission does not. -/
def writes? (k : Option AccessKind) : Bool := k.any accWrites

/-- Whether an asker's TLB translates an address for an access: on the first write through a leaf that is not yet dirty it does
not, so that the walk sets DY (R24). -/
def State.tlbHit (s : State) (by' : Asker) (asn va : Nat) (k : Option AccessKind) : Option TlbEntry :=
  match by' with
  | .core c => (s.core c).tlb.find? (fun e => e.covers asn va && (e.dy || !writes? k))
  | _ => none

/-- Keeps a leaf in the asker's TLB in place of what it held for the address; the oldest of more than 2,048 leaves (R25). -/
def State.tlbFill (s : State) (by' : Asker) (asn va : Nat) (e : TlbEntry) : State :=
  match by' with
  | .core c => s.updCore c (fun k => { k with tlb := (e :: k.tlb.filter (fun f => !f.covers asn va)).take 2048 })
  | _ => s

/-- The leaf that translates an address, from the TLB or by a walk, which sets AC, and DY on a write (R20-R25). An access of no
kind needs no permission (R72, R150). A failed translation is never cached (R26). -/
def State.leafFor (s : State) (by' : Asker) (asn root : Nat) (va : Word) (k : Option AccessKind) :
    Except Byte TlbEntry × State :=
  let v := va.toNat % 2 ^ 57
  if !canonical va then (.error 0x44, s)
  else match s.tlbHit by' asn v k with
    | some e =>
      match k.bind (permFault e) with
      | some c => (.error c, s)
      | none => (.ok e, s)
    | none =>
      match s.walk by'.walker asn v (root / 4096 * 4096) 4 with
      | (.fault c, s) => (.error c, s)
      | (.leaf e pte, s) =>
        match k.bind (permFault e) with
        | some c => (.error c, s)
        | none =>
          let e := { e with dy := e.dy || writes? k }
          (.ok e, (s.setAcDy pte (writes? k)).tlbFill by' asn v e)

/-- The answer of a translation. -/
inductive Tr where
  | ok (pa : Nat)
  | fault (cause : Byte)
  deriving DecidableEq, Repr

/-- Translates an address; one that no stack backs raises 0x46 (R18), after its leaf has been used (assumption 117). -/
def State.translateBy (s : State) (by' : Asker) (asn root : Nat) (va : Word) (k : AccessKind) : Tr × State :=
  match s.leafFor by' asn root va (some k) with
  | (.error c, s) => (.fault c, s)
  | (.ok e, s) => (if backed (e.addr (va.toNat % 2 ^ 57)) then .ok (e.addr (va.toNat % 2 ^ 57)) else .fault 0x46, s)

/-- Translates through a core's TLB. -/
def State.translate (s : State) (core asn root : Nat) (va : Word) (k : AccessKind) : Tr × State :=
  s.translateBy (.core core) asn root va k

/-- The sectors of `n` bytes at a virtual address, translated one by one; the first that faults gives the cause and
its address. -/
def State.translateAll (s : State) (core asn root : Nat) (k : AccessKind) :
    List Word → Except (Byte × Word) (List Nat) × State
  | [] => (.ok [], s)
  | va :: t =>
    match s.translate core asn root va k with
    | (.fault c, s) => (.error (c, va), s)
    | (.ok pa, s) =>
      match s.translateAll core asn root k t with
      | (.ok l, s) => (.ok (pa :: l), s)
      | (.error e, s) => (.error e, s)

/-- The first address of each sector that `n` bytes from `va` touch. -/
def vaSectors (va : Word) (n : Nat) : List Word :=
  (sectorsOf va.toNat n).map (fun k => if 64 * k < va.toNat then va else BitVec.ofNat 64 (64 * k))

/-! ## Scratchpad and the local address map (R56-R58) -/

/-- The window of a local address: 0 own, 1-4 causeway N, E, S, W, 5-8 register windows, 9 nothing (R57). -/
def windowOf (a : Nat) : Nat :=
  if a < 0x00A0_0000 then a / 0x20_0000 else if a < 0x00A8_0000 then 5 + (a - 0x00A0_0000) / 0x2_0000 else 9

/-- The local address an operand names, or nothing when bits [63:32] are neither all zero nor all ones (R137). -/
def localOf (v : Word) : Option Nat :=
  if bits v.toNat 63 32 = 0 ∨ bits v.toNat 63 32 = 0xFFFF_FFFF then some (bits v.toNat 31 0) else none

/-- Whether a generic address lies in the local aperture (R137). -/
def inAperture (v : Word) : Bool := bits v.toNat 63 32 == 0xFFFF_FFFF

/-- The lender in a direction, if the task holds that lease (R64). -/
def State.lender (s : State) (core x dir : Nat) : Option Nat :=
  (s.ctx core x).task.bind (fun t => (t.leases.getD dir none))

/-- The cause that an access of `n` bytes at a local address raises, if any (R57). -/
def State.localFault (s : State) (core x a n : Nat) : Option Byte :=
  if windowOf a = 9 ∨ windowOf a ≠ windowOf (a + n - 1) then some 0x49
  else if windowOf a = 0 then
    (if a + n ≤ 65536 * (s.ctx core x).task.elim 0 (·.banks) then none else some 0x49)
  else if (s.lender core x ((windowOf a - 1) % 4)).isSome then none else some 0x4A

/-- Where 64 aligned bytes of a local address lie: a scratchpad row or a piece of a vector register (R56, R57). -/
inductive Place where
  | row (core bank row : Nat)
  | reg (key piece : Nat)
  | nowhere
  deriving DecidableEq, Repr

/-- The place of the 64 bytes that hold a local address. -/
def State.place (s : State) (core x a : Nat) : Place :=
  match windowOf a with
  | 0 => match (s.ctx core x).task with
    | some t => .row core (t.b0 + a / 65536) (a % 65536 / 64)
    | none => .nowhere
  | 9 => .nowhere
  | w => match s.lender core x ((w - 1) % 4) with
    | none => .nowhere
    | some l =>
      if w < 5 then .row l (a % 0x20_0000 / 65536) (a % 65536 / 64)
      else .reg (vkey l (a % 0x2_0000 / 0x8000) (a % 0x8000 / 0x200)) (a % 0x200 / 64)

/-- A scratchpad row; a row whose written bit is clear reads as zero (R58). -/
def State.row (s : State) (core bank row : Nat) : Row :=
  mget { data := 0, poison := false } s.spad (rowKey core bank row)

/-- The 64 bytes of a place. -/
def State.readPlace (s : State) : Place → Sector × Bool
  | .row c b r => ((s.row c b r).data, (s.row c b r).poison)
  | .reg k p => ((mget 0 s.vregs k).extractLsb' (512 * p) 512, s.vpoison.contains (8 * k + p))
  | .nowhere => (0, false)

/-- Sets or clears the poison of a piece of a vector register (R32, R59). -/
def State.markV (s : State) (piece : Nat) (bad : Bool) : State :=
  { s with vpoison := if bad then (if s.vpoison.contains piece then s.vpoison else s.vpoison ++ [piece])
                      else s.vpoison.filter (fun k => k != piece) }

/-- The pieces of a vector register that are poisoned. -/
def State.badPieces (s : State) (core x r : Nat) : List Nat :=
  (List.range 8).filter (fun p => s.vpoison.contains (8 * vkey core x r + p))

/-- A result written in the lanes of a mask clears the poison of every piece that it covers (R32). -/
def State.cleanV (s : State) (core x r : Nat) (mask : Pred) : State :=
  { s with vpoison := s.vpoison.filter (fun k =>
      !(k / 8 == vkey core x r && mask.extractLsb' (16 * (k % 8)) 16 == BitVec.allOnes 16)) }

/-- Writes bytes of a place; the first write to a row zeroes its other bytes and sets the written bit (R58), and a
write of the whole row clears its poison (R32). -/
def State.writePlace (s : State) (p : Place) (mask : BitVec 64) (v : Sector) (bad : Bool) : State :=
  if mask = 0 then s else
  match p with
  | .row c b r => { s with spad := mset s.spad (rowKey c b r)
                              { data := mergeBytes mask v (s.row c b r).data, poison := bad || ((s.row c b r).poison && mask != allBytes) } }
  | .reg k q =>
    let old := mget 0 s.vregs k
    let new := mergeBytes mask v (old.extractLsb' (512 * q) 512)
    let m : Vec := ((BitVec.allOnes 512).setWidth 4096) <<< (512 * q)
    ({ s with vregs := mset s.vregs k ((old &&& ~~~m) ||| (new.setWidth 4096 <<< (512 * q))) } : State).markV (8 * k + q)
      (bad || (s.vpoison.contains (8 * k + q) && mask != allBytes))
  | .nowhere => s

/-- `n` bytes at a local address of a task, with poison. -/
def State.localBytes (s : State) (core x a n : Nat) : List Byte × Bool :=
  (((sectorsOf a n).flatMap (fun k => bytesOf (s.readPlace (s.place core x (64 * k))).1 64)).drop (a % 64) |>.take n,
   (sectorsOf a n).any (fun k => (s.readPlace (s.place core x (64 * k))).2))

/-- The poison of each of `n` bytes at a local address. -/
def State.localPoison (s : State) (core x a n : Nat) : List Bool :=
  (List.range n).map (fun i => (s.readPlace (s.place core x (a + i))).2)

/-- Writes enabled bytes at a local address of a task. -/
def State.localStore (s : State) (core x a : Nat) (b : List Byte) (en : List Bool) (bad : Bool) : State :=
  (sectorsOf a b.length).foldl
    (fun s k => let p := pieceOf a b en k; s.writePlace (s.place core x (64 * k)) p.1 p.2 bad) s

/-- Clears the written bits of a core's banks (R58). -/
def State.clearBanks (s : State) (core b0 n : Nat) : State :=
  { s with spad := s.spad.filter (fun e =>
      !(decide (rowKey core b0 0 ≤ e.1) && decide (e.1 < rowKey core (b0 + n) 0))) }

/-- Clears the written bits of a tile and sets its tag to FP32 (R58, R226). -/
def State.clearTile (s : State) (core tile : Nat) : State :=
  { s with acc := s.acc.filter (fun e =>
      !(decide (accKey core tile 0 ≤ e.1) && decide (e.1 < accKey core tile 0 + 64))),
           ztag := mset s.ztag (16 * core + tile) false }

/-- Clears a context's vector register file. -/
def State.clearVregs (s : State) (core x : Nat) : State :=
  { s with vregs := s.vregs.filter (fun e =>
             !(decide (vkey core x 0 ≤ e.1) && decide (e.1 < vkey core x 0 + 64))),
           vpoison := s.vpoison.filter (fun k => !(decide (vkey core x 0 ≤ k / 8) && decide (k / 8 < vkey core x 0 + 64))) }

/-- The physical banks of a core that `n` bytes of a task's own local addresses touch (R61). -/
def State.banksOf (s : State) (core x a n : Nat) : List Nat :=
  if windowOf a ≠ 0 ∨ n = 0 then []
  else (List.range ((a + n - 1) / 65536 - a / 65536 + 1)).map
    (fun k => (s.ctx core x).task.elim 0 (·.b0) + a / 65536 + k)

/-- Whether an engine command reserves one of these banks (R61). -/
def State.reserved (s : State) (core : Nat) (banks : List Nat) : Bool :=
  banks.any (fun b => mget 0 (s.core core).resv b != 0)

/-- Enters banks in the reservation table, or takes them out (R49). Those that leave it while the cores take their turns are
remembered to the end of the cycle (R61). -/
def State.reserve (s : State) (core : Nat) (banks : List Nat) (add : Bool) : State :=
  let put := fun (m : Map Nat) (b : Nat) => mset m b (if add then mget 0 m b + 1 else mget 0 m b - 1)
  let s := if add || s.evTurn then s else { s with freedBanks := s.freedBanks ++ banks.map (fun b => (core, b)) }
  s.updCore core (fun c => { c with resv := banks.foldl put c.resv })

/-- Enters banks of several cores in their reservation tables, or takes them out (R49). -/
def State.reserveAll (s : State) (l : List (Nat × Nat)) (add : Bool) : State :=
  l.foldl (fun s p => s.reserve p.1 [p.2] add) s

end Sys2Proof.Machine
end

