-- ==== Sys2Proof/Machine/Pins.lean ====
section
/-! DEFINITION. Translation pins: how a ferry command, a stream or a transfer of the Sound engine takes hold of a page and
translates through what it holds (R27, R29). -/

namespace Sys2Proof.Machine

/-- Whether a page overlaps the range of the shootdown registers (R28, R29). The registers are read as they stand: a write of
TLBSDVA or TLBSDNP while a shootdown runs moves its range (assumption 118). -/
def Regs.inRange (r : Regs) (va len : Nat) : Bool :=
  let first := bits r.sdva.toNat 56 12 * 4096
  decide (first < va + len) && decide (va < first + r.sdnp.toNat * 4096)

/-- Whether a pin is on a page that overlaps the range of the shootdown in progress, whatever its address space (R29). -/
def Regs.coversPin (r : Regs) (p : Pin) : Bool := r.inRange p.page.va (2 ^ (12 + p.page.k))

/-- Whether a shootdown in progress holds back new pins on a page (R29). -/
def State.pinBlocked (s : State) (va len : Nat) : Bool := s.regs.sdBusy && s.regs.inRange va len

/-- A holder of pins: a context of a core and what of it holds them. -/
structure PinHolder where
  core : Nat
  x : Nat
  holder : Holder
  deriving DecidableEq, Repr

/-- Whether a holder has a pin. -/
def PinHolder.has (h : PinHolder) (p : Pin) : Bool := p.core == h.core && p.x == h.x && p.holder == h.holder

/-- Who walks for a holder: a stream or a ferry has its core's TLB, a Sound engine only its island's walker (R25, R27). -/
def PinHolder.asker (h : PinHolder) : Asker :=
  match h.holder with
  | .sound _ => .engine (coreIsland h.core)
  | _ => .core h.core

/-- The pin through which a holder translates an address. -/
def State.pinFor (s : State) (h : PinHolder) (va : Nat) : Option Pin :=
  s.pins.find? (fun p => h.has p && p.page.covers (s.asnOf h.core h.x) va)

/-- The outcome of a pinned translation: the physical address, a wait for a shootdown, or a cause. -/
inductive Pinned where
  | ok (pa : Nat)
  | wait
  | fault (cause : Byte)
  deriving DecidableEq, Repr

/-- An access through a pin that a holder has. The first write through a page that is not dirty sets DY by a walk; the pinned
frame is the one used whatever that walk finds. -/
def State.throughPin (s : State) (h : PinHolder) (p : Pin) (va : Word) (k : AccessKind) : Pinned × State :=
  match permFault p.page k with
  | some c => (.fault c, s)
  | none =>
    let pa := p.page.addr (va.toNat % 2 ^ 57)
    if p.page.dy || !accWrites k then (.ok pa, s)
    else
      let s := (s.leafFor h.asker (s.asnOf h.core h.x) (s.rootOf h.core h.x) va (some k)).2
      (.ok pa, { s with pins := s.pins.map (fun q => if q = p then { q with page := { q.page with dy := true } } else q) })

/-- A new pin, granted through a walk; while a shootdown of its page runs it waits (R29). -/
def State.newPin (s : State) (h : PinHolder) (va : Word) (k : AccessKind) : Pinned × State :=
  let v := va.toNat % 2 ^ 57
  if s.pinBlocked v 1 then (.wait, s)
  else match s.leafFor h.asker (s.asnOf h.core h.x) (s.rootOf h.core h.x) va (some k) with
    | (.error c, t) => (.fault c, t)
    | (.ok e, t) =>
      if s.pinBlocked e.va (2 ^ (12 + e.k)) then (.wait, s)
      else if !backed (e.addr v) then (.fault 0x46, t)
      else (.ok (e.addr v), { t with pins := t.pins ++ [{ core := h.core, x := h.x, holder := h.holder, page := e }] })

/-- Translates an address for a holder of pins, taking a pin on its page if it has none (R27). -/
def State.pinned (s : State) (h : PinHolder) (va : Word) (k : AccessKind) : Pinned × State :=
  if !canonical va then (.fault 0x44, s)
  else match s.pinFor h (va.toNat % 2 ^ 57) with
    | some p => s.throughPin h p va k
    | none => s.newPin h va k

/-- What a run of pinned translations answers: the physical addresses, a wait, or the first fault with its address. -/
inductive PinnedAll where
  | ok (l : List Nat)
  | wait
  | fault (cause : Byte) (va : Word)
  deriving DecidableEq, Repr

/-- Translates addresses one by one for a holder of pins. -/
def State.pinnedAll (s : State) (h : PinHolder) (k : AccessKind) : List Word → PinnedAll × State
  | [] => (.ok [], s)
  | va :: t =>
    match s.pinned h va k with
    | (.fault c, s) => (.fault c va, s)
    | (.wait, s) => (.wait, s)
    | (.ok pa, s) =>
      match s.pinnedAll h k t with
      | (.ok l, s) => (.ok (pa :: l), s)
      | r => r

/-- Drops the pins of a holder. -/
def State.dropPins (s : State) (h : PinHolder) : State := { s with pins := s.pins.filter (fun p => !h.has p) }

/-- A read of the sectors of physical addresses by an agent of a die: the bytes from offset `k`, the poison of each and the
physical line of each (R16, R32), and the caches after it. -/
def State.dieRead (s : State) (die : Nat) (l : List Nat) (k n : Nat) : (List Byte × List Bool × List Nat) × State :=
  (((l.flatMap (fun pa => bytesOf (s.viewSector die (pa / 64)).1 64)).drop k |>.take n,
    (l.flatMap (fun pa => List.replicate 64 (s.viewSector die (pa / 64)).2)).drop k |>.take n,
    (l.flatMap (fun pa => List.replicate 64 (pa / 512))).drop k |>.take n),
   l.foldl (fun s pa => s.touchSector die (pa / 64)) s)

end Sys2Proof.Machine
end

