-- ==== Sys2Proof/Machine/Barrier.lean ====
section
/-! DEFINITION. Barrier objects (R62, R63): the four atomic updates on the 128 bits of an object, and the sync objects
at their local or global homes. -/

namespace Sys2Proof.Machine

/-- A barrier object's bits (R62). -/
abbrev BarObj := BitVec 128

/-- A field of a barrier object. -/
def BarObj.get (o : BarObj) (hi lo : Nat) : Nat := bits o.toNat hi lo

/-- The object with its fields given (R62). -/
def mkBar (gen quota arrv inb outb : Nat) (relw init ufl : Bool) : BarObj :=
  BitVec.ofNat 128 (gen % 16 + quota % 2 ^ 10 * 2 ^ 4 + arrv % 2 ^ 10 * 2 ^ 14 + inb % 2 ^ 56 * 2 ^ 24 +
    outb % 2 ^ 32 * 2 ^ 80 + relw.toNat * 2 ^ 112 + init.toNat * 2 ^ 113 + ufl.toNat * 2 ^ 114)

/-- Generation. -/
def BarObj.gen (o : BarObj) : Nat := o.get 3 0
/-- Arrivals per phase. -/
def BarObj.quota (o : BarObj) : Nat := o.get 13 4
/-- Pending arrivals. -/
def BarObj.arrv (o : BarObj) : Nat := o.get 23 14
/-- Pending inbound bytes. -/
def BarObj.inb (o : BarObj) : Nat := o.get 79 24
/-- Pending outbound transfers. -/
def BarObj.outb (o : BarObj) : Nat := o.get 111 80
/-- Whether completion waits for outbound transfers. -/
def BarObj.relw (o : BarObj) : Bool := o.getLsbD 112
/-- Sticky underflow. -/
def BarObj.ufl (o : BarObj) : Bool := o.getLsbD 114

/-- An update needs INIT = 1 and zero reserved bits (R62). -/
def BarObj.usable (o : BarObj) : Bool := o.getLsbD 113 && o.get 127 115 == 0

/-- Check 3 of R63: a phase whose counts are all zero completes. -/
def BarObj.settle (o : BarObj) : BarObj :=
  if o.arrv = 0 ∧ o.inb = 0 ∧ (o.relw = false ∨ o.outb = 0) then
    mkBar (o.gen + 1) o.quota o.quota 0 0 o.relw true o.ufl
  else o

/-- An update of a barrier object (R63). -/
inductive BarOp where
  | arrive
  | expect (i o : Nat)
  | land (n : Nat)
  | outdone
  deriving DecidableEq, Repr

/-- Applies an update (R62, R63): the new object and the cause it raises, 0x67 leaving the object unchanged. -/
def BarObj.apply (o : BarObj) (u : BarOp) : BarObj × Option Byte :=
  if !o.usable then (o, some 0x67)
  else match u with
    | .arrive =>
      let low := o.arrv = 0
      ((mkBar o.gen o.quota (o.arrv - 1) o.inb o.outb o.relw true (o.ufl || decide low)).settle,
        if low then some 0x66 else none)
    | .expect i n =>
      let hi := o.inb + i ≥ 2 ^ 56 ∨ o.outb + n ≥ 2 ^ 32
      ((mkBar o.gen o.quota o.arrv (Nat.min (o.inb + i) (2 ^ 56 - 1)) (Nat.min (o.outb + n) (2 ^ 32 - 1)) o.relw true
          o.ufl).settle, if hi then some 0x68 else none)
    | .land n =>
      let low := o.inb < n
      ((mkBar o.gen o.quota o.arrv (o.inb - n) o.outb o.relw true (o.ufl || decide low)).settle,
        if low then some 0x66 else none)
    | .outdone =>
      let low := o.outb = 0
      ((mkBar o.gen o.quota o.arrv o.inb (o.outb - 1) o.relw true (o.ufl || decide low)).settle,
        if low then some 0x66 else none)

/-- What `binit` writes from its B operand (R153). -/
def BarObj.ofInit (b : Word) : BarObj :=
  mkBar (bits b.toNat 3 0) (bits b.toNat 13 4) (bits b.toNat 13 4) 0 0 (b.getLsbD 14) true false

/-- The 16 bytes of an object at a local address. -/
def State.localBar (s : State) (core x a : Nat) : BarObj := ofBytes 128 (s.localBytes core x a 16).1

/-- Stores an object at a local address. -/
def State.setLocalBar (s : State) (core x a : Nat) (o : BarObj) : State :=
  s.localStore core x a (bytesOf o 16) [] false

/-- The 16 bytes of an object at a physical address. -/
def State.globalBar (s : State) (pa : Nat) : BarObj := ofBytes 128 (s.homeBytes pa 16).1

/-- Stores an object at a physical address, at its home slice. -/
def State.setGlobalBar (s : State) (pa : Nat) (o : BarObj) : State := s.homeStore pa (bytesOf o 16)

/-- An update of a local object at its bank (R63). -/
def State.updLocalBar (s : State) (core x a : Nat) (u : BarOp) : State × Option Byte :=
  let r := (s.localBar core x a).apply u
  (if r.2 = some 0x67 then s else s.setLocalBar core x a r.1, r.2)

/-- An update of a global object at its home slice (R63); one that is refused has read it (R38). -/
def State.updGlobalBar (s : State) (pa : Nat) (u : BarOp) : State × Option Byte :=
  let r := (s.globalBar pa).apply u
  (if r.2 = some 0x67 then s.touchBytes pa 16 else s.setGlobalBar pa r.1, r.2)

end Sys2Proof.Machine
end

