-- ==== Sys2Proof/Machine/Reports.lean ====
section
/-! DEFINITION. What the device writes down: the severity matrix and the error log, the stack and link logs, the
journal, the trace and escalation rings, interrupts and REPLACE (chapters 2, 14, 16, 17 and 18 of the spec). -/

namespace Sys2Proof.Machine

/-- PTP nanoseconds and seconds as the first ten bytes of a record (R33, R347). -/
def State.stamp (s : State) : List Byte := bytesOf (BitVec.ofNat 32 s.nsec) 4 ++ bytesOf (BitVec.ofNat 48 s.secs) 6

/-- A number as bytes, lowest first. -/
def le (n v : Nat) : List Byte := bytesOf (BitVec.ofNat (8 * n) v) n

/-- A message-signalled interrupt to an application core: its identity becomes pending in the core's IMSIC (R365). -/
def State.signal (s : State) (core id : Nat) : State :=
  let l := mget [] s.imsic core
  { s with interrupts := s.interrupts ++ [(core, id)]
           imsic := mset s.imsic core (if l.contains id then l else l ++ [id]) }

/-- A device interrupt, to the core that INTTGT names (R365). -/
def State.interrupt (s : State) (id : Nat) : State := s.signal s.regs.inttgt.toNat id

/-- The class of a cause (R343). -/
def classOf (cause : Nat) : Nat :=
  if cause = 0x5E then 0 else if cause = 0x5F then 1
  else if 0x54 ≤ cause ∧ cause ≤ 0x56 then 2
  else if cause = 0x5C ∨ cause = 0x5D then 4
  else if cause = 0x47 ∨ cause = 0x48 ∨ (0x4E ≤ cause ∧ cause ≤ 0x53) ∨ cause = 0x5B ∨ cause = 0xBF then 5
  else if (0x26 ≤ cause ∧ cause ≤ 0x32) ∨ (0x39 ≤ cause ∧ cause ≤ 0x3F) ∨ cause = 0x77 ∨ cause = 0x78 ∨
      cause = 0x8A ∨ cause = 0x97 then 6
  else if cause = 0xA0 then 7
  else if cause = 0x9E then 8
  else if (0x94 ≤ cause ∧ cause ≤ 0x96) ∨ (0x98 ≤ cause ∧ cause ≤ 0x9B) ∨ cause = 0x9F then 9
  else if 0xB1 ≤ cause ∧ cause ≤ 0xB6 then 10
  else if cause = 0xAC then 11
  else if cause = 0xAA ∨ cause = 0xAB then 13
  else if (0xA3 ≤ cause ∧ cause ≤ 0xA7) ∨ cause = 0xAD ∨ cause = 0xAE then 14
  else if (0x58 ≤ cause ∧ cause ≤ 0x5A) ∨ cause = 0x79 ∨ cause = 0xA1 ∨ cause = 0xA2 ∨ cause = 0xA8 ∨ cause = 0xA9 ∨
      cause = 0xAF ∨ cause = 0xB0 ∨ (0xB7 ≤ cause ∧ cause ≤ 0xBE) then 15
  else 12

/-- The reset value of each source's entry of a class: action and REPL (R343). -/
def sevReset (cls : Nat) : Nat :=
  [1, 1, 10, 1, 1, 2, 3, 2, 1, 2, 1, 2, 0, 2, 2, 2].getD cls 0

/-- The severity register of a class (R344). -/
def State.sevc (s : State) (cls : Nat) : Word :=
  mget (BitVec.ofNat 64 (sevReset cls * 0x0101_0101_0101_0101)) s.regs.sevc cls

/-- The action of a class and source (R344). -/
def State.action (s : State) (cls src : Nat) : Nat := bits (s.sevc cls).toNat (8 * src + 2) (8 * src)

/-- REPL of a class and source (R344). -/
def State.repl (s : State) (cls src : Nat) : Bool := (s.sevc cls).getLsbD (8 * src + 3)

/-- An event offered to the severity matrix: its cause (0xFF for none), class, source, location, task and INFO,
whether it sets REPLACE whatever REPL holds (R33, R250), whether it belongs to a context, and the island in which it was detected
(R345). -/
structure Event where
  cause : Nat
  cls : Nat
  src : Nat
  lkind : Nat
  lidx : Nat
  launch : Nat
  task : Nat
  info : Word
  forced : Bool
  ctx : Bool
  island : Option Nat
  deriving DecidableEq, Repr

/-- The action applied to an event (R345): a kill of an event that belongs to no context, and a reset for one outside every island,
act as interrupt. -/
def State.applied (s : State) (e : Event) : Nat :=
  let a := s.action e.cls e.src
  if (a = 3 ∧ !e.ctx) ∨ (a = 4 ∧ e.island.isNone) then 2 else a

/-- Asks for the reset of an island; several requests before the reset begins are one, and those that the reset itself brings are part
of it (R346, R348). -/
def State.askReset (s : State) (n : Nat) : State :=
  if (s.island n).resetting then s else s.updIsland n (fun i => { i with asked := true })

/-- The record of an event in the error log (R347). It is appended at the end of the cycle (R346). -/
def State.elog (s : State) (e : Event) (repl : Bool) (act : Nat) : State :=
  let rec32 := s.stamp ++ le 1 e.cause ++ le 1 (e.cls + 16 * e.src + 128 * repl.toNat) ++ le 1 act ++
    le 1 e.lkind ++ le 2 e.lidx ++ le 4 e.launch ++ le 4 e.task ++ bytesOf e.info 8
  { s with logDue := s.logDue ++ [(e.src, rec32)] }

/-- Appends one record to the error log in memory (R347). -/
def State.appendElog (s : State) (rec32 : List Byte) : State :=
  let r := s.regs
  let s := s.homeStore ((r.elogbase.toNat + 32 * (r.eloghead.toNat % 65536)) % 2 ^ 52) rec32
  s.updRegs (fun r => { r with
    eloghead := r.eloghead + 1
    eloglost := if r.eloghead.toNat ≥ 65536 ∨ r.eloglost ≠ 0 then r.eloglost + 1 else r.eloglost })

/-- Logs, interrupts and asks for a reset as the action says (R345), without REPLACE. -/
def State.logEvent (s : State) (e : Event) (repl : Bool) : State :=
  let act := s.applied e
  let s := if act = 0 then s else s.elog e repl act
  let s := if act ≥ 2 then s.interrupt 1 else s
  if act = 4 then e.island.elim s s.askReset else s

/-- Offers an event to the severity matrix (R344, R345): its record, its interrupt, the reset it asks for, and REPLACE, which logs 0xB0
(R361). What a kill adds is done where the context is. -/
def State.offer (s : State) (e : Event) : State :=
  let repl := e.forced || s.repl e.cls e.src
  let s := s.logEvent e repl
  if repl then
    (s.updRegs (fun r => { r with replace := true })).logEvent
      { e with cause := 0xB0, cls := 15, launch := 0, task := 0, info := 0, forced := false, ctx := false } false
  else s

/-- An event of a cause at a location that belongs to no context. -/
def ev (cause src lkind lidx : Nat) : Event :=
  { cause := cause, cls := classOf cause, src := src, lkind := lkind, lidx := lidx, launch := 0, task := 0, info := 0,
    forced := false, ctx := false, island := none }

/-- An event of a task at a core (R345). -/
def taskEv (cause src core : Nat) (t : Task) : Event :=
  { ev cause src 1 core with launch := t.launch, task := t.task, ctx := true, island := some (coreIsland core) }

/-- A corrected event of a location is counted; the answer says whether the threshold of kind `i` is reached, which logs
0x5C + i once in a window (R368). -/
def State.countError (s : State) (i loc : Nat) : State × Bool :=
  let key := 4 * loc + i
  let n := mget 0 s.errCounts key + 1
  let th := bits s.regs.errth.toNat (16 * i + 15) (16 * i)
  let due := th != 0 && decide (th ≤ n) && !s.errLogged.contains key
  ({ s with errCounts := mset s.errCounts key n, errLogged := if due then s.errLogged ++ [key] else s.errLogged }, due)

/-- A corrected event of a location, counted in kind `i`; where it reaches its threshold, `e` is offered with its cause (R343, R368). -/
def State.corrected (s : State) (i loc : Nat) (e : Event) : State :=
  let r := s.countError i loc
  if r.2 then r.1.offer { e with cause := 0x5C + i, cls := classOf (0x5C + i) } else r.1

/-! ## Rings -/

/-- A ring's HEAD and TAIL after a record, and whether an old record was lost (R369). -/
def ringPush (n : Nat) (head tail : BitVec 32) : BitVec 32 × BitVec 32 × Bool :=
  if (head - tail).toNat = n then (head + 1, tail + 1, true) else (head + 1, tail, false)

/-- Makes a record of the trace ring, if its kind is enabled (R357). It is appended at the end of the cycle. -/
def State.trace (s : State) (kind core launch task : Nat) (info : Word) : State :=
  if !s.regs.trcctl.getLsbD kind then s
  else { s with traceDue := s.traceDue ++ [(kind, s.stamp ++ le 1 kind ++ le 1 0 ++ le 2 core ++ le 2 0 ++ le 4 launch ++ le 4 task ++
    bytesOf info 8)] }

/-- Appends one record to the trace ring (R357, R369). -/
def State.appendTrace (s : State) (rec32 : List Byte) : State :=
  let r := s.regs
  let p := ringPush 65536 r.trchead r.trctail
  (s.homeStore ((r.trcbase.toNat + 32 * (r.trchead.toNat % 65536)) % 2 ^ 52) rec32).updRegs (fun r => { r with
    trchead := p.1, trctail := p.2.1, trclost := if p.2.2 then r.trclost + 1 else r.trclost })

/-- Records of one cycle in increasing number, those of one number in the order in which they were made. -/
def inOrder (l : List (Nat × List Byte)) : List (List Byte) :=
  (List.range 8).flatMap (fun k => (l.filter (fun e => e.1 == k)).map (·.2))

/-- Appends what the cycle has brought: to the error log by increasing source (R346), to the trace ring by increasing kind (R357). -/
def State.flushLogs (s : State) : State :=
  let t := (inOrder s.logDue).foldl State.appendElog { s with logDue := [], traceDue := [] }
  (inOrder s.traceDue).foldl State.appendTrace t

/-- The event of an escalation (R342, R345). -/
def escalatedEv (launch task core : Nat) : Event :=
  { ev 0xBD 0 1 core with launch := launch, task := task, ctx := true, island := some (coreIsland core) }

/-- Appends a record to the escalation ring, logs 0xBD and interrupts the application cores (R330, R342, R365). -/
def State.escalation (s : State) (time : Word) (launch task cause eflags core x : Nat)
    (epc einfo emask : Word) (area : Nat) : State :=
  let r := s.regs
  let p := ringPush 1024 r.eschead r.esctail
  let s := s.homeStore ((r.escbase.toNat + 64 * (r.eschead.toNat % 1024)) % 2 ^ 52)
    (bytesOf time 8 ++ le 4 launch ++ le 4 task ++ le 1 cause ++ le 1 eflags ++ le 2 core ++ le 1 x ++ le 3 0 ++
      bytesOf epc 8 ++ bytesOf einfo 8 ++ bytesOf emask 8 ++ le 8 area ++ le 8 0)
  let s := s.updRegs (fun r => { r with eschead := p.1, esctail := p.2.1,
                                        esclost := if p.2.2 then r.esclost + 1 else r.esclost })
  (s.offer (escalatedEv launch task core)).interrupt 2

/-- The state code of a journal entry (R353). -/
def journalCode : LaunchState → Nat
  | .accepted => 1 | .started => 2 | .retired => 3 | .discarded => 4 | .checkpointed => 5

/-- The place of a journal entry in the ring. -/
def State.journalAt (s : State) (seq : Nat) : Nat :=
  (s.regs.jbase.toNat + 32 * ((seq + 524287) % 524288)) % 2 ^ 52

/-- Makes a journal entry of a launch (R353-R355). -/
def State.journal (s : State) (l : Launch) (st : LaunchState) : State :=
  let seq := s.regs.jnext.toNat
  let lost := seq > 524288 ∧ seq - 524288 > s.regs.jack.toNat
  let s := s.homeStore (s.journalAt seq)
    (le 8 seq ++ le 4 s.nsec ++ le 6 s.secs ++ le 1 (journalCode st) ++
      le 1 (l.rcd.keep.toNat + 2 * l.fromLnch.toNat + 4 * (decide (l.rcd.start ≠ 0)).toNat + 8 * l.killed.toNat) ++
      le 4 l.id ++ le 2 l.queue ++ le 2 0 ++ le 4 l.qidx)
  let s := s.updRegs (fun r => { r with jnext := r.jnext + 1, jlost := if lost then r.jlost + 1 else r.jlost })
  let s := s.updLaunch l.id (fun l => { l with state := st })
  if lost then s.offer (ev 0xA8 6 0 0) else s

/-- A record of the array log or transfer log (R33). -/
def State.memRecord (s : State) (kind origin chan pc bank row line sec cw tries lane spare : Nat) (synd : BitVec 32) :
    BitVec 256 :=
  ofBytes 256 (s.stamp ++ le 1 kind ++ le 1 origin ++ le 1 (chan + 32 * pc) ++ le 1 bank ++ le 2 row ++
    le 1 (line + 4 * sec + 32 * cw) ++ le 1 tries ++ le 1 lane ++ le 1 spare ++ bytesOf synd 4 ++ le 8 0)

/-- Appends to a stack's array log (R33, R369). -/
def State.arrayLog (s : State) (stack : Nat) (r : BitVec 256) : State :=
  s.updStack stack (fun k =>
    let p := ringPush 256 k.ahead k.atail
    { k with alog := mset k.alog (k.ahead.toNat % 256) r, ahead := p.1, atail := p.2.1,
             aovf := if p.2.2 then k.aovf + 1 else k.aovf })

/-- Appends to a stack's transfer log (R33, R369). -/
def State.transferLog (s : State) (stack : Nat) (r : BitVec 256) : State :=
  s.updStack stack (fun k =>
    let p := ringPush 256 k.thead k.ttail
    { k with tlog := mset k.tlog (k.thead.toNat % 256) r, thead := p.1, ttail := p.2.1,
             tovf := if p.2.2 then k.tovf + 1 else k.tovf })

/-- Appends to a link's log (R280, R369). -/
def State.linkLog (s : State) (port kind lane tries : Nat) : State :=
  let r : BitVec 128 := ofBytes 128 (s.stamp ++ le 1 kind ++ le 1 lane ++ le 2 (Nat.min tries 0xFFFF) ++ le 2 0)
  s.updLink port (fun k =>
    let p := ringPush 64 k.head k.tail
    { k with log := mset k.log (k.head.toNat % 64) r, head := p.1, tail := p.2.1,
             ovf := if p.2.2 then k.ovf + 1 else k.ovf })

end Sys2Proof.Machine
end

