-- ==== Sys2Proof/Machine/Sha3.lean ====
section
/-! DEFINITION. SHA3-256 as FIPS 202 defines it (R261, R271, R359, R371). -/

namespace Sys2Proof.Machine

/-- Lane `(x, y)` of the 25-lane state. -/
def kLane (a : List Word) (x y : Nat) : Word := a.getD (x % 5 + 5 * (y % 5)) 0

/-- A state from its lanes. -/
def kMake (f : Nat → Nat → Word) : List Word := (List.range 25).map (fun i => f (i % 5) (i / 5))

/-- Where the walk of FIPS 202 through the lanes other than `(0, 0)` stands after `t` moves, from `(1, 0)` by `(x, y) ↦ (y, 2x + 3y)`. -/
def kWalk : Nat → Nat × Nat
  | 0 => (1, 0)
  | t + 1 => let p := kWalk t; (p.2, (2 * p.1 + 3 * p.2) % 5)

/-- The rotation offset of lane `(x, y)`: the `t`-th lane of the walk turns by the triangular number of `t + 1`. -/
def kRot (x y : Nat) : Nat :=
  ((List.range 24).find? (fun t => kWalk t == (x, y))).elim 0 (fun t => (t + 1) * (t + 2) / 2 % 64)

/-- The offsets of all lanes, lane `(x, y)` at `x + 5 y`. -/
def kRots : List Nat := (List.range 25).map (fun i => kRot (i % 5) (i / 5))

/-- The shift register of the round constants after `t` steps, with feedback at places 0, 4, 5 and 6. -/
def kShift : Nat → Nat
  | 0 => 1
  | t + 1 => let r := 2 * kShift t; if r.testBit 8 then r ^^^ 0x171 else r

/-- The constant of round `i`: output `7 i + j` of the register at bit `2^j - 1`. -/
def kRc (i : Nat) : Word :=
  BitVec.ofNat 64 ((List.range 7).foldl (fun n j => n + kShift (7 * i + j) % 2 * 2 ^ (2 ^ j - 1)) 0)

/-- The constants of all rounds. -/
def kRcs : List Word := (List.range 24).map kRc

/-- Theta: each lane takes up the parities of the columns beside it. -/
def kTheta (a : List Word) : List Word :=
  let parity := fun (x : Nat) => kLane a x 0 ^^^ kLane a x 1 ^^^ kLane a x 2 ^^^ kLane a x 3 ^^^ kLane a x 4
  let p := (List.range 5).map parity
  kMake (fun x y => kLane a x y ^^^ p.getD ((x + 4) % 5) 0 ^^^ (p.getD ((x + 1) % 5) 0).rotateLeft 1)

/-- Rho and pi: each lane is turned and moved. -/
def kTurn (a : List Word) : List Word :=
  kMake (fun x y => let u := (x + 3 * y) % 5; (kLane a u x).rotateLeft (kRots.getD (u + 5 * x) 0))

/-- Chi, and iota with the constant of the round. -/
def kMix (a : List Word) (rc : Word) : List Word :=
  kMake (fun x y => kLane a x y ^^^ (kLane a (x + 2) y &&& ~~~(kLane a (x + 1) y)) ^^^ (if x + y = 0 then rc else 0))

/-- One round. -/
def kRound (a : List Word) (rc : Word) : List Word := kMix (kTurn (kTheta a)) rc

/-- Keccak-f[1600]. -/
def kPerm (a : List Word) : List Word := kRcs.foldl kRound a

/-- Absorbs one block of 136 bytes. -/
def kAbsorb (a : List Word) (b : List Byte) : List Word :=
  kPerm (kMake (fun x y => kLane a x y ^^^ (if x + 5 * y < 17 then ofBytes 64 (slice b (8 * (x + 5 * y)) 8) else 0)))

/-- The padded message: 0x06, zeros, and 0x80 in the last byte of the last block. -/
def kPad (m : List Byte) : List Byte :=
  let k := 136 - m.length % 136
  if k = 1 then m ++ [0x86] else m ++ [0x06] ++ List.replicate (k - 2) 0 ++ [0x80]

/-- SHA3-256 of a byte string. -/
def sha3 (m : List Byte) : List Byte :=
  let p := kPad m
  let a := (chunks 136 (p.length / 136) p).foldl kAbsorb (List.replicate 25 0)
  (List.range 4).flatMap (fun i => bytesOf (a.getD i 0) 8)

end Sys2Proof.Machine
end

