-- ==== Sys2Proof/Machine/KvUnit.lean ====
section
/-! DEFINITION. The KV unit (R257-R273): each operation on a pool, performed whole at the home slices or refused with
its cause and EINFO (R262, R379). -/

namespace Sys2Proof.Machine

/-- For whom the unit works: the context, its address space and its pool directory (R257). -/
structure KvEnv where
  core : Nat
  x : Nat
  asn : Nat
  root : Nat
  dir : Word
  cnt : Nat
  deriving DecidableEq, Repr

/-- An operation of the unit: a new state and a value, or a cause with its EINFO. -/
abbrev KvM := StateT State (Except (Byte × Word))

/-- Ends the operation with a cause. -/
def kvFail {α : Type} (c : Byte) (info : Nat) : KvM α := fun _ => .error (c, BitVec.ofNat 64 info)

/-- EINFO of a structure cause (R379): the offset of the failing field, the structure, and its index. -/
def kvInfo (off st idx : Nat) : Nat := off + 65536 * st + 2 ^ 32 * idx

/-- A malformed structure (R264, R379). -/
def kvBad {α : Type} (off st idx : Nat) : KvM α := kvFail 0x81 (kvInfo off st idx)

/-- Continues only if the check holds. -/
def kvCheck (ok : Bool) (c : Byte) (info : Nat) : KvM Unit := if ok then pure () else kvFail c info

/-- The physical addresses of the sectors of a range. -/
def kvTranslate (e : KvEnv) (va : Word) (n : Nat) (k : AccessKind) : KvM (List Nat) := fun s =>
  match s.translateAll e.core e.asn e.root k (vaSectors va n) with
  | (.ok l, s) => .ok (l, s)
  | (.error (c, a), _) => .error (c, a)

/-- Reads bytes at a virtual address at the home slices (R263); poison ends the operation with 0x47. -/
def kvRead (e : KvEnv) (va : Word) (n : Nat) : KvM (List Byte) := do
  let l ← kvTranslate e va n .read
  let s ← get
  set (l.foldl (fun s pa => s.fillHome (pa / 64)) s)
  let _ ← kvCheck (l.all (fun pa => !(s.homeSector (pa / 64)).2)) 0x47 0
  pure ((l.flatMap (fun pa => bytesOf (s.homeSector (pa / 64)).1 64)).drop (va.toNat % 64) |>.take n)

/-- Writes bytes at a virtual address at the home slices (R263). -/
def kvWrite (e : KvEnv) (va : Word) (b : List Byte) : KvM Unit := do
  let l ← kvTranslate e va b.length .write
  modify (fun s => (List.range l.length).foldl (fun s i =>
    let p := pieceOf (va.toNat % 64) b [] i
    s.homeWrite (l.getD i 0 / 64) p.1 p.2 false) s)

/-- A sequence descriptor (R260). -/
structure SeqD where
  length : Nat
  npg : Nat
  plist : Word
  pool : Nat
  sflags : Nat
  chain : List Byte
  deriving DecidableEq, Repr

/-- LCAP of a sequence (R260). -/
def SeqD.lcap (d : SeqD) : Nat := bits d.sflags 12 8
/-- BROKEN of a sequence (R260). -/
def SeqD.broken (d : SeqD) : Bool := bits d.sflags 1 1 == 1
/-- CHAINED of a sequence (R260). -/
def SeqD.chained (d : SeqD) : Nat := bits d.sflags 31 16
/-- SFLAGS with BROKEN and CHAINED replaced. -/
def SeqD.withChained (d : SeqD) (broken : Bool) (n : Nat) : Nat :=
  bits d.sflags 0 0 + 2 * broken.toNat + 256 * d.lcap + 65536 * n

/-- Reads a sequence descriptor's fields. -/
def seqOf (b : List Byte) : SeqD :=
  { length := field b 0 4, npg := field b 4 4, plist := BitVec.ofNat 64 (field b 8 8), pool := field b 16 4,
    sflags := field b 20 4, chain := (b.drop 24).take 32 }

/-- The bytes of a sequence descriptor, but for its reserved tail, which no instruction writes. -/
def SeqD.bytes (d : SeqD) : List Byte :=
  le 4 d.length ++ le 4 d.npg ++ bytesOf d.plist 8 ++ le 4 d.pool ++ le 4 d.sflags ++ d.chain

/-- Whether the reserved bits of SFLAGS are 0 (R260). -/
def SeqD.flagsOk (d : SeqD) : Bool := bits d.sflags 7 2 == 0 && bits d.sflags 15 13 == 0

/-- A pool descriptor (R257) with its virtual address. -/
structure PoolD where
  at_ : Word
  cpt : Word
  frame : Word
  hash : Word
  npages : Nat
  freehead : Nat
  nfree : Nat
  hbits : Nat
  ndefer : Nat
  nalloc : Nat
  deriving DecidableEq, Repr

/-- Writes back the fields of a pool descriptor that hardware changes (R264). -/
def PoolD.store (e : KvEnv) (p : PoolD) : KvM Unit := do
  kvWrite e (p.at_ + 0x1C) (le 4 p.freehead ++ le 4 p.nfree)
  kvWrite e (p.at_ + 0x28) (le 4 p.ndefer)
  kvWrite e (p.at_ + 0x30) (le 8 p.nalloc)

/-- A CPT entry (R258). -/
structure CptE where
  frame : Nat
  refs : Nat
  fill : Nat
  cflags : Nat
  ek : Nat
  ev : Nat
  rescales : Nat
  pins : Nat
  chainp : Nat
  flink : Nat
  deriving DecidableEq, Repr

/-- Whether a CPT entry is allocated. -/
def CptE.alloc (c : CptE) : Bool := bits c.cflags 0 0 == 1
/-- Whether a page is published. -/
def CptE.pub (c : CptE) : Bool := bits c.cflags 1 1 == 1
/-- Whether a page is in the deferred-free state. -/
def CptE.defer (c : CptE) : Bool := bits c.cflags 2 2 == 1

/-- The bytes of a CPT entry. -/
def CptE.bytes (c : CptE) : List Byte :=
  le 4 c.frame ++ le 2 c.refs ++ le 1 c.fill ++ le 1 c.cflags ++ le 1 c.ek ++ le 1 c.ev ++ le 2 c.rescales ++
    le 2 c.pins ++ le 2 0 ++ le 8 c.chainp ++ le 8 c.flink

/-- The virtual address of a CPT entry (R257). -/
def PoolD.entryAt (p : PoolD) (page : Nat) : Word := p.cpt + BitVec.ofNat 64 (32 * page)

/-- Reads and checks a CPT entry (R258, R264). DEDUCED: only its reserved bits make it malformed; FILL, EK and EV are used as they
stand (assumption 152). -/
def readCpt (e : KvEnv) (p : PoolD) (page : Nat) : KvM CptE := do
  let b ← kvRead e (p.entryAt page) 32
  let _ ← kvCheck (bits (field b 7 1) 7 3 == 0) 0x81 (kvInfo 7 2 page)
  let _ ← kvCheck (field b 14 2 == 0) 0x81 (kvInfo 14 2 page)
  let _ ← kvCheck (field b 28 4 == 0) 0x81 (kvInfo 24 2 page)
  pure { frame := field b 0 4, refs := field b 4 2, fill := field b 6 1, cflags := field b 7 1, ek := field b 8 1,
         ev := field b 9 1, rescales := field b 10 2, pins := field b 12 2, chainp := field b 16 8,
         flink := field b 24 4 }

/-- Writes a CPT entry. -/
def writeCpt (e : KvEnv) (p : PoolD) (page : Nat) (c : CptE) : KvM Unit := kvWrite e (p.entryAt page) c.bytes

/-- A page id that names an allocated page, or cause 0x84 (R264). -/
def livePage (e : KvEnv) (p : PoolD) (page : Nat) : KvM CptE := do
  let _ ← kvCheck (page < p.npages) 0x84 page
  let c ← readCpt e p page
  let _ ← kvCheck c.alloc 0x84 page
  pure c

/-- Reads and checks a pool descriptor (R257, R264), field by field in the order of their offsets; the check of HBITS involves HASHBASE,
which has the lower offset (R379). -/
def readPool (e : KvEnv) (id : Nat) : KvM PoolD := do
  let a := e.dir + BitVec.ofNat 64 (64 * id)
  let _ ← kvCheck (a.toNat % 64 == 0) 0x81 (kvInfo 0 6 0)
  let b ← kvRead e a 64
  let _ ← kvCheck (field b 0 8 % 4096 == 0) 0x81 (kvInfo 0x00 1 0)
  let _ ← kvCheck (field b 8 8 % 4096 == 0) 0x81 (kvInfo 0x08 1 0)
  let _ ← kvCheck (field b 16 8 % 64 == 0 && (if field b 16 8 == 0 then field b 0x24 1 == 0
      else (4 ≤ field b 0x24 1 && field b 0x24 1 ≤ 24))) 0x81 (kvInfo 0x10 1 0)
  let _ ← kvCheck (1 ≤ field b 0x18 4 && field b 0x18 4 ≤ 0xFFFF_FFFE) 0x81 (kvInfo 0x18 1 0)
  let _ ← kvCheck (field b 0x25 1 == 1) 0x81 (kvInfo 0x25 1 0)
  let _ ← kvCheck (field b 0x26 2 == 0) 0x81 (kvInfo 0x26 1 0)
  let _ ← kvCheck (field b 0x2C 4 == 0) 0x81 (kvInfo 0x2C 1 0)
  let _ ← kvCheck (field b 0x38 8 == 0) 0x81 (kvInfo 0x38 1 0)
  pure { at_ := a, cpt := BitVec.ofNat 64 (field b 0 8), frame := BitVec.ofNat 64 (field b 8 8),
         hash := BitVec.ofNat 64 (field b 16 8), npages := field b 0x18 4, freehead := field b 0x1C 4,
         nfree := field b 0x20 4, hbits := field b 0x24 1, ndefer := field b 0x28 4, nalloc := field b 0x30 8 }

/-- Reads and checks a sequence descriptor and its pool (R264), field by field in the order of their offsets (R379). -/
def readSeq (e : KvEnv) (a : Word) : KvM (SeqD × PoolD) := do
  let _ ← kvCheck (a.toNat % 64 == 0) 0x81 (kvInfo 0 0 0)
  let b ← kvRead e a 64
  let d := seqOf b
  let _ ← kvCheck (d.plist.toNat % 4 == 0) 0x81 (kvInfo 8 0 0)
  let _ ← kvCheck (d.pool < e.cnt) 0x81 (kvInfo 16 0 0)
  let _ ← kvCheck (bits d.sflags 0 0 == 1 && d.flagsOk && d.lcap ≤ 24) 0x81 (kvInfo 20 0 0)
  let _ ← kvCheck (field b 56 8 == 0) 0x81 (kvInfo 56 0 0)
  let p ← readPool e d.pool
  pure (d, p)

/-- The page id at an index of the page list. -/
def listPage (e : KvEnv) (d : SeqD) (i : Nat) : KvM Nat := do
  let b ← kvRead e (d.plist + BitVec.ofNat 64 (4 * i)) 4
  pure (field b 0 4)

/-- Writes a page id into the page list. -/
def setListPage (e : KvEnv) (d : SeqD) (i v : Nat) : KvM Unit :=
  kvWrite e (d.plist + BitVec.ofNat 64 (4 * i)) (le 4 v)

/-- Allocation of a page (R264). -/
def kvAlloc (e : KvEnv) (p : PoolD) : KvM (Nat × CptE × PoolD) := do
  let _ ← kvCheck (p.nfree != 0) 0x82 0
  let _ ← kvCheck (p.freehead < p.npages) 0x8B p.freehead
  let c ← readCpt e p p.freehead
  let _ ← kvCheck (!c.alloc && !c.defer) 0x8B p.freehead
  let c' : CptE := { frame := c.frame, refs := 1, fill := 0, cflags := 1, ek := 0, ev := 0, rescales := 0, pins := 0,
                     chainp := 0, flink := 0 }
  writeCpt e p p.freehead c'
  let p' := { p with freehead := c.flink, nfree := p.nfree - 1, nalloc := (p.nalloc + 1) % 2 ^ 64 }
  p'.store e
  pure (p.freehead, c', p')

/-- The bucket at a probe place (R261), with the checks of its STATE and of its reserved bytes. -/
def bucketAt (e : KvEnv) (p : PoolD) (h j : Nat) : KvM (Nat × List Byte) := do
  let i := (h + j) % 2 ^ p.hbits
  let b ← kvRead e (p.hash + BitVec.ofNat 64 (64 * i)) 64
  let _ ← kvCheck (field b 0x24 1 ≤ 2) 0x81 (kvInfo 0x24 3 i)
  let _ ← kvCheck (field b 0x25 27 == 0) 0x81 (kvInfo 0x25 3 i)
  pure (i, b)

/-- Probes at most `n` buckets from place `j` for the first that meets a condition, stopping at an empty one. -/
def probe (e : KvEnv) (p : PoolD) (h : Nat) (f : List Byte → Bool) : Nat → Nat → KvM (Option (Nat × List Byte))
  | 0, _ => pure none
  | n + 1, j => do
    let (i, b) ← bucketAt e p h j
    if field b 0x24 1 == 0 then pure none
    else if field b 0x24 1 == 1 && f b then pure (some (i, b))
    else probe e p h f n (j + 1)

/-- The first empty or removed bucket of the 16 probes. -/
def freeBucket (e : KvEnv) (p : PoolD) (h : Nat) : Nat → Nat → KvM (Option Nat)
  | 0, _ => pure none
  | n + 1, j => do
    let (i, b) ← bucketAt e p h j
    if field b 0x24 1 != 1 then pure (some i) else freeBucket e p h n (j + 1)

/-- Freeing a page (R264). `strict` is an instruction's freeing: a missing bucket raises 0x8F and an NDEFER of 0
raises 0x8C. Otherwise (a pin release) the page is freed all the same and the causes are only reported. -/
def kvFree (e : KvEnv) (p : PoolD) (page : Nat) (c : CptE) (strict : Bool) : KvM (PoolD × List Byte) := do
  let r1 : List Byte ← if !c.pub then pure [] else do
    let f ← if p.hash == 0 then pure none
      else probe e p c.chainp (fun b => field b 0 8 == c.chainp && field b 0x20 4 == page) 16 0
    match f with
    | some (i, _) => do
      kvWrite e (p.hash + BitVec.ofNat 64 (64 * i + 0x24)) (le 1 2)
      pure []
    | none => if strict then kvFail 0x8F page else pure [0x8F]
  let r2 : List Byte ← if c.defer && p.ndefer == 0 then (if strict then kvFail 0x8C page else pure [0x8C])
    else pure []
  let p := if c.defer then { p with ndefer := p.ndefer - 1 } else p
  writeCpt e p page { c with cflags := 0, chainp := 0, flink := p.freehead }
  let p' := { p with freehead := page, nfree := (p.nfree + 1) % 2 ^ 32 }
  p'.store e
  pure (p', r1 ++ r2)

/-- Release of a reference (R264). -/
def kvRelease (e : KvEnv) (p : PoolD) (page : Nat) : KvM PoolD := do
  let c ← livePage e p page
  let _ ← kvCheck (c.refs != 0) 0x84 page
  let c := { c with refs := c.refs - 1 }
  if c.refs != 0 then do
    writeCpt e p page c
    pure p
  else if c.pins == 0 then do
    let r ← kvFree e p page c true
    pure r.1
  else do
    let _ ← kvCheck (p.ndefer != 0xFFFF_FFFF) 0x8C page
    writeCpt e p page { c with cflags := c.cflags ||| 4 }
    let p' := { p with ndefer := p.ndefer + 1 }
    p'.store e
    pure p'

/-- Taking a reference: the overflow check and the clearing of DEFER (R268, R270). -/
def kvAddRef (e : KvEnv) (p : PoolD) (page : Nat) : KvM PoolD := do
  let c ← livePage e p page
  let _ ← kvCheck (c.refs != 65535) 0x83 page
  let _ ← kvCheck (!(c.defer && p.ndefer == 0)) 0x8C page
  let p' := if c.defer then { p with ndefer := p.ndefer - 1 } else p
  writeCpt e p page { c with refs := c.refs + 1, cflags := c.cflags &&& 3 }
  p'.store e
  pure p'

/-- `kvnew` (R265): the checks of R264 that a descriptor which is not yet valid admits, those of its operand, and of the pool. DEDUCED: a
failed check of operand B is reported at the offset of the field that it would fill (assumption 152). -/
def kvNew (e : KvEnv) (a b : Word) : KvM Word := do
  let _ ← kvCheck (a.toNat % 64 == 0) 0x81 (kvInfo 0 0 0)
  let raw ← kvRead e a 64
  let d := seqOf raw
  let _ ← kvCheck (d.plist.toNat % 4 == 0) 0x81 (kvInfo 8 0 0)
  let _ ← kvCheck (bits b.toNat 31 0 < e.cnt) 0x81 (kvInfo 16 0 0)
  let _ ← kvCheck (d.flagsOk && bits b.toNat 63 37 == 0 && bits b.toNat 36 32 ≤ 24) 0x81 (kvInfo 20 0 0)
  let _ ← kvCheck (field raw 56 8 == 0) 0x81 (kvInfo 56 0 0)
  let _ ← readPool e (bits b.toNat 31 0)
  let _ ← kvCheck (!(bits d.sflags 0 0 == 1 && d.npg != 0)) 0x85 (kvInfo 4 0 0)
  kvWrite e a ({ length := 0, npg := 0, plist := d.plist, pool := bits b.toNat 31 0,
                 sflags := 1 + 256 * bits b.toNat 36 32, chain := List.replicate 32 0 : SeqD }).bytes
  pure 0

/-- RNE of `m × 2^k` to an integer. -/
def rneShift (m : Nat) (k : Int) : Nat :=
  if 0 ≤ k then m * 2 ^ k.toNat
  else
    let d := 2 ^ (-k).toNat
    let q := m / d
    let r := m % d
    if 2 * r > d ∨ (2 * r = d ∧ q % 2 = 1) then q + 1 else q

/-- The significand and exponent of the magnitude of a finite FP32: its value is `m × 2^k` (R259, R266). -/
def magF32 (v : Lane) : Nat × Int :=
  let ex := bits v.toNat 30 23
  let f := bits v.toNat 22 0
  if ex = 0 then (f, -149) else (f + 2 ^ 23, (ex : Int) - 150)

/-- The scale exponent a half of a token needs (R266). -/
def eNeed (x : List Lane) : Nat :=
  let m := x.foldl (fun m v => Nat.max m (bits v.toNat 30 0)) 0
  if m = 0 then 1
  else
    let p := magF32 (BitVec.ofNat 32 m)
    ((List.range 255).find? (fun i => rneShift p.1 (p.2 + 134 - (i + 1 : Nat)) ≤ 127)).elim 255 (· + 1)

/-- An INT8 as stored, of a magnitude and a sign. -/
def q8 (neg : Bool) (m : Nat) : Byte := if neg then BitVec.ofInt 8 (-(m : Int)) else BitVec.ofNat 8 m

/-- A stored element as it reads: −128 reads as −127, and is never written (R259). -/
def read8 (q : Byte) : Byte := if q = 0x80 then 0x81 else q

/-- The magnitude of a stored element; −128 reads as −127 (R259). -/
def mag8 (q : Byte) : Nat := Nat.min q.toInt.natAbs 127

/-- One half, K or V, of `kvapp` (R266): the earlier slots' bytes where they are given, with the new slot's, the half's
exponent and whether it rescaled. -/
def kvHalf (old : List Byte) (slot eOld : Nat) (x : List Lane) : List Byte × Nat × Bool :=
  let need := eNeed x
  let e := if slot = 0 then need else Nat.max need eOld
  let resc := slot ≠ 0 ∧ need > eOld
  let kept := (old.take (128 * slot)).map (fun q =>
    if resc then q8 (decide (q.toInt < 0)) (rneShift (mag8 q) (-((need - eOld : Nat) : Int))) else q)
  let new := x.map (fun v =>
    let p := magF32 v
    q8 v.msb (Nat.min (rneShift p.1 (p.2 + 134 - (e : Int))) 127))
  (kept ++ new, e, resc)

/-- Writes one half of a token into its frame (R266): the slot's own bytes, and those of the earlier slots where the half
is rescaled. It answers the half's exponent and whether it rescaled. -/
def kvWriteHalf (e : KvEnv) (at' : Word) (slot eOld : Nat) (x : List Lane) : KvM (Nat × Bool) := do
  let resc := slot ≠ 0 ∧ eNeed x > eOld
  let old ← if resc then kvRead e at' (128 * slot) else pure []
  let h := kvHalf old slot eOld x
  kvWrite e (if resc then at' else at' + BitVec.ofNat 64 (128 * slot)) h.1
  pure h.2

/-- `kvapp` (R266): the record is the 1,024 bytes the local operand named. -/
def kvApp (e : KvEnv) (a : Word) (rcd : List Byte) (poisoned : Bool) : KvM Word := do
  let (d, p) ← readSeq e a
  let slot := d.length % 16
  let idx := d.length / 16
  let tail ← if slot == 0 then pure (0, none) else do
    let g ← listPage e d idx
    let c ← livePage e p g
    pure (g, some c)
  let _ ← match tail.2 with
    | none => kvCheck (d.npg < 2 ^ d.lcap) 0x87 (kvInfo 4 0 0)
    | some c => kvCheck (c.refs ≤ 1 && c.pins == 0) 0x80 tail.1
  let _ ← kvCheck (!poisoned) 0x47 0
  let xs := (List.range 256).map (fun i => (BitVec.ofNat 32 (field rcd (4 * i) 4) : Lane))
  let _ ← match (List.range 256).find? (fun i => bits (xs.getD i 0).toNat 30 23 == 255) with
    | some i => kvFail 0x86 (kvInfo (4 * i) 5 0)
    | none => pure ()
  let (g, c, _) ← match tail.2 with
    | some c => pure (tail.1, c, p)
    | none => kvAlloc e p
  if slot == 0 then setListPage e d idx g
  let fr := p.frame + BitVec.ofNat 64 (4096 * c.frame)
  let (ek, rk) ← kvWriteHalf e fr slot c.ek (xs.take 128)
  let (ev, rv) ← kvWriteHalf e (fr + 0x800) slot c.ev (xs.drop 128)
  writeCpt e p g { c with fill := slot + 1, ek := ek, ev := ev,
                          rescales := Nat.min (c.rescales + rk.toNat + rv.toNat) 0xFFFF }
  kvWrite e a { d with length := (d.length + 1) % 2 ^ 32, npg := if slot == 0 then d.npg + 1 else d.npg }.bytes
  pure (BitVec.ofNat 64 d.length)

/-- `kvcow` (R267). -/
def kvCow (e : KvEnv) (a : Word) : KvM Word := do
  let (d, p) ← readSeq e a
  let slot := d.length % 16
  if slot == 0 then pure 0
  else do
    let old ← listPage e d (d.length / 16)
    let c ← livePage e p old
    if c.refs == 1 && c.pins == 0 then pure 0
    else do
      let (g, n, p') ← kvAlloc e p
      let fo := p.frame + BitVec.ofNat 64 (4096 * c.frame)
      let fn := p.frame + BitVec.ofNat 64 (4096 * n.frame)
      let kb ← kvRead e fo (128 * slot)
      let vb ← kvRead e (fo + 0x800) (128 * slot)
      kvWrite e fn (kb.map read8)
      kvWrite e (fn + 0x800) (vb.map read8)
      writeCpt e p' g { n with ek := c.ek, ev := c.ev, fill := slot }
      setListPage e d (d.length / 16) g
      let _ ← kvRelease e p' old
      pure 0

/-- `kvref.inc` and `kvref.dec` (R268). -/
def kvRef (e : KvEnv) (a b : Word) (inc : Bool) : KvM Word := do
  let _ ← kvCheck (a.toNat < e.cnt) 0x81 (kvInfo 0 6 0)
  let p ← readPool e a.toNat
  let _ ← kvCheck (b.toNat < p.npages) 0x84 (b.toNat % 2 ^ 32)
  let _ ← if inc then kvAddRef e p b.toNat else kvRelease e p b.toNat
  pure 0

/-- Releases the pages at list indices `lo` to `lo + n - 1`, the highest first (R269). -/
def dropPages (e : KvEnv) (d : SeqD) (lo : Nat) : Nat → PoolD → KvM PoolD
  | 0, p => pure p
  | n + 1, p => do
    let g ← listPage e d (lo + n)
    let p ← kvRelease e p g
    setListPage e d (lo + n) 0xFFFF_FFFF
    dropPages e d lo n p

/-- `kvtrunc` (R269). -/
def kvTrunc (e : KvEnv) (a b : Word) : KvM Word := do
  let (d, p) ← readSeq e a
  let _ ← kvCheck (b.toNat ≤ d.length) 0x85 (kvInfo 0 0 0)
  let n := (b.toNat + 15) / 16
  let p ← dropPages e d n (d.npg - n) p
  if b.toNat % 16 != 0 then do
    let g ← listPage e d (b.toNat / 16)
    let c ← livePage e p g
    if c.refs == 1 && c.pins == 0 then writeCpt e p g { c with fill := b.toNat % 16 }
  let cut := b.toNat / 16 < d.chained
  kvWrite e a { d with length := b.toNat, npg := n,
                       sflags := if cut then d.withChained true (b.toNat / 16) else d.sflags }.bytes
  pure 0

/-- The chain value after 64 bytes of token ids (R261). -/
def chainNext (d : SeqD) (ids : List Byte) : List Byte := sha3 (d.chain ++ ids)

/-- `kvfind` (R270). -/
def kvFind (e : KvEnv) (a : Word) (ids : List Byte) (poisoned : Bool) : KvM Word := do
  let (d, p) ← readSeq e a
  let _ ← kvCheck (d.length == 16 * d.npg) 0x85 (kvInfo 0 0 0)
  let _ ← kvCheck (d.chained == d.npg) 0x85 (kvInfo 4 0 0)
  let _ ← kvCheck (!d.broken) 0x85 (kvInfo 20 0 0)
  let _ ← kvCheck (d.npg < 2 ^ d.lcap) 0x87 (kvInfo 4 0 0)
  let _ ← kvCheck (!poisoned) 0x47 0
  let h := chainNext d ids
  let f ← if p.hash == 0 then pure none else probe e p (field h 0 8) (fun b => b.take 32 == h) 16 0
  match f with
  | none => pure (BitVec.allOnes 64)
  | some (_, b) => do
    let g := field b 0x20 4
    let _ ← kvAddRef e p g
    setListPage e d d.npg g
    kvWrite e a { d with length := (d.length + 16) % 2 ^ 32, npg := d.npg + 1, chain := h,
                         sflags := d.withChained false (d.chained + 1) }.bytes
    pure (BitVec.ofNat 64 g)

/-- `kvpub` (R272). -/
def kvPub (e : KvEnv) (a : Word) (ids : List Byte) (poisoned : Bool) : KvM Word := do
  let (d, p) ← readSeq e a
  let _ ← kvCheck (16 * (d.chained + 1) ≤ d.length) 0x85 (kvInfo 0 0 0)
  let _ ← kvCheck (!d.broken && d.chained < 65535) 0x85 (kvInfo 20 0 0)
  let _ ← kvCheck (!poisoned) 0x47 0
  let h := chainNext d ids
  let g ← listPage e d d.chained
  let c ← livePage e p g
  kvWrite e a { d with chain := h, sflags := d.withChained false (d.chained + 1) }.bytes
  if c.pub then pure (BitVec.ofNat 64 g)
  else if p.hash == 0 then pure (BitVec.allOnes 64)
  else do
    let f ← probe e p (field h 0 8) (fun b => b.take 32 == h) 16 0
    match f.filter (fun r => field r.2 0x20 4 != g) with
    | some (_, b) => pure (BitVec.ofNat 64 (field b 0x20 4))
    | none => do
      let i ← freeBucket e p (field h 0 8) 16 0
      match i with
      | none => pure (BitVec.allOnes 64)
      | some i => do
        kvWrite e (p.hash + BitVec.ofNat 64 (64 * i)) (h ++ le 4 g ++ le 1 1)
        writeCpt e p g { c with cflags := c.cflags ||| 2, chainp := field h 0 8 }
        pure (BitVec.ofNat 64 g)

/-- Raises PINS of each page (R273). -/
def pinPages (e : KvEnv) (p : PoolD) : List Nat → KvM Unit
  | [] => pure ()
  | g :: t => do
    let c ← livePage e p g
    let _ ← kvCheck (c.pins != 65535) 0x83 g
    writeCpt e p g { c with pins := c.pins + 1 }
    pinPages e p t

/-- The page ids at list indices `lo` to `lo + n - 1`. -/
def pageRange (e : KvEnv) (d : SeqD) (lo : Nat) : Nat → KvM (List Nat)
  | 0 => pure []
  | n + 1 => do
    let l ← pageRange e d lo n
    let g ← listPage e d (lo + n)
    pure (l ++ [g])

/-- The unit's part of `kvstrm` (R273): the checks of the record against the sequence, the snapshot of the pages and
their pins. It answers the stream's KV side. -/
def kvStream (e : KvEnv) (a : Word) (rcd : List Byte) (poisoned : Bool) : KvM KvStream := do
  let (d, p) ← readSeq e a
  let _ ← kvCheck (!poisoned) 0x47 0
  let first := field rcd 0 4
  let ntok := field rcd 4 4
  let _ ← kvCheck (first % 16 == 0) 0x81 (kvInfo 0 5 0)
  let _ ← kvCheck (ntok ≥ 1) 0x81 (kvInfo 4 5 0)
  let _ ← kvCheck (field rcd 8 1 ≤ 1) 0x81 (kvInfo 8 5 0)
  let _ ← kvCheck (field rcd 9 7 == 0) 0x81 (kvInfo 9 5 0)
  let _ ← kvCheck (first + ntok ≤ d.length) 0x88 (kvInfo 0 5 0)
  let l ← pageRange e d (first / 16) ((ntok + 15) / 16)
  pinPages e p l
  pure { mode := field rcd 8 1 == 1, first := first, ntok := ntok, pool := d.pool, pages := l, lo := 0, npin := l.length }

/-- Drops one pin; a deferred page whose pins reach 0 is freed in the same step (R273), and the causes that freeing
finds are answered, to be reported only (R264). -/
def unpinPage (e : KvEnv) (pool g : Nat) : KvM (List Byte) := do
  let p ← readPool e pool
  let c ← readCpt e p g
  let c := { c with pins := c.pins - 1 }
  writeCpt e p g c
  if c.pins == 0 && c.defer then do
    let r ← kvFree e p g c false
    pure r.2
  else pure []

/-- Drops the pins of pages; a pool that cannot be read keeps them. -/
def State.unpin (s : State) (e : KvEnv) (pool : Nat) (pages : List Nat) : State :=
  pages.foldl (fun s g => match unpinPage e pool g s with
    | .ok (l, s) => l.foldl (fun s c => s.offer { ev c.toNat 6 0 0 with cls := classOf c.toNat, info := BitVec.ofNat 64 g }) s
    | .error _ => s) s

/-- The environment of a context's KV work (R257). -/
def State.kvEnv (s : State) (core x : Nat) : KvEnv :=
  { core := core, x := x, asn := s.asnOf core x, root := s.rootOf core x,
    dir := (s.launchOf core x).elim 0 (·.pooldir), cnt := (s.launchOf core x).elim 0 (·.poolcnt) }

end Sys2Proof.Machine
end

