-- ==== Sys2Proof/Machine/Tasks.lean ====
section
/-! DEFINITION. How a task ends, is killed or loses its island, how a launch retires, and what the severity matrix
does to contexts and islands (R179, R319, R331, R345, R348). -/

namespace Sys2Proof.Machine

/-- The signed value of a 32-bit stride. -/
def stride (b : BitVec 32) : Int := b.toInt

/-- Translates without a core's TLB, as the distributor and the fabric windows do (R282, R319). -/
def State.translateBare (s : State) (asn root : Nat) (va : Word) (k : AccessKind) : Tr × State :=
  s.translateBy .bare asn root va k

/-- Ends the claims of a context's matrix instructions on a stream that closes (R378). -/
def closeClaims (k : Nat) (q : List UnitEntry) : List UnitEntry :=
  q.map (fun e => if e.streams.contains k then { e with closed := k :: e.closed } else e)

/-- Drops the translation and line pins a stream holds (R27, R43), and its KV pins (R273). -/
def State.dropStreamPins (s : State) (core x k : Nat) : State :=
  let q := (s.ctx core x).stream k
  let s := { s with
    pins := s.pins.filter (fun p => !(p.core == core && p.x == x && p.holder == .stream k))
    linePins := s.linePins.filter (fun p => !(p.core == core && p.x == x && p.k == k)) }
  match q.kv with
  | some v => s.unpin (s.kvEnv core x) v.pool ((v.pages.drop v.lo).take v.npin)
  | none => s

/-- Closes a stream: entries, pins and configuration go (R157), and matrix claims on it end (R378). -/
def State.closeStream (s : State) (core x k : Nat) : State :=
  let s := s.dropStreamPins core x k
  let s := s.updCtx core x (fun c => { (c.setStream k Stream.reset) with mq := closeClaims k c.mq })
  s.updCore core (fun c => { c with matrix := c.matrix.map (fun m =>
    if m.x = x ∧ m.entry.streams.contains k then { m with entry := { m.entry with closed := k :: m.entry.closed } }
    else m) })

/-- The physical banks of a core that a bank set of local banks names (R56). -/
def bankList (b0 : Nat) (set : BitVec 32) : List Nat :=
  ((List.range 32).filter (fun b => set.getLsbD b)).map (fun b => b0 + b)

/-- Takes a queue's held banks out of the reservation table. -/
def State.unreserveQueue (s : State) (core b0 : Nat) (q : Queue) : State :=
  q.entries.foldl (fun s e => match e with
    | .ferry c => s.reserveAll c.held false
    | .sound c => s.reserve core (bankList b0 c.held) false
    | .join _ _ => s) s

/-- Frees what a task holds on its core: banks, tiles and leases, all read as zero afterwards (R58, R64, R179). -/
def State.freeStorage (s : State) (core x : Nat) (t : Task) : State :=
  let s := s.clearBanks core t.b0 t.banks
  let s := t.tiles.foldl (fun s z => s.clearTile core z) s
  let s := s.clearVregs core x
  t.leases.foldl (fun s l => match l with
    | none => s
    | some n =>
      let s := (s.clearBanks n 0 32)
      let s := (List.range 4).foldl (fun s y => s.clearVregs n y) s
      s.updCore n (fun c => { c with lentTo := none })) s

/-- Takes the task off its context: streams closed, pins dropped, queues emptied, storage freed, the context free.
The walker's range is left to the caller. -/
def State.vacate (s : State) (core x : Nat) (t : Task) : State :=
  let s := (List.range 16).foldl (fun s k => if ((s.ctx core x).stream k).cfg then s.closeStream core x k else s) s
  let c := s.ctx core x
  let s := (List.range 2).foldl (fun s q => (s.unreserveQueue core t.b0 (c.ferryQ q)).unreserveQueue core t.b0 (c.soundQ q)) s
  let s := { s with pins := s.pins.filter (fun p => !(p.core == core && p.x == x)) }
  let gone := (List.range 16).filter (fun a => (s.array (16 * core + a)).busy.any (fun b => b.x == x))
  let s := s.updCore core (fun k => { k with
    matrix := k.matrix.bind (fun m => if m.x = x then none else some m)
    fallback := k.fallback.bind (fun f => if gone.contains f.arr then none else some f) })
  let s := gone.foldl (fun s a => s.updArray (16 * core + a) (fun v => { v with busy := none, free := s.cycle })) s
  let s := s.freeStorage core x t
  s.updCtx core x (fun _ => Ctx.reset)

/-- Retirement of a launch whose tasks have all ended (R319), or its discarding when one was killed (R331). In a power failure
the entry of a discarded launch is made when the image is (R359). -/
def State.retire (s : State) (l : Launch) : State :=
  if l.killed then (if s.regs.pfActive then s else s.journal l .discarded)
  else
    let s := s.journal l .retired
    let s := if l.rcd.heat = 2 then { s with hotRetired := l.dies.foldl (fun m d => mset m d true) s.hotRetired } else s
    if l.rcd.done = 0 then s
    else
      let e := fun (c : Byte) => { ev c.toNat 6 0 0 with cls := 11, launch := l.id }
      match s.translateBare l.asn l.ptroot l.rcd.done .atomic with
      | (.fault c, s) => s.offer (e c)
      | (.ok pa, s) =>
        match s.updGlobalBar pa .arrive with
        | (s, some c) => s.offer (e c)
        | (s, none) => s

/-- Records that a task has ended, leaving its range, if it is not empty, ownerless (R179, R375), and retires the launch
after its last task. -/
def State.taskEnded (s : State) (core : Nat) (t : Task) (w : Walker) (killed : Bool) : State :=
  let s := s.updLaunch t.launch (fun l => { l with
    ended := l.ended ++ [t.task]
    killed := l.killed || killed
    ownerless := if w.range.next < w.range.fin then l.ownerless ++ [(coreIsland core, w.range)] else l.ownerless })
  match s.launch t.launch with
  | some l => if l.ended.length = l.tasks then s.retire l else s
  | none => s

/-- The end of a task: steps 1 to 6 of R179. -/
def State.endTask (s : State) (core x : Nat) (killed : Bool) : State :=
  match (s.ctx core x).task with
  | none => s
  | some t =>
    let w := (s.ctx core x).walker
    (s.vacate core x t).taskEnded core t w killed

/-- A killed task ends without the wait of R179 (R331); cause 0xA1 is logged. -/
def State.killTask (s : State) (core x : Nat) : State :=
  match (s.ctx core x).task with
  | none => s
  | some t =>
    let s := s.endTask core x true
    s.offer (taskEv 0xA1 6 core t)

/-- Takes a saved task out of those kept; its area is free. -/
def State.dropSaved (s : State) (launch task : Nat) : State :=
  { s with saved := s.saved.filter (fun v => !(v.launch == launch && v.task.task == task)) }

/-- A saved task is killed: it ends where it was saved, and its area is freed (R331). -/
def State.killSaved (s : State) (v : Saved) : State :=
  let s := s.dropSaved v.launch v.task.task
  let s := { s with heldResults := s.heldResults.filter (fun h => !(h.launch == v.launch && h.task == v.task.task)) }
  let s := s.taskEnded v.core v.task v.ctx.walker true
  s.offer (taskEv 0xA1 6 v.core v.task)

/-- Offers an event of a saved task. The answer says whether it is still to be delivered: a kill ends the task where it was saved, and
replaces delivery (R345). -/
def State.reportSaved (s : State) (v : Saved) (e : Event) : State × Bool :=
  let act := s.applied e
  let s := s.offer e
  if act = 3 then (s.killSaved v, false) else (s, act != 4)

/-- Every context of a core. -/
def ctxIds (core : Nat) : List (Nat × Nat) := (List.range 4).map (fun x => (core, x))

/-- Partition reset of an island (R348). A request that the reset's own events make is part of it. -/
def State.islandReset (s : State) (n : Nat) : State :=
  let s := s.updIsland n (fun i => { i with asked := false, resetting := true, walks := [] })
  let cores := (List.range 16).map (islandCore n)
  let s := (cores.flatMap ctxIds).foldl (fun s p => s.killTask p.1 p.2) s
  let s := cores.foldl (fun s c => match (s.core c).lentTo with
    | some p => s.killTask p.1 p.2
    | none => s) s
  let s := cores.foldl (fun s c =>
    let s := s.clearBanks c 0 32
    let s := (List.range 16).foldl (fun s z => s.clearTile c z) s
    let s := (List.range 4).foldl (fun s x => s.clearVregs c x) s
    let s := { s with pins := s.pins.filter (fun p => p.core != c), linePins := s.linePins.filter (fun p => p.core != c) }
    let dbg := s.core c
    s.updCore c (fun _ => { Core.reset with bkpt := dbg.bkpt, watch := dbg.watch, fusedOff := dbg.fusedOff })) s
  let times := ((s.island n).resets.filter (fun t => s.cycle < t + 19000000000)) ++ [s.cycle]
  let third := times.length ≥ 3
  let s := s.updIsland n (fun i => { i with resets := times, removed := i.removed || third })
  let here := fun (c : Nat) => { ev c 6 2 n with island := some n }
  let s := s.offer (here 0xA2)
  if third then s.offer { here 0xBC with forced := true } else s

/-- The island whose reset has been asked for and begins next. -/
def State.resetDue (s : State) : Option Nat := (s.islands.find? (fun e => e.2.asked)).map (·.1)

/-- Offers an event that belongs to a context: a kill or a partition reset replaces delivery (R345). The answer says
whether the cause is still to be delivered. An array lies outside every island. -/
def State.reportEvent (s : State) (core x : Nat) (e : Event) : State × Bool :=
  let t := (s.ctx core x).task
  let e : Event := { e with
    launch := t.elim 0 (·.launch), task := t.elim 0 (·.task), ctx := t.isSome
    island := if e.lkind = 6 then none else some (coreIsland core) }
  let act := s.applied e
  let s := s.offer e
  if act = 3 then (s.killTask core x, false) else (s, act != 4)

/-- Offers a cause detected in a context's core. -/
def State.report (s : State) (core x cause src : Nat) (info : Word) : State × Bool :=
  s.reportEvent core x { ev cause src 1 core with info := info }

/-- Adds a late fault to those pending for a context (R326), after the severity matrix has had it. -/
def State.lateFault (s : State) (core x : Nat) (cause : Byte) (src snum : Nat) (info : Word) (agent : Nat) : State :=
  let r := s.report core x cause.toNat agent info
  if r.2 then r.1.updCtx core x (fun c =>
    { c with pending := c.pending ++ [{ cause := cause, src := src, snum := snum, info := info, seen := s.cycle }] })
  else r.1

/-- The flags a unit's work raised are set at completion, and an enabled one traps as a late fault, unless the context
is in its handler (R94, R327, R328). -/
def State.unitFlags (s : State) (core x : Nat) (f : BitVec 5) (src : Nat) : State :=
  let s := s.updCtx core x (fun c => { c with fflags := c.fflags ||| f })
  let c := s.ctx core x
  let on := f &&& c.tvec.extractLsb' 57 5
  if on = 0 ∨ c.hnd then s
  else
    let cause := if on.getLsbD 4 then 0x38 else if on.getLsbD 3 then 0x37 else if on.getLsbD 2 then 0x36
      else if on.getLsbD 1 then 0x35 else 0x34
    s.lateFault core x cause src 0 (on.setWidth 64) 1

/-- The first ready context after the running one, in the order of R86. -/
def State.nextReady (s : State) (core : Nat) : Option Nat :=
  let r := (s.core core).running
  ([r + 1, r + 2, r + 3, r].map (· % 4)).find? (fun x =>
    let c := s.ctx core x
    c.task.isSome && c.blocked == .no && !c.save.halted)

/-- Gives up the core (R86): the next ready context runs, or the core idles until one is ready. -/
def State.passCore (s : State) (core : Nat) : State :=
  match s.nextReady core with
  | some x => s.updCore core (fun k => { k with running := x, idle := false })
  | none => s.updCore core (fun k => { k with idle := true })

end Sys2Proof.Machine
end

