-- ==== Sys2Proof/Machine/Ops.lean ====
section
/-! DEFINITION. Issuing a slot and taking an exception: what a slot reads and writes (R92, R95, R103-R106), the checks
of R109 it makes by itself, its result on its way to register and latch (R96-R99), entering a trap (R324), the return
from it (R329), the unwind of a containment region (R162) and blocking (R85, R86). -/

namespace Sys2Proof.Machine

/-- What executing an instruction answers. -/
abbrev Out := Host.Outcome State Fault Refusal

/-- What an application core asks for: none does so before it is released at boot, nor on a device that stays halted (R370). -/
def State.ifBooted (s t : State) : Out := .next (if s.regs.booted then t else s)

/-! ## Traps -/

/-- The handler's address in TVEC (R321). -/
def tvecAddr (t : Word) : Word :=
  let a := (t.extractLsb' 4 53).toNat * 16
  BitVec.ofNat 64 (if t.getLsbD 56 then a + 0xFE00_0000_0000_0000 else a)

/-- ECAUSE as a trap writes it; MORE and HND are read from the context (R322). -/
def ecauseOf (cause : Byte) (late : Bool) (src snum : Nat) : Word :=
  BitVec.ofNat 64 (cause.toNat + 256 * late.toNat + 512 * src + 8192 * snum)

/-- ECAUSE as it reads (R322). -/
def Ctx.readEcause (c : Ctx) : Word :=
  BitVec.ofNat 64 (c.ecause.toNat % 131072 + 131072 * (!c.pending.isEmpty).toNat + 262144 * c.hnd.toNat)

/-- Causes that always escalate (R342). -/
def alwaysEscalates (c : Nat) : Bool :=
  c == 0x14 || c == 0x15 || c == 0x17 || c == 0x18 || (0x19 ≤ c && c ≤ 0x1F) || c == 0x58 || c == 0x59 ||
    (0x7A ≤ c && c ≤ 0x7F) || c == 0x8E || c == 0x9D

/-- A trap being taken: its cause, whether it is late, SRC, SNUM, EINFO, EMASK and EPC. -/
structure Trap where
  cause : Byte
  late : Bool
  src : Nat
  snum : Nat
  info : Word
  emask : Word
  epc : Word
  deriving DecidableEq, Repr

/-- Whether a trap is a nested one: a cause of delivery I, T or W of a bundle of the handler (R328). The runtime's halt request
is none (R330). -/
def Ctx.nests (c : Ctx) (t : Trap) : Bool := c.hnd && (!t.late || t.src == 10) && t.cause != 0x18

/-- The context as a trap leaves it (R324): the results in flight go to the flight record, every latch is lost, the
trap registers are written, a KV operation not done or refused is forgotten, and the context enters its handler at once, whatever
loads are still under way (assumption 146), or, where none may run, escalates with HND = 0; the flight record of a task that
escalates from its handler holds the results of both (R99). -/
def Ctx.trapped (c : Ctx) (t : Trap) (now : Word) : Ctx :=
  let nested := c.nests t
  let c' := { c with
    held := if c.hnd then c.held else c.flight
    flight := if c.hnd then c.flight else []
    heldClock := if c.hnd then c.heldClock else c.clock
    latches := []
    ecause := ecauseOf t.cause t.late t.src t.snum
    einfo := t.info
    emask := t.emask
    epc := t.epc &&& ~~~15
    syncRead := none
    kv := match c.kv with
      | .value p v => .value p v
      | _ => .none
    blocked := .no }
  if c.tvec.getLsbD 0 && !nested && !alwaysEscalates t.cause.toNat then
    { c' with hnd := true, pc := tvecAddr c.tvec, handlerStart := true }
  else
    { c' with hnd := false, held := [], flight := c.held ++ c.flight, pc := t.epc &&& ~~~15,
              handlerStart := false, save := .stopped 1, esc := some (t.cause, nested, now) }

/-- The agent that detected a trap's cause (R344): the KV unit, of the causes of its own operations, which no slot bears, or the
context. -/
def Trap.agent (t : Trap) : Nat := if 0x80 ≤ t.cause.toNat ∧ t.cause.toNat ≤ 0x8F ∧ t.emask = 0 then 6 else 0

/-- TAKING AN EXCEPTION: the one operation every trap goes through (R324, R330). The cause is first offered to the
severity matrix unless it was when it was detected; a kill replaces delivery (R345). -/
def State.enterTrap (s : State) (core x : Nat) (t : Trap) (reported : Bool) : State :=
  let r := if reported then (s, true) else s.report core x t.cause.toNat t.agent t.info
  if r.2 then r.1.updCtx core x (fun c => c.trapped t s.now) else r.1

/-- The return from a handler (R329), once the handler's own results are written: HND is cleared, the context resumes
at EPC with the trapped schedule clock, the flight record is released, and faulted log entries are issued again. -/
def Ctx.returned (c : Ctx) : Ctx :=
  { c with hnd := false, pc := c.epc &&& ~~~15, flight := c.held, held := [], clock := c.heldClock, latches := [],
           handlerStart := false, log := c.log.map (fun e => { e with cause := 0 }),
           blocked := if c.log.any (·.blocking) then .load 0 else .no }

/-- The unwind of the innermost containment region on 0x47 (R162): no result in flight is written, those of the bundles that a
trap interrupted among them. -/
def Ctx.unwound (c : Ctx) (r : Region) (rest : List Region) : Ctx :=
  let regs := if r.d = 0 then r.regs else mset r.regs r.d 0x47
  { c with flight := [], held := [], latches := [], regs := regs, fflags := r.fflags, regions := rest, loop := none,
           pc := r.handler, blocked := .no }

/-- Cause 0x47 consumed by a context (R32, R349): an open region unwinds, otherwise it is a late fault; with kill or
reset no unwind takes place. -/
def State.poisoned (s : State) (core x src snum : Nat) (info : Word) (agent : Nat) : State :=
  let r := s.report core x 0x47 agent info
  if !r.2 then r.1
  else r.1.updCtx core x (fun c => match c.regions with
    | g :: rest => c.unwound g rest
    | [] => { c with pending := c.pending ++ [{ cause := 0x47, src := src, snum := snum, info := info, seen := s.cycle }] })

/-- A late fault of a unit or an engine of a context (R326); 0x47 is consumed by the context (R349). -/
def State.agentFault (s : State) (core x : Nat) (cause : Byte) (src snum : Nat) (info : Word) (agent : Nat) : State :=
  if cause = 0x47 then s.poisoned core x src snum info agent else s.lateFault core x cause src snum info agent

/-! ## Operands -/

/-- A source operand: whether it is a vector operand, its mode and its six bits (R104). -/
structure Operand where
  vec : Bool
  m : Bool
  f : Nat
  deriving DecidableEq, Repr

/-- A scalar source. -/
def sSrc (a : Src) : Operand := { vec := false, m := a.m, f := a.f.toNat }

/-- A vector source. -/
def vSrc (a : Src) : Operand := { vec := true, m := a.m, f := a.f.toNat }

/-- What a slot is, apart from its arithmetic: class, twin bit, suppress bit, port field, whether its fields hold
assigned values (R108), its sources, the register it reads as D, the register it writes, its latency (0 for none), how many
results the limit of R99 counts when it is not 1, the latches it compares, and the streams that it names without taking bytes from them
at issue. `aPort` is the port of A; `dPort` that of D. -/
structure View where
  cls : Cls
  g : Bool
  n : Bool
  encOk : Bool
  a : Option Operand
  b : Option Operand
  dRead : Option (Bool × Nat)
  dWrite : Dest
  lat : Nat
  count : Nat
  latches : List Nat
  named : List Nat
  sr : Bool
  aPort : Nat
  bPort : Nat
  dPort : Nat
  deriving DecidableEq, Repr

/-- A slot of a class with the ports its PT gives (R95), to be completed. -/
def slotView (cls : Cls) (g n : Bool) (p : BitVec 2) : View :=
  { cls := cls, g := g, n := n, encOk := true, a := none, b := none, dRead := none, dWrite := .none, lat := 0, count := 1,
    latches := [], named := [], sr := false, aPort := p.toNat, bPort := (p.toNat + 1) % 4, dPort := (p.toNat + 2) % 4 }

/-- The values a slot reads. -/
structure Vals where
  a : Vec
  b : Vec
  d : Vec
  deriving DecidableEq, Repr

/-- Whether the bundle being issued is in the body of the active loop (R100); a handler's bundles are not. -/
def Ctx.inBody (c : Ctx) : Bool := c.loop.isSome && !c.hnd

/-- Ring renaming of a vector register in the loop body (R101). -/
def renameIn (ring : Word) (i : Word) (r : Nat) : Nat :=
  match (List.range 4).find? (fun k => ring.getLsbD (32 + k) &&
      (32 + bits ring.toNat (8 * k + 4) (8 * k) ≤ r && r ≤ 32 + bits ring.toNat (8 * k + 4) (8 * k) + bits ring.toNat (8 * k + 7) (8 * k + 5))) with
  | some k =>
    let first := 32 + bits ring.toNat (8 * k + 4) (8 * k)
    first + (r - first + i.toNat) % (bits ring.toNat (8 * k + 7) (8 * k + 5) + 1)
  | none => r

/-- The vector register a field names at issue (R101). -/
def Ctx.vname (c : Ctx) (r : Nat) : Nat :=
  match c.loop with
  | some l => if c.hnd then r else renameIn l.ring l.i r
  | none => r

/-- The partner of a latch for twin comparison (R145). -/
def partner (l : Nat) : Nat := if l = 4 then 8 else if l = 6 then 9 else l + 1

/-- A scalar latch read as a vector operand: its low element broadcast (R91). -/
def broadcast (w : Nat) (v : Vec) : Vec := BitVec.ofNat 4096 (packNat w (fun _ => v.toNat) (4096 / w))

/-- The value of a source (R91, R92, R104). -/
def State.operand (s : State) (o : Operand) : Vec :=
  let c := s.me
  if !o.m then (if o.vec then s.readV s.cur s.x (c.vname o.f) else wide (c.readS (o.f % 32)))
  else if o.f < 8 then
    let v := mget 0 c.latches o.f
    if o.vec && o.f < 2 then broadcast c.iw v else v
  else ((c.stream (o.f % 16)).entries.head?).elim 0 (·.data)

/-- Whether a source took poisoned bytes: a vector the whole register or entry, a scalar its bytes 7:0 (R32, R59, R92). -/
def State.operandBad (s : State) (o : Operand) : Bool :=
  if !o.m then o.vec && !(s.badPieces s.cur s.x (s.me.vname o.f)).isEmpty
  else o.f ≥ 8 && (((s.me.stream (o.f % 16)).entries.head?).elim false (fun e =>
    if o.vec then e.poison != 0 else e.poison.getLsbD 0))

/-- The vector registers a slot reads besides its sources: the one its D field names, and the eight of a transposition (R209). -/
def View.dRegs (v : View) : List Nat :=
  match v.dRead, v.dWrite with
  | some (true, r), _ => [r]
  | _, .v r => if v.count = 8 then (List.range 8).map (fun k => r + k) else []
  | _, _ => []

/-- Whether a register that a slot reads besides its sources holds a poisoned piece (R59). -/
def State.dataBad (s : State) (v : View) : Bool :=
  v.dRegs.any (fun r => !(s.badPieces s.cur s.x (s.me.vname r)).isEmpty)

/-- The streams a slot's sources name (R104). -/
def View.streams (v : View) : List Nat :=
  (v.a.toList ++ v.b.toList).filterMap (fun o => if o.m && o.f ≥ 16 then some (o.f % 16) else none)

/-- The streams a slot pops. -/
def View.pops (v : View) : List Nat :=
  (v.a.toList ++ v.b.toList).filterMap (fun o => if o.m && (16 ≤ o.f && o.f < 32) then some (o.f % 16) else none)

/-- The latches a slot reads (R91). -/
def View.reads (v : View) : List Nat :=
  (v.a.toList ++ v.b.toList).filterMap (fun o => if o.m && o.f < 8 then some o.f else none) ++ v.latches

/-- A legal source mode (R104). -/
def Operand.modeOk (o : Operand) : Bool := !o.m || o.f < 8 || (16 ≤ o.f && o.f < 32) || 48 ≤ o.f

/-- A scalar register field within range (R105). -/
def Operand.regOk (o : Operand) : Bool := o.vec || o.m || o.f < 32

/-- The values of a slot. -/
def State.vals (s : State) (v : View) : Vals :=
  { a := v.a.elim 0 s.operand, b := v.b.elim 0 s.operand,
    d := match v.dRead with
      | some (true, r) => s.readV s.cur s.x (s.me.vname r)
      | some (false, r) => wide (s.me.readS r)
      | none => 0 }

/-- An issue-time cause with the default EINFO. -/
def stopWith (rank : Nat) (cause : Byte) : SlotEnd := .trap rank cause none 0 0

/-- The results in flight that the flight record limit counts (R99). -/
def Ctx.inFlight (c : Ctx) : Nat := ((c.flight ++ c.held).filter (fun f => 1 < f.lat)).length

/-- Whether a stream can be read by a slot (R92). -/
def Stream.readable (q : Stream) : Bool := q.cfg && q.kind != 5

/-- The checks of R109 that an encoding fails by itself, with their ranks: its field values, its registers, its source modes
(checks 2 to 4). -/
def View.fields (v : View) : Option (Nat × Byte) :=
  let ops := v.a.toList ++ v.b.toList
  if !v.encOk then some (2, 0x00)
  else if !ops.all Operand.regOk then some (3, 0x0A)
  else if !ops.all Operand.modeOk then some (4, 0x01)
  else none

/-- The place of a twin (R106): the slot it twins is of its class, has no other twin, and did not run on unit 1 of two. -/
def State.twinOk (s : State) (v : View) : Bool :=
  v.n && !s.iss.twinned && s.iss.last.any (fun l => l.1 == v.cls && (l.2 == 0 || !(v.cls == .a || v.cls == .v)))

/-- The checks of R109 that a slot fails by itself, before those of its own instruction. -/
def State.slotRules (s : State) (v : View) : SlotEnd :=
  let c := s.me
  match v.fields with
  | some (rank, cause) => stopWith rank cause
  | none =>
    if v.g && !s.twinOk v then stopWith 5 0x05
    else if !v.reads.all (fun l => (mfind c.latches l).isSome) then stopWith 9 0x08
    else if 1 < v.lat && 24 < c.inFlight + v.count then stopWith 10 0x09
    else if !(v.streams ++ v.named).all (fun k => (c.stream k).readable) then stopWith 11 0x0D
    else .commit

/-- Whether a slot waits for an entry of a stream that a source takes (R85, R92). -/
def State.slotWaits (s : State) (v : View) : SlotEnd :=
  match v.streams.find? (fun k => (s.me.stream k).entries.isEmpty) with
  | some k => .block (.stream k)
  | none => .commit

/-- The first check of two that does not pass. -/
def SlotEnd.and (a b : SlotEnd) : SlotEnd :=
  match a with
  | .commit => b
  | e => e

/-- The checks of R109 that a slot fails by itself, and its wait for a stream. -/
def State.slotCheck (s : State) (v : View) : SlotEnd := (s.slotRules v).and (s.slotWaits v)

/-- Whether the value of a source is there: it names no stream that is empty. -/
def State.known (s : State) (o : Option Operand) : Bool :=
  o.all (fun o => !(o.m && o.f ≥ 16 && (s.me.stream (o.f % 16)).entries.isEmpty))

/-- A check that counts only where what it needs is there, and only as a trap: a block is decided after every check (R109). -/
def SlotEnd.early (ok : Bool) (e : SlotEnd) : SlotEnd :=
  match e with
  | .trap _ _ _ _ _ => if ok then e else .commit
  | _ => .commit

/-! ## How a slot ends -/

/-- The word of the slot being issued, for EINFO (R323). -/
def State.slotWord (s : State) : Word := (s.iss.words.getD s.iss.slot 0).setWidth 64

/-- Whether a cause that stops a bundle is the outcome of a KV operation, whose EINFO R379 gives (R262, R323). -/
def kvCause (cause : Byte) (info : Option Word) : Bool := info.isSome && decide (0x80 ≤ cause.toNat) && decide (cause.toNat ≤ 0x8F)

/-- The trap of an issue-time cause with a slot mask (R325 kind I): EPC is the bundle. A KV cause names no slot (R323). -/
def issueTrap (s : State) (cause : Byte) (info : Option Word) (extra src mask : Nat) : Trap :=
  { cause := cause, late := false, src := src, snum := 0, info := info.getD s.slotWord,
    emask := if kvCause cause info then 0 else BitVec.ofNat 64 (mask + 256 * extra), epc := s.iss.pc }

/-- What a blocking bundle leaves behind when it is not committed: a steal request, a KV operation sent, a read of a
global sync object, or the commands an `fwait` waits for. -/
def Ctx.waitFor (c : Ctx) (w : Wait) : Ctx :=
  let c := { c with blocked := w, latches := [] }
  match w with
  | .steal => { c with walker := { c.walker with outcome := .asked } }
  | .kv i a b => { c with kv := .sent c.pc i a b }
  | .syncLoad e =>
    if c.log.any (fun f => f.op == e.op && f.addr == e.addr) then c
    else { c with log := c.log ++ [{ e with num := c.logNext }], logNext := c.logNext + 1, syncRead := none }
  | .barrier _ _ => { c with syncRead := none }
  | .syncWord _ _ => { c with syncRead := none }
  | _ => c

/-- A slot that does not commit: the trap it takes, or the block (R85, R87). -/
def State.stop (s : State) (e : SlotEnd) : State :=
  let s := { s with slotEnd := e }
  match e with
  | .commit => s
  | .stall => s
  | .trap _ cause info extra src => s.enterTrap s.cur s.x (issueTrap s cause info extra src (2 ^ s.iss.slot)) false
  | .block w => s.upd (fun c => c.waitFor w)

/-- A committing slot: the streams it pops and the random word it uses are noted for the end of the bundle. -/
def State.begin (s : State) (v : View) : State :=
  { s with slotEnd := .commit,
           iss := { s.iss with pops := s.iss.pops ++ v.pops, sr := s.iss.sr || v.sr } }

/-- What a slot that used poisoned bytes leaves: its destinations and latches are not written, whatever else it does
commits, and 0x47 follows the bundle (R32). -/
def State.unwritten (s : State) (before : Ctx) : State :=
  (s.upd (fun c => { c with
    flight := before.flight
    log := c.log.map (fun e => if before.logNext ≤ e.num then { e with d := .none } else e) })).updIss
    (fun i => { i with poisoned := true })

/-- How the checks of a slot end: those of R109 in their order, the slot's own last. Where a source's stream is empty, the own
checks that need no value of it (`pre`) come before the block. -/
def State.checks (s : State) (v : View) (pre own : State → Vals → SlotEnd) : SlotEnd :=
  (s.slotRules v).and (match s.slotWaits v with
    | .commit => own s (s.vals v)
    | w => (pre s (s.vals v)).and w)

/-- What a slot does once its checks have passed. A slot that would store or merge a poisoned register stores and writes nothing
(R32, R59). -/
def State.effect (s : State) (v : View) (act : Vals → State → State) : State :=
  if s.dataBad v then (s.begin v).updIss (fun i => { i with poisoned := true })
  else if (v.a.toList ++ v.b.toList).any s.operandBad then (act (s.vals v) (s.begin v)).unwritten s.me
  else act (s.vals v) (s.begin v)

/-- Issues a slot: its checks, unless the bundle has already made them over every slot (R87), and its effect when each passes. -/
def issuePre (v : View) (pre own : State → Vals → SlotEnd) (act : Vals → State → State) (s : State) : Out :=
  match if s.iss.checked then .commit else s.checks v pre own with
  | .commit => .next (s.effect v act)
  | e => .next (s.stop e)

/-- Issues a slot none of whose own checks can be made without its values. -/
def issue (v : View) (own : State → Vals → SlotEnd) (act : Vals → State → State) (s : State) : Out :=
  issuePre v (fun _ _ => .commit) own act s

/-- Issues a slot whose own checks need A alone. -/
def issueA (v : View) (own : State → Vals → SlotEnd) (act : Vals → State → State) (s : State) : Out :=
  issuePre v (fun s x => (own s x).early (s.known v.a)) own act s

/-- A slot with no checks of its own. -/
def noCheck : State → Vals → SlotEnd := fun _ _ => .commit

/-! ## Results -/

/-- The latch of a slot's unit (R91, R106). -/
def latchOf (cls : Cls) (g : Bool) (unit : Nat) : Option Nat :=
  match cls with
  | .a => some (if g then 1 else unit % 2)
  | .v => some (if g then 3 else 2 + unit % 2)
  | .m => some (if g then 8 else 4)
  | .c => some (if g then 9 else 6)
  | .l => some 5
  | .p => some 7
  | _ => none

/-- A destination after ring renaming (R101). -/
def Ctx.destOf (c : Ctx) (d : Dest) : Dest :=
  match d with
  | .v r => .v (c.vname r)
  | d => d

/-- Puts a result in flight (R96, R99). The latch holds 0 in inactive lanes (R90). -/
def State.deliverAs (s : State) (d : Dest) (latch : Option Nat) (lat : Nat) (val : Vec) (mask : Pred)
    (flags : BitVec 5) : State :=
  s.upd (fun c => { c with flight := c.flight ++
    [{ left := lat, lat := lat, dest := d, latch := latch, val := val, mask := mask, flags := flags }] })

/-- The result of a slot: to its register unless N = 1, and to its unit's latch (R91, R96); a twin raises no flag
(R189). A predicate is carried as its lanes, all ones or zero (R191, R212). -/
def State.deliver (s : State) (v : View) (val : Vec) (mask : Pred) (flags : BitVec 5) : State :=
  s.deliverAs (if v.n then .none else s.me.destOf v.dWrite) (latchOf v.cls v.g s.iss.unit) v.lat val mask
    (if v.g then 0 else flags)

/-- A scalar result. -/
def State.deliverS (s : State) (v : View) (r : Word) : State := s.deliver v (wide r) (BitVec.allOnes 128) 0

/-- The control register a flight entry writes: VMODE, FFLAGS and the others whose value is held (R186). -/
def Ctx.writeCtl (c : Ctx) (n : Nat) (v : Word) : Ctx :=
  match n with
  | 0x00 => { c with vmode := v &&& 0x7FF }
  | 0x01 => { c with fflags := v.setWidth 5 }
  | 0x08 => { c with tvec := v &&& 0x3FFF_FFFF_FFFF_FFF3 }
  | 0x09 => { c with epc := v &&& ~~~15 }
  | 0x0D => { c with escr := v }
  | 0x38 => { c with mxsat := v }
  | 0x39 => { c with mxrag := v }
  | 0x3A => { c with xbclip := v }
  | _ => c

/-- Writes one due result to its register and latch and sets its flags (R91, R94, R98). -/
def State.writeResult (s : State) (core x : Nat) (f : InFlight) : State :=
  let s := match f.dest with
    | .none => s
    | .s r => s.updCtx core x (fun c => c.writeS r (lo64 f.val))
    | .v r => (s.writeV core x r (mergeLanes f.mask f.val (s.readV core x r))).cleanV core x r f.mask
    | .p r => s.updCtx core x (fun c => c.writeP r (ofBits (fun j =>
        if f.mask.getLsbD j then lane f.val j == BitVec.allOnes 32 else (c.readP r).getLsbD j)))
    | .ctl n => s.updCtx core x (fun c => c.writeCtl n (lo64 f.val))
  s.updCtx core x (fun c => { c with
    latches := match f.latch with
      | some l => mset c.latches l f.val
      | none => c.latches
    fflags := c.fflags ||| f.flags })

/-- The first enabled flag raised, as a cause: NV, DZ, OF, UF, NX (R327). -/
def flagCause (on : BitVec 5) : Byte :=
  if on.getLsbD 4 then 0x38 else if on.getLsbD 3 then 0x37 else if on.getLsbD 2 then 0x36
  else if on.getLsbD 1 then 0x35 else 0x34

/-- The results due at this schedule time (R97). -/
def Ctx.due (c : Ctx) : List InFlight := c.flight.filter (fun f => f.left == 0)

/-- Writes every result due at this schedule time, control registers first (R186). -/
def State.writeAll (s : State) (core x : Nat) : State :=
  let due := (s.ctx core x).due
  let isCtl := fun (f : InFlight) => match f.dest with
    | .ctl _ => true
    | _ => false
  let s := s.updCtx core x (fun c => { c with flight := c.flight.filter (fun f => f.left != 0) })
  (due.filter isCtl ++ due.filter (fun f => !isCtl f)).foldl (fun s f => s.writeResult core x f) s

/-- The enabled flags that some results raise, in a context as it is after their writing (R327). -/
def Ctx.raisedOn (c : Ctx) (due : List InFlight) : BitVec 5 :=
  due.foldl (fun (m : BitVec 5) f => m ||| f.flags) 0 &&& c.tvec.extractLsb' 57 5

/-- Writes every result due at this schedule time and then takes the flag trap that an enabled flag asks for, outside the
handler (R327, R328). -/
def State.writeDue (s : State) (core x : Nat) : State :=
  let due := (s.ctx core x).due
  let s := s.writeAll core x
  let on := (s.ctx core x).raisedOn due
  if on = 0 ∨ (s.ctx core x).hnd then s
  else s.enterTrap core x { cause := flagCause on, late := true, src := 10, snum := 0, info := on.setWidth 64, emask := 0,
                            epc := (s.ctx core x).pc } false

/-! ## Address operands -/

/-- A local address operand checked over `n` bytes (R57, R137): the address or the cause. -/
def State.checkLocal (s : State) (v : Word) (n : Nat) : Except Byte Nat :=
  match localOf v with
  | none => .error 0x49
  | some a => match s.localFault s.cur s.x a n with
    | some c => .error c
    | none => .ok a

/-- The check of a local extent in the own window only (R57, R160): the causes of R57 come first, then 0x49 for another window. -/
def State.checkOwn (s : State) (v : Word) (n : Nat) : Except Byte Nat :=
  match s.checkLocal v n with
  | .ok a => if windowOf a = 0 then .ok a else .error 0x49
  | .error c => .error c

/-- Continues with a checked address, or stops the slot with its cause. -/
def withAddr (r : Except Byte Nat) (k : Nat → SlotEnd) : SlotEnd :=
  match r with
  | .ok a => k a
  | .error c => stopWith 13 c

/-- The address a check passed. -/
def addrOf (r : Except Byte Nat) : Nat := r.toOption.getD 0

/-- The latency of a local load: 5 cycles, 11 through a causeway or register window (R57, R96). -/
def loadLatency (a : Nat) : Nat := if windowOf a = 0 then 5 else 11

/-- Appends to the operand log (R147). -/
def Ctx.logPush (c : Ctx) (e : LogEntry) : Ctx :=
  { c with log := c.log ++ [{ e with num := c.logNext }], logNext := c.logNext + 1 }

/-- A log entry to be completed. -/
def logEntry (op : LogOp) (addr : Word) (word : BitVec 32) : LogEntry :=
  { num := 0, op := op, addr := addr, data := 0, offs := 0, cmp := 0, mask := 0, d := .none, blocking := false,
    cause := 0, word := word }

/-- A slot that needs a log entry stalls while all 16 are held (R147). -/
def Ctx.logFull (c : Ctx) : Bool := 16 ≤ c.log.length

end Sys2Proof.Machine
end

