-- ==== Sys2Proof/Machine/Operands.lean ====
section
/-! DEFINITION. The operand form of every slot instruction: its class, sources, destination, ports, latency and the
field values R108 allows it, one view for each constructor (R95, R103-R107 and each instruction's own rule). -/

namespace Sys2Proof.Machine

/-- Scalar R form (R166, R168). -/
def vSRR (cls : Cls) (lat : Nat) (o : SRR) : View :=
  { slotView cls o.g o.n o.p with a := some (sSrc o.a), b := some (sSrc o.b), dWrite := .s o.d.toNat, lat := lat }

/-- Scalar form with one source (R169, R171). -/
def vS1 (cls : Cls) (lat : Nat) (g n : Bool) (d : BitVec 5) (a : Src) (p : BitVec 2) : View :=
  { slotView cls g n p with a := some (sSrc a), dWrite := .s d.toNat, lat := lat }

/-- Class K with one scalar source. -/
def vK1 (a : Src) (p : BitVec 2) : View := { slotView .k false false p with a := some (sSrc a) }

/-- Class K with a scalar result after 1 cycle (R165). -/
def vKd (d : BitVec 5) (p : BitVec 2) : View := { slotView .k false false p with dWrite := .s d.toNat, lat := 1 }

/-- Vector R form (R190, R194). -/
def vVRR (cls : Cls) (lat : Nat) (o : VRR) : View :=
  { slotView cls o.g o.n o.p with a := some (vSrc o.a), b := some (vSrc o.b), dWrite := .v o.d.toNat, lat := lat }

/-- Vector R form that reads D (R190, R194). -/
def vVRRd (cls : Cls) (lat : Nat) (o : VRR) : View := { vVRR cls lat o with dRead := some (true, o.d.toNat) }

/-- Vector compare (R191, R196): condition 7 is unassigned. -/
def vVCM (o : VCM) : View :=
  { slotView .v o.g o.n o.p with a := some (vSrc o.a), b := some (vSrc o.b), dWrite := .p o.k.toNat, lat := 2,
                                        encOk := o.c != 7 }

/-- Vector form with one source (R193, R197, R198, R200, R203, R204). -/
def vVU (cls : Cls) (lat : Nat) (o : VU) : View :=
  { slotView cls o.g o.n o.p with a := some (vSrc o.a), dWrite := .v o.d.toNat, lat := lat }

/-- R form of class P or L with scalar sources, to be completed. -/
def vPRR (cls : Cls) (lat : Nat) (o : PRR) : View :=
  { slotView cls false o.n o.p with a := some (sSrc o.a), b := some (sSrc o.b), lat := lat }

/-- Class L with one scalar source. -/
def vL1 (n : Bool) (a : Src) (p : BitVec 2) : View := { slotView .l false n p with a := some (sSrc a) }

/-- Class L with one scalar source and a scalar D that is read; D[5] must be 0. -/
def vL1d (d : BitVec 6) (a : Src) (p : BitVec 2) : View :=
  { vL1 false a p with dRead := some (false, d.toNat % 32), encOk := d.toNat < 32 }

/-- A latch code that a guarded form may name (R145). -/
def guardOk (l : BitVec 4) : Bool := l == 0 || l == 2 || l == 4 || l == 6

/-- A guarded latch and its partner (R145). -/
def pairOf (l : BitVec 4) : List Nat := [l.toNat, partner l.toNat]

/-- Guarded store, I form (R145). -/
def vGd (o : GSI) : View := { vL1 false o.a o.p with encOk := guardOk o.l, latches := pairOf o.l }

/-- A source that pops a stream. -/
def popped (a : Src) : Bool := a.m && (16 ≤ a.f.toNat && a.f.toNat < 32)

/-- A source that pops or peeks a stream. -/
def streamed (a : Src) : Bool := a.m && ((16 ≤ a.f.toNat && a.f.toNat < 32) || 48 ≤ a.f.toNat)

/-- A source of a matrix, crossbar or KV instruction: a stream is not read by the slot (R221, R245, R262). -/
def unitSrc (a : Src) : Option Operand := if streamed a then none else some (sSrc a)

/-- The streams that sources of such an instruction name: they must be readable (R109, check 11). -/
def unitStreams (l : List Src) : List Nat := (l.filter streamed).map (fun a => a.f.toNat % 16)

/-- A tile or array instruction with two sources. -/
def vKAB (o : KAB) : View :=
  { slotView .k false false o.p with a := unitSrc o.a, b := unitSrc o.b, named := unitStreams [o.a, o.b] }

/-- An array instruction with one source. -/
def vKA (o : KA) : View := { slotView .k false false o.p with a := unitSrc o.a, named := unitStreams [o.a] }

/-- A KV instruction with two sources (R262). -/
def vKV2 (a b : Src) (p : BitVec 2) : View :=
  { slotView .k false false p with a := unitSrc a, b := unitSrc b, named := unitStreams [a, b] }

/-- A source that peeks a stream. -/
def peeks (a : Src) : Bool := a.m && 48 ≤ a.f.toNat

/-- The source of a tile's address or factor: a popped stream is read by the slot, a peeked one is named only (R221). -/
def tileSrc (a : Src) : Option Operand := if peeks a then none else some (sSrc a)

/-- The stream that such a source peeks. -/
def peekStreams (a : Src) : List Nat := if peeks a then [a.f.toNat % 16] else []

/-- An assigned control register number (R185). -/
def ctlNumber (n : Nat) : Bool :=
  n ≤ 0x06 || (0x08 ≤ n && n ≤ 0x0D) || (0x10 ≤ n && n ≤ 0x13) || (0x20 ≤ n && n ≤ 0x2F) || (0x30 ≤ n && n ≤ 0x32) ||
    (0x38 ≤ n && n ≤ 0x3A)

/-- A pair code of `vcvt` that merges into D (R200). -/
def cvtNarrow (c : Nat) : Bool := c ≤ 3 || (5 ≤ c && c ≤ 7)

/-- The parts a pair code allows: one, two or four (R200). -/
def cvtParts (c : Nat) : Nat :=
  if c = 4 ∨ c = 12 then 1 else if c = 0 ∨ c = 1 ∨ c = 5 ∨ c = 8 ∨ c = 9 ∨ c = 13 then 2 else 4

/-- Part and SR as the pair code allows (R200). -/
def cvtOk (part : Nat) (sr : Bool) (c : Nat) : Bool := part < cvtParts c && (!sr || c ≤ 7 || c == 12)

/-- A block format of `vqnt` and `vdqnt` (R203, R204). -/
def blockFmt (c : Nat) : Bool := 7 ≤ c && c ≤ 12

/-- An MX block format (R203). -/
def mxFmt (c : Nat) : Bool := 7 ≤ c && c ≤ 9

/-- The operand form of a slot instruction; an event has none. -/
def viewOf (i : Instr) : View :=
  match i with
  | .add o => vSRR .a 1 o
  | .sub o => vSRR .a 1 o
  | .and o => vSRR .a 1 o
  | .andn o => vSRR .a 1 o
  | .or o => vSRR .a 1 o
  | .xor o => vSRR .a 1 o
  | .sll o => vSRR .a 1 o
  | .srl o => vSRR .a 1 o
  | .sra o => vSRR .a 1 o
  | .rol o => vSRR .a 1 o
  | .ror o => vSRR .a 1 o
  | .lea o => vSRR .a 1 o
  | .slt o => vSRR .a 1 o
  | .sltu o => vSRR .a 1 o
  | .min o => vSRR .a 1 o
  | .max o => vSRR .a 1 o
  | .minu o => vSRR .a 1 o
  | .maxu o => vSRR .a 1 o
  | .mul o => vSRR .m 3 o
  | .mulh o => vSRR .m 3 o
  | .mulhu o => vSRR .m 3 o
  | .div o => vSRR .m 20 o
  | .divu o => vSRR .m 20 o
  | .rem o => vSRR .m 20 o
  | .remu o => vSRR .m 20 o
  | .sel o => { vSRR .a 1 o with dRead := some (false, o.d.toNat) }
  | .addi o => vS1 .a 1 o.g o.n o.d o.a o.p
  | .andi o => vS1 .a 1 o.g o.n o.d o.a o.p
  | .ori o => vS1 .a 1 o.g o.n o.d o.a o.p
  | .xori o => vS1 .a 1 o.g o.n o.d o.a o.p
  | .slli o => vS1 .a 1 o.g o.n o.d o.a o.p
  | .srli o => vS1 .a 1 o.g o.n o.d o.a o.p
  | .srai o => vS1 .a 1 o.g o.n o.d o.a o.p
  | .nop => { slotView .none false false 0 with cls := .none }
  | .bcc _ a _ => { vK1 a 0 with aPort := 3 }
  | .jal d _ => vKd d 0
  | .jr d a p => { vK1 a p with dWrite := .s d.toNat, lat := 1 }
  | .jrGd d a l p => { vK1 a p with dWrite := .s d.toNat, lat := 1, encOk := guardOk l, latches := pairOf l }
  | .looph o => { vK1 o.a o.p with b := some (sSrc o.b) }
  | .trap a _ p => vK1 a p
  | .lnch d a p => { vK1 a p with dWrite := .s d.toNat, lat := 1 }
  | .cwr a imm p => { vK1 a p with encOk := ctlNumber imm.toNat }
  | .crdr d imm p => { vKd d p with encOk := ctlNumber imm.toNat }
  | .done => slotView .k false false 0
  | .yield => slotView .k false false 0
  | .waitt a p => vK1 a p
  | .rdtime d => vKd d 0
  | .wnext d => vKd d 0
  | .wpos d _ => vKd d 0
  | .ifence => slotView .k false false 0
  | .eret => slotView .k false false 0
  | .clz o => vS1 .a 1 o.g o.n o.d o.a o.p
  | .ctz o => vS1 .a 1 o.g o.n o.d o.a o.p
  | .popc o => vS1 .a 1 o.g o.n o.d o.a o.p
  | .sext o w => { vS1 .a 1 o.g o.n o.d o.a o.p with encOk := w != 3 }
  | .zext o w => { vS1 .a 1 o.g o.n o.d o.a o.p with encOk := w != 3 }
  | .crd g d n k p => { slotView .a g n p with dWrite := .s d.toNat, lat := 1, encOk := k.toNat ≤ 12 }
  | .li g d _ => { slotView .a g false 0 with dWrite := .s d.toNat, lat := 1 }
  | .lih g d _ => { slotView .a g false 0 with dWrite := .s d.toNat, lat := 1, dRead := some (false, d.toNat), dPort := 2 }
  | .pset imm => { slotView .p false false 0 with dWrite := .ctl 0, lat := 1, encOk := vmodeOk imm.toNat }
  | .vadd o => vVRR .v 2 o
  | .vsub o => vVRR .v 2 o
  | .vmul o => vVRR .v 2 o
  | .vmulh o => vVRR .v 2 o
  | .vmad o => vVRRd .v 2 o
  | .vand o => vVRR .v 2 o
  | .vor o => vVRR .v 2 o
  | .vxor o => vVRR .v 2 o
  | .vshl o => vVRR .v 2 o
  | .vshr o => vVRR .v 2 o
  | .vsra o => vVRR .v 2 o
  | .vmin o => vVRR .v 2 o
  | .vmax o => vVRR .v 2 o
  | .vcmp o => vVCM o
  | .vsel o => vVRR .v 2 o
  | .vabs o => vVU .v 2 o
  | .vclz o => vVU .v 2 o
  | .vpopc o => vVU .v 2 o
  | .vsat o t => { vVU .v 2 o with encOk := t != 3 }
  | .vfadd o => vVRR .v 4 o
  | .vfsub o => vVRR .v 4 o
  | .vfmul o => vVRR .v 4 o
  | .vffma o => vVRRd .v 4 o
  | .vfmin o => vVRR .v 2 o
  | .vfmax o => vVRR .v 2 o
  | .vfsgn o => vVRR .v 2 o
  | .vfcmp o => vVCM o
  | .vfclass o => vVU .v 2 o
  | .vrcp o => vVU .m 6 o
  | .vrsq o => vVU .m 6 o
  | .vsqrt o => vVU .m 6 o
  | .vexp2 o => vVU .m 6 o
  | .vlog2 o => vVU .m 6 o
  | .vtanh o => vVU .m 6 o
  | .vsilu o => vVU .m 6 o
  | .vcvt o part sr c => { vVU .c 3 o with encOk := cvtOk part.toNat sr c.toNat, sr := sr, dRead := if cvtNarrow c.toNat then some (true, o.d.toNat) else none }
  | .vqnt o sr c => { vVU .c 3 o with encOk := blockFmt c.toNat, sr := sr, dRead := if mxFmt c.toNat then some (true, o.d.toNat) else none }
  | .vdqnt o h c => { vVU .c 3 o with encOk := blockFmt c.toNat && (mxFmt c.toNat || !h) }
  | .vperm o => { vPRR .p 2 o with a := some (vSrc o.a), b := some (vSrc o.b), dWrite := .v o.d.toNat }
  | .vxcl o => { vPRR .p 4 o with a := some (vSrc o.a), dWrite := .v o.d.toNat }
  | .vshf o => { vPRR .p 2 o with a := some (vSrc o.a), dWrite := .v o.d.toNat }
  | .ld o => { vL1 o.n o.a o.p with dWrite := .s o.d.toNat }
  | .ldg o => { vL1 o.n o.a o.p with dWrite := .s o.d.toNat }
  | .st o => { vL1 false o.a o.p with dRead := some (false, o.d.toNat) }
  | .stGd o => vGd o
  | .stg o => { vL1 false o.a o.p with dRead := some (false, o.d.toNat) }
  | .stgGd o => vGd o
  | .vld d n a _ p => { vL1 n a p with dWrite := .v d.toNat }
  | .vst d a _ p => { vL1 false a p with dRead := some (true, d.toNat) }
  | .vstGd o => vGd o
  | .vldg o => { vPRR .l 0 o with dWrite := .v o.d.toNat }
  | .vstg o => { vL1 false o.a o.p with b := some (sSrc o.b), dRead := some (true, o.d.toNat), encOk := !popped o.a }
  | .vstgGd l a b p =>
    if popped a then { slotView .l false false p with encOk := guardOk l && !b.m && b.f == 0, latches := pairOf l }
    else { vL1 false a p with b := some (sSrc b), encOk := guardOk l, latches := pairOf l }
  | .vstgPush d _ p => { slotView .l false false p with dRead := some (true, d.toNat) }
  | .vgath o => { vPRR .l 0 o with b := some (vSrc o.b), dWrite := .v o.d.toNat }
  | .vscat o => { vPRR .l 0 o with n := false, b := some (vSrc o.b), dRead := some (true, o.d.toNat) }
  | .amo o => { vL1 o.n o.a o.p with b := some (sSrc o.b), dRead := some (false, o.d.toNat), dWrite := .s o.d.toNat }
  | .amog o => { vL1 o.n o.a o.p with b := some (sSrc o.b), dRead := some (false, o.d.toNat), dWrite := .s o.d.toNat }
  | .vamo o => { vPRR .l 0 o with b := some (vSrc o.b), dRead := some (true, o.d.toNat), dWrite := .v o.d.toNat }
  | .fence scope _ _ => { slotView .l false false 0 with encOk := scope.toNat ≤ 5 }
  | .qfence _ => slotView .l false false 0
  | .cinv d a p => vL1d d a p
  | .cwb d a p => vL1d d a p
  | .acq d _ a scope p => { vL1d d a p with encOk := d.toNat < 32 && scope.toNat ≤ 5 }
  | .rel d _ a scope p => { vL1d d a p with encOk := d.toNat < 32 && scope.toNat ≤ 5 }
  | .unbind _ a p => vL1 false a p
  | .bind o => { vL1d o.d o.a o.p with b := some (sSrc o.b) }
  | .fcopy o => vK1 o.a o.p
  | .fgath o => vK1 o.a o.p
  | .fput o => vK1 o.a o.p
  | .fget o => vK1 o.a o.p
  | .fcoll o => vK1 o.a o.p
  | .fa2a o => vK1 o.a o.p
  | .fwait _ p => slotView .k false false p
  | .binit n a b p => { vL1 false a p with b := some (sSrc b), encOk := !n }
  | .barv n a y p => { vL1 false a p with encOk := !n && !y }
  | .barvRel scope n a y p => { vL1 false a p with encOk := scope.toNat ≤ 5 && !n && !y }
  | .bwait scope n a b p => { vL1 false a p with b := some (sSrc b), encOk := scope.toNat ≤ 5 && !n }
  | .bxpect o => { vL1d o.d o.a o.p with b := some (sSrc o.b), encOk := o.d.toNat < 32 && !o.n }
  | .copen _ _ a p => vK1 a p
  | .cclose p => { slotView .k false false p with encOk := p == 0 }
  | .tchk l k p => { slotView .l false false p with latches := [l.toNat, k.toNat], encOk := l.toNat < 10 && k.toNat < 10 }
  | .sdesc o => vL1 false o.a o.p
  | .sbind _ p => slotView .l false false p
  | .sclose _ p => slotView .l false false p
  | .tmma o => vKAB o
  | .tmmaZ o => vKAB o
  | .tmmg o => vKAB o
  | .tmmgZ o => vKAB o
  | .zzero _ _ p => slotView .k false false p
  | .zld _ _ a p => { vK1 a p with a := tileSrc a, named := peekStreams a }
  | .zst _ a _ p => { vK1 a p with a := tileSrc a, named := peekStreams a }
  | .zstR _ a _ p => { vK1 a p with a := tileSrc a, named := peekStreams a }
  | .zcvt _ _ b p => { slotView .k false false p with b := tileSrc b, named := peekStreams b }
  | .zacc _ _ p => slotView .k false false p
  | .xmv z o => { vKAB o with encOk := z != 3 }
  | .xload o => vKAB o
  | .xprog o => vKA o
  | .xver o => vKAB o
  | .xremap o => vKA o
  | .xdrift o => vKA o
  | .xcalMeas _ p => slotView .k false false p
  | .xcalLdsc o => vKA o
  | .xcalLdog o => vKA o
  | .xcalStog o => vKA o
  | .xstat d _ p => vKd d p
  | .xfb o => vKA o
  | .kvnew a b p => vKV2 a b p
  | .kvapp d a b p => { vKV2 a b p with dWrite := .s d.toNat, lat := 1 }
  | .kvrefInc a b p => vKV2 a b p
  | .kvrefDec a b p => vKV2 a b p
  | .kvtrunc a b p => vKV2 a b p
  | .kvfind d a b p => { vKV2 a b p with dWrite := .s d.toNat, lat := 1 }
  | .kvpub d a b p => { vKV2 a b p with dWrite := .s d.toNat, lat := 1 }
  | .kvcow a p => { slotView .k false false p with a := unitSrc a, named := unitStreams [a] }
  | .kvstrm o => vKAB o
  | .rseed _ a b p => { vL1 false a p with b := some (sSrc b) }
  | .rsave _ a p => vL1 false a p
  | .rload _ a p => vL1 false a p
  | .vext o => { slotView .p false o.n o.p with a := some (vSrc o.a), b := some (sSrc o.b), dWrite := .s o.d.toNat, lat := 2 }
  | .vins o => { vPRR .p 2 o with dRead := some (true, o.d.toNat), dWrite := .v o.d.toNat }
  | .vbcast d n a p => { slotView .p false n p with a := some (sSrc a), dWrite := .v d.toNat, lat := 2 }
  | .vtrn d p => { slotView .p false false p with dWrite := .v d.toNat, lat := 2, count := 8, encOk := d.toNat % 8 == 0 }
  | .vred d n a op _ p => { slotView .p false n p with a := some (vSrc a), dWrite := .v d.toNat, lat := 4, encOk := op != 3 }
  | .vscan d n a op _ p => { slotView .p false n p with a := some (vSrc a), dWrite := .v d.toNat, lat := 4, encOk := op != 3 }
  | .viota d n _ p => { slotView .p false n p with dWrite := .v d.toNat, lat := 2 }
  | .pand d n _ _ p => { slotView .p false n p with dWrite := .p d.toNat, lat := 1 }
  | .por d n _ _ p => { slotView .p false n p with dWrite := .p d.toNat, lat := 1 }
  | .pxor d n _ _ p => { slotView .p false n p with dWrite := .p d.toNat, lat := 1 }
  | .pnot d n _ p => { slotView .p false n p with dWrite := .p d.toNat, lat := 1 }
  | .ppop d n _ p => { slotView .p false n p with dWrite := .s d.toNat, lat := 1 }
  | .pfirst d n _ p => { slotView .p false n p with dWrite := .s d.toNat, lat := 1 }
  | .resultWrite _ _ => slotView .none false false 0
  | .contextReady _ _ => slotView .none false false 0
  | .generatorAppend _ _ => slotView .none false false 0
  | .operandLogPerform _ _ _ => slotView .none false false 0
  | .lateFaultDelivery _ _ => slotView .none false false 0
  | .pageWalk _ _ _ _ => slotView .none false false 0
  | .shootdown _ => slotView .none false false 0
  | .shootdownComplete => slotView .none false false 0
  | .hbmSectorFill _ _ _ => slotView .none false false 0
  | .correctedWriteback _ _ _ => slotView .none false false 0
  | .patrolScrub _ _ => slotView .none false false 0
  | .activationAlert _ _ _ _ _ => slotView .none false false 0
  | .rdcEviction _ _ => slotView .none false false 0
  | .tileFetchEntryFill _ _ _ => slotView .none false false 0
  | .streamGeneratorRow _ _ _ => slotView .none false false 0
  | .writeStreamDrain _ _ _ => slotView .none false false 0
  | .sqstatHalt _ _ _ => slotView .none false false 0
  | .ferryTransfer _ _ => slotView .none false false 0
  | .followOnHandoff _ _ => slotView .none false false 0
  | .fqstatHalt _ _ _ => slotView .none false false 0
  | .fqstatDiscard _ _ _ => slotView .none false false 0
  | .matrixInstructionStart _ => slotView .none false false 0
  | .matrixStep _ => slotView .none false false 0
  | .matrixInstructionComplete _ => slotView .none false false 0
  | .dummyStep _ => slotView .none false false 0
  | .rampWindowEnd _ => slotView .none false false 0
  | .crossbarInstructionStart _ => slotView .none false false 0
  | .crossbarInstructionComplete _ _ => slotView .none false false 0
  | .digitalFallback _ _ => slotView .none false false 0
  | .tideCheck _ _ => slotView .none false false 0
  | .kvOperation _ _ => slotView .none false false 0
  | .kvStreamEntryFill _ _ _ => slotView .none false false 0
  | .narrowsSectorReceive _ _ => slotView .none false false 0
  | .straitFlitReceive _ _ _ => slotView .none false false 0
  | .linkRetrain _ _ => slotView .none false false 0
  | .linkTrained _ _ _ => slotView .none false false 0
  | .portTrainTimeout _ _ => slotView .none false false 0
  | .windowAccess _ _ _ _ _ => slotView .none false false 0
  | .soundTransfer _ _ _ _ => slotView .none false false 0
  | .soundAcknowledgement _ _ _ => slotView .none false false 0
  | .collectiveJoin _ _ _ => slotView .none false false 0
  | .collectiveRun _ _ _ => slotView .none false false 0
  | .collectiveResultWrite _ _ _ => slotView .none false false 0
  | .allToAllExchange _ _ _ _ _ _ => slotView .none false false 0
  | .fabricTimeout _ _ _ => slotView .none false false 0
  | .sndqHalt _ _ _ => slotView .none false false 0
  | .sndqDiscard _ _ _ => slotView .none false false 0
  | .qnotify _ => slotView .none false false 0
  | .queueSlotConsume _ => slotView .none false false 0
  | .schedulerPass => slotView .none false false 0
  | .launchAccept _ => slotView .none false false 0
  | .distributorDecision => slotView .none false false 0
  | .ageExpiry _ => slotView .none false false 0
  | .timedLaunchLead _ => slotView .none false false 0
  | .steal _ _ => slotView .none false false 0
  | .taskEnd _ _ => slotView .none false false 0
  | .savePoint _ _ => slotView .none false false 0
  | .savePointTimeout _ _ => slotView .none false false 0
  | .contextSave _ _ => slotView .none false false 0
  | .contextRestore _ _ => slotView .none false false 0
  | .islandResetEnd _ => slotView .none false false 0
  | .waittExpiry _ _ => slotView .none false false 0
  | .ptpstep _ => slotView .none false false 0
  | .ptploRead _ => slotView .none false false 0
  | .ptpctlWrite _ => slotView .none false false 0
  | .jrdseq _ => slotView .none false false 0
  | .fatalDeviceFault _ => slotView .none false false 0
  | .fatalRecovery => slotView .none false false 0
  | .restart => slotView .none false false 0
  | .powerWarning => slotView .none false false 0
  | .checkpointCommit => slotView .none false false 0
  | .resume => slotView .none false false 0
  | .restore => slotView .none false false 0
  | .boot => slotView .none false false 0
  | .attctlNop => slotView .none false false 0
  | .attctlExtend _ => slotView .none false false 0
  | .attctlQuote => slotView .none false false 0
  | .attctlPublicKey => slotView .none false false 0
  | .attctlFirmwareUpdate => slotView .none false false 0
  | .attctlInvalidOp _ => slotView .none false false 0
  | .xdriftpWrite _ _ => slotView .none false false 0
  | .linkEnable _ _ => slotView .none false false 0
  | .ethTransmit _ => slotView .none false false 0
  | .ethReceive _ _ => slotView .none false false 0
  | .stampPop _ => slotView .none false false 0
  | .pcieDma _ _ _ => slotView .none false false 0
  | .registerWrite _ _ => slotView .none false false 0
  | .applicationCoreAccess _ _ _ _ _ => slotView .none false false 0
  | .runtimeHaltRequest _ _ => slotView .none false false 0
  | .runtimeKill _ _ => slotView .none false false 0
  | .powerWarningDeassert => slotView .none false false 0
  | .powerLoss => slotView .none false false 0
  | .ethernetLinkDown _ _ => slotView .none false false 0
  | .pcieLinkError => slotView .none false false 0
  | .thermalLimit => slotView .none false false 0
  | .supplyUndervoltage => slotView .none false false 0
  | .applicationCoreMachineCheck _ => slotView .none false false 0
  | .runtimeHeartbeatMissed => slotView .none false false 0
  | .errorThresholdWindowEnd => slotView .none false false 0
  | .refreshWindowEnd _ => slotView .none false false 0
  | .refreshManagementEnd _ _ => slotView .none false false 0

end Sys2Proof.Machine
end

