-- ==== Sys2Proof/Machine/StreamOps.lean ====
section
/-! DEFINITION. What every consumer and filler of a stream shares: the removal of a head entry with its line pins (R43,
R92), the rows of a descriptor (R154) and the halt of a generator or drain (R159). -/

namespace Sys2Proof.Machine

/-- Drops the line pins of a stream on lines that no entry, and not the entry being filled, hold any more (R43); with the
last of them the tile's translation pins drop (R27). -/
def State.releaseLines (s : State) (core x k : Nat) (lines : List Nat) : State :=
  let q := (s.ctx core x).stream k
  let gone := lines.filter (fun l => !(q.entries.any (fun e => e.lines.contains l) || q.pendLines.contains l))
  let keep := s.linePins.filter (fun p => !(p.core == core && p.x == x && p.k == k && gone.contains p.line))
  let s := { s with linePins := keep }
  if q.kind = 2 ∧ !keep.any (fun p => p.core == core && p.x == x && p.k == k) then
    { s with pins := s.pins.filter (fun p => !(p.core == core && p.x == x && p.holder == .stream k)) }
  else s

/-- Removes the head entry of a stream (R92). -/
def State.popHead (s : State) (core x k : Nat) : State :=
  let q := (s.ctx core x).stream k
  match q.entries with
  | [] => s
  | e :: t => (s.updCtx core x (fun c => c.setStream k { q with entries := t, consumed := 0 })).releaseLines core x k e.lines

/-- The address of row `i` of a stream (R154). -/
def Stream.rowAt (q : Stream) (i : Nat) : Word :=
  q.base + BitVec.ofInt 64 (((i % q.ext : Nat) : Int) * stride q.str0 + ((i / q.ext : Nat) : Int) * stride q.str1)

/-- The address of the scale byte of block `n` (R154). -/
def Stream.scaleAt (q : Stream) (n : Nat) : Word :=
  q.base + BitVec.ofInt 64 (stride q.soff + (n : Int) * q.sstr.toInt)

/-- The pieces of `n` bytes from byte `pos` of a stream's rows, packed in order (R154). -/
def Stream.segments (q : Stream) : Nat → Nat → Nat → List (Word × Nat)
  | 0, _, _ => []
  | fuel + 1, pos, n =>
    if n = 0 ∨ q.rowlen = 0 ∨ q.count ≤ pos / q.rowlen then []
    else
      let m := Nat.min n (q.rowlen - pos % q.rowlen)
      (q.rowAt (pos / q.rowlen) + BitVec.ofNat 64 (pos % q.rowlen), m) :: q.segments fuel (pos + m) (n - m)

/-- The pieces that the drain of the pushed entries of a write stream, up to a number, is still to write (R158). -/
def Stream.unwritten (q : Stream) (num : Nat) : List (Word × Nat) :=
  if q.kind ≠ 5 then []
  else q.segments 4097 (q.rowlen * q.row + q.off)
    (512 * (q.entries.filter (fun e => decide (e.num < num))).length - q.pend.length)

/-- The sectors that such pieces of a stream in global memory lie in. -/
def Stream.undrained (q : Stream) (num : Nat) : List (Nat × Nat) :=
  if q.loc then [] else (q.unwritten num).map (fun p => (p.1.toNat / 64, (p.1.toNat + p.2 - 1) / 64))

/-- Whether the drain of a write stream in the own window, of entries up to a number, is still to write one of `n` local bytes. -/
def Stream.owes (q : Stream) (num a n : Nat) : Bool :=
  q.loc && (q.unwritten num).any (fun p => (localOf p.1).any (fun l => decide (l < a + n) && decide (a < l + p.2)))

/-- Whether a context's pushes before a number are still to write one of `n` local bytes (R68, R158). -/
def Ctx.owes (c : Ctx) (num a n : Nat) : Bool := c.streams.any (fun p => p.2.owes num a n)

/-- The sectors that a context's pushes before a number are still to write (R68, R158). -/
def Ctx.undrained (c : Ctx) (num : Nat) : List (Nat × Nat) := c.streams.flatMap (fun p => p.2.undrained num)

/-- SQSTAT as it reads (R159). -/
def Stream.status (q : Stream) : Word :=
  let left := if q.cfg then q.count - q.row else 0
  BitVec.ofNat 64 (q.entries.length + 16 * q.kind + 128 * q.started.toNat + 256 * q.halt.toNat + 512 * q.cfg.toNat +
    65536 * (if q.halt then q.cause.toNat else 0) + 2 ^ 24 * (left % 2 ^ 32))

/-- Halts a stream's generator or drain and delivers the cause as a late fault that names the stream (R159). -/
def State.haltStream (s : State) (core x k : Nat) (cause : Byte) (info : Word) : State :=
  (s.updCtx core x (fun c => c.setStream k { c.stream k with halt := true, cause := cause })).agentFault core x cause 8 k
    info 2

end Sys2Proof.Machine
end

