-- ==== Sys2Proof/Machine/Launches.lean ====
section
/-! DEFINITION. Launch records and walkers: reading and checking a record (R298, R299, R362), accepting a launch
(R303), the ranges of a launch (R309) and a steal (R311, R312). -/

namespace Sys2Proof.Machine

/-! ## Records -/

/-- The fields of a 64-byte launch record (R298). -/
def recordOf (b : List Byte) : Record :=
  { entry := BitVec.ofNat 64 (field b 0 8), args := BitVec.ofNat 64 (field b 8 8),
    ext := (List.range 4).map (fun k => field b (16 + 4 * k) 4), order := b.getD 0x20 0, shape := b.getD 0x21 0,
    stages := field b 0x22 1, tpc := field b 0x23 1, crews := field b 0x24 1, cpc := field b 0x25 1,
    grain := field b 0x26 2, spkb := field b 0x28 2, zt := field b 0x2A 1, prio := field b 0x2B 1,
    depend := field b 0x2C 4, start := BitVec.ofNat 64 (field b 0x30 8), done := BitVec.ofNat 64 (field b 0x38 8) }

/-- The banks a task of the launch receives (R56, R298). -/
def Record.banks (r : Record) : Nat := (r.spkb + 63) / 64

/-- The tiles of a launch (R299). -/
def Record.tiles (r : Record) : Nat := r.ext.foldl (· * ·) 1

/-- The dimension at a position of ORDER (R298). -/
def Record.dim (r : Record) (k : Nat) : Nat := bits r.order.toNat (2 * k + 1) (2 * k)

/-- The cores of a crew (R306). -/
def Record.crewCores (r : Record) : Nat := r.stages * r.cpc

/-- A core that may run tasks and lend storage: neither fused off nor on an island out of service (R362). -/
def State.inService (s : State) (core : Nat) : Bool := !(s.core core).fusedOff && !(s.island (coreIsland core)).removed

/-- How many cores of an island could hold the crew's cores of a launch: those in service, of one parity for a hot
launch (R313, R362). -/
def State.ableCores (s : State) (r : Record) (island : Nat) : Nat :=
  let l := ((List.range 16).map (islandCore island)).filter s.inService
  if r.heat = 2 then Nat.max (l.filter (fun c => coreParity c = 0)).length (l.filter (fun c => coreParity c = 1)).length
  else l.length

/-- The islands able to hold a crew of a launch (R362). -/
def State.ableIslands (s : State) (r : Record) : Nat :=
  ((List.range 32).filter (fun n => r.crewCores ≤ s.ableCores r n)).length

/-- The offset of the first failing field of a record, in the order of R299 and then R362 (R301); none where the record
passes. -/
def State.recordBad (s : State) (r : Record) : Option Nat :=
  let checks : List (Bool × Nat) :=
    [(r.entry.toNat % 64 == 0, 0), (1 ≤ r.ext.getD 0 0, 0x10), (1 ≤ r.ext.getD 1 0, 0x14), (1 ≤ r.ext.getD 2 0, 0x18),
     (1 ≤ r.ext.getD 3 0, 0x1C), ((List.range 4).all (fun d => (List.range 4).any (fun k => r.dim k == d)), 0x20),
     (1 ≤ r.stages && r.stages ≤ 8, 0x22), (1 ≤ r.tpc && r.tpc ≤ 4, 0x23), (r.crews ≤ 32, 0x24),
     (1 ≤ r.cpc && r.cpc ≤ 16, 0x25), (1 ≤ r.grain, 0x26), (r.spkb ≤ 2048, 0x28), (r.zt ≤ 16, 0x2A), (r.prio < 16, 0x2B),
     (r.done.toNat % 16 == 0, 0x38), (r.heat != 3, 0x21), (r.tiles < 2 ^ 63, 0x10),
     (r.crewCores ≤ (if r.heat = 2 then 8 else 16), 0x22), (r.tpc * r.banks ≤ 32, 0x23), (r.tpc * r.zt ≤ 16, 0x23),
     (Nat.max r.crews 1 ≤ s.ableIslands r, 0x22)]
  (checks.find? (fun c => !c.1)).map (·.2)

/-! ## Acceptance -/

/-- The launch id after one (R303). -/
def nextId (n : BitVec 32) : BitVec 32 := if n + 1 = 0 then 1 else n + 1

/-- A launch that is accepted and has yet to retire or be discarded (R303). -/
def Launch.alive (l : Launch) : Bool := l.state == .accepted || l.state == .started

/-- The START that counts: a START passed at acceptance counts as 0 (R318). -/
def Launch.startAt (l : Launch) : Nat := if l.rcd.start.toNat ≤ l.acceptedAt.toNat then 0 else l.rcd.start.toNat

/-- Accepts a record into a die's intake: it receives the next id, its dependence is looked at once, and the journal
records it (R303, R353). The id is answered. -/
def State.accept (s : State) (die asn ptroot : Nat) (pooldir : Word) (poolcnt queue qidx : Nat) (fromLnch : Bool)
    (r : Record) : State × Nat :=
  let id := s.nextLaunch.toNat
  let prev := if fromLnch then none else mfind s.sched.newest queue
  let l : Launch :=
    { id := id, rcd := r, state := .accepted, die := die, asn := asn, ptroot := ptroot, pooldir := pooldir,
      poolcnt := poolcnt, queue := queue, qidx := qidx, fromLnch := fromLnch, prev := prev,
      depWait := decide (r.depend ≠ 0) && (s.launch r.depend).elim false Launch.alive, eligibleAt := none, aged := false,
      lead := false, acceptedAt := s.now, crews := 0, tasks := 0, ended := [], killed := false, ownerless := [],
      startedAt := 0, dies := [] }
  let s := s.updRegs (fun g => { g with taken := true })
  let s := { s with nextLaunch := nextId s.nextLaunch,
                    sched := if fromLnch then s.sched else { s.sched with newest := mset s.sched.newest queue id },
                    launches := mset s.launches id l,
                    intake := mset s.intake die (mget [] s.intake die ++ [id]) }
  (s.journal l .accepted, id)

/-- Whether a die's intake is full (R303). -/
def State.intakeFull (s : State) (die : Nat) : Bool := 256 ≤ (mget [] s.intake die).length

/-! ## Walkers -/

/-- The number of lines of a placed launch (R306). -/
def Launch.lines (l : Launch) : Nat := l.crews * l.rcd.cpc * l.rcd.tpc

/-- The first range of a line (R309). -/
def Launch.lineRange (l : Launch) (line : Nat) : Range :=
  { next := line * l.rcd.tiles / l.lines, fin := (line + 1) * l.rcd.tiles / l.lines, owner := line }

/-- Coordinate of dimension `d` of a tile (R308). -/
def Record.coord (r : Record) (l d : Nat) : Nat :=
  let n := fun k => r.ext.getD (r.dim k) 1
  let inner := fun k => ((List.range 4).filter (fun j => k < j)).foldl (fun m j => m * n j) 1
  match (List.range 4).find? (fun k => r.dim k == d) with
  | none => 0
  | some k =>
    let digit := l / inner k % n k
    let outer := l / (inner k * n k)
    if r.shape.getLsbD d ∧ outer % 2 = 1 then n k - 1 - digit else digit

/-- A walker that a steal may split: where it is held, its line and its range. -/
inductive Victim where
  | live (core x : Nat)
  | saved (i : Nat)
  deriving DecidableEq, Repr

/-- The other stage-0 walkers of a launch on an island, in increasing line number after the thief's own, wrapping
(R311). A saved walker lies on the island its task was saved from. -/
def State.victims (s : State) (launch line island : Nat) : List (Victim × Range) :=
  let live := s.ctxs.filterMap (fun e => e.2.task.bind (fun t =>
    if t.launch = launch ∧ t.stage = 0 ∧ t.line ≠ line ∧ coreIsland (e.1 / 4) = island then
      some (t.line, Victim.live (e.1 / 4) (e.1 % 4), e.2.walker.range) else none))
  let kept := (List.range s.saved.length).filterMap (fun i => (s.saved[i]?).bind (fun v =>
    if v.launch = launch ∧ v.task.stage = 0 ∧ v.task.line ≠ line ∧ coreIsland v.core = island then
      some (v.task.line, Victim.saved i, v.ctx.walker.range) else none))
  let all := live ++ kept
  let lo := all.foldl (fun m e => Nat.max m (e.1 + 1)) (line + 1)
  ((List.range lo).map (fun k => (line + 1 + k) % lo)).flatMap (fun n =>
    (all.filter (fun e => e.1 == n)).map (fun e => (e.2.1, e.2.2)))

/-- What a scan of one island finds: an ownerless range, or a walker to split (R311). -/
def State.scanIsland (s : State) (l : Launch) (line island : Nat) : Option (Range × State) :=
  match l.ownerless.find? (fun o => o.1 == island) with
  | some o => some (o.2, s.updLaunch l.id (fun l => { l with ownerless := l.ownerless.erase o }))
  | none =>
    match (s.victims l.id line island).find? (fun v => v.2.next + 2 * l.rcd.grain ≤ v.2.fin) with
    | none => none
    | some (v, r) =>
      let mid := r.next + (r.fin - r.next + 1) / 2
      let cut := fun (w : Walker) => { w with range := { w.range with fin := mid } }
      let s := match v with
        | .live c x => s.updCtx c x (fun k => { k with walker := cut k.walker })
        | .saved i => { s with saved := s.saved.modify i (fun e => { e with ctx := { e.ctx with walker := cut e.ctx.walker } }) }
      some ({ next := mid, fin := r.fin, owner := r.owner }, s)

/-- The islands in the order in which a steal scans them: the thief's own, the rest of its die, the other die. -/
def scanOrder (island : Nat) : List Nat :=
  let die := island / 16
  let rest := (List.range 16).map (fun k => 16 * die + k)
  [island] ++ rest.filter (· != island) ++ (List.range 16).map (fun k => 16 * (1 - die) + k)

/-- The scan of a steal over islands in order; the first that has a range gives it. -/
def State.scan (s : State) (l : Launch) (line : Nat) : List Nat → Option (Range × State)
  | [] => none
  | n :: t =>
    match s.scanIsland l line n with
    | some r => some r
    | none => s.scan l line t

/-- A steal for a task that has asked (R311): the thief's walker takes the range found, or −1 is held for it; both are
traced (R357) and counted (R368). -/
def State.stealFor (s : State) (core x : Nat) : State :=
  match (s.ctx core x).task, s.launchOf core x with
  | some t, some l =>
    match s.scan l t.line (scanOrder (coreIsland core)) with
    | some (r, s) =>
      let s := s.updCtx core x (fun c => { c with walker := { c.walker with range := r, outcome := .got } })
      (s.count (coreIsland core) 3 1).trace 2 core t.launch t.task (BitVec.ofNat 64 r.next)
    | none =>
      let s := s.updCtx core x (fun c => { c with walker := { c.walker with outcome := .refused } })
      (s.count (coreIsland core) 4 1).trace 3 core t.launch t.task 0
  | _, _ => s

end Sys2Proof.Machine
end

