-- ==== Sys2Proof/Machine/Queues.lean ====
section
/-! DEFINITION. Launch queues: their descriptors in memory, notifies, the 64 hardware slots and the queue scheduler, and
how a mapped slot takes records (R300-R303). -/

namespace Sys2Proof.Machine

/-! ## Queue descriptors -/

/-- The address of a field of queue `n`'s descriptor (R300). -/
def State.queueAt (s : State) (n off : Nat) : Nat := (s.regs.qtbase.toNat + 64 * n + off) % 2 ^ 52

/-- A field of queue `n`'s descriptor, read at its home slice (R300). -/
def State.queueField (s : State) (n off len : Nat) : Nat := natOfBytes (s.homeBytes (s.queueAt n off) len).1

/-- The home slices after a read of queue `n`'s descriptor (R38, R300). -/
def State.readQueue (s : State) (n : Nat) : State := s.touchBytes (s.queueAt n 0) 64

/-- Writes a field of queue `n`'s descriptor at its home slice. -/
def State.setQueueField (s : State) (n off len v : Nat) : State := s.homeStore (s.queueAt n off) (le len v)

/-- The STATE word of a queue (R301). -/
def State.queueState (s : State) (n : Nat) : BitVec 32 := BitVec.ofNat 32 (s.queueField n 0x14 4)

/-- What STATE holds after the runtime has written a word to it (R301): PEND and ENABLE take the bits written, a 1 written to ERROR
clears it, and everything else is read-only. -/
def stateWritten (old v : BitVec 32) : BitVec 32 := (old &&& 0xFE) ||| (v &&& 0x101) ||| (old &&& ~~~v &&& 0x200)

/-- Changes the STATE word of a queue by one atomic (R301). -/
def State.updQueueState (s : State) (n : Nat) (f : BitVec 32 → BitVec 32) : State :=
  s.setQueueField n 0x14 4 (f (s.queueState n)).toNat

/-- PEND of a queue (R301). -/
def State.queuePend (s : State) (n : Nat) : Bool := (s.queueState n).getLsbD 0

/-- HEAD of a queue: the records taken. -/
def State.queueHead (s : State) (n : Nat) : Nat := s.queueField n 0x10 4

/-- TAIL of a queue: the records placed. -/
def State.queueTail (s : State) (n : Nat) : Nat := s.queueField n 0x0C 4

/-- The level of a queue (R300). -/
def State.queuePrio (s : State) (n : Nat) : Nat := s.queueField n 9 1 % 16

/-- Whether a pass considers a queue (R302). -/
def State.queueReady (s : State) (n : Nat) : Bool :=
  let st := s.queueState n
  st.getLsbD 8 && !st.getLsbD 9 && (st.getLsbD 0 || s.queueHead n != s.queueTail n)

/-! ## Slots -/

/-- Whether the distributor and its queues work: a fatal fault stops them (R356). -/
def State.tileSide (s : State) : Bool := !s.regs.fatal

/-- Takes a queue off its slot (R302, R357). -/
def State.unmapQueue (s : State) (slot n : Nat) : State :=
  let s := { s with slotsMapped := merase s.slotsMapped slot,
                    sched := { s.sched with taking := merase s.sched.taking slot } }
  let s := s.updQueueState n (fun v => v &&& ~~~(0xFE : BitVec 32))
  s.trace 6 0xFFFF 0 0 (BitVec.ofNat 64 (n + 4096 * slot))

/-- Gives a queue a slot (R302, R357). -/
def State.mapQueue (s : State) (slot n : Nat) : State :=
  let s := { s with slotsMapped := mset s.slotsMapped slot n }
  let s := s.updQueueState n (fun v => (v &&& ~~~(0xFE : BitVec 32)) ||| BitVec.ofNat 32 (2 + 4 * slot))
  s.trace 5 0xFFFF 0 0 (BitVec.ofNat 64 (n + 4096 * slot))

/-- A write of QNOTIFY: PEND of the queue is set; a notify in the cycle in which a pass unmaps the queue keeps its slot for
it (R301, R302). -/
def State.notifyQueue (s : State) (n : BitVec 12) : State :=
  let q := n.toNat
  let s := s.updQueueState q (fun v => v ||| 1)
  let s := { s with sched := { s.sched with heard := s.sched.heard ++ [q] } }
  if s.sched.passing = some s.cycle then
    { s with sched := { s.sched with
        notified := s.sched.notified.filter (fun u => u.1 != q) ++ s.sched.unmapped.filter (fun u => u.1 == q) } } else s

/-- QNOTIFY (R301, R302). -/
def execQnotify (n : BitVec 12) (s : State) : Out := s.ifBooted (s.notifyQueue n)

/-! ## The queue scheduler -/

/-- The ready queues of a level in the order of a pass: those that return to the slot they left, then round-robin after
the last queue the level mapped (R302). -/
def State.levelOrder (s : State) (ready : List Nat) (first : List (Nat × Nat)) (level : Nat) : List Nat :=
  let mine := ready.filter (fun n => s.queuePrio n == level)
  let back := mine.filter (fun n => first.any (fun r => r.1 == n))
  let rest := mine.filter (fun n => !back.contains n)
  let last := mget 4095 s.sched.last level
  back ++ rest.filter (fun n => last < n) ++ rest.filter (fun n => n ≤ last)

/-- The ready queues in the order in which a pass takes them, `first` those that come back to the slot they left (R302). -/
def State.passOrder (s : State) (first : List (Nat × Nat)) : List Nat :=
  let ready := (List.range 4096).filter s.queueReady
  (List.range 16).flatMap (fun k => s.levelOrder ready first (15 - k))

/-- A pass reads every descriptor (R300, R302). -/
def State.readQueues (s : State) : State := (List.range 4096).foldl State.readQueue s

/-- The first half of a pass: a mapped queue with nothing to do is unmapped, and so is one that is not among the first 64 of the order
(R302). The queues notified in the cycle of their unmapping by the pass before come back in this one. -/
def State.passUnmap (s : State) : State :=
  let s := s.readQueues
  let chosen := (s.passOrder s.sched.notified).take 64
  let gone := s.slotsMapped.filter (fun e => !chosen.contains e.2)
  let s := gone.foldl (fun s e => s.unmapQueue e.1 e.2) s
  { s with sched := { s.sched with
      due := s.sched.due + 19000
      passing := some s.cycle
      unmapped := gone.map (fun e => (e.2, e.1))
      returning := s.sched.notified
      notified := (gone.filter (fun e => s.sched.heard.contains e.2)).map (fun e => (e.2, e.1)) } }

/-- The slot for a queue to be mapped: the one it left, or the lowest that is free and kept for no other. -/
def State.freeSlot (s : State) (kept : List (Nat × Nat)) (n : Nat) : Option Nat :=
  let free := fun (k : Nat) => (mfind s.slotsMapped k).isNone
  match s.sched.returning.find? (fun r => r.1 == n && free r.2) with
  | some r => some r.2
  | none => (List.range 64).find? (fun k => free k && !kept.any (fun r => r.2 == k))

/-- The second half of a pass: the first queues of the order that are not mapped take the free slots; a slot kept for a queue that was
notified as it was unmapped stays free (R302). -/
def State.passMap (s : State) : State :=
  let s := s.readQueues
  let order := s.passOrder s.sched.returning
  let kept := s.sched.notified ++ s.sched.returning.filter (fun r => (order.take 64).contains r.1)
  let mapped := s.slotsMapped.map (·.2)
  let fresh := order.filter (fun n => !mapped.contains n && !s.sched.notified.any (fun r => r.1 == n))
  let s := fresh.foldl (fun s n => match s.freeSlot kept n with
    | some k => s.mapQueue k n
    | none => s) s
  let held := order.filter (fun n => s.slotsMapped.any (fun e => e.2 == n))
  { s with sched := { s.sched with
      passing := none
      unmapped := []
      returning := []
      last := held.foldl (fun m n => mset m (s.queuePrio n) n) s.sched.last } }

/-- Whether the queue scheduler has a step to take: a pass begins every 10 µs and maps in a later cycle than it unmaps. -/
def State.passReady (s : State) : Bool :=
  s.tileSide && (match s.sched.passing with
    | some c => decide (c < s.cycle)
    | none => decide (s.sched.due ≤ s.cycle))

/-- SCHEDULER_PASS (R302): the half of a pass that is due. -/
def execSchedulerPass (s : State) : Out :=
  .next (if !s.passReady then s else match s.sched.passing with
    | some _ => s.passMap
    | none => s.passUnmap)

/-! ## Taking records -/

/-- Whether a mapped slot may begin to consume its queue; a power warning stops the slots (R301, R358). -/
def State.slotReady (s : State) (slot : Nat) : Bool :=
  s.tileSide && !s.regs.failing && (mfind s.sched.taking slot).isNone &&
    (match mfind s.slotsMapped slot with
      | some n => s.queuePend n || s.queueHead n != s.queueTail n
      | none => false)

/-- QUEUE_SLOT_CONSUME (R301): PEND is cleared, then TAIL is read; records up to it are then taken. -/
def execQueueSlotConsume (slot : Nat) (s : State) : Out :=
  match mfind s.slotsMapped slot with
  | none => .next s
  | some n =>
    if !s.slotReady slot then .next s
    else
      let s := s.updQueueState n (fun v => v &&& ~~~(1 : BitVec 32))
      let tail := s.queueTail n
      .next (if s.queueHead n = tail then s
        else { s with sched := { s.sched with taking := mset s.sched.taking slot tail } })

/-- A record that is refused: ERROR, ERRCAUSE and ERROFF are set, HEAD stays and the queue is unmapped (R301). -/
def State.refuseRecord (s : State) (slot n cause off : Nat) : State :=
  let s := s.updQueueState n (fun v => v ||| 0x200)
  let s := (s.setQueueField n 0x2C 1 cause).setQueueField n 0x2D 1 off
  (s.unmapQueue slot n).offer { ev cause 6 0 0 with cls := 11 }

/-- The record at a queue's HEAD, or the cause of a ring that cannot be read (R300). -/
def State.headRecord (s : State) (n : Nat) : Except Byte Record × State :=
  let va := BitVec.ofNat 64 (s.queueField n 0 8 + 64 * (s.queueHead n % 2 ^ s.queueField n 8 1))
  match s.translateBare (s.queueField n 0x0A 2 % 4096) (s.queueField n 0x18 8) va .read with
  | (.fault c, s) => (.error c, s)
  | (.ok pa, s) =>
    let r := s.readHome pa 64
    (if r.1.2 then .error 0x47 else .ok (recordOf r.1.1), r.2)

/-- Takes the record at HEAD of a queue into the intake of a die, or refuses it (R301, R303). -/
def State.takeRecord (s : State) (die slot n : Nat) : State :=
  match (s.readQueue n).headRecord n with
  | (.error c, s) => s.refuseRecord slot n c.toNat 0
  | (.ok r, s) =>
    match s.recordBad r with
    | some off => s.refuseRecord slot n 0x6F off
    | none =>
      if s.intakeFull die then s
      else
        let head := s.queueHead n
        let s := (s.accept die (s.queueField n 0x0A 2 % 4096) (s.queueField n 0x18 8)
          (BitVec.ofNat 64 (s.queueField n 0x20 8)) (s.queueField n 0x28 4) n head false r).1
        s.setQueueField n 0x10 4 ((head + 1) % 2 ^ 32)

/-- The slot of a die whose record is taken next: the first that is taking and has a record that can be. Slots 0 to 31
belong to die 0, the others to die 1 (a choice of the model). -/
def State.takingSlot (s : State) (die : Nat) : Option (Nat × Nat) :=
  if !s.tileSide || s.regs.failing then none
  else (s.sched.taking.find? (fun e => e.1 / 32 == die && (!s.intakeFull die ||
      (match mfind s.slotsMapped e.1 with
        | some n => (match (s.headRecord n).1 with
          | .error _ => true
          | .ok r => (s.recordBad r).isSome)
        | none => false)))).bind (fun e => (mfind s.slotsMapped e.1).map (fun n => (e.1, n)))

/-- LAUNCH_ACCEPT (R301, R303): one record enters the intake of a die and is accepted, or is refused. -/
def execLaunchAccept (die : Nat) (s : State) : Out :=
  match s.takingSlot die with
  | none => .next s
  | some (slot, n) =>
    let s := s.takeRecord die slot n
    .next (if (mfind s.sched.taking slot).any (fun t => t == s.queueHead n) then
      { s with sched := { s.sched with taking := merase s.sched.taking slot } } else s)

end Sys2Proof.Machine
end

