-- ==== Sys2Proof/Machine/Flags.lean ====
section
/-! DEFINITION. Floating-point values, rounding and the flags it raises (R94, R117, R118, R124-R129): every flag that
an arithmetic instruction computes comes from here. -/

namespace Sys2Proof.Machine

/-- The five exception flags, as FFLAGS holds them (R94). -/
abbrev Flags := BitVec 5

/-- Inexact. -/
def fNX : Flags := 1
/-- Underflow. -/
def fUF : Flags := 2
/-- Overflow. -/
def fOF : Flags := 4
/-- Division by zero. -/
def fDZ : Flags := 8
/-- Invalid operation. -/
def fNV : Flags := 16

/-- A value read from a floating-point format: a NaN, signalling or not, an infinity, or `(-1)^neg × m × 2^e`. -/
inductive Num where
  | nan (sig : Bool)
  | inf (neg : Bool)
  | fin (neg : Bool) (m : Nat) (e : Int)
  deriving DecidableEq, Repr

/-- A floating-point format: its exponent and fraction bits, and whether it has E4M3's encodings (R117). -/
structure Fmt where
  eb : Nat
  fb : Nat
  e4m3 : Bool
  deriving DecidableEq, Repr

/-- FP32 (R117). -/
def fp32 : Fmt := { eb := 8, fb := 23, e4m3 := false }
/-- BF16 (R117). -/
def bf16 : Fmt := { eb := 8, fb := 7, e4m3 := false }
/-- FP16 (R117). -/
def fp16 : Fmt := { eb := 5, fb := 10, e4m3 := false }
/-- FP8 E4M3 (R117). -/
def fpE4m3 : Fmt := { eb := 4, fb := 3, e4m3 := true }
/-- FP8 E5M2 (R117). -/
def fpE5m2 : Fmt := { eb := 5, fb := 2, e4m3 := false }

/-- The exponent bias (R117). -/
def Fmt.bias (f : Fmt) : Nat := 2 ^ (f.eb - 1) - 1

/-- The bits of the format. -/
def Fmt.width (f : Fmt) : Nat := f.eb + f.fb + 1

/-- The sign bit in place. -/
def Fmt.sign (f : Fmt) (neg : Bool) : Nat := if neg then 2 ^ (f.eb + f.fb) else 0

/-- The canonical quiet NaN (R118). -/
def Fmt.nan (f : Fmt) : Nat :=
  (2 ^ f.eb - 1) * 2 ^ f.fb + (if f.e4m3 then 2 ^ f.fb - 1 else 2 ^ (f.fb - 1))

/-- The largest finite magnitude (R117). -/
def Fmt.most (f : Fmt) : Nat :=
  if f.e4m3 then (2 ^ f.eb - 1) * 2 ^ f.fb + 2 ^ f.fb - 2 else (2 ^ f.eb - 1) * 2 ^ f.fb - 1

/-- An infinity; E4M3 has none and gives its largest value (R125). -/
def Fmt.infinity (f : Fmt) (neg : Bool) : Nat := f.sign neg + (if f.e4m3 then f.most else (2 ^ f.eb - 1) * 2 ^ f.fb)

/-- The smallest exponent of a unit in the last place (R117). -/
def Fmt.qmin (f : Fmt) : Int := 1 - (f.bias : Int) - (f.fb : Int)

/-- Reads a value (R117, R118). -/
def Fmt.unpack (f : Fmt) (v : Nat) : Num :=
  let neg := v.testBit (f.eb + f.fb)
  let ex := bits v (f.eb + f.fb - 1) f.fb
  let fr := v % 2 ^ f.fb
  if ex = 2 ^ f.eb - 1 ∧ !f.e4m3 then
    if fr = 0 then .inf neg else .nan (!fr.testBit (f.fb - 1))
  else if f.e4m3 ∧ ex = 2 ^ f.eb - 1 ∧ fr = 2 ^ f.fb - 1 then .nan false
  else if ex = 0 then .fin neg fr f.qmin
  else .fin neg (fr + 2 ^ f.fb) ((ex : Int) - 1 + f.qmin)

/-- A rounding mode; stochastic rounding carries its 16 random bits (R124, R127). -/
inductive Mode where
  | rne | rtz | rdn | rup | rna
  | sr (r : Nat)
  deriving DecidableEq, Repr

/-- The mode of a VMODE.RM code (R124). -/
def modeOf (rm : Nat) : Mode :=
  match rm with
  | 0 => .rne
  | 1 => .rtz
  | 2 => .rdn
  | 3 => .rup
  | _ => .rna

/-- Whether a magnitude with remainder `rem` of `d` rounds up from `n` (R124, R127). -/
def roundsUp (mode : Mode) (neg : Bool) (n rem d : Nat) : Bool :=
  match mode with
  | .rne => decide (d < 2 * rem) || (2 * rem == d && n % 2 == 1)
  | .rtz => false
  | .rdn => neg && rem != 0
  | .rup => !neg && rem != 0
  | .rna => decide (d ≤ 2 * rem)
  | .sr r => rem != 0 && decide (65536 ≤ rem * 65536 / d + r)

/-- `m × 2^e` rounded to a multiple of `2^q`: the multiple, and whether the result is inexact (R124). -/
def roundTo (mode : Mode) (neg : Bool) (m : Nat) (e q : Int) : Nat × Bool :=
  if q ≤ e then (m * 2 ^ (e - q).toNat, false)
  else
    let d := 2 ^ (q - e).toNat
    let n := m / d
    let rem := m % d
    (if roundsUp mode neg n rem d then n + 1 else n, rem != 0)

/-- `m × 2^e > n × 2^k`. -/
def magGt (m : Nat) (e : Int) (n : Nat) (k : Int) : Bool :=
  decide (n * 2 ^ (k - e).toNat < m * 2 ^ (e - k).toNat)

/-- The exponent of the leading one of `m × 2^e`. -/
def topExp (m : Nat) (e : Int) : Int := (m.log2 : Int) + e

/-- The bits of a magnitude `n × 2^q` that the format holds exactly, without its sign. -/
def Fmt.place (f : Fmt) (n : Nat) (q : Int) : Nat :=
  let k := if f.qmin ≤ q then n * 2 ^ (q - f.qmin).toNat else n / 2 ^ (f.qmin - q).toNat
  if k < 2 ^ (f.fb + 1) then k
  else
    let s := k.log2 - f.fb
    s * 2 ^ f.fb + k / 2 ^ s

/-- What an overflow gives (R125). -/
def Fmt.overflow (f : Fmt) (mode : Mode) (neg : Bool) : Nat :=
  let big := f.sign neg + f.most
  match mode with
  | .rtz => big
  | .rdn => if neg then f.infinity neg else big
  | .rup => if neg then big else f.infinity neg
  | _ => f.infinity neg

/-- Whether a magnitude overflows: rounded with unbounded exponent it exceeds the largest finite value; under SR any
magnitude beyond that value does (R125, R127). -/
def Fmt.over (f : Fmt) (p : Nat) (mode : Mode) (neg : Bool) (m : Nat) (e : Int) : Bool :=
  let k := match f.unpack f.most with
    | .fin _ k x => (k, x)
    | _ => (0, 0)
  match mode with
  | .sr _ => magGt m e k.1 k.2
  | _ =>
    let q := topExp m e - ((p : Int) - 1)
    magGt (roundTo mode neg m e q).1 q k.1 k.2

/-- Rounds `(-1)^neg × m × 2^e` to a format on a grid of `p` significant bits, with its flags (R124, R125, R129). -/
def Fmt.round (f : Fmt) (p : Nat) (mode : Mode) (neg : Bool) (m : Nat) (e : Int) : Nat × Flags :=
  if m = 0 then (f.sign neg, 0)
  else if f.over p mode neg m e then (f.overflow mode neg, fOF ||| fNX)
  else
    let qu := topExp m e - ((p : Int) - 1)
    let q := max qu f.qmin
    let r := roundTo mode neg m e q
    let mu := roundTo mode neg m e qu
    let tiny := magGt 1 (1 - (f.bias : Int)) mu.1 qu
    (f.sign neg + f.place r.1 q, if r.2 then (if tiny then fUF ||| fNX else fNX) else 0)

/-- Rounds to a format at its own precision (R124, R125). -/
def Fmt.rnd (f : Fmt) (mode : Mode) (neg : Bool) (m : Nat) (e : Int) : Nat × Flags := f.round (f.fb + 1) mode neg m e

/-- `round12` (R129). -/
def round12 (neg : Bool) (m : Nat) (e : Int) : Nat × Flags := fp32.round 12 .rne neg m e

/-- NV where a signalling NaN is consumed (R118). -/
def sigFlag (sig : Bool) : Flags := if sig then fNV else 0

/-- A value converted to a float format (R125, R202). -/
def Fmt.convert (f : Fmt) (mode : Mode) (x : Num) : Nat × Flags :=
  match x with
  | .nan s => (f.nan, sigFlag s)
  | .inf neg => (f.infinity neg, if f.e4m3 then fNV else 0)
  | .fin neg m e => f.rnd mode neg m e

/-- An integer converted to a float format (R126). -/
def Fmt.ofInt (f : Fmt) (mode : Mode) (i : Int) : Nat × Flags := f.rnd mode (decide (i < 0)) i.natAbs 0

/-- A value converted to an integer of a range (R126). -/
def toRange (lo hi : Int) (mode : Mode) (x : Num) : Int × Flags :=
  match x with
  | .nan _ => (0, fNV)
  | .inf neg => (if neg then lo else hi, fNV)
  | .fin neg m e =>
    let r := roundTo mode neg m e 0
    let i : Int := if neg then -(r.1 : Int) else r.1
    if i < lo then (lo, fNV) else if hi < i then (hi, fNV) else (i, if r.2 then fNX else 0)

/-! ## Arithmetic -/

/-- A NaN result (R118). -/
def Fmt.quiet (f : Fmt) (sig : Bool) : Nat × Flags := (f.nan, sigFlag sig)

/-- Whether a value is a NaN, and whether it is signalling. -/
def Num.nan? : Num → Option Bool
  | .nan s => some s
  | _ => none

/-- The exact sum of two finite values, rounded once; an exact zero sum has the sign of R194. -/
def Fmt.sumFin (f : Fmt) (mode : Mode) (n1 : Bool) (m1 : Nat) (e1 : Int) (n2 : Bool) (m2 : Nat) (e2 : Int) : Nat × Flags :=
  let k := min e1 e2
  let one := fun (n : Bool) (m : Nat) (e : Int) => let v : Int := (m * 2 ^ (e - k).toNat : Nat); if n then -v else v
  let s := one n1 m1 e1 + one n2 m2 e2
  if s = 0 then (f.sign (if m1 = 0 ∧ m2 = 0 ∧ n1 = n2 then n1 else mode == .rdn), 0)
  else f.rnd mode (decide (s < 0)) s.natAbs k

/-- The sum of two values that are no NaN (R125, R194). -/
def Fmt.sum (f : Fmt) (mode : Mode) (x y : Num) : Nat × Flags :=
  match x, y with
  | .inf a, .inf b => if a = b then (f.infinity a, 0) else f.quiet true
  | .inf a, _ => (f.infinity a, 0)
  | _, .inf b => (f.infinity b, 0)
  | .fin a m e, .fin b n k => f.sumFin mode a m e b n k
  | _, _ => f.quiet false

/-- The exact product of two values that are no NaN; none for infinity times zero. -/
def prodOf (x y : Num) : Option Num :=
  match x, y with
  | .fin a m e, .fin b n k => some (.fin (a != b) (m * n) (e + k))
  | .inf a, .inf b => some (.inf (a != b))
  | .inf a, .fin b n _ => if n = 0 then none else some (.inf (a != b))
  | .fin a m _, .inf b => if m = 0 then none else some (.inf (a != b))
  | _, _ => some (.nan false)

/-- The NaN that one or more NaN operands give, if there are any (R118). -/
def Fmt.nans (f : Fmt) (l : List Num) : Option (Nat × Flags) :=
  let n := l.filterMap Num.nan?
  if n.isEmpty then none else some (f.quiet (n.any id))

/-- A value with its sign turned. -/
def Num.neg : Num → Num
  | .nan s => .nan s
  | .inf n => .inf (!n)
  | .fin n m e => .fin (!n) m e

/-- Addition (R194). -/
def Fmt.add (f : Fmt) (mode : Mode) (a b : Nat) : Nat × Flags :=
  (f.nans [f.unpack a, f.unpack b]).getD (f.sum mode (f.unpack a) (f.unpack b))

/-- Subtraction (R194). -/
def Fmt.sub (f : Fmt) (mode : Mode) (a b : Nat) : Nat × Flags :=
  (f.nans [f.unpack a, f.unpack b]).getD (f.sum mode (f.unpack a) (f.unpack b).neg)

/-- Multiplication (R194). -/
def Fmt.mul (f : Fmt) (mode : Mode) (a b : Nat) : Nat × Flags :=
  (f.nans [f.unpack a, f.unpack b]).getD
    (match prodOf (f.unpack a) (f.unpack b) with
      | none => f.quiet true
      | some p => f.convert mode p)

/-- `a × b + d` rounded once (R194): infinity times zero is invalid even beside a quiet NaN. -/
def Fmt.fma (f : Fmt) (mode : Mode) (a b d : Nat) : Nat × Flags :=
  match prodOf (f.unpack a) (f.unpack b) with
  | none => f.quiet true
  | some p => (f.nans [f.unpack a, f.unpack b, f.unpack d]).getD (f.sum mode p (f.unpack d))

/-- A total order of the values that are no NaN, with −0 just below +0 when `zeros` is set. -/
def numLt (zeros : Bool) (x y : Num) : Bool :=
  match x, y with
  | .inf a, .inf b => a && !b
  | .inf a, _ => a
  | _, .inf b => !b
  | .fin a m e, .fin b n k =>
    if m = 0 ∧ n = 0 then zeros && a && !b
    else
      let k' := min e k
      let v := fun (s : Bool) (m : Nat) (e : Int) => let w : Int := (m * 2 ^ (e - k').toNat : Nat); if s then -w else w
      decide (v a m e < v b n k)
  | _, _ => false

/-- Minimum or maximum (R195). -/
def Fmt.pick (f : Fmt) (greater : Bool) (a b : Nat) : Nat × Flags :=
  let x := f.unpack a
  let y := f.unpack b
  let sig := sigFlag (x == .nan true || y == .nan true)
  match x.nan?, y.nan? with
  | some _, some _ => (f.nan, sig)
  | some _, none => (b, sig)
  | none, some _ => (a, sig)
  | none, none => (if numLt true x y then (if greater then b else a) else (if greater then a else b), 0)

/-- The test of a float condition (R196). -/
def Fmt.test (f : Fmt) (cond : Nat) (a b : Nat) : Bool × Flags :=
  let x := f.unpack a
  let y := f.unpack b
  if x.nan?.isSome ∨ y.nan?.isSome then
    (cond == 1 || cond == 6, if (2 ≤ cond ∧ cond ≤ 5) ∨ x = .nan true ∨ y = .nan true then fNV else 0)
  else
    let lt := numLt false x y
    let gt := numLt false y x
    (match cond with
      | 0 => !lt && !gt
      | 1 => lt || gt
      | 2 => lt
      | 3 => !gt
      | 4 => gt
      | 5 => !lt
      | _ => false, 0)

/-- The class mask of a value (R197). -/
def Fmt.classMask (f : Fmt) (a : Nat) : Nat :=
  match f.unpack a with
  | .inf neg => if neg then 1 else 128
  | .nan sig => if sig then 256 else 512
  | .fin neg m _ =>
    if m = 0 then (if neg then 8 else 16)
    else if m < 2 ^ f.fb then (if neg then 4 else 32) else (if neg then 2 else 64)

end Sys2Proof.Machine
end

