-- ==== Sys2Proof/Machine/Scalar.lean ====
section
/-! DEFINITION. Scalar arithmetic: classes A and M (R165-R172). -/

namespace Sys2Proof.Machine

/-- A scalar slot that computes a word of its two sources (R165). -/
def scalar2 (v : View) (f : Word → Word → Word) (s : State) : Out :=
  issue v noCheck (fun x s => s.deliverS v (f (lo64 x.a) (lo64 x.b))) s

/-- A scalar slot that computes a word of its one source (R165). -/
def scalar1 (v : View) (f : Word → Word) (s : State) : Out :=
  issue v noCheck (fun x s => s.deliverS v (f (lo64 x.a))) s

/-- 1 or 0 (R166). -/
def boolWord (b : Bool) : Word := if b then 1 else 0

/-- The amount of a shift or rotation (R166). -/
def amount (b : Word) : Nat := b.toNat % 64

/-- Signed quotient toward zero, with the cases of R167. -/
def divS (a b : Word) : Word := if b = 0 then BitVec.allOnes 64 else BitVec.ofInt 64 (a.toInt.tdiv b.toInt)

/-- Unsigned quotient (R167). -/
def divU (a b : Word) : Word := if b = 0 then BitVec.allOnes 64 else BitVec.ofNat 64 (a.toNat / b.toNat)

/-- Signed remainder with the sign of A (R167). -/
def remS (a b : Word) : Word := if b = 0 then a else BitVec.ofInt 64 (a.toInt.tmod b.toInt)

/-- Unsigned remainder (R167). -/
def remU (a b : Word) : Word := if b = 0 then a else BitVec.ofNat 64 (a.toNat % b.toNat)

/-- The generic address of `lea` (R168). -/
def leaWord (a b : Word) : Word := 0xFFFF_FFFF_0000_0000 ||| BitVec.ofNat 64 ((a.toNat + b.toNat) % 2 ^ 32)

/-- Leading zero bits of `n` bits (R171, R193). -/
def leadingZeros (n v : Nat) : Nat := ((List.range n).find? (fun k => v.testBit (n - 1 - k))).getD n

/-- Trailing zero bits of `n` bits (R171). -/
def trailingZeros (n v : Nat) : Nat := ((List.range n).find? (fun k => v.testBit k)).getD n

/-- One bits among `n` (R171, R193, R213). -/
def oneBits (n v : Nat) : Nat := ((List.range n).filter (fun k => v.testBit k)).length

/-- The width that a qualifier names (R171). -/
def widthOf (w : BitVec 2) : Nat := 8 * 2 ^ w.toNat

/-- The low bits of A sign-extended (R171). -/
def sextWord (w : BitVec 2) (a : Word) : Word := BitVec.ofInt 64 ((BitVec.ofNat (widthOf w) a.toNat).toInt)

/-- The low bits of A zero-extended (R171). -/
def zextWord (w : BitVec 2) (a : Word) : Word := BitVec.ofNat 64 (a.toNat % 2 ^ widthOf w)

/-- The signed immediate of an I form (R169). -/
def simm (imm : BitVec 7) : Word := imm.signExtend 64

/-- Coordinate `k` of the task (R172). -/
def State.coordinate (s : State) (k : Nat) : Nat :=
  let core := s.cur
  match s.me.task, s.launchOf core s.x with
  | some t, some l =>
    [t.crew, t.rank, t.ctxr, t.stage, t.line, l.crews, l.rcd.cpc, l.rcd.tpc, l.rcd.stages, t.task, core, s.x,
      l.rcd.heat].getD k 0
  | _, _ => 0

/-- `add` (R166). -/
def execAdd (o : SRR) (s : State) : Out := scalar2 (viewOf (.add o)) (fun a b => a + b) s

/-- `sub` (R166). -/
def execSub (o : SRR) (s : State) : Out := scalar2 (viewOf (.sub o)) (fun a b => a - b) s

/-- `and` (R166). -/
def execAnd (o : SRR) (s : State) : Out := scalar2 (viewOf (.and o)) (fun a b => a &&& b) s

/-- `andn` (R166). -/
def execAndn (o : SRR) (s : State) : Out := scalar2 (viewOf (.andn o)) (fun a b => a &&& ~~~b) s

/-- `or` (R166). -/
def execOr (o : SRR) (s : State) : Out := scalar2 (viewOf (.or o)) (fun a b => a ||| b) s

/-- `xor` (R166). -/
def execXor (o : SRR) (s : State) : Out := scalar2 (viewOf (.xor o)) (fun a b => a ^^^ b) s

/-- `sll` (R166). -/
def execSll (o : SRR) (s : State) : Out := scalar2 (viewOf (.sll o)) (fun a b => a <<< amount b) s

/-- `srl` (R166). -/
def execSrl (o : SRR) (s : State) : Out := scalar2 (viewOf (.srl o)) (fun a b => a >>> amount b) s

/-- `sra` (R166). -/
def execSra (o : SRR) (s : State) : Out := scalar2 (viewOf (.sra o)) (fun a b => a.sshiftRight (amount b)) s

/-- `rol` (R166). -/
def execRol (o : SRR) (s : State) : Out := scalar2 (viewOf (.rol o)) (fun a b => a.rotateLeft (amount b)) s

/-- `ror` (R166). -/
def execRor (o : SRR) (s : State) : Out := scalar2 (viewOf (.ror o)) (fun a b => a.rotateRight (amount b)) s

/-- `lea` (R168). -/
def execLea (o : SRR) (s : State) : Out := scalar2 (viewOf (.lea o)) (fun a b => leaWord a b) s

/-- `slt` (R166). -/
def execSlt (o : SRR) (s : State) : Out := scalar2 (viewOf (.slt o)) (fun a b => boolWord (a.slt b)) s

/-- `sltu` (R166). -/
def execSltu (o : SRR) (s : State) : Out := scalar2 (viewOf (.sltu o)) (fun a b => boolWord (a.ult b)) s

/-- `min` (R166). -/
def execMin (o : SRR) (s : State) : Out := scalar2 (viewOf (.min o)) (fun a b => if b.slt a then b else a) s

/-- `max` (R166). -/
def execMax (o : SRR) (s : State) : Out := scalar2 (viewOf (.max o)) (fun a b => if a.slt b then b else a) s

/-- `minu` (R166). -/
def execMinu (o : SRR) (s : State) : Out := scalar2 (viewOf (.minu o)) (fun a b => if b.ult a then b else a) s

/-- `maxu` (R166). -/
def execMaxu (o : SRR) (s : State) : Out := scalar2 (viewOf (.maxu o)) (fun a b => if a.ult b then b else a) s

/-- `mul` (R166). -/
def execMul (o : SRR) (s : State) : Out := scalar2 (viewOf (.mul o)) (fun a b => a * b) s

/-- `mulh` (R166). -/
def execMulh (o : SRR) (s : State) : Out := scalar2 (viewOf (.mulh o)) (fun a b => BitVec.ofInt 64 (a.toInt * b.toInt / 2 ^ 64)) s

/-- `mulhu` (R166). -/
def execMulhu (o : SRR) (s : State) : Out := scalar2 (viewOf (.mulhu o)) (fun a b => BitVec.ofNat 64 (a.toNat * b.toNat / 2 ^ 64)) s

/-- `div` (R167). -/
def execDiv (o : SRR) (s : State) : Out := scalar2 (viewOf (.div o)) (fun a b => divS a b) s

/-- `divu` (R167). -/
def execDivu (o : SRR) (s : State) : Out := scalar2 (viewOf (.divu o)) (fun a b => divU a b) s

/-- `rem` (R167). -/
def execRem (o : SRR) (s : State) : Out := scalar2 (viewOf (.rem o)) (fun a b => remS a b) s

/-- `remu` (R167). -/
def execRemu (o : SRR) (s : State) : Out := scalar2 (viewOf (.remu o)) (fun a b => remU a b) s

/-- `sel` (R168): D is read. -/
def execSel (o : SRR) (s : State) : Out :=
  issue (viewOf (.sel o)) noCheck (fun x s => s.deliverS (viewOf (.sel o)) (if lo64 x.d ≠ 0 then lo64 x.a else lo64 x.b)) s

/-- `addi` (R169). -/
def execAddi (o : SRI) (s : State) : Out := scalar1 (viewOf (.addi o)) (fun a => a + simm o.imm) s

/-- `andi` (R169). -/
def execAndi (o : SRI) (s : State) : Out := scalar1 (viewOf (.andi o)) (fun a => a &&& simm o.imm) s

/-- `ori` (R169). -/
def execOri (o : SRI) (s : State) : Out := scalar1 (viewOf (.ori o)) (fun a => a ||| simm o.imm) s

/-- `xori` (R169). -/
def execXori (o : SRI) (s : State) : Out := scalar1 (viewOf (.xori o)) (fun a => a ^^^ simm o.imm) s

/-- `slli` (R169). -/
def execSlli (o : SSH) (s : State) : Out := scalar1 (viewOf (.slli o)) (fun a => a <<< o.sh.toNat) s

/-- `srli` (R169). -/
def execSrli (o : SSH) (s : State) : Out := scalar1 (viewOf (.srli o)) (fun a => a >>> o.sh.toNat) s

/-- `srai` (R169). -/
def execSrai (o : SSH) (s : State) : Out := scalar1 (viewOf (.srai o)) (fun a => a.sshiftRight o.sh.toNat) s

/-- `clz` (R171). -/
def execClz (o : SU) (s : State) : Out := scalar1 (viewOf (.clz o)) (fun a => BitVec.ofNat 64 (leadingZeros 64 a.toNat)) s

/-- `ctz` (R171). -/
def execCtz (o : SU) (s : State) : Out := scalar1 (viewOf (.ctz o)) (fun a => BitVec.ofNat 64 (trailingZeros 64 a.toNat)) s

/-- `popc` (R171). -/
def execPopc (o : SU) (s : State) : Out := scalar1 (viewOf (.popc o)) (fun a => BitVec.ofNat 64 (oneBits 64 a.toNat)) s

/-- `sext` (R171). -/
def execSext (o : SU) (w : BitVec 2) (s : State) : Out := scalar1 (viewOf (.sext o w)) (sextWord w) s

/-- `zext` (R171). -/
def execZext (o : SU) (w : BitVec 2) (s : State) : Out := scalar1 (viewOf (.zext o w)) (zextWord w) s

/-- `crd` (R172). -/
def execCrd (g : Bool) (d : BitVec 5) (n : Bool) (k : BitVec 4) (p : BitVec 2) (s : State) : Out :=
  issue (viewOf (.crd g d n k p)) noCheck
    (fun _ t => t.deliverS (viewOf (.crd g d n k p)) (BitVec.ofNat 64 (s.coordinate k.toNat))) s

/-- `li` (R170). -/
def execLi (g : Bool) (d : BitVec 5) (imm : BitVec 17) (s : State) : Out :=
  issue (viewOf (.li g d imm)) noCheck (fun _ s => s.deliverS (viewOf (.li g d imm)) (imm.signExtend 64)) s

/-- `lih` (R170): the old D is read. -/
def execLih (g : Bool) (d : BitVec 5) (imm : BitVec 16) (s : State) : Out :=
  issue (viewOf (.lih g d imm)) noCheck
    (fun x s => s.deliverS (viewOf (.lih g d imm)) ((lo64 x.d <<< 16) ||| imm.setWidth 64)) s

end Sys2Proof.Machine
end

