-- ==== Sys2Proof/Machine/Control.lean ====
section
/-! DEFINITION. Control: branches and jumps, loops, software traps, task, time and walker control, launches and the
return from a handler (R107, R173-R183, R187). -/

namespace Sys2Proof.Machine

/-- Transfers control at the end of the bundle (R176). -/
def State.jump (s : State) (target : Word) : State := s.updIss (fun i => { i with target := some target })

/-- The address of the bundle after the one being issued (R174). -/
def State.after (s : State) : Word := s.iss.pc + BitVec.ofNat 64 s.iss.len

/-- The test of a condition (R173). -/
def condHolds (c : BitVec 3) (a : Word) : Bool :=
  match c.toNat with
  | 0 => a == 0
  | 1 => a != 0
  | 2 => a.slt 0
  | 3 => !a.slt 0
  | 4 => (0 : Word).slt a
  | 5 => !(0 : Word).slt a
  | 6 => a.getLsbD 0
  | _ => !a.getLsbD 0

/-- The twin comparison of a guarded form (R145): 0xA0 with both latch codes where the two differ. -/
def State.twinCheck (s : State) (x y : Nat) : SlotEnd :=
  if mget 0 s.me.latches x = mget 0 s.me.latches y then .commit else .trap 13 0xA0 (some 0) (x + 16 * y) 0

/-- Passes, or stops the slot with a cause of its own checks (R109, check 11). -/
def need (ok : Bool) (cause : Byte) : SlotEnd := if ok then .commit else stopWith 13 cause

/-- A slot that took bytes of a poisoned row: it commits, and 0x47 follows (R32). -/
def State.consumed (s : State) : State := s.updIss (fun i => { i with poisoned := true })

/-- `nop` (R107). -/
def execNop (s : State) : Out := issue (viewOf .nop) noCheck (fun _ s => s) s

/-- `bcc` (R173). -/
def execBcc (c : BitVec 3) (a : Src) (off : BitVec 13) (s : State) : Out :=
  issue (viewOf (.bcc c a off)) noCheck
    (fun x s => if condHolds c (lo64 x.a) then s.jump (s.iss.pc + BitVec.ofInt 64 (off.toInt * 16)) else s) s

/-- `jal` (R174). -/
def execJal (d : BitVec 5) (imm : BitVec 17) (s : State) : Out :=
  issue (viewOf (.jal d imm)) noCheck
    (fun _ s => (s.deliverS (viewOf (.jal d imm)) s.after).jump (s.iss.pc + BitVec.ofInt 64 (imm.toInt * 16))) s

/-- A jump target is a multiple of 16 (R102). -/
def targetOk (a : Word) : SlotEnd := need (a.toNat % 16 == 0) 0x07

/-- `jr` (R175). -/
def execJr (d : BitVec 5) (a : Src) (p : BitVec 2) (s : State) : Out :=
  issue (viewOf (.jr d a p)) (fun _ x => targetOk (lo64 x.a))
    (fun x s => (s.deliverS (viewOf (.jr d a p)) s.after).jump (lo64 x.a)) s

/-- `jr.gd` (R175): the latch is compared with its partner first. -/
def execJrGd (d : BitVec 5) (a : Src) (l : BitVec 4) (p : BitVec 2) (s : State) : Out :=
  issuePre (viewOf (.jrGd d a l p)) (fun s _ => s.twinCheck l.toNat (partner l.toNat))
    (fun s x => (s.twinCheck l.toNat (partner l.toNat)).and (targetOk (lo64 x.a)))
    (fun x s => (s.deliverS (viewOf (.jrGd d a l p)) s.after).jump (lo64 x.a)) s

/-- The registers of an enabled ring, if it is enabled (R101). -/
def ringRegs (ring : Nat) (k : Nat) : List Nat :=
  if ring.testBit (32 + k) then
    (List.range (bits ring (8 * k + 7) (8 * k + 5) + 1)).map (fun i => 32 + bits ring (8 * k + 4) (8 * k) + i)
  else []

/-- A valid ring register (R101). -/
def ringOk (ring : Nat) : Bool :=
  let all := (List.range 4).flatMap (ringRegs ring)
  bits ring 63 36 == 0 && all.all (fun r => r < 64) && decide (all.Nodup)

/-- `looph` (R100, R177). -/
def execLooph (o : DAB6) (s : State) : Out :=
  issuePre (viewOf (.looph o))
    (fun s x => (need (s.me.loop.isNone && !s.me.hnd) 0x0C).and ((need (ringOk (lo64 x.b).toNat) 0x0B).early (s.known (sSrc o.b))))
    (fun s x => (need (s.me.loop.isNone && !s.me.hnd) 0x0C).and (need (ringOk (lo64 x.b).toNat) 0x0B))
    (fun x s => s.updIss (fun i => { i with
      opened := some { rem := lo64 x.a, i := 0, start := 0, b := o.d.toNat + 1, ring := lo64 x.b, pos := 0 } })) s

/-- A cause that is taken after the bundle commits (R325 kind T); one already noted in the bundle waits as pending. -/
def State.takeAfter (s : State) (cause : Byte) (info mask : Word) : State :=
  let s := match s.iss.after with
    | none => s
    | some (c, i, _) => s.lateFault s.cur s.x c 0 0 i 0
  s.updIss (fun i => { i with after := some (cause, info, mask) })

/-- `trap` (R187): taken after its bundle commits. -/
def execTrap (a : Src) (imm : BitVec 7) (p : BitVec 2) (s : State) : Out :=
  issue (viewOf (.trap a imm p)) noCheck (fun x s => s.takeAfter 0x10 (lo64 x.a) (imm.setWidth 64)) s

/-- The record that `lnch` submits: its PRIO is lowered to that of the launching launch (R183). -/
def State.lnchRecord (s : State) (a : Nat) : Record :=
  let r := recordOf (s.localBytes s.cur s.x a 64).1
  { r with prio := if r.prio < 16 then Nat.min r.prio ((s.launchOf s.cur s.x).elim 0 (·.rcd.prio)) else r.prio }

/-- `lnch` (R183); a power warning stops it as a full intake does (R358). -/
def execLnch (d : BitVec 5) (a : Src) (p : BitVec 2) (s : State) : Out :=
  let v := viewOf (.lnch d a p)
  issue v
    (fun s x =>
      (need ((lo64 x.a).toNat % 64 == 0) 0x4B).and
        (withAddr (s.checkOwn (lo64 x.a) 64) (fun a =>
          if (s.localBytes s.cur s.x a 64).2 then .commit
          else (need (s.recordBad (s.lnchRecord a)).isNone 0x6F).and
            (if s.intakeFull (coreDie s.cur) || s.regs.failing then .block .intake else .commit))))
    (fun x s =>
      let a := addrOf (s.checkOwn (lo64 x.a) 64)
      if (s.localBytes s.cur s.x a 64).2 then s.consumed
      else match s.launchOf s.cur s.x with
        | some l =>
          let r := s.accept (coreDie s.cur) l.asn l.ptroot l.pooldir l.poolcnt 0xFFFF l.id true (s.lnchRecord a)
          r.1.deliverS v (BitVec.ofNat 64 r.2)
        | none => s) s

/-- Whether everything a `done` waits for has completed (R179): the operand log, the ferry and Sound-engine queues, the
matrix and crossbar work and the drains of write streams. -/
def State.drained (s : State) (core x : Nat) : Bool :=
  let c := s.ctx core x
  let k := s.core core
  c.log.isEmpty && c.mq.isEmpty && c.xq.isEmpty && (List.range 2).all (fun q => (c.ferryQ q).entries.isEmpty && (c.soundQ q).entries.isEmpty) &&
    k.matrix.all (fun m => m.x != x) &&
    (List.range 16).all (fun a => (s.array (16 * core + a)).busy.all (fun b => b.x != x)) &&
    (List.range 16).all (fun q => !((c.stream q).kind == 5) || (c.stream q).entries.isEmpty)

/-- `done` (R179): alone in its bundle; it blocks until everything has drained. -/
def execDone (s : State) : Out :=
  issue (viewOf .done)
    (fun s _ => (need (s.iss.slots == 1) 0x12).and (if s.drained s.cur s.x then .commit else .block .drains))
    (fun _ s => s.updIss (fun i => { i with ends := true })) s

/-- `yield` (R86, R178). -/
def execYield (s : State) : Out := issue (viewOf .yield) noCheck (fun _ s => s.updIss (fun i => { i with yields := true })) s

/-- `waitt` (R180): completes when the clock is at or past A. -/
def execWaitt (a : Src) (p : BitVec 2) (s : State) : Out :=
  issue (viewOf (.waitt a p)) (fun s x => if (lo64 x.a).ule s.now then .commit else .block (.time (lo64 x.a)))
    (fun _ s => s) s

/-- `rdtime` (R180). -/
def execRdtime (d : BitVec 5) (s : State) : Out :=
  issue (viewOf (.rdtime d)) noCheck (fun _ s => s.deliverS (viewOf (.rdtime d)) s.now) s

/-- `wnext` (R181, R310): the next tile of the walker; an empty range asks for a steal and waits for its outcome. -/
def execWnext (d : BitVec 5) (s : State) : Out :=
  let v := viewOf (.wnext d)
  let take := fun (c : Ctx) (w : Walker) => { c with walker := w }
  issue v
    (fun s _ =>
      let w := s.me.walker
      if w.range.next < w.range.fin || w.finished || s.me.task.elim true (fun t => t.stage != 0) || w.outcome == .refused
      then .commit else .block .steal)
    (fun _ s =>
      let w := s.me.walker
      if w.range.next < w.range.fin then
        (s.upd (fun c => take c { w with range := { w.range with next := w.range.next + 1 }, cur := some w.range.next,
                                         outcome := .none })).deliverS v (BitVec.ofNat 64 w.range.next)
      else (s.upd (fun c => take c { w with cur := none, outcome := .none, finished := true })).deliverS v (BitVec.allOnes 64)) s

/-- `wpos` (R181, R308). -/
def execWpos (d : BitVec 5) (k : BitVec 2) (s : State) : Out :=
  issue (viewOf (.wpos d k)) noCheck
    (fun _ s => s.deliverS (viewOf (.wpos d k)) (match s.me.walker.cur, s.launchOf s.cur s.x with
      | some l, some n => BitVec.ofNat 64 (n.rcd.coord l k.toNat)
      | _, _ => BitVec.allOnes 64)) s

/-- Whether a logged operation writes by the memory slot, class W (R78). -/
def LogOp.writes : LogOp → Bool
  | .load | .vload | .gather | .acqRead | .bwaitRead => false
  | _ => true

/-- Whether a logged operation reads by the memory slot, class R (R78). -/
def LogOp.reads : LogOp → Bool
  | .store | .vstore | .scatter | .cinv | .cwb => false
  | _ => true

/-- Class-W accesses of a context that are not yet performed: logged writes and drains (R78, R158). -/
def Ctx.writesOut (c : Ctx) : Bool :=
  c.log.any (fun e => e.op.writes) || (List.range 16).any (fun q => (c.stream q).kind == 5 && !(c.stream q).entries.isEmpty)

/-- `ifence` (R182): waits for earlier writes, then drops the instruction bytes held for the address space. -/
def execIfence (s : State) : Out :=
  issue (viewOf .ifence) (fun s _ => if s.me.writesOut then .block .writes else .commit)
    (fun _ s => s.updCore s.cur (fun c => { c with icache := c.icache.filter (fun e => e.asn != s.asnOf s.cur s.x) })) s

/-- `eret` (R187, R329). -/
def execEret (s : State) : Out :=
  issue (viewOf .eret) (fun s _ => need s.me.hnd 0x11) (fun _ s => s.updIss (fun i => { i with returns := true })) s

end Sys2Proof.Machine
end

