-- ==== Sys2Proof/Machine/MemInstr.lean ====
section
/-! DEFINITION. Loads, stores, gathers, scatters and atomics (R137-R145, R158). Local accesses act in the issue cycle;
global ones take an entry of the operand log (R147). -/

namespace Sys2Proof.Machine

/-! ## Shared pieces -/

/-- What holds back an access of local bytes: an engine command's hold of their banks, which may have ended in this cycle
(R61), or a push of the context to a write stream that is still to write one of them (R68, R158). -/
def State.heldBack (s : State) (a n : Nat) : Bool :=
  s.reserved s.cur (s.banksOf s.cur s.x a n) ||
    (s.banksOf s.cur s.x a n).any (fun b => s.freedBanks.contains (s.cur, b)) || s.me.owes s.me.logNext a n

/-- The hold of a memory slot's local bytes. -/
def State.hold (s : State) (a n : Nat) : SlotEnd := if s.heldBack a n then .stall else .commit

/-- A slot stopped by an address that is not canonical: EINFO is the address (R20, R323). -/
def badAddress (a : Word) : SlotEnd := .trap 13 0x44 (some a) 0 0

/-- A global address that keeps R20 over `n` bytes (R138). -/
def globalOk (a : Word) (n : Nat) : SlotEnd :=
  if !canonical a then badAddress a
  else if !canonical (a + BitVec.ofNat 64 (n - 1)) then badAddress 0x0100_0000_0000_0000
  else .commit

/-- Room for one more result in flight (R99). -/
def State.flightRoom (s : State) : SlotEnd := if 24 ≤ s.me.inFlight then stopWith 10 0x09 else .commit

/-- Room in the operand log, or a stall (R147). -/
def State.logRoom (s : State) : SlotEnd := if s.me.logFull then .stall else .commit

/-- A local access of `n` bytes at a generic aperture address: its checks and its bank hold (R57, R61). -/
def State.localEnd (s : State) (v : Word) (n : Nat) : SlotEnd :=
  withAddr (s.checkLocal v n) (fun a => s.hold a n)

/-- A local load's result on its way to D and `l5` (R96, R139). -/
def State.deliverLoad (s : State) (v : View) (lat : Nat) (val : Vec) (mask : Pred) : State :=
  s.deliverAs (if v.n then .none else s.me.destOf v.dWrite) (some 5) lat val mask 0

/-- Takes an operand-log entry; a blocking one blocks the context after the bundle (R85, R147). -/
def State.logged (s : State) (e : LogEntry) : State :=
  (s.upd (fun c => c.logPush e)).updIss (fun i => { i with loads := i.loads || e.blocking })

/-- The destination of a slot, for the log. -/
def State.logDest (s : State) (v : View) : Dest := if v.n then .none else s.me.destOf v.dWrite

/-- The word of the slot being issued. -/
def State.thisWord (s : State) : BitVec 32 := s.iss.words.getD s.iss.slot 0

/-- The effective address of a scalar I form (R139). -/
def eaS (a : Word) (imm : BitVec 7) : Word := a + BitVec.ofInt 64 (imm.toInt * 8)

/-- The effective address of a vector I form (R140). -/
def eaV (a : Word) (imm : BitVec 7) : Word := a + BitVec.ofInt 64 (imm.toInt * 64)

/-- A guarded store's data: the latch, broadcast where a vector form names a scalar latch (R91, R145). -/
def State.guardData (s : State) (l : BitVec 4) (vec : Bool) : Vec :=
  let v := mget 0 s.me.latches l.toNat
  if vec ∧ l.toNat < 2 then broadcast s.me.iw v else v

/-! ## Scalar loads and stores -/

/-- The checks of a scalar access at a generic or global address (R138, R147). -/
def State.scalarEnd (s : State) (a : Word) (generic : Bool) : SlotEnd :=
  (need (a.toNat % 8 == 0) 0x4B).and
    (if generic && inAperture a then s.localEnd a 8 else (globalOk a 8).and s.logRoom)

/-- `ld` and `ldg` (R139). -/
def loadS (v : View) (imm : BitVec 7) (generic : Bool) (s : State) : Out :=
  issue v
    (fun s x =>
      let a := eaS (lo64 x.a) imm
      (s.scalarEnd a generic).and
        (if generic && inAperture a then s.flightRoom else .commit))
    (fun x s =>
      let a := eaS (lo64 x.a) imm
      if generic && inAperture a then
        let l := addrOf (s.checkLocal a 8)
        let b := s.localBytes s.cur s.x l 8
        if b.2 then s.consumed
        else s.deliverLoad v (loadLatency l) (wide (ofBytes 64 b.1)) (BitVec.allOnes 128)
      else s.logged { logEntry .load a s.thisWord with d := s.logDest v, blocking := true }) s

/-- A scalar store of a word (R139, R145). -/
def storeS (a : Word) (data : Word) (generic : Bool) (s : State) : State :=
  if generic && inAperture a then s.localStore s.cur s.x (addrOf (s.checkLocal a 8)) (bytesOf data 8) [] false
  else s.logged { logEntry .store a s.thisWord with data := wide data }

/-- `ld` (R139). -/
def execLd (o : LDI) (s : State) : Out := loadS (viewOf (.ld o)) o.imm true s

/-- `ldg` (R139). -/
def execLdg (o : LDI) (s : State) : Out := loadS (viewOf (.ldg o)) o.imm false s

/-- `st` (R139). -/
def execSt (o : STI) (s : State) : Out :=
  issue (viewOf (.st o)) (fun s x => s.scalarEnd (eaS (lo64 x.a) o.imm) true)
    (fun x s => storeS (eaS (lo64 x.a) o.imm) (lo64 x.d) true s) s

/-- `stg` (R139). -/
def execStg (o : STI) (s : State) : Out :=
  issue (viewOf (.stg o)) (fun s x => s.scalarEnd (eaS (lo64 x.a) o.imm) false)
    (fun x s => storeS (eaS (lo64 x.a) o.imm) (lo64 x.d) false s) s

/-- `st.gd` (R145). -/
def execStGd (o : GSI) (s : State) : Out :=
  issuePre (viewOf (.stGd o)) (fun s _ => s.twinCheck o.l.toNat (partner o.l.toNat))
    (fun s x => (s.twinCheck o.l.toNat (partner o.l.toNat)).and (s.scalarEnd (eaS (lo64 x.a) o.imm) true))
    (fun x s => storeS (eaS (lo64 x.a) o.imm) (lo64 (s.guardData o.l false)) true s) s

/-- `stg.gd` (R145). -/
def execStgGd (o : GSI) (s : State) : Out :=
  issuePre (viewOf (.stgGd o)) (fun s _ => s.twinCheck o.l.toNat (partner o.l.toNat))
    (fun s x => (s.twinCheck o.l.toNat (partner o.l.toNat)).and (s.scalarEnd (eaS (lo64 x.a) o.imm) false))
    (fun x s => storeS (eaS (lo64 x.a) o.imm) (lo64 (s.guardData o.l false)) false s) s

/-! ## Local vector loads and stores -/

/-- The eight 64-byte pieces of a local vector access (R140): rows of consecutive banks, or 512 consecutive bytes of a
register window. -/
def vecRows (a : Nat) : List Nat :=
  (List.range 8).map (fun k => if 5 ≤ windowOf a ∧ windowOf a < 9 then a + 64 * k else a + 0x1_0000 * k)

/-- The checks of a local vector access (R57, R61, R138, R140). -/
def State.vecEnd (s : State) (v : Word) : SlotEnd :=
  match localOf v with
  | none => stopWith 13 0x49
  | some a =>
    let unit := if 5 ≤ windowOf a ∧ windowOf a < 9 then 512 else 64
    (need (a % unit == 0) 0x4B).and
      ((need ((vecRows a).all (fun r => windowOf r == windowOf a)) 0x49).and
        (match (vecRows a).findSome? (fun r => s.localFault s.cur s.x r 64) with
        | some c => stopWith 13 c
        | none => if (vecRows a).any (fun r => s.heldBack r 64) then .stall else .commit))

/-- Whether a cluster has an active lane. -/
def clusterOn (mask : Pred) (k : Nat) : Bool := mask.extractLsb' (16 * k) 16 != 0

/-- The value a local vector load reads (R140). -/
def State.vecRead (s : State) (a : Nat) : Vec :=
  ofVecBytes ((vecRows a).flatMap (fun r => (s.localBytes s.cur s.x r 64).1))

/-- Whether a local vector load takes poisoned bytes in active lanes (R32). -/
def State.vecBad (s : State) (a : Nat) (mask : Pred) : Bool :=
  (List.range 8).any (fun k => clusterOn mask k && (s.localBytes s.cur s.x ((vecRows a).getD k 0) 64).2)

/-- The byte enables of a cluster's lanes. -/
def laneEn (mask : Pred) (k : Nat) : List Bool := (List.range 64).map (fun i => mask.getLsbD (16 * k + i / 4))

/-- A local vector store of active lanes (R140). -/
def State.vecWrite (s : State) (a : Nat) (data : Vec) (mask : Pred) : State :=
  (List.range 8).foldl (fun s k =>
    s.localStore s.cur s.x ((vecRows a).getD k 0) ((vecBytes data).drop (64 * k) |>.take 64) (laneEn mask k) false) s

/-- `vld` (R140). -/
def execVld (d : BitVec 6) (n : Bool) (a : Src) (imm : BitVec 7) (p : BitVec 2) (s : State) : Out :=
  let v := viewOf (.vld d n a imm p)
  issuePre v (fun s _ => s.flightRoom) (fun s x => s.flightRoom.and (s.vecEnd (eaV (lo64 x.a) imm)))
    (fun x s =>
      let l := (localOf (eaV (lo64 x.a) imm)).getD 0
      if s.vecBad l s.me.ap then s.consumed
      else s.deliverLoad v (loadLatency l) (maskLanes s.me.ap (s.vecRead l)) s.me.ap) s

/-- `vst` (R140). -/
def execVst (d : BitVec 6) (a : Src) (imm : BitVec 7) (p : BitVec 2) (s : State) : Out :=
  issue (viewOf (.vst d a imm p)) (fun s x => s.vecEnd (eaV (lo64 x.a) imm))
    (fun x s => s.vecWrite ((localOf (eaV (lo64 x.a) imm)).getD 0) x.d s.me.ap) s

/-- `vst.gd` (R145). -/
def execVstGd (o : GSI) (s : State) : Out :=
  issuePre (viewOf (.vstGd o)) (fun s _ => s.twinCheck o.l.toNat (partner o.l.toNat))
    (fun s x => (s.twinCheck o.l.toNat (partner o.l.toNat)).and (s.vecEnd (eaV (lo64 x.a) o.imm)))
    (fun x s => s.vecWrite ((localOf (eaV (lo64 x.a) o.imm)).getD 0) (s.guardData o.l true) s.me.ap) s

/-! ## Global vector accesses -/

/-- The checks of a 512-byte global access (R138, R141). -/
def State.wideEnd (s : State) (a : Word) : SlotEnd :=
  (need (a.toNat % 64 == 0) 0x4B).and ((globalOk a 512).and s.logRoom)

/-- `vldg` (R141). -/
def execVldg (o : PRR) (s : State) : Out :=
  let v := viewOf (.vldg o)
  issue v (fun s x => s.wideEnd (lo64 x.a + lo64 x.b))
    (fun x s => s.logged { logEntry .vload (lo64 x.a + lo64 x.b) s.thisWord with
      d := s.logDest v, blocking := true, mask := s.me.ap }) s

/-- `vstg` (R141). -/
def execVstg (o : DAB6) (s : State) : Out :=
  issue (viewOf (.vstg o)) (fun s x => s.wideEnd (lo64 x.a + lo64 x.b))
    (fun x s => s.logged { logEntry .vstore (lo64 x.a + lo64 x.b) s.thisWord with data := x.d, mask := s.me.ap }) s

/-- The checks of a push and its wait for room (R158). -/
def State.pushEnd (s : State) (k : Nat) : SlotEnd :=
  let q := s.me.stream k
  (need (q.cfg && q.kind == 5 && q.started) 0x6A).and
    (if q.entries.length < 8 then .commit else if q.halt then stopWith 13 0x6B else .block (.push k))

/-- A push of the active lanes of a vector (R158). -/
def State.push (s : State) (k : Nat) (data : Vec) : State :=
  s.upd (fun c =>
    let q := c.stream k
    { c.setStream k { q with entries := q.entries ++
        [{ data := maskLanes c.ap data, scales := 0, poison := 0, lines := [], num := c.logNext }] } with
      logNext := c.logNext + 1 })

/-- `vstg.gd` (R145): with a push target in A it is a guarded push. -/
def execVstgGd (l : BitVec 4) (a b : Src) (p : BitVec 2) (s : State) : Out :=
  let twin := fun (s : State) (_ : Vals) => s.twinCheck l.toNat (partner l.toNat)
  issuePre (viewOf (.vstgGd l a b p)) twin
    (fun s x => (twin s x).and (if popped a then s.pushEnd (a.f.toNat % 16) else s.wideEnd (lo64 x.a + lo64 x.b)))
    (fun x s =>
      if popped a then s.push (a.f.toNat % 16) (s.guardData l true)
      else s.logged { logEntry .vstore (lo64 x.a + lo64 x.b) s.thisWord with data := s.guardData l true, mask := s.me.ap }) s

/-- `vstg vD, qK`: a push (R158). -/
def execVstgPush (d : BitVec 6) (k : BitVec 4) (p : BitVec 2) (s : State) : Out :=
  issue (viewOf (.vstgPush d k p)) (fun s _ => s.pushEnd k.toNat) (fun x s => s.push k.toNat x.d) s

/-- The address of an active lane of a gather, scatter or vector atomic (R142, R144). -/
def laneAddr (base : Word) (offs : Vec) (j : Nat) : Word := base + (lane offs j).setWidth 64

/-- The active lanes, in increasing order. -/
def activeLanes (mask : Pred) : List Nat := (List.range 128).filter (fun j => mask.getLsbD j)

/-- The checks of a gather, scatter or vector atomic (R138). -/
def State.gatherEnd (s : State) (base : Word) (offs : Vec) : SlotEnd :=
  let l := (activeLanes s.me.ap).map (laneAddr base offs)
  (need (l.all (fun a => a.toNat % 4 == 0)) 0x4B).and (((l.find? (fun a => !canonical a)).elim .commit badAddress).and s.logRoom)

/-- `vgath` (R142). -/
def execVgath (o : PRR) (s : State) : Out :=
  let v := viewOf (.vgath o)
  issue v (fun s x => s.gatherEnd (lo64 x.a) x.b)
    (fun x s => s.logged { logEntry .gather (lo64 x.a) s.thisWord with
      offs := x.b, d := s.logDest v, blocking := true, mask := s.me.ap }) s

/-- `vscat` (R142). -/
def execVscat (o : PRR) (s : State) : Out :=
  issue (viewOf (.vscat o)) (fun s x => s.gatherEnd (lo64 x.a) x.b)
    (fun x s => s.logged { logEntry .scatter (lo64 x.a) s.thisWord with data := x.d, offs := x.b, mask := s.me.ap }) s

/-! ## Atomics -/

/-- The new word of a scalar atomic (R143). -/
def amoWord (op : BitVec 3) (w b cmp : Word) : Word :=
  match op.toNat with
  | 0 => b
  | 1 => w + b
  | 2 => w &&& b
  | 3 => w ||| b
  | 4 => w ^^^ b
  | 5 => if w.slt b then b else w
  | 6 => if w.ult b then b else w
  | _ => if w = cmp then b else w

/-- The word an atomic operates on: A with its operation bits cleared (R143). -/
def amoAddr (a : Word) : Word := a &&& ~~~7

/-- The operation an atomic's A selects (R143). -/
def amoOp (a : Word) : BitVec 3 := a.setWidth 3

/-- A local atomic on a causeway or own bank (R138, R143). -/
def State.amoLocalEnd (s : State) (a : Word) : SlotEnd :=
  withAddr (s.checkLocal a 8) (fun l => (need (windowOf l < 5) 0x57).and (s.hold l 8))

/-- `amo` (R143). -/
def execAmo (o : SR3) (s : State) : Out :=
  let v := viewOf (.amo o)
  issueA v
    (fun s x =>
      let a := amoAddr (lo64 x.a)
      if inAperture a then
        s.flightRoom.and (s.amoLocalEnd a)
      else (globalOk a 8).and s.logRoom)
    (fun x s =>
      let a := amoAddr (lo64 x.a)
      if inAperture a then
        let l := addrOf (s.checkLocal a 8)
        let b := s.localBytes s.cur s.x l 8
        let w := ofBytes 64 b.1
        let t := s.localStore s.cur s.x l (bytesOf (amoWord (amoOp (lo64 x.a)) w (lo64 x.b) (lo64 x.d)) 8) [] false
        if b.2 then t.consumed else t.deliverLoad v (loadLatency l) (wide w) (BitVec.allOnes 128)
      else s.logged { logEntry (.amo (amoOp (lo64 x.a))) a s.thisWord with
        data := x.b, cmp := lo64 x.d, d := s.logDest v, blocking := true }) s

/-- `amog` (R143). -/
def execAmog (o : SR3) (s : State) : Out :=
  let v := viewOf (.amog o)
  issueA v (fun s x => (globalOk (amoAddr (lo64 x.a)) 8).and s.logRoom)
    (fun x s => s.logged { logEntry (.amo (amoOp (lo64 x.a))) (amoAddr (lo64 x.a)) s.thisWord with
      data := x.b, cmp := lo64 x.d, d := s.logDest v, blocking := true }) s

/-- `vamo` (R144). -/
def execVamo (o : PRR) (s : State) : Out :=
  let v := viewOf (.vamo o)
  let base := fun (a : Word) => a &&& ~~~3
  issue v (fun s x => s.gatherEnd (base (lo64 x.a)) x.b)
    (fun x s => s.logged { logEntry (.vamo ((lo64 x.a).setWidth 2)) (base (lo64 x.a)) s.thisWord with
      data := x.d, offs := x.b, d := s.logDest v, blocking := true, mask := s.me.ap }) s

end Sys2Proof.Machine
end

