-- ==== Sys2Proof/Machine/Sync.lean ====
section
/-! DEFINITION. Ordering and synchronisation: fences, cache maintenance, bindings, release and acquire, barriers, twin
checks, containment and the random state (R62-R82, R146, R149-R153, R161-R163). -/

namespace Sys2Proof.Machine

/-! ## Regions -/

/-- The translation of a virtual address that needs no permission (R24, R72, R150): the physical address and the first
virtual address after its page, or none where the translation is refused. -/
def State.lookup (s : State) (core asn root : Nat) (va : Word) : Option (Nat × Nat) × State :=
  match s.leafFor (.core core) asn root va none with
  | (.ok e, s) =>
    (if backed (e.addr (va.toNat % 2 ^ 57)) then some (e.addr (va.toNat % 2 ^ 57), e.va + 2 ^ (12 + e.k)) else none, s)
  | (.error _, s) => (none, s)

/-- The physical pieces of a range of virtual addresses, page by page; pages whose translation is refused are skipped (R73). `n`
bounds the number of pages. -/
def State.pieces (s : State) (core asn root : Nat) : Nat → Nat → Nat → List (Nat × Nat) × State
  | 0, _, _ => ([], s)
  | n + 1, va, fin =>
    if fin ≤ va then ([], s)
    else match s.lookup core asn root (BitVec.ofNat 64 va) with
      | (some (pa, next), s) =>
        let len := Nat.min (next - va % 2 ^ 57) (fin - va)
        let r := s.pieces core asn root n (va + len) fin
        ((pa, len) :: r.1, r.2)
      | (none, s) => s.pieces core asn root n (va / 4096 * 4096 + 4096) fin

/-- The physical pieces of `len` bytes from a virtual address of a context's task. -/
def State.regionPieces (s : State) (core x : Nat) (base : Word) (len : Nat) : List (Nat × Nat) × State :=
  s.pieces core (s.asnOf core x) (s.rootOf core x) (len / 4096 + 2) base.toNat (base.toNat + len)

/-- Whether a unit of `size` bytes with a number overlaps one of the pieces. -/
def overlaps (l : List (Nat × Nat)) (size k : Nat) : Bool :=
  l.any (fun p => decide (p.1 < size * (k + 1)) && decide (size * k < p.1 + p.2))

/-- The sectors of a die's remote-data cache that overlap pieces. -/
def State.rdcSectors (s : State) (die : Nat) (l : List (Nat × Nat)) : List Nat :=
  ((s.rdc.filter (fun e => e.1 / 0x2_0000_0000 == die && overlaps l 64 (e.1 % 0x2_0000_0000))).map
    (fun e => e.1 % 0x2_0000_0000)).dedup

/-- The bindings of a context to a sync object. -/
def Ctx.boundTo (c : Ctx) (obj : Word) : List Binding := c.bindings.filter (fun b => b.obj == obj)

/-- What a release or an acquire does to the sectors of the die's remote-data cache that overlap regions bound to an object. -/
def State.overRegions (s : State) (core x : Nat) (obj : Word) (act : State → Nat → State) : State :=
  ((s.ctx core x).boundTo obj).foldl (fun s b =>
    let r := s.regionPieces core x b.base b.len.toNat
    (r.2.rdcSectors (coreDie core) r.1).foldl act r.2) s

/-- Step 2 of a release: the Dirty sectors are written back (R72). -/
def State.releaseRegions (s : State) (core x : Nat) (obj : Word) : State :=
  s.overRegions core x obj (fun s k => s.rdcClean (coreDie core) k)

/-- Step 2 of an acquire: the sectors are written back and become Invalid (R73). -/
def State.acquireRegions (s : State) (core x : Nat) (obj : Word) : State :=
  s.overRegions core x obj (fun s k => s.rdcDrop (coreDie core) k)

/-- The virtual sectors a logged access touches (R148); those of a range operation are given by their bounds. -/
def LogEntry.sectors (e : LogEntry) : List (Nat × Nat) :=
  match e.op with
  | .load | .store | .amo _ | .rel _ | .acqRead => [(e.addr.toNat / 64, e.addr.toNat / 64)]
  | .vload | .vstore => [(e.addr.toNat / 64, (e.addr.toNat + 511) / 64)]
  | .gather | .scatter | .vamo _ => (activeLanes e.mask).map (fun j =>
      ((laneAddr e.addr e.offs j).toNat / 64, (laneAddr e.addr e.offs j).toNat / 64))
  | .cinv | .cwb => if e.cmp = 0 then [] else
      [(512 * (e.addr.toNat / 512) / 64, (512 * ((e.addr.toNat + e.cmp.toNat - 1) / 512) + 511) / 64)]
  | .bwaitRead | .binit | .barrive _ | .bxpect => [(e.addr.toNat / 64, (e.addr.toNat + 15) / 64)]

/-- The physical sectors of ranges of virtual sectors, where these can be translated now. -/
def State.sectorPlaces (s : State) (core x : Nat) (l : List (Nat × Nat)) : List (Nat × Nat) :=
  l.flatMap (fun r => (List.range (r.2 - r.1 + 1)).filterMap (fun k =>
    (s.lookup core (s.asnOf core x) (s.rootOf core x) (BitVec.ofNat 64 (64 * (r.1 + k)))).1.map (fun p => (p.1 / 64, p.1 / 64))))

/-- Whether two lists of ranges of sectors share a sector. -/
def shareSector (l m : List (Nat × Nat)) : Bool := l.any (fun a => m.any (fun b => decide (a.1 ≤ b.2) && decide (b.1 ≤ a.2)))

/-- Whether ranges of virtual sectors touch a binding's region. -/
def inRegion (l : List (Nat × Nat)) (b : Binding) : Bool :=
  l.any (fun a => decide (64 * a.1 < b.base.toNat + b.len.toNat) && decide (b.base.toNat < 64 * (a.2 + 1)))

/-- Step 1 of a release: whether every access of the context numbered before `num` to a region bound to the object has
been performed, the pushes of its write streams among them (R72, R158). -/
def Ctx.regionsDone (c : Ctx) (obj : Word) (num : Nat) : Bool :=
  !((c.boundTo obj).any (fun b => c.log.any (fun e => decide (e.num < num) && inRegion e.sectors b) || inRegion (c.undrained num) b))

/-! ## Fences -/

/-- The instruction of a matrix or crossbar queue entry. -/
def UnitEntry.instr (e : UnitEntry) : Instr :=
  match decodeWord (e.word.toNat % 2 ^ 31) with
  | .ok i => i
  | .error _ => .nop

/-- Whether an entry's reads are of class MR (R231, R243). -/
def UnitEntry.readsLocal (e : UnitEntry) : Bool :=
  match e.instr with
  | .tmma _ | .tmmaZ _ | .tmmg _ | .tmmgZ _ | .zld _ _ _ _ => true
  | .xmv _ _ | .xload _ | .xcalLdsc _ | .xcalLdog _ => true
  | _ => false

/-- Whether an entry counts as work of class MW: a `zst`, or any crossbar instruction (R231, R243). -/
def UnitEntry.writesLocal (e : UnitEntry) : Bool :=
  match e.instr with
  | .zst _ _ _ _ | .zstR _ _ _ _ => true
  | .tmma _ | .tmmaZ _ | .tmmg _ | .tmmgZ _ | .zld _ _ _ _ | .zzero _ _ _ | .zcvt _ _ _ _ | .zacc _ _ _ => false
  | _ => true

/-- The matrix and crossbar instructions of a context that have not completed. -/
def State.unitWork (s : State) (core x : Nat) : List UnitEntry :=
  let c := s.ctx core x
  let busy := fun (a : Nat) => ((s.array (16 * core + a)).busy.toList.filter (fun b => b.x == x)).map (·.entry)
  c.mq ++ c.xq ++ ((s.core core).matrix.toList.filter (fun m => m.x == x)).map (·.entry) ++
    (List.range 16).flatMap busy

/-- The classes of a context's accesses that are outstanding (R78). -/
def State.outstanding (s : State) (core x : Nat) : BitVec 8 :=
  let c := s.ctx core x
  let r := c.log.any (fun e => e.op.reads)
  let w := c.writesOut
  let isCmd := fun (e : QEntry) => match e with
    | .join _ _ => false
    | _ => true
  let ferry := (List.range 2).any (fun q => (c.ferryQ q).entries.any isCmd)
  let sound := (List.range 2).any (fun q => (c.soundQ q).entries.any isCmd)
  let unit := s.unitWork core x
  BitVec.ofNat 8 (r.toNat + 2 * w.toNat + 12 * ferry.toNat + 16 * (unit.any (·.readsLocal)).toNat +
    32 * (unit.any (·.writesLocal)).toNat + 192 * sound.toNat)

/-- `fence` (R78, R149): the scope decides no more in one device, where an access that is performed at its home or in
its die's cache is performed. -/
def execFence (scope : BitVec 3) (q r : BitVec 8) (s : State) : Out :=
  issue (viewOf (.fence scope q r))
    (fun s _ => if q = 0 ∨ r = 0 ∨ s.outstanding s.cur s.x &&& r = 0 then .commit else .block (.fence r))
    (fun _ s => s) s

/-- The queues a `qfence` mask names: Sound engine or not, and the number (R149). -/
def joinQueues (m : BitVec 4) : List (Bool × Nat) :=
  ((List.range 4).filter (fun k => m.getLsbD k)).map (fun k => (decide (2 ≤ k), k % 2))

/-- A queue of a context by engine and number. -/
def Ctx.anyQ (c : Ctx) (sound : Bool) (q : Nat) : Queue := if sound then c.soundQ q else c.ferryQ q

/-- Changes a queue of a context. -/
def Ctx.setAnyQ (c : Ctx) (sound : Bool) (q : Nat) (v : Queue) : Ctx := if sound then c.setSoundQ q v else c.setFerryQ q v

/-- Appends an entry to a queue of a context. -/
def Ctx.enqueue (c : Ctx) (sound : Bool) (q : Nat) (e : QEntry) : Ctx :=
  c.setAnyQ sound q { c.anyQ sound q with entries := (c.anyQ sound q).entries ++ [e] }

/-- Whether a queue holds its 16 entries (R44, R284). -/
def Ctx.queueFull (c : Ctx) (sound : Bool) (q : Nat) : Bool := 16 ≤ (c.anyQ sound q).entries.length

/-- Removes the joining entries of one join where every queue it names has come to it. -/
def Ctx.settleJoin (c : Ctx) : Ctx :=
  let heads := (joinQueues 15).filterMap (fun k => match (c.anyQ k.1 k.2).entries.head? with
    | some (.join m n) => some (m, n)
    | _ => none)
  match heads.find? (fun j => (joinQueues j.1).all (fun k => (c.anyQ k.1 k.2).entries.head? == some (.join j.1 j.2))) with
  | none => c
  | some j => (joinQueues j.1).foldl (fun c k =>
      c.setAnyQ k.1 k.2 { c.anyQ k.1 k.2 with entries := (c.anyQ k.1 k.2).entries.drop 1 }) c

/-- Removes every joining entry whose join is complete: all commands ahead of it, in every queue it names, have been
performed (R80). -/
def Ctx.settleJoins (c : Ctx) : Ctx := (List.range 16).foldl (fun c _ => c.settleJoin) c

/-- `qfence` (R80, R149). -/
def execQfence (m : BitVec 4) (s : State) : Out :=
  issue (viewOf (.qfence m))
    (fun s _ =>
      if (joinQueues m).length ≤ 1 then .commit
      else match (joinQueues m).find? (fun k => s.me.queueFull k.1 k.2) with
        | some k => .block (.queue k.1 k.2)
        | none => .commit)
    (fun _ s =>
      if (joinQueues m).length ≤ 1 then s
      else
        { s.upd (fun c => ((joinQueues m).foldl (fun c k => c.enqueue k.1 k.2 (.join m s.joins)) c).settleJoins) with joins := s.joins + 1 }) s

/-! ## Cache maintenance -/

/-- A range outside the local aperture that does not wrap (R150, R151). -/
def rangeOk (base len : Word) : Bool :=
  base.toNat + len.toNat ≤ 0xFFFF_FFFF_0000_0000 || len == 0

/-- The check of `cinv` and `cwb` that needs their length alone (R150). -/
def maintLen (len : Word) : SlotEnd := need (len.toNat ≤ 2 ^ 32) 0x4C

/-- The checks of `cinv` and `cwb` (R150). -/
def State.maintEnd (s : State) (base len : Word) : SlotEnd :=
  (need (len.toNat ≤ 2 ^ 32 && rangeOk base len) 0x4C).and
    (if len = 0 then .commit else (globalOk base len.toNat).and s.logRoom)

/-- Logs a maintenance operation; a range of no bytes does nothing. -/
def State.maint (s : State) (op : LogOp) (base len : Word) : State :=
  if len = 0 then s else s.logged { logEntry op base s.thisWord with cmp := len }

/-- `cinv` (R150). -/
def execCinv (d : BitVec 6) (a : Src) (p : BitVec 2) (s : State) : Out :=
  issuePre (viewOf (.cinv d a p)) (fun _ x => maintLen (lo64 x.d)) (fun s x => s.maintEnd (lo64 x.a) (lo64 x.d))
    (fun x s => s.maint .cinv (lo64 x.a) (lo64 x.d)) s

/-- `cwb` (R150). -/
def execCwb (d : BitVec 6) (a : Src) (p : BitVec 2) (s : State) : Out :=
  issuePre (viewOf (.cwb d a p)) (fun _ x => maintLen (lo64 x.d)) (fun s x => s.maintEnd (lo64 x.a) (lo64 x.d))
    (fun x s => s.maint .cwb (lo64 x.a) (lo64 x.d)) s

/-! ## Sync objects -/

/-- The checks of a sync object's address: alignment, a causeway or register window (0x67), the allocation, and R20 for
a global one (R62, R70, R138). A local object's bank may hold the bundle. -/
def State.syncEnd (s : State) (a : Word) (n : Nat) (mis : Byte) : SlotEnd :=
  (need (a.toNat % n == 0) mis).and
    (if inAperture a then
      let l := bits a.toNat 31 0
      if 1 ≤ windowOf l ∧ windowOf l ≤ 8 then stopWith 13 0x67 else s.localEnd a n
    else globalOk a n)

/-- The local address of an object in the aperture. -/
def apertureAddr (a : Word) : Nat := bits a.toNat 31 0

/-- Whether a local object lies in a poisoned row (R59). -/
def State.objectBad (s : State) (core x : Nat) (a : Word) (n : Nat) : Bool :=
  inAperture a && (s.localBytes core x (apertureAddr a) n).2

/-- What a sync or barrier slot does once its checks pass: one that meets a local object in a poisoned row has consumed it (R32). -/
def State.onObject (s : State) (a : Word) (n : Nat) (act : State → State) : State :=
  if s.objectBad s.cur s.x a n then s.consumed else act s

/-- The protocol of an atomic read of a global object: the read is logged and the bundle blocks; once it is performed
the bundle issues again and takes the value (R152, R153). -/
def State.syncRead (s : State) (op : LogOp) (a : Word) (k : Vec → SlotEnd) : SlotEnd :=
  match s.me.syncRead with
  | some (b, v) => if b = a then k v else .block (.syncLoad (logEntry op a s.thisWord))
  | none => if s.me.logFull ∧ !s.me.log.any (fun f => f.op == op && f.addr == a) then .stall
            else .block (.syncLoad (logEntry op a s.thisWord))

/-- `acq` (R73, R152). -/
def execAcq (d : BitVec 6) (n : Bool) (a : Src) (scope : BitVec 3) (p : BitVec 2) (s : State) : Out :=
  issue (viewOf (.acq d n a scope p))
    (fun s x =>
      let obj := lo64 x.a
      let test := fun (w : Word) => if (lo64 x.d).ule w then SlotEnd.commit else .block (.syncWord obj (lo64 x.d))
      (s.syncEnd obj 8 0x4B).and
        (if s.objectBad s.cur s.x obj 8 then .commit
         else if inAperture obj then test (ofBytes 64 (s.localBytes s.cur s.x (apertureAddr obj) 8).1)
         else s.syncRead .acqRead obj (fun v => test (lo64 v))))
    (fun x s => s.onObject (lo64 x.a) 8 (fun s =>
      (s.upd (fun c => { c with syncRead := none })).acquireRegions s.cur s.x (lo64 x.a))) s

/-- `rel` (R72, R152). -/
def execRel (d : BitVec 6) (n : Bool) (a : Src) (scope : BitVec 3) (p : BitVec 2) (s : State) : Out :=
  issue (viewOf (.rel d n a scope p))
    (fun s x =>
      let obj := lo64 x.a
      (s.syncEnd obj 8 0x4B).and
        (if !inAperture obj then s.logRoom
         else if s.me.regionsDone obj s.me.logNext then .commit else .block (.release (logEntry (.rel scope.toNat) obj s.thisWord))))
    (fun x s =>
      let obj := lo64 x.a
      if inAperture obj then
        (s.releaseRegions s.cur s.x obj).localStore s.cur s.x (apertureAddr obj) (bytesOf (lo64 x.d) 8) [] false
      else s.logged { logEntry (.rel scope.toNat) obj s.thisWord with data := wide (lo64 x.d), blocking := true }) s

/-- `bind` (R71, R151). -/
def execBind (o : DAB6) (s : State) : Out :=
  let same := fun (x : Vals) => ({ base := lo64 x.a, len := lo64 x.b, obj := lo64 x.d } : Binding)
  let length := fun (x : Vals) => need (lo64 x.b != 0 && (lo64 x.b).toNat ≤ 2 ^ 40) 0x4C
  let object := fun (s : State) (obj : Word) =>
    (need (obj.toNat % 8 == 0) 0x4B).and
      (if inAperture obj then
          if 1 ≤ windowOf (apertureAddr obj) ∧ windowOf (apertureAddr obj) ≤ 8 then stopWith 13 0x67
          else withAddr (s.checkLocal obj 8) (fun _ => .commit)
        else globalOk obj 8)
  issuePre (viewOf (.bind o))
    (fun s x => ((length x).early (s.known (sSrc o.b))).and (object s (lo64 x.d)))
    (fun s x =>
      (length x).and ((need (rangeOk (lo64 x.a) (lo64 x.b)) 0x4C).and ((object s (lo64 x.d)).and
        (need (s.me.bindings.contains (same x) || s.me.bindings.length < 16) 0x4D))))
    (fun x s => s.upd (fun c =>
      if c.bindings.contains (same x) then c else { c with bindings := c.bindings ++ [same x] })) s

/-- `unbind` (R151). -/
def execUnbind (n : Bool) (a : Src) (p : BitVec 2) (s : State) : Out :=
  issue (viewOf (.unbind n a p)) noCheck
    (fun x s => s.upd (fun c => { c with
      bindings := if lo64 x.a = 0 then [] else c.bindings.filter (fun b => b.obj != lo64 x.a) })) s

/-! ## Barriers -/

/-- Notes the cause of a saturated local update, taken after the bundle (R63, R153). -/
def State.barCause (s : State) (c : Option Byte) : State :=
  match c with
  | some k => s.takeAfter k 0 0
  | none => s

/-- The checks of an update of a local object: it must be initialised with its reserved bits zero (R62), where its row can be
read (R32). -/
def State.usableEnd (s : State) (a : Word) : SlotEnd :=
  need (s.objectBad s.cur s.x a 16 || (s.localBar s.cur s.x (apertureAddr a)).usable) 0x67

/-- `binit` (R153). -/
def execBinit (n : Bool) (a b : Src) (p : BitVec 2) (s : State) : Out :=
  let value := fun (x : Vals) => need (bits (lo64 x.b).toNat 13 4 != 0 && bits (lo64 x.b).toNat 63 15 == 0) 0x67
  issuePre (viewOf (.binit n a b p))
    (fun s x => ((value x).early (s.known (sSrc b))).and ((s.syncEnd (lo64 x.a) 16 0x67).early (s.known (sSrc a))))
    (fun s x =>
      (need ((lo64 x.a).toNat % 16 == 0) 0x67).and
        ((value x).and
          ((s.syncEnd (lo64 x.a) 16 0x67).and (if inAperture (lo64 x.a) then .commit else s.logRoom))))
    (fun x s =>
      if inAperture (lo64 x.a) then s.setLocalBar s.cur s.x (apertureAddr (lo64 x.a)) (BarObj.ofInit (lo64 x.b))
      else s.logged { logEntry .binit (lo64 x.a) s.thisWord with
        data := (BarObj.ofInit (lo64 x.b)).setWidth 4096, blocking := true }) s

/-- ARRIVE without release (R153). -/
def execBarv (n : Bool) (a : Src) (y : Bool) (p : BitVec 2) (s : State) : Out :=
  issue (viewOf (.barv n a y p))
    (fun s x => (s.syncEnd (lo64 x.a) 16 0x67).and
      (if inAperture (lo64 x.a) then s.usableEnd (lo64 x.a) else s.logRoom))
    (fun x s =>
      s.onObject (lo64 x.a) 16 (fun s =>
        if inAperture (lo64 x.a) then
          let r := s.updLocalBar s.cur s.x (apertureAddr (lo64 x.a)) .arrive
          r.1.barCause r.2
        else s.logged (logEntry (.barrive false) (lo64 x.a) s.thisWord))) s

/-- ARRIVE as a release (R72, R153). -/
def execBarvRel (scope : BitVec 3) (n : Bool) (a : Src) (y : Bool) (p : BitVec 2) (s : State) : Out :=
  issue (viewOf (.barvRel scope n a y p))
    (fun s x =>
      let obj := lo64 x.a
      (s.syncEnd obj 16 0x67).and
        (if !inAperture obj then s.logRoom
         else (s.usableEnd obj).and (if s.objectBad s.cur s.x obj 16 || s.me.regionsDone obj s.me.logNext then
             .commit
           else .block (.release (logEntry (.barrive true) obj s.thisWord)))))
    (fun x s =>
      let obj := lo64 x.a
      s.onObject obj 16 (fun s =>
        if inAperture obj then
          let r := (s.releaseRegions s.cur s.x obj).updLocalBar s.cur s.x (apertureAddr obj) .arrive
          r.1.barCause r.2
        else s.logged { logEntry (.barrive true) obj s.thisWord with blocking := true })) s

/-- `bwait` (R63, R153). -/
def execBwait (scope : BitVec 3) (n : Bool) (a b : Src) (p : BitVec 2) (s : State) : Out :=
  issueA (viewOf (.bwait scope n a b p))
    (fun s x =>
      let obj := lo64 x.a
      let g := (lo64 x.b).toNat % 16
      let test := fun (o : BarObj) => if o.gen ≠ g then SlotEnd.commit else .block (.barrier obj g)
      (s.syncEnd obj 16 0x67).and
        (if s.objectBad s.cur s.x obj 16 then .commit
         else if inAperture obj then test (s.localBar s.cur s.x (apertureAddr obj))
         else s.syncRead .bwaitRead obj (fun v => test (v.setWidth 128))))
    (fun x s => s.onObject (lo64 x.a) 16 (fun s =>
      (s.upd (fun c => { c with syncRead := none })).acquireRegions s.cur s.x (lo64 x.a))) s

/-- `bxpect` (R153). -/
def execBxpect (o : PRR) (s : State) : Out :=
  let values := fun (s : State) (x : Vals) =>
    (need ((lo64 x.d).toNat < 2 ^ 32) 0x68).and ((need ((lo64 x.b).toNat < 2 ^ 56) 0x68).early (s.known (sSrc o.b)))
  let object := fun (s : State) (x : Vals) =>
    (s.syncEnd (lo64 x.a) 16 0x67).and (if inAperture (lo64 x.a) then s.usableEnd (lo64 x.a) else s.logRoom)
  let aligned := fun (x : Vals) => need ((lo64 x.a).toNat % 16 == 0) 0x67
  issuePre (viewOf (.bxpect o))
    (fun s x => ((aligned x).early (s.known (sSrc o.a))).and ((values s x).and ((object s x).early (s.known (sSrc o.a)))))
    (fun s x => (aligned x).and ((values s x).and (object s x)))
    (fun x s =>
      s.onObject (lo64 x.a) 16 (fun s =>
        if inAperture (lo64 x.a) then
          let r := s.updLocalBar s.cur s.x (apertureAddr (lo64 x.a)) (.expect (lo64 x.b).toNat (lo64 x.d).toNat)
          r.1.barCause r.2
        else s.logged { logEntry .bxpect (lo64 x.a) s.thisWord with
          data := wide (lo64 x.b), cmp := lo64 x.d, blocking := true })) s

/-! ## Twin checks and containment -/

/-- `tchk` (R146). -/
def execTchk (l k : BitVec 4) (p : BitVec 2) (s : State) : Out :=
  issue (viewOf (.tchk l k p)) (fun s _ => s.twinCheck l.toNat k.toNat) (fun _ s => s) s

/-- `copen` (R161). -/
def execCopen (d : BitVec 5) (n : Bool) (a : Src) (p : BitVec 2) (s : State) : Out :=
  issuePre (viewOf (.copen d n a p)) (fun s _ => need (s.me.regions.length < 4) 0x6D)
    (fun s x => (targetOk (lo64 x.a)).and (need (s.me.regions.length < 4) 0x6D))
    (fun x s => s.upd (fun c => { c with regions :=
      { regs := c.regs, fflags := c.fflags, handler := lo64 x.a, d := d.toNat } :: c.regions })) s

/-- `cclose` (R161). -/
def execCclose (p : BitVec 2) (s : State) : Out :=
  issue (viewOf (.cclose p)) (fun s _ => need (!s.me.regions.isEmpty) 0x6E)
    (fun _ s => s.upd (fun c => { c with regions := c.regions.drop 1 })) s

/-! ## Random state -/

/-- The random state image (R136). -/
def Rand.image (r : Rand) : List Byte :=
  bytesOf r.key 8 ++ bytesOf r.ctr 8 ++ le 1 r.words.length ++ List.replicate 47 0 ++
    (List.range 4).flatMap (fun i => bytesOf (r.words.getD i 0) 256)

/-- A random state from its image (R136). -/
def Rand.ofImage (b : List Byte) : Rand :=
  { key := BitVec.ofNat 64 (field b 0 8), ctr := BitVec.ofNat 64 (field b 8 8),
    words := (List.range (field b 16 1)).map (fun i => BitVec.ofNat 2048 (field b (64 + 256 * i) 256)) }

/-- An image that `rload` and a restore accept (R163, R339). -/
def randImageOk (b : List Byte) : Bool := field b 16 1 ≤ 4 && field b 17 47 == 0

/-- The checks of an image's place (R163): wherever it lies outside the allocation, in a window too, the cause is 0x49. -/
def State.imageEnd (s : State) (a : Word) : SlotEnd :=
  (need (a.toNat % 64 == 0) 0x4B).and (match s.checkOwn a 1088 with
    | .ok l => s.hold l 1088
    | .error _ => stopWith 13 0x49)

/-- The 16 cycles a transfer of an image stalls the context (R163). -/
def State.stallFor (s : State) (n : Nat) : State := s.updIss (fun i => { i with stall := i.stall + n })

/-- `rseed` (R163). -/
def execRseed (n : Bool) (a b : Src) (p : BitVec 2) (s : State) : Out :=
  issue (viewOf (.rseed n a b p)) noCheck
    (fun x s => s.upd (fun c => { c with rand := { key := lo64 x.a, ctr := lo64 x.b, words := [] }, randAt := s.cycle })) s

/-- `rsave` (R163). -/
def execRsave (n : Bool) (a : Src) (p : BitVec 2) (s : State) : Out :=
  issue (viewOf (.rsave n a p)) (fun s x => s.imageEnd (lo64 x.a))
    (fun x s => (s.localStore s.cur s.x (addrOf (s.checkOwn (lo64 x.a) 1088)) s.me.rand.image [] false).stallFor 16) s

/-- `rload` (R163). -/
def execRload (n : Bool) (a : Src) (p : BitVec 2) (s : State) : Out :=
  issue (viewOf (.rload n a p))
    (fun s x => (s.imageEnd (lo64 x.a)).and
      (let b := s.localBytes s.cur s.x (addrOf (s.checkOwn (lo64 x.a) 1088)) 1088
       need (b.2 || randImageOk b.1) 0x6C))
    (fun x s =>
      let b := s.localBytes s.cur s.x (addrOf (s.checkOwn (lo64 x.a) 1088)) 1088
      (if b.2 then s.consumed else s.upd (fun c => { c with rand := Rand.ofImage b.1, randAt := s.cycle })).stallFor 16) s

end Sys2Proof.Machine
end

