-- ==== Sys2Proof/Machine/Streams.lean ====
section
/-! DEFINITION. Streams: descriptors, start and close, the address generators, the tile fetch unit and the drains of
write streams (R42, R43, R154-R159). -/

namespace Sys2Proof.Machine

/-! ## Instructions -/

/-- The stream a 32-byte descriptor describes (R154). -/
def streamOf (b : List Byte) : Stream :=
  { Stream.reset with
    cfg := true, base := BitVec.ofNat 64 (field b 0 8), fmt := field b 8 1 % 16, scl := (field b 8 1).testBit 4,
    kind := field b 9 1 % 8, loc := (field b 9 1).testBit 3, rowlen := field b 10 2, count := field b 12 4,
    str0 := BitVec.ofNat 32 (field b 16 4), str1 := BitVec.ofNat 32 (field b 20 4), ext := field b 24 2,
    sstr := BitVec.ofNat 16 (field b 26 2), soff := BitVec.ofNat 32 (field b 28 4) }

/-- The scale bit a format allows (R154). -/
def sclOk (fmt : Nat) (scl : Bool) : Bool := if fmt = 9 then scl else fmt = 7 ∨ fmt = 8 ∨ !scl

/-- A well-formed descriptor for `sdesc` (R154-R156). -/
def descOk (b : List Byte) : Bool :=
  let q := streamOf b
  bits (field b 8 1) 7 5 == 0 && bits (field b 9 1) 7 4 == 0 && q.fmt != 15 && sclOk q.fmt q.scl && 1 ≤ q.count &&
    (match q.kind with
      | 0 => q.loc
      | 1 => !q.loc
      | 2 => !q.loc
      | 3 => q.base == 0 && q.rowlen == 0 && q.str0 == 0 && q.str1 == 0 && q.ext == 0 && q.sstr == 0 && q.soff == 0
      | 5 => true
      | _ => false) &&
    (q.kind == 3 || (1 ≤ q.rowlen && q.rowlen ≤ 4096 && 1 ≤ q.ext))

/-- `sdesc` (R156). -/
def execSdesc (o : KA) (s : State) : Out :=
  let bytes := fun (s : State) (x : Vals) => s.localBytes s.cur s.x (addrOf (s.checkLocal (lo64 x.a) 32)) 32
  issuePre (viewOf (.sdesc o)) (fun s _ => need (!(s.me.stream o.k.toNat).cfg) 0x6A)
    (fun s x =>
      (withAddr (s.checkLocal (lo64 x.a) 32) (fun _ => .commit)).and
        ((need (!(s.me.stream o.k.toNat).cfg) 0x6A).and
          ((withAddr (s.checkLocal (lo64 x.a) 32) (fun l => s.hold l 32)).and
            (need ((lo64 x.a).toNat % 32 == 0 && ((bytes s x).2 || descOk (bytes s x).1)) 0x69))))
    (fun x s => if (bytes s x).2 then s.consumed else s.upd (fun c => c.setStream o.k.toNat (streamOf (bytes s x).1))) s

/-- `sbind` (R157). -/
def execSbind (k : BitVec 4) (p : BitVec 2) (s : State) : Out :=
  issue (viewOf (.sbind k p))
    (fun s _ => need ((s.me.stream k.toNat).cfg && !(s.me.stream k.toNat).started) 0x6A)
    (fun _ s => s.upd (fun c => c.setStream k.toNat { c.stream k.toNat with started := true, after := c.logNext })) s

/-- Whether a ferry command of the context still writes a stream (R55, R157). -/
def Ctx.ferryBound (c : Ctx) (k : Nat) : Bool :=
  (List.range 2).any (fun q => (c.ferryQ q).entries.any (fun e => match e with
    | .ferry f => f.strm.getLsbD 7 && f.strm.toNat % 16 == k
    | _ => false))

/-- `sclose` (R157). -/
def execSclose (k : BitVec 4) (p : BitVec 2) (s : State) : Out :=
  issue (viewOf (.sclose k p))
    (fun s _ =>
      let q := s.me.stream k.toNat
      if !q.cfg then .commit
      else (need (!(q.kind == 3 && s.me.ferryBound k.toNat)) 0x6A).and
        (if q.kind = 5 ∧ q.halt then stopWith 13 0x6B
         else if q.kind = 5 ∧ !q.entries.isEmpty then .block (.closing k.toNat) else .commit))
    (fun _ s => if (s.me.stream k.toNat).cfg then s.closeStream s.cur s.x k.toNat else s) s

/-! ## Pins -/

/-- Takes a line pin for a tile fetch (R42): at most 64 lines of a core, at most 12 ways of a set. -/
def State.takeLine (s : State) (core x k line : Nat) : Option State :=
  let mine := (s.linePins.filter (fun p => p.core == core)).map (·.line)
  if s.linePins.any (fun p => p.core == core && p.x == x && p.k == k && p.line == line) then some s
  else
    let held := ((s.linePins.filter (fun p => coreDie p.core == coreDie core)).map (·.line)).dedup
    let inSet := held.filter (fun l => homeDie (512 * l) == homeDie (512 * line) &&
      (if homeDie (512 * line) = coreDie core then l2Set l == l2Set line else rdcSet l == rdcSet line))
    if 64 ≤ mine.length ∨ (12 ≤ inSet.length ∧ !inSet.contains line) then none
    else some { s with linePins := s.linePins ++ [{ core := core, x := x, k := k, line := line }] }

/-! ## Filling -/

/-- The blocks of 32 bytes that a stream delivers, padding apart: those of its rows, or of the entries that a ferry-bound stream
accepts (R154, R155). -/
def Stream.blocks (q : Stream) : Nat := if q.kind = 3 then 16 * q.count else (q.rowlen * q.count + 31) / 32

/-- Bytes at a global address as the die of a core sees them, with poison and physical lines, byte by byte; a cause with
its address where a sector's translation fails (R16, R69). -/
def State.globalBytes (s : State) (core x : Nat) (va : Word) (n : Nat) :
    Except (Byte × Word) (List Byte × List Bool × List Nat) × State :=
  match s.translateAll core (s.asnOf core x) (s.rootOf core x) .read (vaSectors va n) with
  | (.error e, s) => (.error e, s)
  | (.ok l, s) => let r := s.dieRead (coreDie core) l (va.toNat % 64) n; (.ok r.1, r.2)

/-- The bytes of a local range of the own window, with poison, or 0x49 (R159). -/
def State.ownBytes (s : State) (core x : Nat) (va : Word) (n : Nat) : Except (Byte × Word) (List Byte × List Bool × List Nat) :=
  match localOf va with
  | none => .error (0x49, 0)
  | some a =>
    if windowOf a = 0 ∧ s.localFault core x a n = none then
      .ok ((s.localBytes core x a n).1, s.localPoison core x a n, [])
    else .error (0x49, 0)

/-- What a read for a stream answers: bytes with the poison of each and the lines they lie in, a wait, or a fault. -/
inductive Got where
  | ok (b : List Byte) (bad : List Bool) (lines : List Nat)
  | wait
  | fault (cause : Byte) (va : Word)
  deriving DecidableEq, Repr

/-- Pins the lines of a read for a tile fetch, or none where a pin has to wait. -/
def State.pinLines (s : State) (core x k : Nat) (lines : List Nat) : Option State :=
  lines.dedup.foldl (fun r l => r.bind (fun s => s.takeLine core x k l)) (some s)

/-- A read of the tile fetch unit: the page and the lines are pinned first (R27, R42). -/
def State.tileGet (s : State) (core x k : Nat) (va : Word) (n : Nat) : Got × State :=
  match s.pinnedAll { core := core, x := x, holder := .stream k } .read (vaSectors va n) with
  | (.wait, _) => (.wait, s)
  | (.fault c a, s) => (.fault c a, s)
  | (.ok l, t) =>
    match t.pinLines core x k (l.map (· / 512)) with
    | none => (.wait, s)
    | some t => let r := t.dieRead (coreDie core) l (va.toNat % 64) n; (.ok r.1.1 r.1.2.1 r.1.2.2.dedup, r.2)

/-- A read of a local generator, whose banks no engine command may hold (R61, R159). -/
def State.localGet (s : State) (core x : Nat) (va : Word) (n : Nat) : Got :=
  if (localOf va).any (fun a => s.reserved core (s.banksOf core x a n)) then .wait
  else match s.ownBytes core x va n with
    | .ok v => .ok v.1 v.2.1 []
    | .error e => .fault e.1 e.2

/-- A read of `n` bytes for a stream, by its kind (R155). -/
def State.streamGet (s : State) (core x k : Nat) (va : Word) (n : Nat) : Got × State :=
  let q := (s.ctx core x).stream k
  if q.loc then (s.localGet core x va n, s)
  else if q.kind = 2 then s.tileGet core x k va n
  else match s.globalBytes core x va n with
    | (.ok v, s) => (.ok v.1 v.2.1 [], s)
    | (.error e, s) => (.fault e.1 e.2, s)

/-- Two reads one after the other. -/
def Got.append (a : Got) (k : State → Got × State) (s : State) : Got × State :=
  match a with
  | .ok b p l =>
    match k s with
    | (.ok b' p' l', s) => (.ok (b ++ b') (p ++ p') (l ++ l'), s)
    | r => r
  | a => (a, s)

/-- The reads of several pieces, in order. -/
def State.streamGets (core x k : Nat) : List (Word × Nat) → State → Got × State
  | [], s => (.ok [] [] [], s)
  | p :: t, s => let r := s.streamGet core x k p.1 p.2; r.1.append (streamGets core x k t) r.2

/-- The scales of `n` blocks from block `b` (R154); padding has scale 0. -/
def State.scalesFor (core x k : Nat) : Nat → Nat → State → Got × State
  | _, 0, s => (.ok [] [] [], s)
  | b, n + 1, s =>
    let q := (s.ctx core x).stream k
    let r := if !q.scl || decide (q.blocks ≤ b) then (Got.ok [0] [false] [], s) else s.streamGet core x k (q.scaleAt b) 1
    r.1.append (scalesFor core x k (b + 1) n) r.2

/-- Whether an entry can be packed: its bytes are there and there is room for it. -/
def Stream.canPack (q : Stream) : Bool :=
  q.entries.length < 8 && (512 ≤ q.pend.length || (q.kind != 3 && q.row == q.count && !q.pend.isEmpty))

/-- The bytes of the entry to be packed. A tile fetch takes what its pinned lines hold now (R43); the others took their bytes
row by row. -/
def State.entryBytes (s : State) (core x k : Nat) : Got × State :=
  let q := (s.ctx core x).stream k
  if q.kind = 2 then State.streamGets core x k (q.segments 512 (32 * q.blk) 512) s else (.ok q.pend q.pendPoison [], s)

/-- A stream with one more entry; a ferry-bound one has accepted one more (R55, R155). -/
def Stream.packed (q : Stream) (e : Entry) : Stream :=
  { q with entries := q.entries ++ [e], blk := q.blk + 16, pend := q.pend.drop 512, pendPoison := q.pendPoison.drop 512,
           pendLines := [], row := if q.kind = 3 then q.row + 1 else q.row }

/-- Packs an entry with its scales (R154); none where a read has to wait; a read that faults halts the stream. -/
def State.packEntry (s : State) (core x k : Nat) : Option State :=
  let q := (s.ctx core x).stream k
  let b := s.entryBytes core x k
  match b.1, State.scalesFor core x k q.blk 16 b.2 with
  | .ok d p l, (.ok sc sp sl, s) =>
    let bad : BitVec 8 := BitVec.ofNat 8 (packNat 1 (fun i =>
      if (List.range 64).any (fun b => p.getD (64 * i + b) false) || sp.getD (2 * i) false || sp.getD (2 * i + 1) false
      then 1 else 0) 8)
    let e : Entry := { data := ofVecBytes d, scales := ofBytes 128 sc, poison := bad, lines := (q.pendLines ++ l ++ sl).dedup,
                       num := 0 }
    some (s.updCtx core x (fun c => c.setStream k ((c.stream k).packed e)))
  | .fault c a, _ => some (b.2.haltStream core x k c a)
  | _, (.fault c a, s) => some (s.haltStream core x k c a)
  | _, _ => none

/-- Whether a generator or fetch unit works on a stream: started, not halted, and its context not stopped by a save with
no matrix work left to feed (R334). A bound command that has started runs to its end (R54), and logged accesses may wait for a
drain (R83, R158). -/
def State.streamRuns (s : State) (core x k : Nat) (kinds : List Nat) : Bool :=
  let q := (s.ctx core x).stream k
  q.cfg && q.started && !q.halt && kinds.contains q.kind && (s.ctx core x).task.isSome &&
    (!(s.ctx core x).save.halted || !(s.ctx core x).mq.isEmpty || (s.core core).matrix.any (fun m => m.x == x) || q.kind == 3 ||
      (q.kind == 5 && (s.ctx core x).log.any (fun e => e.cause == 0)))

/-- Whether a stream's generator can read more: rows are left, the bytes it holds do not fill an entry, and an entry
is free for them (R92). -/
def Stream.wantsRow (q : Stream) : Bool :=
  q.kind != 3 && decide (q.row < q.count) && decide (q.pend.length < 512) && decide (q.entries.length < 8)

/-- Whether every access of the context before the `sbind` of a stream has been performed, as its generator's reads require
(R69); the entries of a ferry-bound stream are poppable as soon as their bytes have landed (R55). -/
def Ctx.boundDone (c : Ctx) (q : Stream) : Bool :=
  q.kind == 3 || !(c.log.any (fun e => decide (e.num < q.after))) &&
    !(c.streams.any (fun p => p.2.kind == 5 && p.2.entries.any (fun e => decide (e.num < q.after))))

/-- The part of the current row that the entry being filled takes: its address and length. -/
def Stream.piece (q : Stream) : Word × Nat :=
  (q.rowAt q.row + BitVec.ofNat 64 q.off, Nat.min (512 - q.pend.length) (q.rowlen - q.off))

/-- A stream after bytes of its current row have joined the entry being filled. -/
def Stream.taken (q : Stream) (b : List Byte) (bad : List Bool) (lines : List Nat) : Stream :=
  let all := q.off + b.length = q.rowlen
  { q with row := if all then q.row + 1 else q.row, off := if all then 0 else q.off + b.length,
           pend := q.pend ++ b, pendPoison := q.pendPoison ++ bad, pendLines := q.pendLines ++ lines }

/-- The next thing that the generator of a stream of some kinds does: it packs an entry, or reads a piece of a row; none where
it has nothing to do or has to wait. A fault halts it (R155, R159). -/
def State.streamStep (s : State) (core x k : Nat) (kinds : List Nat) : Option State :=
  let q := (s.ctx core x).stream k
  if !s.streamRuns core x k kinds || !(s.ctx core x).boundDone q then none
  else if q.canPack then s.packEntry core x k
  else if !q.wantsRow then none
  else match s.streamGet core x k q.piece.1 q.piece.2 with
    | (.wait, _) => none
    | (.fault c a, s) => some (s.haltStream core x k c a)
    | (.ok b bad lines, s) => some (s.updCtx core x (fun c => c.setStream k ((c.stream k).taken b bad lines)))

/-- Whether an address generator has something to do (R155); the entries of a ferry-bound stream are packed here too. -/
def State.generatorReady (s : State) (core x k : Nat) : Bool := (s.streamStep core x k [0, 1, 3]).isSome

/-- STREAM_GENERATOR_ROW (R155, R159). -/
def execStreamGeneratorRow (core x k : Nat) (s : State) : Out := .next ((s.streamStep core x k [0, 1, 3]).getD s)

/-- Whether the tile fetch unit has something to do for a stream (R42). -/
def State.tileReady (s : State) (core x k : Nat) : Bool := (s.streamStep core x k [2]).isSome

/-- TILE_FETCH_ENTRY_FILL (R42, R43, R155): a pin that has to wait holds only the stream. -/
def execTileFetchEntryFill (core x k : Nat) (s : State) : Out := .next ((s.streamStep core x k [2]).getD s)

/-! ## Drains -/

/-- Writes bytes at a global address as a store of a context of the core's die, translating every sector first; a cause
with its address where one fails. -/
def State.globalStore (s : State) (core x : Nat) (va : Word) (b : List Byte) (en : List Bool) :
    Except (Byte × Word) Unit × State :=
  match s.translateAll core (s.asnOf core x) (s.rootOf core x) .write (vaSectors va b.length) with
  | (.error e, s) => (.error e, s)
  | (.ok l, s) =>
    (.ok (), (List.range l.length).foldl (fun s i =>
      let p := pieceOf (va.toNat % 64) b en i
      s.coreWrite (coreDie core) (l.getD i 0 / 64) p.1 p.2) s)

/-- The bytes of the head entry that the next drain writes: up to the end of the row and of the entry (R158). -/
def Stream.drainLen (q : Stream) : Nat := Nat.min (512 - q.pend.length) (q.rowlen - q.off)

/-- Whether no access of the context that comes before a push and is still to be performed, logged or pushed to another stream,
shares a sector with the drain's next write, or of local memory a byte (R68). -/
def State.drainOrdered (s : State) (core x : Nat) (q : Stream) : Bool :=
  let c := s.ctx core x
  match q.entries.head? with
  | none => true
  | some e =>
    let a := q.rowAt q.row + BitVec.ofNat 64 q.off
    if q.loc then !((localOf a).any (fun l => c.owes e.num l q.drainLen))
    else
      let here := [(a.toNat / 64, (a.toNat + q.drainLen - 1) / 64)]
      let others := (c.log.filter (fun f => decide (f.num < e.num))).flatMap LogEntry.sectors ++ c.undrained e.num
      others.isEmpty || !(shareSector others here || shareSector (s.sectorPlaces core x others) (s.sectorPlaces core x here))

/-- Whether a write stream's drain has something to do (R158). -/
def State.drainReady (s : State) (core x k : Nat) : Bool :=
  let q := (s.ctx core x).stream k
  s.streamRuns core x k [5] && !q.entries.isEmpty && s.drainOrdered core x q &&
    (!q.loc || (localOf (q.rowAt q.row)).elim true (fun a => !s.reserved core (s.banksOf core x (a + q.off) q.drainLen)))

/-- A write stream after `n` bytes of its head entry have been drained; `pend` marks the bytes of it already done. -/
def Stream.drained (q : Stream) (n : Nat) : Stream :=
  let done := q.pend.length + n
  let endRow := q.off + n = q.rowlen
  { q with row := if endRow then q.row + 1 else q.row, off := if endRow then 0 else q.off + n,
           entries := if done = 512 then q.entries.drop 1 else q.entries,
           pend := if done = 512 then [] else List.replicate done 0 }

/-- WRITE_STREAM_DRAIN (R158, R159): writes the next piece of the head entry to its row; a fault halts the drain.
Bytes pushed beyond the last row go nowhere. -/
def execWriteStreamDrain (core x k : Nat) (s : State) : Out :=
  if !s.drainReady core x k then .next s
  else
    let q := (s.ctx core x).stream k
    let put := fun (s : State) (q : Stream) => s.updCtx core x (fun c => c.setStream k q)
    match q.entries.head? with
    | none => .next s
    | some e =>
      if q.count ≤ q.row then .next (put s { q with entries := q.entries.drop 1, pend := [] })
      else
        let b := ((vecBytes e.data).drop q.pend.length).take q.drainLen
        let at_ := q.rowAt q.row + BitVec.ofNat 64 q.off
        if q.loc then
          match localOf at_ with
          | none => .next (s.haltStream core x k 0x49 0)
          | some a =>
            if windowOf a = 0 ∧ s.localFault core x a b.length = none then
              .next (put (s.localStore core x a b [] false) (q.drained b.length))
            else .next (s.haltStream core x k 0x49 0)
        else match s.globalStore core x at_ b [] with
          | (.error f, s) => .next (s.haltStream core x k f.1 f.2)
          | (.ok _, s) => .next (put s (q.drained b.length))

/-- HALT written to a stream's SQSTAT: the halt is cleared, so that what faulted is tried again (R159). -/
def State.resumeStream (s : State) (core x k : Nat) : State :=
  s.updCtx core x (fun c => if (c.stream k).halt then c.setStream k { c.stream k with halt := false, cause := 0 } else c)

/-- SQSTAT_HALT (R159): HALT written with 1 retries the faulted row; without a halt it does nothing. -/
def execSqstatHalt (core x k : Nat) (s : State) : Out := .next (s.resumeStream core x k)

end Sys2Proof.Machine
end

