-- ==== Sys2Proof/Machine/CoreEvents.lean ====
section
/-! DEFINITION. What a core's contexts undergo between their bundles: results written, logged accesses performed (R147,
R148), blocked contexts made ready (R86), random words made (R134), late faults delivered (R326), translations walked
(R25), the clock reached (R180), steals answered (R311) and tasks ended (R179). -/

namespace Sys2Proof.Machine

/-! ## Results, random words, late faults -/

/-- RESULT_WRITE (R96, R327): every result due is written, and an enabled flag it raised is trapped. Those of a context that has
stopped stay in its flight record (R324, R330). -/
def execResultWrite (core x : Nat) (s : State) : Out :=
  .next (if (s.ctx core x).flight.any (fun f => f.left == 0) && !(s.ctx core x).save.halted then s.writeDue core x else s)

/-- The mixing of R133, modulo 2^64. -/
def mixWord (z : Word) : Word :=
  let z := z ^^^ (z >>> 31)
  let z := z * 0x8f3a_61c7_d24b_9e0b
  let z := z ^^^ (z >>> 29)
  let z := z * 0x6b91_e3d5_0f27_4a8d
  z ^^^ (z >>> 32)

/-- Word `n` of a key (R133). -/
def randWord (key n : Word) : BitVec 2048 :=
  let base := mixWord (key ^^^ (n * 0xc2b7_4e93_5a1d_f6e5))
  BitVec.ofNat 2048 (packNat 16 (fun j =>
    ((mixWord (base + BitVec.ofNat 64 j * 0x3d4a_9c61_b7e2_58f3)) >>> 48).toNat) 128)

/-- Whether a context's generator appends a word: it has room, at one word in a cycle, and begins in the cycle after its state was set
(R134). -/
def State.wantsRandom (s : State) (core x : Nat) : Bool :=
  let c := s.ctx core x
  c.task.isSome && decide (c.rand.words.length < 4) && decide (c.randAt < s.cycle)

/-- GENERATOR_APPEND (R134). -/
def execGeneratorAppend (core x : Nat) (s : State) : Out :=
  .next (if s.wantsRandom core x then s.updCtx core x (fun c => { c with
    rand := { c.rand with words := c.rand.words ++ [randWord c.rand.key c.rand.ctr], ctr := c.rand.ctr + 1 },
    randAt := s.cycle }) else s)

/-- The rank of a fault's source among faults detected in one cycle (R326). One of the context itself comes before those of its
units and engines (a choice of the model: assumption 147). -/
def Pending.rank (p : Pending) : Nat :=
  match p.src with
  | 10 => 0
  | 9 => 8
  | 8 => 9 + p.snum
  | n => n

/-- Whether a pending fault is delivered before another (R326). -/
def Pending.before (p q : Pending) : Bool := decide (p.seen < q.seen) || (p.seen == q.seen && decide (p.rank < q.rank))

/-- The pending fault to deliver first (R326). -/
def firstPending : List Pending → Option Pending
  | [] => none
  | p :: t =>
    match firstPending t with
    | none => some p
    | some q => if q.before p then some q else some p

/-- Whether a task's started matrix instruction waits on a stream that a fault has halted: such a task is not taken until the
stream resumes (R333). -/
def State.stuck (s : State) (core x : Nat) : Bool :=
  (s.core core).matrix.any (fun m => m.x == x && m.entry.streams.any (fun k => ((s.ctx core x).stream k).halt))

/-- Whether a stopped victim runs on because its save cannot be completed before a stream of its own resumes (R333). -/
def State.runsOn (s : State) (core x : Nat) : Bool :=
  (s.ctx core x).save != .stopped 1 && (s.ctx core x).save.halted && s.stuck core x

/-- Whether a late fault of a context is to be delivered now: it is outside its handler and may still run (R326). -/
def State.lateReady (s : State) (core x : Nat) : Bool :=
  let c := s.ctx core x
  c.task.isSome && !c.pending.isEmpty && !c.hnd && !c.save.halted

/-- LATE_FAULT_DELIVERY (R326): the oldest pending fault traps, with EPC the bundle that would issue next. -/
def execLateFaultDelivery (core x : Nat) (s : State) : Out :=
  if !s.lateReady core x then .next s
  else match firstPending (s.ctx core x).pending with
    | none => .next s
    | some p =>
      let s := s.updCtx core x (fun c => { c with pending := c.pending.erase p })
      .next (s.enterTrap core x { cause := p.cause, late := true, src := p.src, snum := p.snum, info := p.info,
                                  emask := 0, epc := (s.ctx core x).pc } true)

/-! ## The operand log -/

/-- The physical sectors that a logged access touches, where its addresses can be translated now. -/
def State.entryPlaces (s : State) (core x : Nat) (e : LogEntry) : List (Nat × Nat) :=
  match e.op with
  | .cinv | .cwb => (s.regionPieces core x e.addr e.cmp.toNat).1.map (fun p => (p.1 / 64, (p.1 + p.2 - 1) / 64))
  | _ => s.sectorPlaces core x e.sectors

/-- Whether an access shares a sector with an earlier push to a write stream that is still to be written, by its virtual addresses
or by where these lie now (R68, R158). -/
def State.behindPush (s : State) (core x : Nat) (e : LogEntry) : Bool :=
  let p := (s.ctx core x).undrained e.num
  shareSector p e.sectors || shareSector (s.sectorPlaces core x p) (s.entryPlaces core x e)

/-- Whether two accesses of a context share a sector, by its virtual addresses or by where these lie now (R68, R148). -/
def State.entriesMeet (s : State) (core x : Nat) (e f : LogEntry) : Bool :=
  shareSector e.sectors f.sectors || shareSector (s.entryPlaces core x e) (s.entryPlaces core x f)

/-- Whether a log entry can be performed: it is not faulted, no earlier access of its context touches one of its sectors, a
push to a write stream among them, and a release has its bound accesses behind it (R68, R72, R148, R158). -/
def State.entryReady (s : State) (core x i : Nat) : Bool :=
  let c := s.ctx core x
  match c.log[i]? with
  | none => false
  | some e =>
    e.cause == 0 && !(c.log.take i).any (fun f => s.entriesMeet core x f e) && !s.behindPush core x e &&
      (match e.op with
        | .rel _ => c.regionsDone e.addr e.num
        | .barrive true => c.regionsDone e.addr e.num
        | _ => true)

/-- Takes an entry out of the log. -/
def State.releaseEntry (s : State) (core x num : Nat) : State :=
  s.updCtx core x (fun c => { c with log := c.log.filter (fun e => e.num != num) })

/-- A translation, permission or backing fault of an entry: the entry is kept, to be issued again after the handler
(R148). -/
def State.entryFault (s : State) (core x : Nat) (e : LogEntry) (f : Byte × Word) : State :=
  (s.updCtx core x (fun c => { c with log := c.log.map (fun g => if g.num = e.num then { g with cause := f.1 } else g) })).lateFault
    core x f.1 1 0 f.2 0

/-- A result of a blocking load at its destination (R69, R148). -/
def State.writeDest (s : State) (core x : Nat) (d : Dest) (v : Vec) (mask : Pred) : State :=
  match d with
  | .s r => s.updCtx core x (fun c => c.writeS r (lo64 v))
  | .v r => (s.writeV core x r (mergeLanes mask v (s.readV core x r))).cleanV core x r mask
  | _ => s

/-- Releases an entry and writes what it read, or raises 0x47 where it took poisoned bytes (R32, R162). -/
def State.loaded (s : State) (core x : Nat) (e : LogEntry) (v : Vec) (bad : Bool) : State :=
  let s := s.releaseEntry core x e.num
  if bad then s.poisoned core x 1 0 0 0 else s.writeDest core x e.d v e.mask

/-- The outcome of an access that may fault: what to do with its value, or the entry's fault. -/
def entryAfter {α : Type} (core x : Nat) (e : LogEntry) (r : Except (Byte × Word) α × State)
    (k : α → State → State) : State :=
  match r with
  | (.ok a, t) => k a t
  | (.error f, t) => t.entryFault core x e f

/-- Translates one address for an entry. -/
def State.entryTr (s : State) (core x : Nat) (va : Word) (k : AccessKind) : Except (Byte × Word) Nat × State :=
  match s.translate core (s.asnOf core x) (s.rootOf core x) va k with
  | (.ok pa, s) => (.ok pa, s)
  | (.fault c, s) => (.error (c, va), s)

/-- The addresses of an entry's active lanes, translated one by one in lane order. -/
def State.laneTr (s : State) (core x : Nat) (e : LogEntry) (k : AccessKind) : Except (Byte × Word) (List Nat) × State :=
  s.translateAll core (s.asnOf core x) (s.rootOf core x) k ((activeLanes e.mask).map (laneAddr e.addr e.offs))

/-- The lane `j` of a value replaced. -/
def setLane (v : Vec) (j : Nat) (l : Lane) : Vec := ofLanes (fun i => if i = j then l else lane v i)

/-- A cause raised by an update of a global object: a late fault of the operand log (R63, R153). -/
def State.entryCause (s : State) (core x : Nat) (c : Option Byte) : State :=
  match c with
  | some k => s.lateFault core x k 1 0 0 0
  | none => s

/-- One lane of `vamo` (R144). -/
def vamoLane (op : BitVec 2) (w b : Lane) : Lane :=
  match op.toNat with
  | 0 => w + b
  | 1 => if w.slt b then b else w
  | 2 => BitVec.ofNat 32 (fp32.add .rne w.toNat b.toNat).1
  | _ => b

/-- Four bytes at a physical address at the home slice, with poison. -/
def State.homeLane (s : State) (pa : Nat) : Lane × Bool := let b := s.homeBytes pa 4; (ofBytes 32 b.1, b.2)

/-- What a line operation of `cwb` and `cinv` does to a line of the context's die: its Dirty sectors go to the stack, and
`cinv` then invalidates it unless it is pinned (R150). -/
def State.maintHome (s : State) (inval : Bool) (line : Nat) : State :=
  let s := s.cleanLine line
  if inval && !s.linePinned (homeDie (512 * line)) line then
    { s with l2 := (lineSectors line).foldl (fun m k => merase m k) s.l2, l2use := s.l2use.filter (fun l => l != line) }
  else s

/-- What it does to a line of the other die: an eviction, or only its write-back while it is pinned (R79, R150). -/
def State.maintRemote (s : State) (die line : Nat) : State :=
  if s.linePinned die line then (lineSectors line).foldl (fun s k => s.rdcClean die k) s else s.rdcEvict die line

/-- `cwb` and `cinv` over every line that overlaps a range (R150). -/
def State.maintain (s : State) (core x : Nat) (inval : Bool) (base : Word) (len : Nat) : State :=
  let die := coreDie core
  let r := s.regionPieces core x base len
  let p := r.1
  let s := r.2
  let home := s.l2use.filter (fun l => homeDie (512 * l) == die && overlaps p 512 l)
  let away := (s.rdcLines die).filter (fun l => overlaps p 512 l)
  away.foldl (fun s l => s.maintRemote die l) (home.foldl (fun s l => s.maintHome inval l) s)

/-- The byte ranges an entry accesses, for the watchpoints (R367). -/
def LogEntry.ranges (e : LogEntry) : List (Nat × Nat) :=
  match e.op with
  | .vload => (activeLanes e.mask).map (fun j => (e.addr.toNat + 4 * j, 4))
  | .vstore => (activeLanes e.mask).map (fun j => (e.addr.toNat + 4 * j, 4))
  | .gather | .scatter | .vamo _ => (activeLanes e.mask).map (fun j => ((laneAddr e.addr e.offs j).toNat, 4))
  | .cinv | .cwb => []
  | .bwaitRead | .binit | .barrive _ | .bxpect => [(e.addr.toNat, 16)]
  | _ => [(e.addr.toNat, 8)]

/-- Whether an entry meets a watchpoint of its core: bit 0 watches reads, bit 1 writes (R367). -/
def State.watched (s : State) (core : Nat) (e : LogEntry) : Bool :=
  (List.range 2).any (fun k =>
    let w := mget 0 (s.core core).watch k
    ((w.getLsbD 0 && e.op.reads) || (w.getLsbD 1 && e.op.writes)) &&
      e.ranges.any (fun r => decide (r.1 % 2 ^ 57 < bits w.toNat 56 3 * 8 + 8) && decide (bits w.toNat 56 3 * 8 < r.1 % 2 ^ 57 + r.2)))

/-- The value of an atomic read reaches the bundle that waits for it (R152, R153). -/
def State.syncArrive (s : State) (core x : Nat) (a : Word) (v : Vec) (bad : Bool) : State :=
  if bad then s.poisoned core x 1 0 0 0
  else s.updCtx core x (fun c => match c.blocked with
    | .syncLoad e => if e.addr = a then { c with syncRead := some (a, v) } else c
    | _ => c)

/-- Performs a log entry (R67, R72, R142-R144, R148, R150, R152, R153). -/
def State.performEntry (s : State) (core x : Nat) (e : LogEntry) : State :=
  let rel := fun (s : State) => s.releaseEntry core x e.num
  match e.op with
  | .load => entryAfter core x e (s.globalBytes core x e.addr 8)
      (fun v s => s.loaded core x e (wide (ofBytes 64 v.1)) (v.2.1.any id))
  | .store => entryAfter core x e (s.globalStore core x e.addr (bytesOf (lo64 e.data) 8) []) (fun _ s => rel s)
  | .vload => entryAfter core x e (s.globalBytes core x e.addr 512)
      (fun v s => s.loaded core x e (ofVecBytes v.1)
        ((List.range 512).any (fun i => e.mask.getLsbD (i / 4) && v.2.1.getD i false)))
  | .vstore =>
    let parts := (List.range 8).filter (fun k => clusterOn e.mask k)
    entryAfter core x e
      (s.translateAll core (s.asnOf core x) (s.rootOf core x) .write (parts.map (fun k => e.addr + BitVec.ofNat 64 (64 * k))))
      (fun l s => rel ((parts.zip l).foldl (fun s p =>
        let m := BitVec.ofNat 64 (packNat 1 (fun i => (e.mask.getLsbD (16 * p.1 + i / 4)).toNat) 64)
        s.coreWrite (coreDie core) (p.2 / 64) m (e.data.extractLsb' (512 * p.1) 512)) s))
  | .gather => entryAfter core x e (s.laneTr core x e .read) (fun l s =>
      let die := coreDie core
      let r := ((activeLanes e.mask).zip l).foldl (fun (v : Vec × Bool) p =>
        let k := s.viewSector die (p.2 / 64)
        (setLane v.1 p.1 (k.1.extractLsb' (8 * (p.2 % 64)) 32), v.2 || k.2)) (0, false)
      (l.foldl (fun s pa => s.touchSector die (pa / 64)) s).loaded core x e r.1 r.2)
  | .scatter => entryAfter core x e (s.laneTr core x e .write) (fun l s =>
      rel (((activeLanes e.mask).zip l).foldl (fun s p =>
        let q := pieceOf p.2 (bytesOf (lane e.data p.1) 4) [] (p.2 / 64)
        s.coreWrite (coreDie core) (p.2 / 64) q.1 q.2) s))
  | .amo op => entryAfter core x e (s.entryTr core x e.addr .atomic) (fun pa s =>
      let b := s.homeBytes pa 8
      let w := ofBytes 64 b.1
      (s.homeStore pa (bytesOf (amoWord op w (lo64 e.data) e.cmp) 8)).loaded core x e (wide w) b.2)
  | .vamo op => entryAfter core x e (s.laneTr core x e .atomic) (fun l s =>
      let r := ((activeLanes e.mask).zip l).foldl (fun (v : State × Vec × Bool) p =>
        let w := v.1.homeLane p.2
        (v.1.homeStore p.2 (bytesOf (vamoLane op w.1 (lane e.data p.1)) 4), setLane v.2.1 p.1 w.1, v.2.2 || w.2))
        (s, 0, false)
      r.1.loaded core x e r.2.1 r.2.2)
  | .cinv => rel (s.maintain core x true e.addr e.cmp.toNat)
  | .cwb => rel (s.maintain core x false e.addr e.cmp.toNat)
  | .rel _ => entryAfter core x e (s.entryTr core x e.addr .atomic) (fun pa s =>
      rel ((s.releaseRegions core x e.addr).homeStore pa (bytesOf (lo64 e.data) 8)))
  | .acqRead => entryAfter core x e (s.entryTr core x e.addr .atomic) (fun pa s =>
      let r := s.readHome pa 8
      (rel r.2).syncArrive core x e.addr (wide (ofBytes 64 r.1.1)) r.1.2)
  | .bwaitRead => entryAfter core x e (s.entryTr core x e.addr .atomic) (fun pa s =>
      let r := s.readHome pa 16
      (rel r.2).syncArrive core x e.addr ((s.globalBar pa).setWidth 4096) r.1.2)
  | .binit => entryAfter core x e (s.entryTr core x e.addr .atomic) (fun pa s =>
      rel (s.setGlobalBar pa (e.data.setWidth 128)))
  | .barrive release => entryAfter core x e (s.entryTr core x e.addr .atomic) (fun pa s =>
      let s := if release then s.releaseRegions core x e.addr else s
      if (s.homeBytes pa 16).2 then (rel (s.touchBytes pa 16)).poisoned core x 1 0 0 0
      else
        let r := s.updGlobalBar pa .arrive
        (rel r.1).entryCause core x r.2)
  | .bxpect => entryAfter core x e (s.entryTr core x e.addr .atomic) (fun pa s =>
      if (s.homeBytes pa 16).2 then (rel (s.touchBytes pa 16)).poisoned core x 1 0 0 0
      else
        let r := s.updGlobalBar pa (.expect (lo64 e.data).toNat e.cmp.toNat)
        (rel r.1).entryCause core x r.2)

/-- OPERAND_LOG_PERFORM (R148): entry `i` of a log is performed, or faults. -/
def execOperandLogPerform (core x i : Nat) (s : State) : Out :=
  let c := s.ctx core x
  match c.log[i]? with
  | none => .next s
  | some e =>
    if !s.entryReady core x i then .next s
    else
      let t := s.performEntry core x e
      .next (if s.watched core e && !(t.ctx core x).log.any (fun f => f.num == e.num) then t.lateFault core x 0x16 1 0 0 0 else t)

/-! ## Blocked contexts -/

/-- What a read of a global object's home would now return, where it can be translated. -/
def State.peekHome (s : State) (core x : Nat) (a : Word) : Option Nat :=
  (s.lookup core (s.asnOf core x) (s.rootOf core x) a).1.map (·.1)

/-- The generation of a barrier object, wherever its home is. -/
def State.genOf (s : State) (core x : Nat) (a : Word) : Option Nat :=
  if inAperture a then some (s.localBar core x (apertureAddr a)).gen
  else (s.peekHome core x a).map (fun pa => (s.globalBar pa).gen)

/-- The value of a sync word, wherever its home is. -/
def State.syncWordOf (s : State) (core x : Nat) (a : Word) : Option Word :=
  if inAperture a then some (ofBytes 64 (s.localBytes core x (apertureAddr a) 8).1)
  else (s.peekHome core x a).map s.homeWord

/-- The entries a unit queue holds (R216, R242). -/
def unitQueueDepth : Nat := 8

/-- Whether what a blocked context waits for has come about (R85, R86). The end of a task and the expiry of a wait have
events of their own. -/
def State.waitOver (s : State) (core x : Nat) : Bool :=
  let c := s.ctx core x
  match c.blocked with
  | .no => false
  | .stream k => !(c.stream k).entries.isEmpty || !(c.stream k).cfg
  | .push k => decide ((c.stream k).entries.length < 8) || (c.stream k).halt || !(c.stream k).cfg
  | .queue sound q => !c.queueFull sound q
  | .matrixQueue => decide (c.mq.length < unitQueueDepth)
  | .crossbarQueue => decide (c.xq.length < unitQueueDepth)
  | .barrier a g => s.objectBad core x a 16 || (s.genOf core x a).elim true (fun n => n != g)
  | .syncWord a w => s.objectBad core x a 8 || (s.syncWordOf core x a).elim true (fun v => w.ule v)
  | .syncLoad _ => c.syncRead.isSome
  | .steal => c.walker.outcome == .got || c.walker.outcome == .refused
  | .time _ => false
  | .load n => !c.log.any (fun e => e.blocking && decide (n ≤ e.num))
  | .fence p => s.outstanding core x &&& p == 0
  | .fwait marks => !c.soundSeqs.any (fun n => marks.contains n)
  | .drains => false
  | .release e => c.regionsDone e.addr c.logNext
  | .writes => !c.writesOut
  | .intake => !s.intakeFull (coreDie core) && !s.regs.failing
  | .kv _ _ _ => match c.kv with
    | .value _ _ => true
    | .cause _ _ _ => true
    | _ => false
  | .closing k => (c.stream k).entries.isEmpty || (c.stream k).halt
  | .other => false

/-- Whether a blocked context may become ready. -/
def State.readyNow (s : State) (core x : Nat) : Bool := (s.ctx core x).task.isSome && s.waitOver core x

/-- CONTEXT_READY (R86): the context's condition is met, and its bundle is issued again when its turn comes. -/
def execContextReady (core x : Nat) (s : State) : Out :=
  .next (if s.readyNow core x then s.updCtx core x (fun c => { c with blocked := .no }) else s)

/-- Whether a context's wait for a time is over (R180). -/
def State.timeOver (s : State) (core x : Nat) : Bool :=
  (s.ctx core x).task.isSome && (match (s.ctx core x).blocked with
    | .time t => t.ule s.now
    | _ => false)

/-- WAITT_EXPIRY (R180). -/
def execWaittExpiry (core x : Nat) (s : State) : Out :=
  .next (if s.timeOver core x then s.updCtx core x (fun c => { c with blocked := .no }) else s)

/-- Whether a context has asked for a steal (R181, R311). -/
def State.stealAsked (s : State) (core x : Nat) : Bool :=
  (s.ctx core x).task.isSome && (s.ctx core x).blocked == .steal && (s.ctx core x).walker.outcome == .asked

/-- STEAL (R311, R312): the scan and its outcome are one step of the distributor. -/
def execSteal (core x : Nat) (s : State) : Out := .next (if s.stealAsked core x then s.stealFor core x else s)

/-- Whether a `done` has nothing left to wait for (R179). -/
def State.endReady (s : State) (core x : Nat) : Bool :=
  let c := s.ctx core x
  c.task.isSome && c.blocked == .drains && (c.hnd || c.pending.isEmpty) && s.drained core x

/-- TASK_END (R179). -/
def execTaskEnd (core x : Nat) (s : State) : Out := .next (if s.endReady core x then s.endTask core x false else s)

/-- PAGE_WALK (R24, R25): the walk's leaf enters the core's TLB; a translation that fails is not kept (R26). -/
def execPageWalk (core x : Nat) (va : Word) (k : AccessKind) (s : State) : Out :=
  .next (s.translate core (s.asnOf core x) (s.rootOf core x) va k).2

end Sys2Proof.Machine
end

