-- ==== Sys2Proof/Machine/Ferry.lean ====
section
/-! DEFINITION. Ferries: command records and their checks, the transfers of a command, its counts and its faults
(R44-R55, R61, R160). -/

namespace Sys2Proof.Machine

/-! ## Records -/

/-- The command that a 64-byte record describes (R45). -/
def ferryOf (b : List Byte) : FerryCmd :=
  { src := BitVec.ofNat 64 (field b 0 8), dst := BitVec.ofNat 64 (field b 8 8), rowlen := field b 0x10 4,
    nrows := field b 0x14 4, sstr := BitVec.ofNat 32 (field b 0x18 4), dstr := BitVec.ofNat 32 (field b 0x1C 4),
    bankset := BitVec.ofNat 32 (field b 0x20 4), mcast := BitVec.ofNat 16 (field b 0x24 2), strm := b.getD 0x26 0,
    flags := b.getD 0x27 0, bar := BitVec.ofNat 64 (field b 0x28 8), mword := BitVec.ofNat 32 (field b 0x30 4),
    mopa := BitVec.ofNat 32 (field b 0x34 4), mopb := BitVec.ofNat 32 (field b 0x38 4), started := false, row := 0,
    off := 0, rowsrc := none, rowbuf := [], rowpoison := [], held := [], owed := [], handing := false }

/-- SLOC: the source is local. -/
def FerryCmd.sloc (c : FerryCmd) : Bool := c.flags.getLsbD 0
/-- DLOC: the destination is local. -/
def FerryCmd.dloc (c : FerryCmd) : Bool := c.flags.getLsbD 1
/-- BARLOC: the barrier is local. -/
def FerryCmd.barloc (c : FerryCmd) : Bool := c.flags.getLsbD 2
/-- GATHER: the rows' addresses come from a table. -/
def FerryCmd.gather (c : FerryCmd) : Bool := c.flags.getLsbD 3
/-- BIND: the destination is a stream. -/
def FerryCmd.bound (c : FerryCmd) : Bool := c.strm.getLsbD 7
/-- The bound stream. -/
def FerryCmd.stream (c : FerryCmd) : Nat := c.strm.toNat % 16

/-- The address `base + i × stride` of a row. -/
def rowAddr (base : Word) (st : BitVec 32) (i : Nat) : Word := base + BitVec.ofInt 64 ((i : Int) * stride st)

/-- Whether every row of `len` bytes lies within the first `limit` local bytes: the first and the last row tell. -/
def rowsWithin (base : Word) (st : BitVec 32) (len n limit : Nat) : Bool :=
  let last : Int := (base.toNat : Int) + ((n - 1 : Nat) : Int) * stride st
  decide (base.toNat + len ≤ limit) && decide (0 ≤ last) && decide (last + (len : Int) ≤ (limit : Int))

/-- Whether every byte of the rows lies in a bank of the set. -/
def rowsInBanks (set : BitVec 32) (base : Word) (st : BitVec 32) (len n : Nat) : Bool :=
  (List.range n).all (fun i =>
    let a := (rowAddr base st i).toNat
    (List.range ((a + len - 1) / 65536 - a / 65536 + 1)).all (fun k => set.getLsbD (a / 65536 + k)))

/-- The local extents of a command: base, stride, row length and rows, of its source, or its table, and its
destination. -/
def FerryCmd.extents (c : FerryCmd) : List (Word × BitVec 32 × Nat × Nat) :=
  (if c.sloc then [if c.gather then (c.src, 8, 8, c.nrows) else (c.src, c.sstr, c.rowlen, c.nrows)] else []) ++
    (if c.dloc then [(c.dst, c.dstr, c.rowlen, c.nrows)] else [])

/-- The context of a core that runs a task of a launch with a context rank. -/
def State.peer (s : State) (core : Nat) (t : Task) : Option (Nat × Nat) :=
  ((List.range 4).find? (fun x => (s.ctx core x).task.any (fun u => u.launch == t.launch && u.ctxr == t.ctxr))).map
    (fun x => (core, x))

/-- The cores that a multicast mask names, in the island of the issuing core (R45). -/
def FerryCmd.named (c : FerryCmd) (core : Nat) : List Nat :=
  ((List.range 16).filter (fun i => c.mcast.getLsbD i)).map (islandCore (coreIsland core))

/-- The contexts a command writes to (R47). -/
def State.ferryTargets (s : State) (core x : Nat) (c : FerryCmd) : List (Nat × Nat) :=
  if c.mcast = 0 then [(core, x)]
  else match (s.ctx core x).task with
    | some t => (c.named core).filterMap (fun k => s.peer k t)
    | none => []

/-- A source of a follow-on word: a register only (R46). -/
def plainSrc (a : Src) : Bool := !a.m

/-- A word that may follow a command on (R46); the stop bit is ignored (R51). -/
def followOk (w : BitVec 32) : Bool :=
  match decodeWord (w.toNat % 2 ^ 31) with
  | .ok (.tmma o) => plainSrc o.a && plainSrc o.b
  | .ok (.tmmaZ o) => plainSrc o.a && plainSrc o.b
  | .ok (.tmmg o) => plainSrc o.a && plainSrc o.b
  | .ok (.tmmgZ o) => plainSrc o.a && plainSrc o.b
  | .ok (.zzero _ _ _) => true
  | .ok (.zacc _ _ _) => true
  | _ => false

/-- A record with a reserved field set, or a row length or count out of range (R45, R46); `tail` is its last word. -/
def FerryCmd.malformed (c : FerryCmd) (tail : Nat) : Bool :=
  bits c.strm.toNat 6 4 != 0 || bits c.flags.toNat 7 4 != 0 || tail != 0 || c.rowlen == 0 || decide (0x100_0000 < c.rowlen) ||
    c.nrows == 0 || decide (65536 < c.nrows)

/-- The first failing check of a record, in the order of R46 with R160's test of GATHER. -/
def State.ferryBad (s : State) (c : FerryCmd) (gather : Bool) (tail : Nat) : Option Byte :=
  let t := s.me.task
  let limit := 65536 * t.elim 0 (·.banks)
  let ext := c.extents
  if c.malformed tail ∨ c.gather ≠ gather then some 0x60
  else if c.mcast ≠ 0 ∧ ((c.sloc ∧ c.dloc) ∨ (!c.dloc ∧ !c.bound) ∨ (c.bar ≠ 0 ∧ !c.barloc) ∨
      (s.ferryTargets s.cur s.x c).length ≠ (c.named s.cur).length) then some 0x61
  else if !ext.all (fun e => rowsWithin e.1 e.2.1 e.2.2.1 e.2.2.2 limit) ∨
      (c.bar ≠ 0 ∧ c.barloc ∧ limit < c.bar.toNat + 16) then some 0x64
  else if !ext.all (fun e => rowsInBanks c.bankset e.1 e.2.1 e.2.2.1 e.2.2.2) then some 0x62
  else if c.mword ≠ 0 ∧ !followOk c.mword then some 0x63
  else if c.bound ∧ (c.dst ≠ 0 ∨ c.mcast ≠ 0 ∨ c.dloc ∨ !(s.me.stream c.stream).cfg ∨ (s.me.stream c.stream).kind ≠ 3 ∨
      c.rowlen * c.nrows % 512 ≠ 0) then some 0x65
  else none

/-- The banks of a bank set that the task holds (R56). -/
def ownBanks (n : Nat) (set : BitVec 32) : BitVec 32 := set &&& BitVec.ofNat 32 (2 ^ n - 1)

/-- The record's address: alignment with the engine's malformed cause, the own window, and the bank hold (R160). -/
def State.recordEnd (s : State) (a : Word) (align n : Nat) (cause : Byte) (k : List Byte → SlotEnd) : SlotEnd :=
  (need (a.toNat % align == 0) cause).and
    (withAddr (s.checkOwn a n) (fun l => (s.hold l n).and
      (if (s.localBytes s.cur s.x l n).2 then .commit else k (s.localBytes s.cur s.x l n).1)))

/-- The bytes of the record that an engine slot names, or none where they are poisoned. -/
def State.recordBytes (s : State) (a : Word) (n : Nat) : Option (List Byte) :=
  let b := s.localBytes s.cur s.x (addrOf (s.checkOwn a n)) n
  if b.2 then none else some b.1

/-- An `fcopy` or `fgath`: the command joins its queue and its bank set the reservation table (R49, R160). -/
def ferryIssue (v : View) (q : Nat) (gather : Bool) (s : State) : Out :=
  issue v
    (fun s x => s.recordEnd (lo64 x.a) 64 64 0x60 (fun b =>
      match s.ferryBad (ferryOf b) gather (field b 0x3C 4) with
      | some c => stopWith 13 c
      | none => if s.me.queueFull false q then .block (.queue false q) else .commit))
    (fun x s => match s.recordBytes (lo64 x.a) 64 with
      | none => s.consumed
      | some b =>
        let c := ferryOf b
        let set := ownBanks (s.me.task.elim 0 (·.banks)) c.bankset
        let held := (bankList (s.me.task.elim 0 (·.b0)) set).map (fun b => (s.cur, b))
        let s := s.reserveAll held true
        s.upd (fun k => k.enqueue false q (.ferry { c with bankset := set, held := held }))) s

/-- `fcopy` (R160). -/
def execFcopy (o : QA) (s : State) : Out := ferryIssue (viewOf (.fcopy o)) o.q.toNat false s

/-- `fgath` (R160). -/
def execFgath (o : QA) (s : State) : Out := ferryIssue (viewOf (.fgath o)) o.q.toNat true s

/-! ## Transfers -/

/-- The head command of a ferry queue. -/
def Ctx.ferryHead (c : Ctx) (n : Nat) : Option FerryCmd :=
  match (c.ferryQ n).entries.head? with
  | some (.ferry f) => some f
  | _ => none

/-- Changes the head command of a ferry queue. -/
def Ctx.setFerryHead (c : Ctx) (n : Nat) (f : FerryCmd) : Ctx :=
  c.setFerryQ n { c.ferryQ n with entries := .ferry f :: (c.ferryQ n).entries.drop 1 }

/-- Halts a ferry queue at its head command, and delivers the cause as a late fault of the queue (R52). -/
def State.haltFerry (s : State) (core x n : Nat) (cause : Byte) (info : Word) : State :=
  (s.updCtx core x (fun c => c.setFerryQ n { c.ferryQ n with halt := true, cause := cause })).agentFault core x cause
    (2 + n) 0 info 2

/-- Takes a command's banks out of the tables that hold them (R49). -/
def State.unreserveFerry (s : State) (f : FerryCmd) : State := s.reserveAll f.held false

/-- The banks that a started command holds in its target cores other than the issuing one (R49). -/
def State.farHolds (s : State) (core x : Nat) (f : FerryCmd) : List (Nat × Nat) :=
  ((s.ferryTargets core x f).filter (fun p => p.1 != core)).flatMap (fun p =>
    (bankList ((s.ctx p.1 p.2).task.elim 0 (·.b0)) f.bankset).map (fun b => (p.1, b)))

/-- A ferry queue as a holder of translation pins. -/
def ferryHolder (core x n : Nat) : PinHolder := { core := core, x := x, holder := .ferry n }

/-- Drops the translation pins of a ferry queue (R27). -/
def State.dropFerryPins (s : State) (core x n : Nat) : State := s.dropPins (ferryHolder core x n)

/-- The head command leaves its queue, which may complete joins and what an `fwait` waits for. -/
def State.popFerry (s : State) (core x n : Nat) : State :=
  s.updCtx core x (fun c => (c.setFerryQ n { c.ferryQ n with entries := (c.ferryQ n).entries.drop 1 }).settleJoins)

/-- A command starts: its set enters the tables of the other target cores (R49). -/
def State.startFerry (s : State) (core x n : Nat) (f : FerryCmd) : State :=
  let far := s.farHolds core x f
  (s.reserveAll far true).updCtx core x (fun c => c.setFerryHead n { f with started := true, held := f.held ++ far })

/-- What an engine update of a barrier answers: applied, perhaps with a saturation cause, or refused with a cause and
EINFO. -/
inductive Counted where
  | done (c : Option Byte)
  | refused (cause : Byte) (info : Word)
  deriving DecidableEq, Repr

/-- An engine's update of a barrier object, at its bank or its home slice (R50, R62, R63). -/
def State.engineBar (s : State) (core x tc tx : Nat) (loc : Bool) (a : Word) (u : BarOp) : Counted × State :=
  let answer := fun (r : State × Option Byte) => match r.2 with
    | some 0x67 => (Counted.refused 0x67 0, s)
    | c => (Counted.done c, r.1)
  if a.toNat % 16 ≠ 0 then (.refused 0x67 0, s)
  else if loc then answer (s.updLocalBar tc tx a.toNat u)
  else match s.translate core (s.asnOf core x) (s.rootOf core x) a .atomic with
    | (.fault c, s) => (.refused c a, s)
    | (.ok pa, t) =>
      match t.updGlobalBar pa u with
      | (_, some 0x67) => (.refused 0x67 0, t)
      | (t, c) => (.done c, t)

/-- The update that an owed count stands for: a LAND of that many bytes, or an OUTDONE (R50). -/
def owedOp (n : Nat) : BarOp := if n = 0 then .outdone else .land n

/-- A command that has transferred and counted everything: its banks and pins are given up, and it leaves the queue
unless a follow-on is still to be handed (R49-R51). -/
def State.finishFerry (s : State) (core x n : Nat) (f : FerryCmd) : State :=
  let s := (s.unreserveFerry f).dropFerryPins core x n
  if f.mword = 0 then s.popFerry core x n
  else s.updCtx core x (fun c => c.setFerryHead n { f with held := [], handing := true })

/-- Applies the counts a command owes, one after another; a refused one halts the queue (R50, R62). -/
def State.payFerry (core x n : Nat) (f : FerryCmd) : List (Nat × Nat) → State → State
  | [], s =>
    let f := { f with owed := [] }
    if f.row = f.nrows then s.finishFerry core x n f else s.updCtx core x (fun c => c.setFerryHead n f)
  | o :: t, s =>
    match s.engineBar core x (o.1 / 4) (o.1 % 4) f.barloc f.bar (owedOp o.2) with
    | (.refused c i, s) => (s.updCtx core x (fun k => k.setFerryHead n { f with owed := o :: t })).haltFerry core x n c i
    | (.done (some c), s) => payFerry core x n f t (s.lateFault core x c (2 + n) 0 0 2)
    | (.done none, s) => payFerry core x n f t s

/-- Reads bytes of a command's source space: a global page is pinned first (R27). -/
def State.ferryGet (s : State) (core x n : Nat) (loc : Bool) (a : Word) (len : Nat) : Got × State :=
  if loc then (.ok (s.localBytes core x a.toNat len).1 (s.localPoison core x a.toNat len) [], s)
  else match s.pinnedAll (ferryHolder core x n) .read (vaSectors a len) with
    | (.wait, _) => (.wait, s)
    | (.fault c va, s) => (.fault c va, s)
    | (.ok l, s) => let r := s.dieRead (coreDie core) l (a.toNat % 64) len; (.ok r.1.1 r.1.2.1 [], r.2)

/-- The source address of a command's current row, or what keeps it from being known: a wait, a fault, or a poisoned table
entry, which is consumed data (R32, R47). -/
inductive RowAt where
  | known (a : Word)
  | wait
  | fault (cause : Byte) (va : Word)
  deriving DecidableEq, Repr

/-- The address of a command's current source row (R47). The entry of a gather is read once for its row (assumption 119). -/
def State.ferryRow (s : State) (core x n : Nat) (f : FerryCmd) : RowAt × State :=
  if !f.gather then (.known (rowAddr f.src f.sstr f.row), s)
  else match f.rowsrc with
    | some a => (.known a, s)
    | none => match s.ferryGet core x n f.sloc (rowAddr f.src 8 f.row) 8 with
      | (.wait, s) => (.wait, s)
      | (.fault c va, s) => (.fault c va, s)
      | (.ok b bad _, s) => (if bad.any id then .fault 0x47 0 else .known (ofBytes 64 b), s)

/-- Whether the source bytes of a command are local: those of a gather are global rows. -/
def FerryCmd.fromLocal (f : FerryCmd) : Bool := f.sloc && !f.gather

/-- The current destination row. -/
def FerryCmd.destRow (f : FerryCmd) : Word := rowAddr f.dst f.dstr f.row

/-- Whether the current destination row overlaps its source row, so that the row is read whole first (R47). DESIGN CHOICE: rows
overlap by their addresses in the task's space, local or virtual; two virtual rows of one page frame do not (assumption 148). -/
def FerryCmd.overlapping (f : FerryCmd) (src : Word) : Bool :=
  !f.bound && f.fromLocal == f.dloc && decide (src.toNat < f.destRow.toNat + f.rowlen) &&
    decide (f.destRow.toNat < src.toNat + f.rowlen)

/-- The bytes of the next transfer: up to 512, within the row and, for a bound stream, within its entry (R44). -/
def Ctx.ferryLen (c : Ctx) (f : FerryCmd) : Nat :=
  let n := Nat.min 512 (f.rowlen - f.off)
  if f.bound then Nat.min n (512 - (c.stream f.stream).pend.length) else n

/-- Writes bytes with their poison at a local address of a task: a sector that receives a poisoned byte is poisoned
(R32). -/
def State.copyLocal (s : State) (core x a : Nat) (v : Piece) : State :=
  (sectorsOf a v.1.length).foldl (fun s k =>
    let p := pieceOf a v.1 [] k
    let bad := (List.range 64).any (fun i => decide (a ≤ 64 * k + i) && v.2.getD (64 * k + i - a) false)
    s.writePlace (s.place core x (64 * k)) p.1 p.2 bad) s

/-- Writes bytes with their poison in the sectors of physical addresses, from offset `k` of the first, as a ferry of a die: at
the home slices (R41, R48). -/
def State.copySectors (s : State) (die : Nat) (l : List Nat) (k : Nat) (v : Piece) : State :=
  (List.range l.length).foldl (fun s i =>
    let p := pieceOf k v.1 [] i
    let bad := (List.range 64).any (fun j => decide (k ≤ 64 * i + j) && v.2.getD (64 * i + j - k) false)
    s.ferryWrite die (l.getD i 0 / 64) p.1 p.2 bad) s

/-- Lands bytes at every destination of a command; a global page is pinned first (R27). An entry of a bound stream is poppable
once its last byte has landed (R55). -/
def State.ferryLand (s : State) (core x n : Nat) (f : FerryCmd) (v : Piece) : PinnedAll × State :=
  if f.bound then
    let t := s.updCtx core x (fun c =>
      let q := c.stream f.stream
      c.setStream f.stream { q with pend := q.pend ++ v.1, pendPoison := q.pendPoison ++ v.2 })
    (.ok [], (t.streamStep core x f.stream [3]).getD t)
  else if f.dloc then
    (.ok [], (s.ferryTargets core x f).foldl (fun s p => s.copyLocal p.1 p.2 (f.destRow.toNat + f.off) v) s)
  else
    let a := f.destRow + BitVec.ofNat 64 f.off
    match s.pinnedAll (ferryHolder core x n) .write (vaSectors a v.1.length) with
    | (.ok l, s) => (.ok l, s.copySectors (coreDie core) l (a.toNat % 64) v)
    | r => r

/-- The counts that `n` landed bytes owe, and the OUTDONE of a command that is done (R50). -/
def State.ferryOwes (s : State) (core x : Nat) (f : FerryCmd) (n : Nat) (last : Bool) : List (Nat × Nat) :=
  if f.bar = 0 then []
  else if f.dloc then (s.ferryTargets core x f).map (fun p => (cid p.1 p.2, n))
  else if f.bound then [(cid core x, n)]
  else if last then [(cid core x, 0)] else []

/-- The bytes of the next transfer of a command, from the row it holds or from its source, and the command with what it has
read: a row that overlaps its destination is read whole (R47). -/
def State.ferryPiece (s : State) (core x n : Nat) (f : FerryCmd) (src : Word) (len : Nat) : (Got × FerryCmd) × State :=
  let part := fun (b : List Byte) (p : List Bool) => Got.ok (b.drop f.off |>.take len) (p.drop f.off |>.take len) []
  if !f.rowbuf.isEmpty then ((part f.rowbuf f.rowpoison, f), s)
  else if f.overlapping src then
    match s.ferryGet core x n f.fromLocal src f.rowlen with
    | (.ok b p _, s) => ((part b p, { f with rowbuf := b, rowpoison := p }), s)
    | (g, s) => ((g, f), s)
  else
    let r := s.ferryGet core x n f.fromLocal (src + BitVec.ofNat 64 f.off) len
    ((r.1, f), r.2)

/-- A command after a transfer of `n` bytes. -/
def FerryCmd.moved (f : FerryCmd) (n : Nat) : FerryCmd :=
  if f.off + n = f.rowlen then { f with row := f.row + 1, off := 0, rowsrc := none, rowbuf := [], rowpoison := [] }
  else { f with off := f.off + n }

/-- The end of a transfer of `len` bytes: with the last transfer the command's banks leave the tables and its pins are dropped
(R27, R49). What it has to count, it counts after the ferries' transfers (R50, R60). -/
def State.ferryMoved (s : State) (core x n : Nat) (f : FerryCmd) (len : Nat) : State :=
  let g := f.moved len
  let owes := s.ferryOwes core x f len (g.row == g.nrows)
  let r := if g.row = g.nrows then ({ g with held := [] }, (s.unreserveFerry g).dropFerryPins core x n) else (g, s)
  if owes.isEmpty then r.2.payFerry core x n r.1 [] else r.2.updCtx core x (fun c => c.setFerryHead n { r.1 with owed := owes })

/-- A gather whose current row's address is known. A table read whole, where it is all that is local, frees its banks (R49). -/
def State.rowKnown (s : State) (f : FerryCmd) (src : Word) : FerryCmd × State :=
  if !f.gather then (f, s)
  else if f.sloc && !f.dloc && f.row + 1 == f.nrows then ({ f with rowsrc := some src, held := [] }, s.unreserveFerry f)
  else ({ f with rowsrc := some src }, s)

/-- One transfer of the head command of a queue, or the counts it still owes; none where a pin has to wait (R27, R44, R47,
R52). -/
def State.ferryStep (s : State) (core x n : Nat) (f : FerryCmd) : Option State :=
  let stop := fun (s : State) (f : FerryCmd) (c : Byte) (va : Word) =>
    (s.updCtx core x (fun k => k.setFerryHead n f)).haltFerry core x n c va
  if !f.owed.isEmpty then some (s.payFerry core x n f f.owed)
  else match s.ferryRow core x n f with
    | (.wait, _) => none
    | (.fault c va, s) => some (stop s f c va)
    | (.known src, s) =>
      let r := s.rowKnown f src
      let s := r.2
      let len := (s.ctx core x).ferryLen r.1
      match s.ferryPiece core x n r.1 src len with
      | ((.wait, _), _) => none
      | ((.fault c va, f), s) => some (stop s f c va)
      | ((.ok b bad _, f), s) =>
        match s.ferryLand core x n f (b, bad) with
        | (.wait, _) => none
        | (.fault c va, s) => some (stop s f c va)
        | (.ok _, s) => some (s.ferryMoved core x n f len)

/-- Whether a queue's head command may make a transfer now: the queue is not halted, a saved context starts none, and a bound
stream has room (R48, R52, R54, R55). Rows beyond the COUNT of a bound stream wait for ever (assumption 122). -/
def State.ferryMay (s : State) (core x n : Nat) (f : FerryCmd) : Bool :=
  let c := s.ctx core x
  c.task.isSome && !(c.ferryQ n).halt && !f.handing && (f.started || !c.save.halted) &&
    (!f.owed.isEmpty || !f.bound || (let k := c.stream f.stream
      k.started && decide (k.pend.length < 512) && decide (k.entries.length < 8) && decide (k.row < k.count)))

/-- The next transfer of a queue, which starts its command if need be; none where there is none to make now. -/
def State.ferryNext (s : State) (core q : Nat) : Option State :=
  match (s.ctx core (q / 2)).ferryHead (q % 2) with
  | none => none
  | some f =>
    if !s.ferryMay core (q / 2) (q % 2) f then none
    else
      let t := if f.owed.isEmpty then s.updCore core (fun k => { k with ferryLast := q }) else s
      if f.started then t.ferryStep core (q / 2) (q % 2) f
      else (t.startFerry core (q / 2) (q % 2) f).ferryStep core (q / 2) (q % 2)
        { f with started := true, held := f.held ++ s.farHolds core (q / 2) f }

/-- Whether a queue's head command has a transfer to make now. -/
def State.ferryReady (s : State) (core q : Nat) : Bool := (s.ferryNext core q).isSome

/-- FERRY_TRANSFER (R48). -/
def execFerryTransfer (core q : Nat) (s : State) : Out := .next ((s.ferryNext core q).getD s)

/-- The queue whose turn it is to make a transfer, or to count what it has landed: round-robin over the eight (R44, R60). -/
def State.nextFerry (s : State) (core : Nat) (counts : Bool) : Option Nat :=
  ((List.range 8).map (fun k => ((s.core core).ferryLast + 1 + k) % 8)).find? (fun q =>
    ((s.ctx core (q / 2)).ferryHead (q % 2)).any (fun f => f.owed.isEmpty != counts) && s.ferryReady core q)

/-! ## FQSTAT -/

/-- FQSTAT as it reads (R53). -/
def Queue.ferryStatus (q : Queue) : Word :=
  let row := match q.entries.head? with
    | some (.ferry f) => f.row
    | _ => 0
  let busy := match q.entries.head? with
    | some (.ferry f) => f.started
    | _ => false
  BitVec.ofNat 64 (q.entries.length + 32 * q.halt.toNat + 64 * busy.toNat + 256 * (if q.halt then q.cause.toNat else 0) +
    65536 * (row % 65536))

/-- HALT written: the head command resumes (R52, R53). -/
def State.resumeFerry (s : State) (core x n : Nat) : State :=
  s.updCtx core x (fun c => c.setFerryQ n { c.ferryQ n with halt := false, cause := 0 })

/-- DISCARD written while halted: the head command is dropped, with its banks and pins (R52, R53). -/
def State.discardFerry (s : State) (core x n : Nat) : State :=
  if !((s.ctx core x).ferryQ n).halt then s
  else match (s.ctx core x).ferryHead n with
    | none => s.resumeFerry core x n
    | some f => (((s.unreserveFerry f).dropFerryPins core x n).resumeFerry core x n).popFerry core x n

/-- FQSTAT_HALT (R53). -/
def execFqstatHalt (core x n : Nat) (s : State) : Out := .next (s.resumeFerry core x n)

/-- FQSTAT_DISCARD (R53). -/
def execFqstatDiscard (core x n : Nat) (s : State) : Out := .next (s.discardFerry core x n)

end Sys2Proof.Machine
end

