-- ==== Sys2Proof/Machine/Formats.lean ====
section
/-! DEFINITION. Format codes and scaled blocks: MXINT8, MXFP8 and the IB family, quantised and decoded (R115-R123). -/

namespace Sys2Proof.Machine

/-- The float format of a code, if it names one (R115). -/
def fmtOf (code : Nat) : Option Fmt :=
  match code with
  | 4 => some fp32
  | 5 => some bf16
  | 6 => some fp16
  | 7 => some fpE4m3
  | 8 => some fpE5m2
  | _ => none

/-- The signed number in the low `w` bits. -/
def signedOf (w v : Nat) : Int := (BitVec.ofNat w v).toInt

/-- A number as a value. -/
def Num.ofInt (i : Int) (e : Int) : Num := .fin (decide (i < 0)) i.natAbs e

/-- The value of an element of an unblocked format (R115, R116, R117). -/
def elementValue (code v : Nat) : Num :=
  match code with
  | 0 => Num.ofInt (signedOf 8 v) 0
  | 1 => Num.ofInt (v % 256) 0
  | 2 => Num.ofInt (signedOf 16 v) 0
  | 3 => Num.ofInt (signedOf 32 v) 0
  | 13 => Num.ofInt (v % 16) 0
  | 14 => Num.ofInt (signedOf 4 v) 0
  | _ => match fmtOf code with
    | some f => f.unpack v
    | none => .nan false

/-- The magnitude bits of an IB format (R121). -/
def ibBits (code : Nat) : Nat := if code = 10 then 7 else if code = 11 then 4 else 2

/-- The length of an IB block (R121). -/
def ibBytes (code : Nat) : Nat := if code = 10 then 18 else if code = 11 then 12 else 8

/-- Whether a value is finite. -/
def Num.isFin : Num → Bool
  | .fin _ _ _ => true
  | _ => false

/-- The magnitude of a finite value. -/
def Num.mag : Num → Nat × Int
  | .fin _ m e => (m, e)
  | _ => (0, 0)

/-- The sign of a finite value. -/
def Num.isNeg : Num → Bool
  | .fin n _ _ => n
  | .inf n => n
  | .nan _ => false

/-- `floor(log2 (max |x|))` over the nonzero values; none where all are zero. -/
def maxTop (xs : List Num) : Option Int :=
  xs.foldl (fun t x =>
    if x.mag.1 = 0 then t else some (t.elim (topExp x.mag.1 x.mag.2) (fun k => max k (topExp x.mag.1 x.mag.2)))) none

/-- A scale clamped to its byte (R120). -/
def clampScale (e : Int) : Nat := if e < 0 then 0 else if 254 < e then 254 else e.toNat

/-- One MXINT8 element at scale `s` (R120). -/
def mxi8Element (s : Nat) (mode : Mode) (x : Num) : Byte × Flags :=
  let r := roundTo mode x.isNeg x.mag.1 (x.mag.2 + 133 - (s : Int)) 0
  let m := Nat.min r.1 127
  (if x.isNeg then BitVec.ofInt 8 (-(m : Int)) else BitVec.ofNat 8 m, if r.2 || decide (127 < r.1) then fNX else 0)

/-- One MXFP8 element at scale `s` (R120): a magnitude beyond the largest finite value saturates with NX alone, and UF
belongs to elements that round to a nonzero value. DEDUCED: a −0 input gives the byte of +0, and an element that is tiny before rounding
(R125) raises UF though it rounds to the smallest normal value (assumption 149). -/
def mxf8Element (f : Fmt) (s : Nat) (mode : Mode) (x : Num) : Byte × Flags :=
  if x.mag.1 = 0 then (0, 0)
  else
    let e := x.mag.2 + 127 - (s : Int)
    if f.over (f.fb + 1) mode x.isNeg x.mag.1 e then (BitVec.ofNat 8 (f.sign x.isNeg + f.most), fNX)
    else
      let r := f.rnd mode x.isNeg x.mag.1 e
      (BitVec.ofNat 8 r.1, if r.1 % 128 = 0 then r.2 &&& fNX else r.2)

/-- Flags of a list of results. -/
def orFlags (l : List Flags) : Flags := l.foldl (· ||| ·) 0

/-- The 33 bytes of a block of 32 values in format 7, 8 or 9, element `i` rounded in mode `i` (R120). -/
def quantMx (code : Nat) (modes : List Mode) (xs : List Num) : List Byte × Flags :=
  if !xs.all Num.isFin then (List.replicate 32 0 ++ [0xFF], fNV)
  else match maxTop xs with
    | none => (List.replicate 33 0, 0)
    | some e =>
      let emax : Int := if code = 7 then 8 else if code = 8 then 15 else 0
      let s := clampScale (e - emax + 127)
      let r := (modes.zip xs).map (fun p =>
        if code = 9 then mxi8Element s p.1 p.2 else mxf8Element (if code = 7 then fpE4m3 else fpE5m2) s p.1 p.2)
      (r.map (·.1) ++ [BitVec.ofNat 8 s], orFlags (r.map (·.2)))

/-- Whether a magnitude lies below `2^k`. -/
def belowPow (x : Num) (k : Int) : Bool := x.mag.1 == 0 || decide (topExp x.mag.1 x.mag.2 < k)

/-- The bytes of an IB block of 16 values, element `k` rounded in mode `k` (R121, R123). -/
def quantIb (code : Nat) (modes : List Mode) (xs : List Num) : List Byte × Flags :=
  let b := ibBits code
  let n := ibBytes code
  if !xs.all Num.isFin then (0xFF :: List.replicate (n - 1) 0, fNV)
  else match maxTop xs with
    | none => (List.replicate n 0, 0)
    | some t =>
      let e := (max 0 (t + 127)).toNat
      let at' := fun k => xs.getD k (.fin false 0 0)
      let mu := fun p => (belowPow (at' (2 * p)) ((e : Int) - 127) && belowPow (at' (2 * p + 1)) ((e : Int) - 127)).toNat
      let one := fun (k : Nat) =>
        let x := at' k
        let r := roundTo (modes.getD k .rne) x.isNeg x.mag.1 (x.mag.2 + (b : Int) - 1 + 127 - (e : Int) + (mu (k / 2) : Int)) 0
        let m := Nat.min r.1 (2 ^ b - 1)
        (m + (if m ≠ 0 ∧ x.isNeg then 2 ^ b else 0), if r.2 || decide (2 ^ b ≤ r.1) then fNX else (0 : Flags))
      let els := (List.range 16).map one
      let v := e + 256 * packNat 1 mu 8 + 65536 * packNat (b + 1) (fun k => (els.getD k (0, 0)).1) 16
      (bytesOf (BitVec.ofNat (8 * n) v) n, orFlags (els.map (·.2)))

/-- Element `k` of an IB block (R121, R122). -/
def ibValue (code : Nat) (b : List Byte) (k : Nat) : Num :=
  let w := ibBits code
  let v := field b 0 (ibBytes code)
  let e := v % 256
  let m := bits v (16 + (w + 1) * k + w - 1) (16 + (w + 1) * k)
  if e = 255 then .nan false
  else if m = 0 then .fin false 0 0
  else .fin (v.testBit (16 + (w + 1) * k + w)) m ((e : Int) - 127 - (bits v (8 + k / 2) (8 + k / 2) : Int) - ((w : Int) - 1))

/-- An element of an MX block with its scale byte (R119, R120). -/
def mxValue (code : Nat) (p s : Byte) : Num :=
  if s = 0xFF then .nan false
  else if code = 9 then Num.ofInt p.toInt ((s.toNat : Int) - 133)
  else match (if code = 7 then fpE4m3 else fpE5m2).unpack p.toNat with
    | .fin n m e => .fin n m (e + (s.toNat : Int) - 127)
    | x => x

end Sys2Proof.Machine
end

