-- ==== Sys2Proof/Machine/Matrix.lean ====
section
/-! DEFINITION. The digital matrix unit: operand words and panels, the arithmetic of a step, the matrix queue and its
sequencer, the tile instructions, follow-ons and the ramp limiter (chapter 11 of the spec, R51, R316, R317). -/

namespace Sys2Proof.Machine

/-! ## Forms and operands -/

/-- A product instruction: its tile, whether it accumulates, whether it is grouped, and its sources (R227, R228). -/
structure Product where
  tile : Nat
  acc : Bool
  grouped : Bool
  a : Src
  b : Src
  deriving DecidableEq, Repr

/-- The product that an instruction is, if it is one. -/
def productOf (i : Instr) : Option Product :=
  match i with
  | .tmma o => some { tile := o.k.toNat, acc := true, grouped := false, a := o.a, b := o.b }
  | .tmmaZ o => some { tile := o.k.toNat, acc := false, grouped := false, a := o.a, b := o.b }
  | .tmmg o => some { tile := o.k.toNat, acc := true, grouped := true, a := o.a, b := o.b }
  | .tmmgZ o => some { tile := o.k.toNat, acc := false, grouped := true, a := o.a, b := o.b }
  | _ => none

/-- ADDR of an operand word (R219). -/
def opAddr (w : Word) : Nat := bits w.toNat 23 0
/-- FMT of an operand word (R219). -/
def opFmt (w : Word) : Nat := bits w.toNat 27 24
/-- KB of an operand word (R219). -/
def opKb (w : Word) : Nat := bits w.toNat 31 28

/-- The bytes of a row of a panel, apart from its scale (R220). -/
def rowBytes (fmt : Nat) : Nat := if fmt = 10 ∨ fmt = 11 ∨ fmt = 12 then 2 * ibBytes fmt else 32

/-- Whether a format's panels hold scale bytes (R220). -/
def scaled (fmt : Nat) : Bool := fmt == 7 || fmt == 8 || fmt == 9

/-- The size of a panel of `n` rows or columns in scratchpad (R220). -/
def panelSize (fmt n : Nat) : Nat := n * (rowBytes fmt + (scaled fmt).toNat)

/-- The combinations of R222: whether the tile is INT32, and the unit cycles of a step. -/
def comboOf (fa fb : Nat) : Option (Bool × Nat) :=
  let ib := fun (f : Nat) => f == 10 || f == 11 || f == 12
  let fp8 := fun (f : Nat) => f == 7 || f == 8
  if (fa = 9 ∧ fb = 9) ∨ (fp8 fa ∧ fp8 fb) then some (false, 32)
  else if fa = 11 ∧ fb = 11 then some (false, 16)
  else if fa = 12 ∧ fb = 12 then some (false, 8)
  else if ib fa ∧ ib fb ∧ (fa = 10 ∨ fb = 10) then some (false, 32)
  else if (fa = 0 ∨ fa = 1) ∧ fb = 0 then some (true, 32)
  else none

/-- The groups of a table: first row, rows and B word of each (R228). -/
def groupsOf : Nat → List Word → List (Nat × Nat × Word)
  | _, [] => []
  | r, w :: t => (r, bits w.toNat 38 32, BitVec.ofNat 64 (bits w.toNat 31 0)) :: groupsOf (r + bits w.toNat 38 32) t

/-- The groups of a table that own a row at all. -/
def liveGroups (table : List Word) : List (Nat × Nat × Word) := (groupsOf 0 table).filter (fun g => g.2.1 != 0)

/-- The format of a source: its stream's, or its operand word's (R219, R221). -/
def State.sourceFmt (s : State) (core x : Nat) (a : Src) (w : Word) : Nat :=
  if streamed a then ((s.ctx core x).stream (a.f.toNat % 16)).fmt else opFmt w

/-- The steps that a product makes with one B word (R219, R221). -/
def Product.stepsOf (f : Product) (va vb : Word) : Nat :=
  if !streamed f.a then opKb va + 1 else if !streamed f.b then opKb vb + 1 else 1

/-- The B words a product uses with the rows each serves (R227, R228). -/
def Product.runs (f : Product) (vb : Word) (table : List Word) : List (Nat × Nat × Word) :=
  if f.grouped then ((liveGroups table).filter (fun g => g.1 < 64)).map (fun g => (g.1, Nat.min (g.1 + g.2.1) 64, g.2.2))
  else [(0, 64, vb)]

/-- The tile rows that a product writes: all of them where it begins at zero, else those that its groups own (R227, R228). -/
def Product.rows (f : Product) (vb : Word) (table : List Word) : List Nat :=
  if !f.acc then List.range 64
  else (List.range 64).filter (fun r => (f.runs vb table).any (fun g => decide (g.1 ≤ r ∧ r < g.2.1)))

/-- A unit step of a product: the rows it writes, its B word and its step number. -/
structure UnitStep where
  lo : Nat
  hi : Nat
  b : Word
  k : Nat
  deriving DecidableEq, Repr

/-- The formats with which a product runs a step, B's own word naming that of a group (R221, R228). -/
def UnitEntry.formats (e : UnitEntry) (f : Product) (b : Word) : Nat × Nat := (e.fmts.1, if f.grouped then opFmt b else e.fmts.2)

/-- All unit steps of a product, in order. -/
def Product.plan (f : Product) (va vb : Word) (table : List Word) : List UnitStep :=
  (f.runs vb table).flatMap (fun g => (List.range (f.stepsOf va g.2.2)).map (fun k => ⟨g.1, g.2.1, g.2.2, k⟩))

/-! ## Checks at issue and at handing -/

/-- The check of a local extent of the unit: 0x21 for a misaligned address or a register window, else R57's (R219). -/
def State.extentBad (s : State) (core x : Nat) (v : Word) (n align : Nat) : Option Byte :=
  match localOf v with
  | none => some 0x49
  | some a =>
    if a % align ≠ 0 ∨ (a < 0xA8_0000 ∧ 0xA0_0000 < a + n) then some 0x21
    else s.localFault core x a n

/-- The first cause of a list of checks. -/
def firstOf : List (Option Byte) → Option Byte
  | [] => none
  | some c :: _ => some c
  | none :: t => firstOf t

/-- A cause where a test fails. -/
def orCause (ok : Bool) (c : Byte) : Option Byte := if ok then none else some c

/-- The malformed operand words (R219). -/
def wordBad (w : Word) (kbZero : Bool) : Option Byte :=
  orCause (opAddr w % 64 == 0 && opFmt w != 15 && (!kbZero || opKb w == 0)) 0x21

/-- The bytes of a group table at its address (R228). -/
def State.groupTable (s : State) (core x : Nat) (vb : Word) : List Word :=
  let b := (s.localBytes core x ((localOf vb).getD 0) 128).1
  (List.range 16).map (fun g => BitVec.ofNat 64 (field b (8 * g) 8))

/-- Whether a group table is malformed by itself: a reserved field, or B formats that differ (R228). -/
def tableBad (table : List Word) : Bool :=
  table.any (fun w => bits w.toNat 63 39 != 0) ||
    (liveGroups table).any (fun g => (liveGroups table).any (fun h => opFmt g.2.2 != opFmt h.2.2))

/-- Whether a stream source's scales fit its format: an FP8 stream needs SCL (R221). -/
def State.streamScaleOk (s : State) (core x : Nat) (a : Src) : Bool :=
  let q := (s.ctx core x).stream (a.f.toNat % 16)
  !streamed a || !(q.fmt == 7 || q.fmt == 8) || q.scl

/-- The checks of the operands of a product (R219-R222, R225, R228): the words, the table, the combination, the extents,
the budget. The table is absent where its bytes are poisoned. -/
def State.productBad (s : State) (core x : Nat) (f : Product) (va vb : Word) (table : List Word) : Option Byte :=
  let bs := if f.grouped then (liveGroups table).map (·.2.2) else [vb]
  let fa := s.sourceFmt core x f.a va
  let fb := fun (w : Word) => s.sourceFmt core x f.b w
  let plainB := f.grouped || !streamed f.b
  let extent := fun (w : Word) (fmt n k : Nat) => s.extentBad core x (BitVec.ofNat 64 (opAddr w)) (k * panelSize fmt n) 64
  firstOf (
    [if streamed f.a then none else wordBad va false] ++
    [if f.grouped then orCause (!tableBad table) 0x24 else none] ++
    (if plainB then bs.map (fun w => wordBad w (!streamed f.a)) else []) ++
    [orCause (s.streamScaleOk core x f.a && s.streamScaleOk core x f.b) 0x20] ++
    bs.map (fun w => orCause (comboOf fa (if f.grouped then opFmt w else fb w)).isSome 0x20) ++
    [if streamed f.a then none else extent va fa 64 (opKb va + 1)] ++
    (if plainB then bs.map (fun w => extent w (opFmt w) 128 (f.stepsOf va w)) else []) ++
    [orCause (decide ((s.ctx core x).stepCount + (f.plan va vb table).length ≤ 512)) 0x22])

/-- The bytes that a `zst` writes (R230). -/
def zstSize (f : Nat) : Nat := 64 * 128 * (if f = 5 ∨ f = 6 then 2 else 4)

/-- The tiles an instruction names. -/
def tilesOf (i : Instr) : List Nat :=
  match i with
  | .zzero _ t _ => [t.toNat]
  | .zld _ t _ _ => [t.toNat]
  | .zst t _ _ _ => [t.toNat]
  | .zstR t _ _ _ => [t.toNat]
  | .zcvt t u _ _ => [t.toNat, u.toNat]
  | .zacc t u _ => [t.toNat, u.toNat]
  | i => (productOf i).toList.map (·.tile)

/-- Whether the format a `zst` writes exists (R230). -/
def zstFormatOk (i : Instr) : Bool :=
  match i with
  | .zst _ _ f _ => 3 ≤ f.toNat && f.toNat ≤ 6
  | .zstR _ _ f _ => 3 ≤ f.toNat && f.toNat ≤ 6
  | _ => true

/-- The sources of a matrix instruction. -/
def matrixSources (i : Instr) : List Src :=
  match i with
  | .zld _ _ a _ => [a]
  | .zst _ a _ _ => [a]
  | .zstR _ a _ _ => [a]
  | .zcvt _ _ b _ => [b]
  | i => (productOf i).toList.flatMap (fun f => [f.a, f.b])

/-- The first failing check of a matrix instruction with its rank in R109: tile numbers, the heat class, a source that may not be a
stream, then, where the values are there, the operands (R93, R218, R219, R221). -/
def State.matrixBad (s : State) (core x : Nat) (i : Instr) (va vb : Word) (table : List Word) (known : Bool) : Option (Nat × Byte) :=
  let c := s.ctx core x
  let tiles := c.task.elim 0 (fun t => t.tiles.length)
  let own := match i with
    | .zld _ _ _ _ => s.extentBad core x va 32768 64
    | .zst _ _ f _ => s.extentBad core x va (zstSize f.toNat) 64
    | .zstR _ _ f _ => s.extentBad core x va (zstSize f.toNat) 64
    | i => (productOf i).bind (fun f =>
        if f.grouped then (s.extentBad core x vb 128 128).or (s.productBad core x f va vb table)
        else s.productBad core x f va vb table)
  if !(tilesOf i).all (fun t => decide (t < tiles)) then some (12, 0x0E)
  else if s.heatOf core x = 0 then some (13, 0x23)
  else if (matrixSources i).any peeks ∨ (productOf i).any (fun f => f.grouped && streamed f.b) then some (13, 0x21)
  else if !zstFormatOk i then some (13, 0x20)
  else if known then own.map (fun c => (13, c)) else none

/-- The queue entry of a matrix instruction (R216, R225). -/
def State.matrixEntry (s : State) (core x : Nat) (word : BitVec 32) (i : Instr) (va vb : Word) (table : List Word) (follow : Bool) : UnitEntry :=
  { word := word, a := va, b := vb, table := table,
    steps := (productOf i).elim 0 (fun f => (f.plan va vb table).length),
    streams := (productOf i).elim [] (fun f => [f.a, f.b].filterMap (fun a =>
      if streamed a then some (a.f.toNat % 16) else none)),
    fmts := (productOf i).elim (0, 0) (fun f => (s.sourceFmt core x f.a va, s.sourceFmt core x f.b vb)),
    closed := [], done := 0, follow := follow, arrival := s.cycle }

/-- The word of the slot, or the instruction's own encoding where it is run by itself. -/
def State.wordFor (s : State) (i : Instr) : BitVec 32 :=
  if s.iss.words.isEmpty then BitVec.ofNat 32 ((encode i).getD 0) else s.thisWord

/-- A context with an entry in its matrix queue: the steps are counted, and a `zst.r` clears the count (R225) and is a
save point of a victim (R332). -/
def Ctx.joinMatrix (c : Ctx) (e : UnitEntry) (retires : Bool) (reason : Nat) : Ctx :=
  { c with
    mq := c.mq ++ [e]
    stepCount := if retires then 0 else c.stepCount + e.steps
    save := match c.save with
      | .awaited t => if retires then .stopped reason else .awaited t
      | p => p }

/-- Issue of a matrix instruction (R216-R230): its checks, the wait for a full queue, its entry. A group table is read
at issue, with a stall of 1 cycle; one whose bytes are poisoned is consumed and the instruction goes no further. DEDUCED: the read
waits for the reservation table as R61 has the reads of a bundle wait, and its contents are judged after that wait (assumption 150). -/
def matrixIssue (i : Instr) (s : State) : Out :=
  let grouped := (productOf i).any (·.grouped)
  let at' := fun (vb : Word) => (localOf vb).getD 0
  let read := fun (s : State) (vb : Word) => grouped && (s.localFault s.cur s.x (at' vb) 128).isNone
  let bad := fun (s : State) (vb : Word) => read s vb && (s.localBytes s.cur s.x (at' vb) 128).2
  let table := fun (s : State) (vb : Word) => if read s vb && !bad s vb then s.groupTable s.cur s.x vb else []
  let retires := match i with
    | .zstR _ _ _ _ => true
    | _ => false
  issuePre (viewOf i)
    (fun s _ => (s.matrixBad s.cur s.x i 0 0 [] false).elim .commit (fun b => stopWith b.1 b.2))
    (fun s x =>
      (if read s (lo64 x.b) then s.hold (at' (lo64 x.b)) 128 else .commit).and
        (match s.matrixBad s.cur s.x i (lo64 x.a) (lo64 x.b) (table s (lo64 x.b)) true with
        | some (rank, c) => stopWith rank c
        | none => if unitQueueDepth ≤ s.me.mq.length then .block .matrixQueue else .commit))
    (fun x s =>
      let t := table s (lo64 x.b)
      let e := s.matrixEntry s.cur s.x (s.wordFor i) i (lo64 x.a) (lo64 x.b) t false
      let s := if grouped then s.stallFor 1 else s
      if bad s (lo64 x.b) then s.consumed else s.upd (fun c => c.joinMatrix e retires s.saveReason)) s

/-- `tmma` (R227). -/
def execTmma (o : KAB) (s : State) : Out := matrixIssue (.tmma o) s
/-- `tmma.z` (R227). -/
def execTmmaZ (o : KAB) (s : State) : Out := matrixIssue (.tmmaZ o) s
/-- `tmmg` (R228). -/
def execTmmg (o : KAB) (s : State) : Out := matrixIssue (.tmmg o) s
/-- `tmmg.z` (R228). -/
def execTmmgZ (o : KAB) (s : State) : Out := matrixIssue (.tmmgZ o) s
/-- `zzero` (R229). -/
def execZzero (e : Bool) (t : BitVec 4) (p : BitVec 2) (s : State) : Out := matrixIssue (.zzero e t p) s
/-- `zld` (R229). -/
def execZld (e : Bool) (t : BitVec 4) (a : Src) (p : BitVec 2) (s : State) : Out := matrixIssue (.zld e t a p) s
/-- `zst` (R230). -/
def execZst (t : BitVec 4) (a : Src) (f : BitVec 4) (p : BitVec 2) (s : State) : Out := matrixIssue (.zst t a f p) s
/-- `zst.r` (R225, R230). -/
def execZstR (t : BitVec 4) (a : Src) (f : BitVec 4) (p : BitVec 2) (s : State) : Out := matrixIssue (.zstR t a f p) s
/-- `zcvt` (R229). -/
def execZcvt (t u : BitVec 4) (b : Src) (p : BitVec 2) (s : State) : Out := matrixIssue (.zcvt t u b p) s
/-- `zacc` (R229). -/
def execZacc (t u : BitVec 4) (p : BitVec 2) (s : State) : Out := matrixIssue (.zacc t u p) s

/-! ## Late faults of the unit -/

/-- A late fault of the matrix unit (R226): the instruction writes nothing, the later ones of its context are discarded
with their steps, and 0x47 unwinds an open region. -/
def State.matrixFault (s : State) (core x : Nat) (e : UnitEntry) (cause : Byte) : State :=
  let s := s.updCtx core x (fun c => { c with mq := [], stepCount := c.stepCount - c.mq.foldl (fun n e => n + e.steps) 0 })
  let s := s.updCore core (fun k => { k with matrix := none, matrixLast := x, matrixEnd := some s.cycle })
  s.agentFault core x cause 6 0 (e.word.setWidth 64) 1

/-! ## Follow-ons -/

/-- The instruction of a follow-on word; its stop bit is ignored (R51). -/
def followInstr (w : BitVec 32) : Instr :=
  match decodeWord (w.toNat % 2 ^ 31) with
  | .ok i => i
  | .error _ => .nop

/-- Whether a ferry queue's head command can hand its follow-on: the matrix queue has room, and a group table's banks
are free (R51, R61, R216). -/
def State.followReady (s : State) (core q : Nat) : Bool :=
  let x := q / 2
  let c := s.ctx core x
  match c.ferryHead (q % 2) with
  | some f => c.task.isSome && f.handing && decide (c.mq.length < unitQueueDepth) &&
      !((productOf (followInstr f.mword)).any (·.grouped) && s.reserved core (s.banksOf core x (f.mopb.toNat) 128))
  | none => false

/-- FOLLOW_ON_HANDOFF (R51): the word joins the matrix queue of its context, or raises a late fault of the unit. -/
def execFollowOnHandoff (core q : Nat) (s : State) : Out :=
  let x := q / 2
  if !s.followReady core q then .next s
  else match (s.ctx core x).ferryHead (q % 2) with
    | none => .next s
    | some f =>
      let i := followInstr f.mword
      let va := f.mopa.setWidth 64
      let vb := f.mopb.setWidth 64
      let grouped := (productOf i).any (·.grouped) && (s.localFault core x f.mopb.toNat 128).isNone
      let bad := grouped && (s.localBytes core x f.mopb.toNat 128).2
      let table := if grouped && !bad then s.groupTable core x vb else []
      let e := s.matrixEntry core x f.mword i va vb table true
      .next ((match s.matrixBad core x i va vb table true with
        | some (_, c) => s.lateFault core x c 6 0 (f.mword.setWidth 64) 1
        | none => if bad then s.poisoned core x 6 0 (f.mword.setWidth 64) 1
            else s.updCtx core x (fun c => c.joinMatrix e false 0)).popFerry core x (q % 2))

/-! ## The ramp limiter -/

/-- The window of a cycle (R316). -/
def rampWindow (cycle : Nat) : Nat := cycle / 1900

/-- An island's limiter; one that has counted nothing is in the present window. -/
def State.rampNow (s : State) (n : Nat) : Ramp :=
  let r := s.ramp n
  if r.count = 0 ∧ r.last = 0 ∧ r.dummies = 0 ∧ r.dummiesLast = 0 then { r with window := rampWindow s.cycle } else r

/-- Whether the rise bound allows units in the window (R317). -/
def Ramp.allows (r : Ramp) (units : Nat) : Bool := decide (r.count + units ≤ r.last + r.step.toNat)

/-- Whether a core's step may start now: the window is the present one, and the task is exempt, or the rise bound keeps and
no core that asked earlier could start instead (R317). -/
def State.rampFits (s : State) (core units : Nat) (exempt : Bool) : Bool :=
  let r := s.rampNow (coreIsland core)
  r.window == rampWindow s.cycle &&
    (exempt || (r.allows units && (r.waiting.takeWhile (fun w => w.1 != core)).all (fun w => !r.allows w.2)))

/-- Counts the units of a core that start (R316); the core waits no longer. -/
def State.rampCount (s : State) (core units : Nat) : State :=
  s.updRamp (coreIsland core) (fun _ => let r := s.rampNow (coreIsland core)
    { r with count := r.count + units, waiting := r.waiting.filter (fun w => w.1 != core) })

/-- Whether a window needs dummy steps (R317, fall): its count is below the floor when its last cycle is over; a power failure or a
fatal fault stops them (R356, R358). DESIGN CHOICE: they are counted then, on the first core in service, for the cycles in which units
of the island were idle (assumption 45): which units and cycles they use is not visible. -/
def State.dummyWanted (s : State) (n : Nat) : Bool :=
  let r := s.rampNow n
  !s.regs.failing && !s.regs.fatal && decide (r.window < rampWindow s.cycle) && decide (r.count + r.step.toNat < r.last)

/-- Whether a core's matrix unit is idle. -/
def State.unitIdle (s : State) (core : Nat) : Bool :=
  (s.core core).matrix.isNone && (s.core core).fallback.isNone && !(s.core core).fusedOff

/-- Whether a core's matrix unit can have run dummy steps. -/
def State.dummyUnit (s : State) (core : Nat) : Bool := !(s.core core).fusedOff

/-- DUMMY_STEP (R232, R317): a dummy step counts 8 units and one in its performance counter, and nothing else. -/
def execDummyStep (core : Nat) (s : State) : Out :=
  let n := coreIsland core
  if !(s.dummyWanted n && s.dummyUnit core) then .next s
  else .next (((s.rampCount core 8).updRamp n (fun r => { r with dummies := r.dummies + 1 })).count n 1 1)

/-- Whether a window of an island has ended with all its dummy steps run. -/
def State.windowOver (s : State) (n : Nat) : Bool :=
  decide ((s.rampNow n).window < rampWindow s.cycle) &&
    !(s.dummyWanted n && (List.range 16).any (fun i => s.dummyUnit (islandCore n i)))

/-- RAMP_WINDOW_END (R316). -/
def execRampWindowEnd (island : Nat) (s : State) : Out :=
  if !s.windowOver island then .next s
  else .next (s.updRamp island (fun r => { r with
    window := r.window + 1, last := r.count, count := 0, dummiesLast := r.dummies, dummies := 0 }))

/-! ## Starting -/

/-- A row of an accumulator tile; one whose written bit is clear reads as zero (R58). -/
def State.accRow (s : State) (core tile row : Nat) : AccRow := mget { data := 0, poison := false } s.acc (accKey core tile row)

/-- The physical tile of a task's tile (R93). -/
def State.physTile (s : State) (core x z : Nat) : Nat := (s.ctx core x).task.elim 0 (fun t => t.tiles.getD z 0)

/-- Whether a tile holds INT32 (R226). -/
def State.tagOf (s : State) (core tile : Nat) : Bool := mget false s.ztag (16 * core + tile)

/-- The rows that an instruction reads: tile and row of each. -/
def tileRowsRead (i : Instr) (e : UnitEntry) : List (Nat × Nat) :=
  let all := fun (t : BitVec 4) => (List.range 64).map (fun r => (t.toNat, r))
  match i with
  | .zst t _ _ _ => all t
  | .zstR t _ _ _ => all t
  | .zcvt _ u _ _ => all u
  | .zacc t u _ => all t ++ all u
  | i => (productOf i).toList.flatMap (fun f => if f.acc then (f.rows e.b e.table).map (fun r => (f.tile, r)) else [])

/-- The type of a product's combination; with no group to make one, A's format decides (R222, R228). -/
def UnitEntry.int (e : UnitEntry) (f : Product) : Bool :=
  match f.grouped, liveGroups e.table with
  | true, [] => e.fmts.1 == 0 || e.fmts.1 == 1
  | true, g :: _ => (comboOf e.fmts.1 (opFmt g.2.2)).elim false (·.1)
  | false, _ => (comboOf e.fmts.1 e.fmts.2).elim false (·.1)

/-- A `zst` format that has a conversion for the tag (R230). -/
def zstFits (int : Bool) (f : Nat) : Bool := if int then f == 3 || f == 4 else f == 4 || f == 5 || f == 6

/-- The checks made when the unit starts an instruction: closed streams, tags and poisoned tile rows (R226, R229, R230, R378). -/
def State.startBad (s : State) (core x : Nat) (i : Instr) (e : UnitEntry) : Option Byte :=
  let tag := fun (z : Nat) => s.tagOf core (s.physTile core x z)
  let types := match i with
    | .zst t _ f _ => orCause (zstFits (tag t.toNat) f.toNat) 0x25
    | .zstR t _ f _ => orCause (zstFits (tag t.toNat) f.toNat) 0x25
    | .zacc t u _ => orCause (tag t.toNat == tag u.toNat) 0x25
    | i => (productOf i).bind (fun f => orCause (!f.acc || tag f.tile == e.int f) 0x25)
  let bad := (tileRowsRead i e).any (fun p => (s.accRow core (s.physTile core x p.1) p.2).poison)
  firstOf [orCause e.closed.isEmpty 0x33, types, orCause (!bad) 0x47]

/-- Whether the distributor awaits the retirement of a context's task (R225, R317): from the request until the save, and not for
a task that escalates (R332). -/
def Ctx.isAwaited (c : Ctx) : Bool :=
  match c.save with
  | .awaited _ => true
  | .stopped r => r != 1
  | .no => false

/-- The context whose instruction the unit starts next: a victim that the distributor awaits, then round-robin from the
context served last (R216, R332). An instruction starts no earlier than the cycle after it joined (R217). -/
def State.nextMatrix (s : State) (core : Nat) : Option Nat :=
  let rr := (List.range 4).map (fun k => ((s.core core).matrixLast + 1 + k) % 4)
  let can := fun (x : Nat) =>
    let c := s.ctx core x
    c.task.isSome && (match c.mq.head? with
      | some e => decide (e.arrival < s.cycle)
      | none => false)
  (rr.filter (fun x => (s.ctx core x).isAwaited) ++ rr).find? can

/-- Whether an array waits for the unit at its next instruction boundary (R239). -/
def State.fallbackWaits (s : State) (core : Nat) : Bool :=
  (List.range 16).any (fun a => (s.array (16 * core + a)).busy.any (fun b => b.fallback && !b.released)) && (s.core core).fallback.isNone

/-- Whether the unit can start an instruction: it is idle, and no instruction has ended in this cycle (R216, R217). -/
def State.matrixCanStart (s : State) (core : Nat) : Bool :=
  s.unitIdle core && !s.fallbackWaits core && (s.core core).matrixEnd != some s.cycle && (s.nextMatrix core).isSome

/-- Changes what the unit is doing. -/
def State.setMatrix (s : State) (core : Nat) (m : MatrixBusy) : State := s.updCore core (fun k => { k with matrix := some m })

/-- A panel with nothing gathered. -/
def Panel.empty : Panel := { bytes := [], scales := [], full := false }

/-- The rows a product works on as it starts: the tile's own, or zeros (R227). -/
def State.workRows (s : State) (core tile : Nat) (keep : Bool) : Map Vec :=
  if keep then (List.range 64).map (fun r => (r, (s.accRow core tile r).data)) else (List.range 64).map (fun r => (r, 0))

/-- MATRIX_INSTRUCTION_START (R216, R217, R226). -/
def execMatrixInstructionStart (core : Nat) (s : State) : Out :=
  if !s.matrixCanStart core then .next s
  else match s.nextMatrix core with
    | none => .next s
    | some x => match (s.ctx core x).mq with
      | [] => .next s
      | e :: t =>
        let s := s.updCtx core x (fun c => { c with mq := t })
        match s.startBad core x e.instr e with
        | some c => .next (s.matrixFault core x e c)
        | none =>
          let work := (productOf e.instr).elim [] (fun f => s.workRows core (s.physTile core x f.tile) f.acc)
          .next (s.setMatrix core { x := x, entry := e, step := 0, free := s.cycle, flags := 0, sat := 0, work := work
                                    pa := Panel.empty, pb := Panel.empty })

/-! ## The arithmetic of a step (R223) -/

/-- A block of a panel row: whether it is a NaN block, its scale as a power of two, and its elements (R119-R122). -/
structure Block where
  nan : Bool
  scale : Int
  vals : List Num
  deriving DecidableEq, Repr

/-- The blocks of a panel row: one of 32 elements, or two of 16 for the IB formats (R220, R223). -/
def blocksOf (fmt : Nat) (b : List Byte) (sc : Byte) : List Block :=
  if fmt = 10 ∨ fmt = 11 ∨ fmt = 12 then
    (List.range 2).map (fun j =>
      let v := field b (j * ibBytes fmt) (ibBytes fmt)
      let w := ibBits fmt
      { nan := v % 256 == 255, scale := ((v % 256 : Nat) : Int) - 127 - ((w : Int) - 1),
        vals := (List.range 16).map (fun k =>
          .fin (v.testBit (16 + (w + 1) * k + w)) (bits v (16 + (w + 1) * k + w - 1) (16 + (w + 1) * k))
            (-(bits v (8 + k / 2) (8 + k / 2) : Int))) })
  else if fmt = 9 then [{ nan := sc == 0xFF, scale := (sc.toNat : Int) - 133, vals := (b.take 32).map (fun p => Num.ofInt p.toInt 0) }]
  else if fmt = 7 ∨ fmt = 8 then
    [{ nan := sc == 0xFF, scale := (sc.toNat : Int) - 127,
       vals := (b.take 32).map (fun p => (if fmt = 7 then fpE4m3 else fpE5m2).unpack p.toNat) }]
  else [{ nan := false, scale := 0, vals := (b.take 32).map (fun p => Num.ofInt (if fmt = 1 then (p.toNat : Int) else p.toInt) 0) }]

/-- An exact sum of products: in units of `2^-64`, with what NaNs and infinities it met. -/
structure Dot where
  nan : Bool
  nv : Bool
  pos : Bool
  neg : Bool
  sum : Int
  deriving DecidableEq, Repr

/-- Adds one product. -/
def Dot.add (d : Dot) (x y : Num) : Dot :=
  match prodOf x y with
  | none => { d with nan := true, nv := true }
  | some (.nan _) => { d with nan := true, nv := d.nv || x == .nan true || y == .nan true }
  | some (.inf n) => if n then { d with neg := true } else { d with pos := true }
  | some (.fin n m e) =>
    let v : Int := (m * 2 ^ (e + 64).toNat : Nat)
    { d with sum := if n then d.sum - v else d.sum + v }

/-- The exact sum of the products of two blocks. -/
def dotOf (a b : List Num) : Dot :=
  (a.zip b).foldl (fun d p => d.add p.1 p.2) { nan := false, nv := false, pos := false, neg := false, sum := 0 }

/-- The partial of two blocks in FP32 (R223). -/
def partOf (a b : Block) : Nat × Flags :=
  if a.nan || b.nan then (fp32.nan, 0)
  else
    let d := dotOf a.vals b.vals
    if d.nan || (d.pos && d.neg) then fp32.quiet (d.nv || (d.pos && d.neg))
    else if d.pos || d.neg then (fp32.infinity d.neg, 0)
    else fp32.rnd .rne (decide (d.sum < 0)) d.sum.natAbs (a.scale + b.scale - 64)

/-- An INT32 result saturated, and whether it was (R223). -/
def sat32 (i : Int) : Lane × Nat :=
  if i < -2147483648 then (0x8000_0000, 1) else if 2147483647 < i then (0x7FFF_FFFF, 1) else (BitVec.ofInt 32 i, 0)

/-- One element of a step: the new value, its flags and whether it saturated. -/
def stepElem (int : Bool) (a b : List Block) (z : Lane) : Lane × Flags × Nat :=
  if int then
    let p := (a.zip b).foldl (fun (n : Int) q => n + (dotOf q.1.vals q.2.vals).sum / 2 ^ 64) 0
    let r := sat32 (z.toInt + p)
    (r.1, 0, r.2)
  else
    (a.zip b).foldl (fun (r : Lane × Flags × Nat) q =>
      let p := partOf q.1 q.2
      let t := fp32.add .rne r.1.toNat p.1
      (BitVec.ofNat 32 t.1, r.2.1 ||| p.2 ||| t.2, 0)) (z, 0, 0)

/-- The vector whose lanes a list gives. -/
def ofLaneList (l : List Lane) : Vec := BitVec.ofNat 4096 (l.foldr (fun v n => v.toNat + 4294967296 * n) 0)

/-- The lanes of a vector, in order. -/
def lanesOf (v : Vec) : List Lane := (List.range 128).map (lane v)

/-- The blocks of row `r` of a panel. -/
def Panel.rowBlocks (p : Panel) (fmt r : Nat) : List Block :=
  blocksOf fmt ((p.bytes.drop (rowBytes fmt * r)).take (rowBytes fmt)) (p.scales.getD r 0)

/-- One step over rows `lo` to `hi - 1` of a tile, all columns (R223). -/
def stepRows (int : Bool) (fa fb lo hi : Nat) (pa pb : Panel) (work : Map Vec) : Map Vec × Flags × Nat :=
  let cols := (List.range 128).map (pb.rowBlocks fb)
  (List.range (hi - lo)).foldl (fun (w : Map Vec × Flags × Nat) k =>
    let r := lo + k
    let a := pa.rowBlocks fa r
    let out := (cols.zip (lanesOf (mget 0 w.1 r))).map (fun p => stepElem int a p.1 p.2)
    (mset w.1 r (ofLaneList (out.map (·.1))), out.foldl (fun f o => f ||| o.2.1) w.2.1, out.foldl (fun n o => n + o.2.2) w.2.2))
    (work, 0, 0)

/-! ## Gathering panels and stepping -/

/-- What gathering operand bytes comes to. -/
inductive Gather where
  | wait
  | fault (c : Byte)
  | more (p : Panel) (s : State)

/-- Takes bytes of a stream for a panel (R221): up to the end of the head entry, which is popped when its last byte is
taken. -/
def State.gatherStream (s : State) (core x k fmt n : Nat) (closed : List Nat) (p : Panel) : Gather :=
  let q := (s.ctx core x).stream k
  let need := n * rowBytes fmt - p.bytes.length
  if closed.contains k then .fault 0x33
  else match q.entries.head? with
    | none => .wait
    | some e =>
      let o := q.consumed
      let m := Nat.min need (512 - o)
      if (List.range ((o + m - 1) / 64 - o / 64 + 1)).any (fun i => e.poison.getLsbD (o / 64 + i)) then .fault 0x47
      else
        let sc := ((List.range 16).filter (fun i => decide (o ≤ 32 * i) && decide (32 * i < o + m))).map (byteOf e.scales)
        let s := if o + m = 512 then s.popHead core x k
          else s.updCtx core x (fun c => c.setStream k { q with consumed := o + m })
        .more { bytes := p.bytes ++ ((vecBytes e.data).drop o).take m, scales := p.scales ++ sc, full := m == need } s

/-- Reads a panel from scratchpad, once no engine command holds its banks (R220, R231). DEDUCED: the whole panel is read, so poison in
a row that no group of the step uses is consumed too (assumption 150). -/
def State.gatherWord (s : State) (core x a fmt n : Nat) : Gather :=
  let size := panelSize fmt n
  if s.reserved core (s.banksOf core x a size) then .wait
  else
    let b := s.localBytes core x a size
    if b.2 then .fault 0x47
    else .more { bytes := b.1.take (n * rowBytes fmt), scales := b.1.drop (n * rowBytes fmt), full := true } s

/-- Gathers bytes of one operand for the present unit step. -/
def State.gather (s : State) (core : Nat) (m : MatrixBusy) (a : Src) (w : Word) (fmt k n : Nat) (p : Panel) : Gather :=
  if streamed a then s.gatherStream core m.x (a.f.toNat % 16) fmt n m.entry.closed p
  else s.gatherWord core m.x (opAddr w + k * panelSize fmt n) fmt n

/-- The tile rows that an instruction other than a product writes or stores, one in a cycle; `zzero` writes its tile in one (R217). -/
def unitRows (i : Instr) : Nat :=
  match i with
  | .zzero _ _ _ => 1
  | i => if (productOf i).isSome then 0 else 64

/-- The bytes that a `zst` writes for one row (R230). -/
def zstRow (f : BitVec 4) : Nat := zstSize f.toNat / 64

/-- The local bytes of the next row of a tile instruction: a `zld` reads all of its extent before its first row, and a `zst` writes a
row. -/
def UnitEntry.rowExtent (e : UnitEntry) (r : Nat) : Nat × Nat :=
  let a := (localOf e.a).getD 0
  match e.instr with
  | .zld _ _ _ _ => (a, if r = 0 then 32768 else 0)
  | .zst _ _ f _ => (a + zstRow f * r, zstRow f)
  | .zstR _ _ f _ => (a + zstRow f * r, zstRow f)
  | _ => (0, 0)

/-- What the unit does next. -/
inductive UnitNext where
  | nothing
  | gatherA (f : Product) (u : UnitStep)
  | gatherB (f : Product) (u : UnitStep)
  | step (f : Product) (u : UnitStep)
  | row (r : Nat)

/-- The next thing a busy unit does: for a product, to gather its panels and then to start the step, within the pace of its heat
class and the ramp limiter (R217, R218, R232); for any other instruction, its next row. DEDUCED: A's panel is gathered before B's, also
where both name one stream (assumption 150). -/
def State.unitNext (s : State) (m : MatrixBusy) : UnitNext :=
  if s.cycle < m.free then .nothing
  else match productOf m.entry.instr with
    | none => if m.step < unitRows m.entry.instr then .row m.step else .nothing
    | some f =>
      match (f.plan m.entry.a m.entry.b m.entry.table)[m.step]? with
      | none => .nothing
      | some u => if !m.pa.full then .gatherA f u else if !m.pb.full then .gatherB f u else .step f u

/-- The unit cycles of a step of a product. -/
def MatrixBusy.stepCycles (m : MatrixBusy) (f : Product) (u : UnitStep) : Nat :=
  let k := m.entry.formats f u.b
  (comboOf k.1 k.2).elim 32 (·.2)

/-- The next gathering of a product's operand. -/
def State.gatherA (s : State) (core : Nat) (m : MatrixBusy) (f : Product) (u : UnitStep) : Gather :=
  s.gather core m f.a m.entry.a m.entry.fmts.1 u.k 64 m.pa

/-- The next gathering of its B operand. -/
def State.gatherB (s : State) (core : Nat) (m : MatrixBusy) (f : Product) (u : UnitStep) : Gather :=
  s.gather core m f.b u.b (m.entry.formats f u.b).2 u.k 128 m.pb

/-- Whether a step is paced away by the warm rule (R218). -/
def State.warmHeld (s : State) (core x : Nat) : Bool := s.heatOf core x == 1 && decide (s.cycle < (s.core core).warmHold)

/-- The units of the step that a core's unit is ready to start and the ramp limiter holds (R317, R368). -/
def State.rampHeld (s : State) (core : Nat) : Option Nat :=
  match (s.core core).matrix with
  | none => none
  | some m => match s.unitNext m with
    | .step f u =>
      let n := m.stepCycles f u / 4
      if !s.warmHeld core m.x && !s.rampFits core n (s.ctx core m.x).isAwaited then some n else none
    | _ => none

/-- Whether a gathering gets anywhere. -/
def Gather.moves : Gather → Bool
  | .wait => false
  | _ => true

/-- Whether MATRIX_STEP has something to do. -/
def State.matrixStepReady (s : State) (core : Nat) : Bool :=
  match (s.core core).matrix with
  | none => false
  | some m => match s.unitNext m with
    | .nothing => false
    | .gatherA f u => (s.gatherA core m f u).moves
    | .gatherB f u => (s.gatherB core m f u).moves
    | .step f u => !s.warmHeld core m.x &&
        s.rampFits core (m.stepCycles f u / 4) (s.ctx core m.x).isAwaited
    | .row r =>
      let p := m.entry.rowExtent r
      !s.reserved core (s.banksOf core m.x p.1 p.2)

/-- A step starts (R217, R218, R223, R316): it is counted, its sums join the working rows, and the unit is taken for
its cycles, the last step with the 24 in which its sums enter the tile. -/
def State.startStep (s : State) (core : Nat) (m : MatrixBusy) (f : Product) (u : UnitStep) : State :=
  let d := m.stepCycles f u
  let k := m.entry.formats f u.b
  let r := stepRows (m.entry.int f) k.1 k.2 u.lo u.hi m.pa m.pb m.work
  let last := m.step + 1 = m.entry.steps
  let s := (s.rampCount core (d / 4)).count (coreIsland core) 0 1
  let s := if s.heatOf core m.x = 1 then s.updCore core (fun k => { k with warmHold := s.cycle + 2 * d }) else s
  s.setMatrix core { m with
    step := m.step + 1, free := s.cycle + d + (if last then 23 else 0), flags := m.flags ||| r.2.1, sat := m.sat + r.2.2,
    work := r.1, pa := Panel.empty, pb := Panel.empty }

/-! ## Rows of the tile instructions -/

/-- Writes rows of a tile (R58). -/
def State.writeRows (s : State) (core tile : Nat) (rows : Map Vec) : State :=
  { s with acc := rows.foldl (fun m r => mset m (accKey core tile r.1) { data := r.2, poison := false }) s.acc }

/-- Sets the type of a tile (R226). -/
def State.setTag (s : State) (core tile : Nat) (int : Bool) : State := { s with ztag := mset s.ztag (16 * core + tile) int }

/-- One element of `zcvt` (R229). -/
def zcvtElem (int : Bool) (scale : Nat) (a : Lane) : Lane × Flags × Nat :=
  let r :=
    if int then
      let y := fp32.unpack scale
      (fp32.nans [y]).getD (match prodOf (Num.ofInt a.toInt 0) y with
        | none => fp32.quiet true
        | some p => fp32.convert .rne p)
    else fp32.mul .rne a.toNat scale
  (BitVec.ofNat 32 r.1, r.2, 0)

/-- One element of `zst`: its bytes and flags (R230). -/
def zstElem (int : Bool) (f : Nat) (a : Lane) : List Byte × Flags :=
  let some' := fun (n : Nat) (r : Nat × Flags) => (bytesOf (BitVec.ofNat (8 * n) r.1) n, r.2)
  if f = 5 then some' 2 (bf16.convert .rne (fp32.unpack a.toNat))
  else if f = 6 then some' 2 (fp16.convert .rne (fp32.unpack a.toNat))
  else if f = 4 ∧ int then some' 4 (fp32.ofInt .rne a.toInt)
  else (bytesOf a 4, 0)

/-- One element of `zacc`: its value, flags and whether it saturated (R229). -/
def zaccElem (int : Bool) (d a : Lane) : Lane × Flags × Nat :=
  if int then let r := sat32 (d.toInt + a.toInt); (r.1, 0, r.2)
  else let r := fp32.add .rne d.toNat a.toNat; (BitVec.ofNat 32 r.1, r.2, 0)

/-- A row whose elements have been computed is written, with the flags and saturations they brought. -/
def State.putRow (s : State) (core : Nat) (m : MatrixBusy) (tile : Nat) (out : List (Lane × Flags × Nat)) : State × MatrixBusy :=
  (s.writeRows core tile [(m.step, ofLaneList (out.map (·.1)))],
    { m with flags := m.flags ||| orFlags (out.map (·.2.1)), sat := m.sat + out.foldl (fun n o => n + o.2.2) 0 })

/-- A row of a `zst` (R230). -/
def State.storeRow (s : State) (core : Nat) (m : MatrixBusy) (tile : Nat) (f : BitVec 4) : State × MatrixBusy :=
  let out := (lanesOf (s.accRow core tile m.step).data).map (zstElem (s.tagOf core tile) f.toNat)
  (s.localStore core m.x (m.entry.rowExtent m.step).1 (out.flatMap (·.1)) [] false,
    { m with flags := m.flags ||| orFlags (out.map (·.2)) })

/-- The effect of row `m.step` of a tile instruction (R217, R229, R230). -/
def State.rowEffect (s : State) (core : Nat) (m : MatrixBusy) : State × MatrixBusy :=
  let z := fun (t : BitVec 4) => s.physTile core m.x t.toNat
  let row := fun (t : BitVec 4) => lanesOf (s.accRow core (z t) m.step).data
  match m.entry.instr with
  | .zzero _ t _ => (s.writeRows core (z t) ((List.range 64).map (fun r => (r, 0))), m)
  | .zld _ t _ _ => (s.writeRows core (z t) [(m.step, mget 0 m.work m.step)], m)
  | .zst t _ f _ => s.storeRow core m (z t) f
  | .zstR t _ f _ => s.storeRow core m (z t) f
  | .zcvt t u _ _ => s.putRow core m (z t) ((row u).map (zcvtElem (s.tagOf core (z u)) (bits m.entry.b.toNat 31 0)))
  | .zacc t u _ => s.putRow core m (z t) (((row t).zip (row u)).map (fun q => zaccElem (s.tagOf core (z t)) q.1 q.2))
  | _ => (s, m)

/-- The rows that a `zld` has read, before its first: whether a byte of them is poisoned (R226, R229). -/
def State.loadRows (s : State) (core : Nat) (m : MatrixBusy) : MatrixBusy × Bool :=
  match m.entry.instr, m.step with
  | .zld _ _ _ _, 0 =>
    let b := s.localBytes core m.x ((localOf m.entry.a).getD 0) 32768
    ({ m with work := (List.range 64).map (fun r => (r, ofVecBytes ((b.1.drop (512 * r)).take 512))) }, b.2)
  | _, _ => (m, false)

/-- The next row of a tile instruction; the next can follow in the next cycle. -/
def State.unitRow (s : State) (core : Nat) (m : MatrixBusy) : State :=
  let l := s.loadRows core m
  if l.2 then s.matrixFault core m.x m.entry 0x47
  else
    let r := s.rowEffect core l.1
    r.1.setMatrix core { r.2 with step := m.step + 1, free := s.cycle + (if m.step + 1 = unitRows m.entry.instr then 0 else 1) }

/-- MATRIX_STEP (R217, R221, R232): the next K step gathers operand bytes, or starts; or the next row of a tile instruction. -/
def execMatrixStep (core : Nat) (s : State) : Out :=
  if !s.matrixStepReady core then .next s
  else match (s.core core).matrix with
    | none => .next s
    | some m => match s.unitNext m with
      | .nothing => .next s
      | .step f u => .next (s.startStep core m f u)
      | .row _ => .next (s.unitRow core m)
      | .gatherA f u => match s.gatherA core m f u with
        | .wait => .next s
        | .fault c => .next (s.matrixFault core m.x m.entry c)
        | .more p s => .next (s.setMatrix core { m with pa := p })
      | .gatherB f u => match s.gatherB core m f u with
        | .wait => .next s
        | .fault c => .next (s.matrixFault core m.x m.entry c)
        | .more p s => .next (s.setMatrix core { m with pb := p })

/-! ## Completion -/

/-- What an instruction leaves in its tile as it completes: a product its rows and the type of a tile it began at zero, a tile
instruction the type of what its rows wrote (R226-R229). -/
def State.finishUnit (s : State) (core : Nat) (m : MatrixBusy) : State :=
  let z := fun (t : BitVec 4) => s.physTile core m.x t.toNat
  match m.entry.instr with
  | .zzero e t _ => s.setTag core (z t) e
  | .zld e t _ _ => s.setTag core (z t) e
  | .zcvt t _ _ _ => s.setTag core (z t) false
  | i => match productOf i with
    | some f =>
      let tile := s.physTile core m.x f.tile
      let rows := f.rows m.entry.b m.entry.table
      (s.writeRows core tile (m.work.filter (fun r => rows.contains r.1))).setTag core tile (m.entry.int f)
    | none => s

/-- The rows that a grouped product drops (R228). -/
def ragOf (table : List Word) : Nat := table.foldl (fun n w => n + bits w.toNat 38 32) 0 - 64

/-- Whether the unit's instruction has all its results. -/
def State.matrixDone (s : State) (core : Nat) : Bool :=
  match (s.core core).matrix with
  | none => false
  | some m => decide (m.free ≤ s.cycle) && decide (m.entry.steps + unitRows m.entry.instr ≤ m.step)

/-- MATRIX_INSTRUCTION_COMPLETE (R217, R224): the last results are in place, the counts and flags are set, and the unit is free. -/
def execMatrixInstructionComplete (core : Nat) (s : State) : Out :=
  if !s.matrixDone core then .next s
  else match (s.core core).matrix with
    | none => .next s
    | some m =>
      let s := (s.finishUnit core m).updCore core (fun k => { k with matrix := none, matrixLast := m.x, matrixEnd := some s.cycle })
      let s := s.updCtx core m.x (fun c => { c with
        mxsat := c.mxsat + BitVec.ofNat 64 m.sat, mxrag := c.mxrag + BitVec.ofNat 64 (ragOf m.entry.table) })
      .next (s.unitFlags core m.x m.flags 6)

end Sys2Proof.Machine
end

