-- ==== Sys2Proof/Machine/Crossbar.lean ====
section
/-! DEFINITION. The shoal crossbars: the reference function and the analogue path, calibration, programming and
checking, the crossbar queue and sequencer, tide checks and the digital fallback (chapter 12 of the spec). -/

namespace Sys2Proof.Machine

/-! ## Arrays -/

/-- The 4-bit code of row `i` in 256 packed codes (R116). -/
def codeAt (v : BitVec 1024) (i : Nat) : Nat := bits v.toNat (4 * i + 3) (4 * i)

/-- 256 codes packed. -/
def packCodes (f : Nat → Nat) : BitVec 1024 := BitVec.ofNat 1024 (packNat 4 f 256)

/-- What a column holds before anything is written to it: a tide column its factory code, any other code 0 (R241, R376;
for a data column the model's choice). -/
def factory (p : Nat) : BitVec 1024 := packCodes (fun _ => if 272 ≤ p then 4 * (p - 272) + 3 else 0)

/-- The cells of a physical column (R234). -/
def XArray.column (a : XArray) (p : Nat) : BitVec 1024 := mget (factory p) a.cells p

/-- The committed codes of a logical column (R240). -/
def XArray.committed (a : XArray) (l : Nat) : BitVec 1024 := mget 0 a.shadow l

/-- The physical column of a logical column (R235). -/
def XArray.phys (a : XArray) (l : Nat) : Nat := mget l a.remap l

/-- The logical column mapped to a physical column, if any. -/
def XArray.owner (a : XArray) (p : Nat) : Option Nat := (List.range 256).find? (fun l => a.phys l == p)

/-- The spares in use: each remapping retires one column (R250). -/
def XArray.spused (a : XArray) : Nat := a.retired.length

/-- The logical columns in PROG (R240). -/
def XArray.progcnt (a : XArray) : Nat := ((List.range 256).filter (fun l => !a.ready.contains l)).length

/-- ARRSTAT (R240). -/
def XArray.status (a : XArray) : Word :=
  BitVec.ofNat 64 (a.avail.toNat + 2 * (a.progcnt == 0).toNat + 4 * a.cal.toNat + 8 * a.calsw.toNat + 16 * a.drift.toNat +
    32 * a.force.toNat + 128 * a.spused + 4096 * a.progcnt + 2 ^ 21 * a.mism + 2 ^ 32 * a.trips + 2 ^ 48 * a.tidedev)

/-- The signed offset of a physical column, in sixteenths (R238). -/
def XArray.offOf (a : XArray) (p : Nat) : BitVec 10 := mget 0 a.off p
/-- The gain of a physical column (R238). -/
def XArray.gainOf (a : XArray) (p : Nat) : BitVec 16 := mget 0x4000 a.gain p
/-- The scale of a logical column (R240). -/
def XArray.scaleOf (a : XArray) (l : Nat) : Lane := mget 0x3F80_0000 a.colScale l

/-- The global number of a core's array (R234). -/
def arrayNo (core k : Nat) : Nat := 16 * core + k

/-! ## Instructions -/

/-- The array an instruction names and the sources it reads. -/
def arrayOf (i : Instr) : Nat :=
  match i with
  | .xmv _ o => o.k.toNat
  | .xload o => o.k.toNat
  | .xprog o => o.k.toNat
  | .xver o => o.k.toNat
  | .xremap o => o.k.toNat
  | .xdrift o => o.k.toNat
  | .xcalMeas k _ => k.toNat
  | .xcalLdsc o => o.k.toNat
  | .xcalLdog o => o.k.toNat
  | .xcalStog o => o.k.toNat
  | .xfb o => o.k.toNat
  | _ => 0

/-- The sources of a crossbar instruction. -/
def xbarSources (i : Instr) : List Src :=
  match i with
  | .xmv _ o => [o.a, o.b]
  | .xload o => [o.a, o.b]
  | .xver o => [o.a, o.b]
  | .xprog o => [o.a]
  | .xremap o => [o.a]
  | .xdrift o => [o.a]
  | .xcalLdsc o => [o.a]
  | .xcalLdog o => [o.a]
  | .xcalStog o => [o.a]
  | .xfb o => [o.a]
  | _ => []

/-- NV of an A word of `xmv` (R246). -/
def xmvCount (va : Word) : Nat := bits va.toNat 29 24 + 1

/-- The check of a local extent of the sequencer: 0x91 for a misaligned address or a register window, else R57's (R245). -/
def State.xbarExtent (s : State) (core x : Nat) (v : Word) (n : Nat) : Option Byte :=
  (s.extentBad core x v n 64).map (fun c => if c = 0x21 then 0x91 else c)

/-- The first failing issue check of a crossbar instruction (R245-R254). -/
def State.xbarBad (s : State) (core x : Nat) (i : Instr) (va vb : Word) : Option Byte :=
  let a := va.toNat
  let b := vb.toNat
  let own := match i with
    | .xmv _ _ => firstOf [orCause (bits a 31 30 == 0 && bits b 31 24 == 0) 0x91,
        s.xbarExtent core x (BitVec.ofNat 64 (bits a 23 0)) (260 * xmvCount va),
        s.xbarExtent core x (BitVec.ofNat 64 (bits b 23 0)) (1024 * xmvCount va)]
    | .xload _ => firstOf [orCause (b < 256) 0x93, s.xbarExtent core x va 128]
    | .xver _ => firstOf [orCause (b < 276) 0x93, s.xbarExtent core x va 320]
    | .xprog _ => orCause (bits a 8 0 < 272 && bits a 12 9 != 0 && a < 8192) 0x93
    | .xremap _ => orCause (a < 256) 0x93
    | .xdrift _ => s.xbarExtent core x va 128
    | .xcalLdsc _ => s.xbarExtent core x va 1024
    | .xcalLdog _ => s.xbarExtent core x va 1104
    | .xcalStog _ => s.xbarExtent core x va 1104
    | .xfb _ => orCause (a < 2) 0x91
    | _ => none
  firstOf [orCause (!(xbarSources i).any streamed) 0x91, orCause (s.array (arrayNo core (arrayOf i))).avail 0x90, own]

/-- The queue entry of a crossbar instruction (R242). -/
def State.xbarEntry (s : State) (i : Instr) (va vb : Word) : UnitEntry :=
  { word := s.wordFor i, a := va, b := vb, table := [], steps := 0, fmts := (0, 0), streams := [], closed := [], done := 0,
    follow := false, arrival := s.cycle }

/-- A context with an entry in its crossbar queue. -/
def Ctx.joinXbar (c : Ctx) (e : UnitEntry) : Ctx := { c with xq := c.xq ++ [e] }

/-- Issue of a crossbar instruction (R242, R245): its checks, the wait for a full queue, its entry. -/
def xbarIssue (i : Instr) (s : State) : Out :=
  issue (viewOf i)
    (fun s x => match s.xbarBad s.cur s.x i (lo64 x.a) (lo64 x.b) with
      | some c => stopWith 13 c
      | none => if unitQueueDepth ≤ s.me.xq.length then .block .crossbarQueue else .commit)
    (fun x s => s.upd (fun c => c.joinXbar (s.xbarEntry i (lo64 x.a) (lo64 x.b)))) s

/-- `xmv` (R246). -/
def execXmv (z : BitVec 2) (o : KAB) (s : State) : Out := xbarIssue (.xmv z o) s
/-- `xload` (R247). -/
def execXload (o : KAB) (s : State) : Out := xbarIssue (.xload o) s
/-- `xprog` (R249). -/
def execXprog (o : KA) (s : State) : Out := xbarIssue (.xprog o) s
/-- `xver` (R248). -/
def execXver (o : KAB) (s : State) : Out := xbarIssue (.xver o) s
/-- `xremap` (R250). -/
def execXremap (o : KA) (s : State) : Out := xbarIssue (.xremap o) s
/-- `xdrift` (R251). -/
def execXdrift (o : KA) (s : State) : Out := xbarIssue (.xdrift o) s
/-- `xcal.meas` (R252). -/
def execXcalMeas (k : BitVec 4) (p : BitVec 2) (s : State) : Out := xbarIssue (.xcalMeas k p) s
/-- `xcal.ldsc` (R252). -/
def execXcalLdsc (o : KA) (s : State) : Out := xbarIssue (.xcalLdsc o) s
/-- `xcal.ldog` (R252). -/
def execXcalLdog (o : KA) (s : State) : Out := xbarIssue (.xcalLdog o) s
/-- `xcal.stog` (R252). -/
def execXcalStog (o : KA) (s : State) : Out := xbarIssue (.xcalStog o) s
/-- `xfb` (R254). -/
def execXfb (o : KA) (s : State) : Out := xbarIssue (.xfb o) s

/-- `xstat` (R253): not queued; ARRSTAT as it stands at issue, without a latch. -/
def execXstat (d : BitVec 5) (k : BitVec 4) (p : BitVec 2) (s : State) : Out :=
  issue (viewOf (.xstat d k p)) noCheck
    (fun _ s => s.deliverAs (.s d.toNat) none 1 (wide (s.array (arrayNo s.cur k.toNat)).status) (BitVec.allOnes 128) 0) s

/-! ## The reference function and the analogue path -/

/-- The summation depth of a sub-operation of `xmv` (R246). -/
def depthOf (z : BitVec 2) : Nat := 16 * 2 ^ z.toNat

/-- The ideal count of a column, group and bit phase (R236). -/
def idealCount (codes : BitVec 1024) (xs : List Byte) (d g k : Nat) : Nat :=
  (List.range d).foldl (fun n i => n + (if (xs.getD (d * g + i) 0).getLsbD k then codeAt codes (d * g + i) else 0)) 0

/-- The weight of a bit phase: `w(k) × 2^k` (R237). -/
def phaseWeight (k : Nat) : Int := if k = 7 then -128 else 2 ^ k

/-- `s` of R237 over the counts of a column. -/
def weigh (counts : Nat → Nat → Nat) (groups : Nat) : Int :=
  (List.range groups).foldl (fun n g => (List.range 8).foldl (fun n k => n + phaseWeight k * (counts g k : Int)) n) 0

/-- `out_j` from the exact integer `y` (R237). -/
def columnOut (y : Int) (cs sin : Lane) : Lane × Flags :=
  let m := fp32.mul .rne (fp32.ofInt .rne y).1 cs.toNat
  let r := fp32.mul .rne m.1 sin.toNat
  (BitVec.ofNat 32 r.1, m.2 ||| r.2)

/-- A raw count corrected with the offset and the gain of its physical column: the offset first, then the gain, rounded to an integer
and kept within `0` and `15 d` (R238). -/
def corrected (raw : Nat) (off : BitVec 10) (gain : BitVec 16) (d : Nat) : Nat :=
  let v : Int := (16 * (raw : Int) - off.toInt) * (gain.toNat : Int)
  let q := v / 262144
  let r := v % 262144
  let n := if 131072 < r ∨ (r = 131072 ∧ q % 2 = 1) then q + 1 else q
  Nat.min n.toNat (15 * d)

/-- The corrected count of a conversion on the analogue path, from a free value (R238). After software calibration it is that of any
raw count; otherwise it is the clipped ideal count with an error of −1, 0 or +1 that stays in range. -/
def analogCount (calsw : Bool) (off : BitVec 10) (gain : BitVec 16) (d c : Nat) (w : Word) : Nat :=
  if calsw then corrected (w.toNat % 512) off gain d
  else
    let t : Int := (c : Int) + ((w.toNat % 3 : Nat) : Int) - 1
    if t < 0 ∨ ((15 * d : Nat) : Int) < t then c else t.toNat

/-- The results of one vector, with flags and the conversions that yielded 511 (R237-R239, R246). On the analogue path the raw counts
are free values; with measured offsets and gains only their corrections are bound, and how many of them are 511 is a free value. -/
def XArray.multiply (a : XArray) (fallback : Bool) (d : Nat) (xs : List Byte) (sin : Lane) (draw : Nat) :
    List Lane × Flags × Nat :=
  let groups := 256 / d
  let total := xs.foldl (fun (n : Int) b => n + b.toInt) 0
  let word := fun j g k => Config.freeWord draw ((j * groups + g) * 8 + k)
  let ideal := fun j g k => idealCount (a.committed j) xs d g k
  let clipped := fun j g k => if fallback then decide (511 ≤ ideal j g k) else (word j g k).toNat % 512 == 511
  let out := (List.range 256).map (fun j =>
    let p := a.phys j
    let counts := fun g k =>
      let c := Nat.min 511 (ideal j g k)
      if fallback then c else analogCount a.calsw (a.offOf p) (a.gainOf p) d c (word j g k)
    let clips := (List.range groups).foldl (fun n g => (List.range 8).foldl (fun n k => n + (clipped j g k).toNat) n) 0
    (columnOut (weigh counts groups - 8 * total) (a.scaleOf j) sin, clips))
  (out.map (·.1.1), orFlags (out.map (·.1.2)),
    if fallback || a.calsw then out.foldl (fun n o => n + o.2) 0
    else (Config.freeWord draw 0x10_0000).toNat % (256 * groups * 8 + 1))

/-! ## Tide checks -/

/-- The corrected counts of a tide check: free raw counts, each corrected with its tide column's own offset and gain (R241). -/
def XArray.tideCounts (a : XArray) (draw : Nat) : List Nat :=
  (List.range 64).map (fun i =>
    corrected ((Config.freeWord draw i).toNat % 512) (a.offOf (272 + i % 4)) (a.gainOf (272 + i % 4)) 16)

/-- The largest deviation of a tide check's counts (R241). -/
def tideDeviation (counts : List Nat) : Nat :=
  (List.range 64).foldl (fun m i =>
    let c := counts.getD i 0
    let e := 16 * (4 * (i % 4) + 3)
    Nat.max m ((c - e) + (e - c))) 0

/-- The outcome of a tide check (R241): DRIFT, TRIPS and TIDEDEV, and a failure is offered to the severity matrix. -/
def State.tideDone (s : State) (n : Nat) (counts : List Nat) (who : Option (Nat × Nat)) : State :=
  let dev := tideDeviation counts
  let bad := 1 < dev
  let s := s.updArray n (fun a => { a with
    drift := decide bad, trips := if bad then Nat.min (a.trips + 1) 0xFFFF else a.trips, tidedev := Nat.min dev 255 })
  let e := ev 0x9E 5 6 n
  if bad then
    match who with
    | some p => (s.reportEvent p.1 p.2 e).1
    | none => s.offer e
  else s

/-- PERIOD of a shoal in cycles (R241, R368). -/
def State.tidePeriod (s : State) (shoal : Nat) : Nat := (mget 1000000#32 s.regs.xdriftp shoal).toNat * 1900

/-- When an array's next automatic check falls due (R241). -/
def State.tideDue (s : State) (n : Nat) : Nat :=
  let h := coreShoal (n / 16)
  ((s.array n).tideDue).getD (mget 0 s.regs.xdriftBase h + s.tidePeriod h)

/-- Whether an automatic check is due on an array and can run: between two instructions (R241). -/
def State.tideReady (s : State) (n : Nat) : Bool :=
  let a := s.array n
  a.avail && s.tidePeriod (coreShoal (n / 16)) != 0 && a.busy.isNone && a.tideEnd.isNone && decide (a.free ≤ s.cycle) &&
    s.regs.hwUp && decide (s.tideDue n ≤ s.cycle)

/-- Whether the check that runs on an array ends. -/
def State.tideOver (s : State) (n : Nat) : Bool := (s.array n).tideEnd.any (fun t => decide (t ≤ s.cycle))

/-- TIDE_CHECK (R241): an automatic check takes the array for 192 cycles; its outcome is there when it completes, and the next falls due
PERIOD after that. -/
def execTideCheck (core arr : Nat) (s : State) : Out :=
  let n := arrayNo core arr
  if s.tideOver n then
    let due := s.cycle + s.tidePeriod (coreShoal core)
    let s := s.updArray n (fun a => { a with tideEnd := none, free := s.cycle, tideDue := some due })
    .next (s.takeFree.tideDone n ((s.array n).tideCounts s.free) none)
  else .next (if s.tideReady n then s.updArray n (fun a => { a with tideEnd := some (s.cycle + 192) }) else s)

/-! ## Starting -/

/-- A late fault of the sequencer (R244): the array is free, the later instructions of the context are discarded, and
0x47 unwinds an open region. -/
def State.xbarFault (s : State) (core x k : Nat) (e : UnitEntry) (cause : Byte) : State :=
  let clip := (s.array (arrayNo core k)).busy.elim 0 (·.clip)
  let s := s.updArray (arrayNo core k) (fun a => { a with busy := none, free := s.cycle })
  let s := s.updCore core (fun c => { c with fallback := c.fallback.bind (fun f => if f.arr = k then none else some f) })
  let s := s.updCtx core x (fun c => { c with xq := [], xbclip := c.xbclip + BitVec.ofNat 64 clip })
  s.agentFault core x cause 7 0 (e.word.setWidth 64) 1

/-- The bytes that an instruction reads as it starts (R247, R252). -/
def xbarReads (i : Instr) : Nat :=
  match i with
  | .xload _ => 128
  | .xcalLdsc _ => 1024
  | .xcalLdog _ => 1104
  | _ => 0

/-- The local address of an operand that passed its checks. -/
def unitAddr (v : Word) : Nat := (localOf v).getD 0

/-- Whether the head crossbar instruction of a context can start (R242, R244). -/
def State.xbarCan (s : State) (core x : Nat) : Bool :=
  let c := s.ctx core x
  match c.xq.head? with
  | none => false
  | some e =>
    let n := arrayNo core (arrayOf e.instr)
    let a := s.array n
    c.task.isSome && !c.save.halted && decide (e.arrival < s.cycle) && a.busy.isNone && decide (a.free ≤ s.cycle) &&
      !s.tideReady n && a.tideEnd.isNone && !s.reserved core (s.banksOf core x (unitAddr e.a) (xbarReads e.instr))

/-- The context whose instruction the sequencer starts next: one in a cycle (R242). -/
def State.nextXbar (s : State) (core : Nat) : Option Nat :=
  if (s.core core).xbarAt = some s.cycle then none
  else ((List.range 4).map (fun k => ((s.core core).xbarLast + 1 + k) % 4)).find? (s.xbarCan core)

/-- The passes of a conversion sequence (R235). -/
def XArray.passes (a : XArray) : Nat := if 0 < a.spused then 5 else 4

/-- The analogue time of `n` vectors (R242). -/
def analogTime (a : XArray) (d n : Nat) : Nat := (19 * n * (256 / d) * 8 * a.passes + 1) / 2

/-- The cycles of an instruction from its start to its completion, an `xmv` apart (R242). -/
def XArray.duration (a : XArray) (i : Instr) (va : Word) : Nat :=
  match i with
  | .xload _ => 64
  | .xremap _ => 64
  | .xver _ => 2472
  | .xprog _ => if mget 0 a.vmask (bits va.toNat 8 0) = 0 then 1 else 1900
  | .xdrift _ => 192
  | .xcalMeas _ _ => 76000
  | .xcalLdsc _ => 32
  | .xcalLdog _ => 32
  | .xcalStog _ => 32
  | _ => 1

/-- A logical column commits to new codes (R247). -/
def XArray.load (a : XArray) (l : Nat) (codes : BitVec 1024) : XArray :=
  { a with shadow := mset a.shadow l codes, shadowBad := a.shadowBad.filter (fun k => k != l),
           ready := a.ready.filter (fun k => k != l), vmask := mset a.vmask (a.phys l) 0,
           pulses := mset a.pulses (a.phys l) 0 }

/-- A logical column moves to the next spare (R250). -/
def XArray.move (a : XArray) (l : Nat) : XArray :=
  let p := 256 + a.spused
  { a with remap := mset a.remap l p, retired := a.retired ++ [a.phys l], ready := a.ready.filter (fun k => k != l),
           vmask := mset (mset a.vmask (a.phys l) 0) p 0, pulses := mset a.pulses p 0 }

/-- The checks of array state that an instruction makes as it starts, and those of what it reads (R246, R250, R252). -/
def State.xbarStartBad (s : State) (core x : Nat) (i : Instr) (e : UnitEntry) : Option Byte :=
  let a := s.array (arrayNo core (arrayOf i))
  let b := s.localBytes core x (unitAddr e.a) (xbarReads i)
  if 0 < xbarReads i ∧ b.2 then some 0x47
  else match i with
    | .xmv _ _ => orCause (a.progcnt == 0 && a.cal) 0x92
    | .xremap _ => orCause (a.spused < 16) 0x94
    | .xcalLdog _ => orCause ((List.range 276).all (fun p => bits (field b.1 (4 * p) 4) 15 10 == 0)) 0x95
    | _ => none

/-- What an instruction does to its array at its start (R247, R250, R254). -/
def State.xbarBegin (s : State) (core x : Nat) (i : Instr) (e : UnitEntry) : State :=
  let n := arrayNo core (arrayOf i)
  match i with
  | .xload _ => s.updArray n (fun a => a.load (bits e.b.toNat 7 0) (ofBytes 1024 (s.localBytes core x (unitAddr e.a) 128).1))
  | .xremap _ =>
    let s := s.updArray n (fun a => a.move (bits e.a.toNat 7 0))
    if (s.array n).spused = 16 then (s.reportEvent core x { ev 0x9F 5 6 n with forced := true }).1 else s
  | .xfb _ => s.updArray n (fun a => { a with force := e.a.getLsbD 0 })
  | _ => s

/-- The depth of an `xmv`. -/
def xmvDepth (i : Instr) : Nat :=
  match i with
  | .xmv z _ => depthOf z
  | _ => 16

/-- The busy record of an instruction that starts (R239, R242). -/
def State.xbarBusy (s : State) (core x : Nat) (i : Instr) (e : UnitEntry) : XbarBusy :=
  let a := s.array (arrayNo core (arrayOf i))
  let b := (s.localBytes core x (unitAddr e.a) (xbarReads i)).1
  let xmv := match i with
    | .xmv _ _ => true
    | _ => false
  let fb := xmv && (a.drift || a.force)
  let one := analogTime a (xmvDepth i) 1 + (if e.done + 1 = xmvCount e.a then 40 else 0)
  { x := x, entry := e, began := s.cycle, first := e.done, flags := 0, clip := 0, fallback := fb, released := false,
    free := s.cycle + (if xmv then one else a.duration i e.a),
    words := (List.range (xbarReads i / 4)).map (fun j => BitVec.ofNat 32 (field b (4 * j) 4)) }

/-- CROSSBAR_INSTRUCTION_START (R242). -/
def execCrossbarInstructionStart (core : Nat) (s : State) : Out :=
  match s.nextXbar core with
  | none => .next s
  | some x => match (s.ctx core x).xq with
    | [] => .next s
    | e :: t =>
      let i := e.instr
      let k := arrayOf i
      let s := (s.updCtx core x (fun c => { c with xq := t })).updCore core (fun c => { c with xbarLast := x, xbarAt := some s.cycle })
      match s.xbarStartBad core x i e with
      | some c => .next (s.xbarFault core x k e c)
      | none =>
        let b := s.xbarBusy core x i e
        .next ((s.xbarBegin core x i e).updArray (arrayNo core k) (fun a =>
          if ((s.xbarBegin core x i e).ctx core x).task.isSome then { a with busy := some b } else a))

/-! ## The fallback's hold on the matrix unit -/

/-- The unit steps of a fallback of `n` vectors: one for each 32 of its 64 + 64n cycles (R239). -/
def fallbackSteps (n : Nat) : Nat := 2 + 2 * n

/-- Vectors of a fallback whose unit steps have all started. -/
def XbarBusy.run (b : XbarBusy) : Nat := b.entry.done - b.first

/-- Whether the vector that an `xmv` works on is its last: of all, or before a save stops it (R244). -/
def State.lastVector (s : State) (core : Nat) (b : XbarBusy) : Bool :=
  b.entry.done + 1 == xmvCount b.entry.a || (s.ctx core b.x).save.halted

/-- Whether a fallback has had all its time on the unit: the unit is given back, and its last outputs follow (R239, R242). -/
def State.fallbackOver (s : State) (core arr : Nat) : Bool :=
  (s.array (arrayNo core arr)).busy.any (fun b => b.fallback && !b.released && s.lastVector core b &&
    (s.core core).fallback.any (fun f => f.arr == arr && f.steps == fallbackSteps (b.run + 1) && decide (f.free ≤ s.cycle)))

/-- Whether a fallback can take the unit, or start its next step on it (R239). -/
def State.fallbackAsks (s : State) (core arr : Nat) : Bool :=
  match (s.array (arrayNo core arr)).busy with
  | none => false
  | some b =>
    b.fallback && !b.released && (match (s.core core).fallback with
      | none => s.unitIdle core
      | some f => f.arr == arr && decide (f.free ≤ s.cycle) && decide (f.steps < fallbackSteps (b.run + 1)))

/-- Whether the task whose `xmv` an array runs is one whose retirement the distributor awaits (R317). -/
def State.fallbackExempt (s : State) (core arr : Nat) : Bool :=
  (s.array (arrayNo core arr)).busy.any (fun b => (s.ctx core b.x).isAwaited)

/-- Whether an array's fallback gives the unit back, or its next 32 unit cycles can start: the ramp limiter treats them as a step (R232,
R239). -/
def State.fallbackReady (s : State) (core arr : Nat) : Bool :=
  s.fallbackOver core arr || (s.fallbackAsks core arr && s.rampFits core 8 (s.fallbackExempt core arr))

/-- The units of the step of a core, of its matrix instruction or of a fallback, that the ramp limiter holds (R317). -/
def State.stepHeld (s : State) (core : Nat) : Option Nat :=
  (s.rampHeld core).or
    (if (List.range 16).any (fun k => s.fallbackAsks core k) && !(List.range 16).any (s.fallbackReady core) then some 8 else none)

/-- DIGITAL_FALLBACK (R239): the unit is taken at an instruction boundary, each 32 cycles of its hold count as a step, and the unit is
free again after the last of them. -/
def execDigitalFallback (core arr : Nat) (s : State) : Out :=
  if !s.fallbackReady core arr then .next s
  else if s.fallbackOver core arr then
    .next ((s.updCore core (fun c => { c with fallback := none })).updArray (arrayNo core arr) (fun a => { a with
      busy := a.busy.map (fun b => { b with released := true, free := s.cycle + 40 }) }))
  else
    let n := ((s.core core).fallback.elim 0 (·.steps)) + 1
    .next ((s.rampCount core 8).updCore core (fun c => { c with
      fallback := some { arr := arr, steps := n, free := s.cycle + 32 } }))

/-! ## Completing -/

/-- The local bytes that the next result of a busy array reads and writes: address and length of each. -/
def XbarBusy.touches (b : XbarBusy) : List (Nat × Nat) :=
  let a := unitAddr b.entry.a
  let v := b.entry.done
  match b.entry.instr with
  | .xmv _ _ =>
    let base := bits b.entry.a.toNat 23 0
    [(base + 256 * v, 256), (base + 256 * xmvCount b.entry.a + 4 * v, 4), (bits b.entry.b.toNat 23 0 + 1024 * v, 1024)]
  | .xver _ => [(a, 320)]
  | .xdrift _ => [(a, 128)]
  | .xcalStog _ => [(a, 1104)]
  | _ => []

/-- Whether an array runs a measurement, which a save abandons (R244). -/
def XbarBusy.measures (b : XbarBusy) : Bool :=
  match b.entry.instr with
  | .xcalMeas _ _ => true
  | _ => false

/-- Whether an array's instruction can deliver its next result (R239, R242, R243); a measurement that a save abandons delivers none
(R244). -/
def State.xbarDone (s : State) (core arr : Nat) : Bool :=
  match (s.array (arrayNo core arr)).busy with
  | none => false
  | some b =>
    (if b.fallback && !b.released then
        !s.lastVector core b && (s.core core).fallback.any (fun f => f.arr == arr && f.steps == fallbackSteps (b.run + 1) &&
          decide (f.free ≤ s.cycle))
      else decide (b.free ≤ s.cycle)) &&
      !(b.measures && (s.ctx core b.x).save.halted) &&
      b.touches.all (fun t => !s.reserved core (s.banksOf core b.x t.1 t.2))

/-- The array is free again, with the flags and counts of its instruction in its context (R242, R246). -/
def State.xbarEnd (s : State) (core arr : Nat) (b : XbarBusy) : State :=
  let s := s.updArray (arrayNo core arr) (fun a => { a with busy := none, free := s.cycle })
  let s := s.updCore core (fun c => { c with fallback := c.fallback.bind (fun f => if f.arr = arr then none else some f) })
  let s := s.updCtx core b.x (fun c => { c with xbclip := c.xbclip + BitVec.ofNat 64 b.clip })
  s.unitFlags core b.x b.flags 7

/-- The next vector of an `xmv` (R243, R244, R246). -/
def State.xmvVector (s : State) (core arr : Nat) (b : XbarBusy) : State :=
  let n := arrayNo core arr
  let a := s.array n
  let v := b.entry.done
  let nv := xmvCount b.entry.a
  let base := bits b.entry.a.toNat 23 0
  let xs := s.localBytes core b.x (base + 256 * v) 256
  let sc := s.localBytes core b.x (base + 256 * nv + 4 * v) 4
  if xs.2 ∨ sc.2 then s.xbarFault core b.x arr b.entry 0x47
  else if b.fallback ∧ !a.shadowBad.isEmpty then s.xbarFault core b.x arr b.entry 0x96
  else
    let d := xmvDepth b.entry.instr
    let r := a.multiply b.fallback d xs.1 (ofBytes 32 sc.1) s.free
    let s := if b.fallback then s else s.takeFree
    let s := s.localStore core b.x (bits b.entry.b.toNat 23 0 + 1024 * v) (r.1.flatMap (fun w => bytesOf w 4)) [] false
    let e := { b.entry with done := v + 1 }
    let b := { b with entry := e, flags := b.flags ||| r.2.1, clip := b.clip + r.2.2 }
    if v + 1 = nv then s.xbarEnd core arr b
    else if (s.ctx core b.x).save.halted then (s.xbarEnd core arr b).updCtx core b.x (fun c => { c with xq := e :: c.xq })
    else s.updArray n (fun a => { a with busy := some { b with
      free := b.began + analogTime a d (b.run + 1) + (if v + 2 = nv then 40 else 0) } })

/-- The record of `xver` over a column (R248). -/
def XArray.verRecord (a : XArray) (p : Nat) (mask : BitVec 256) : List Byte :=
  bytesOf (a.column p) 128 ++ bytesOf mask 32 ++ le 2 ((List.range 256).filter (fun i => mask.getLsbD i)).length ++
    le 2 ((a.owner p).getD 0xFFFF) ++ List.replicate 28 0 ++ bytesOf (mget 0 a.pulses p) 128

/-- The rows of a column whose code is not its target; a column that carries no logical column has none (R248). DEDUCED: a column whose
shadow word is uncorrectable (R240) keeps the codes last committed as its targets (assumption 151). -/
def XArray.mismatch (a : XArray) (p : Nat) : BitVec 256 :=
  match a.owner p with
  | none => 0
  | some l => BitVec.ofNat 256 (packNat 1 (fun i => (codeAt (a.column p) i != codeAt (a.committed l) i).toNat) 256)

/-- An array after `xver` of a column (R248). -/
def XArray.verified (a : XArray) (p : Nat) : XArray :=
  let m := a.mismatch p
  { a with vmask := mset a.vmask p m, mism := ((List.range 256).filter (fun i => m.getLsbD i)).length,
           ready := match a.owner p with
             | some l => if m = 0 ∧ !a.ready.contains l then a.ready ++ [l] else a.ready
             | none => a.ready }

/-- The code of a cell at `c` with target `t` after a pulse: any code within the bounds of R249, as a free value picks. -/
def pulsed (c t : Nat) (w : Word) : Nat :=
  let lo := if c < t then c else if t < c then t - 1 else 0
  let hi := if c < t then Nat.min (t + 1) 15 else if t < c then c else 15
  lo + w.toNat % (hi + 1 - lo)

/-- An array after a pulse on the masked cells of a column (R249). -/
def XArray.pulse (a : XArray) (p draw : Nat) : XArray :=
  let m := mget 0 a.vmask p
  match a.owner p with
  | none => a
  | some l =>
    { a with
      cells := mset a.cells p (packCodes (fun i => if m.getLsbD i then
        pulsed (codeAt (a.column p) i) (codeAt (a.committed l) i) (Config.freeWord draw i) else codeAt (a.column p) i))
      pulses := mset a.pulses p (packCodes (fun i =>
        let n := codeAt (mget 0 a.pulses p) i
        if m.getLsbD i then Nat.min (n + 1) 15 else n)) }

/-- An array whose offsets and gains have been measured: free values (R252). -/
def XArray.measured (a : XArray) (draw : Nat) : XArray :=
  { a with off := (List.range 276).map (fun p => (p, (Config.freeWord draw p).setWidth 10)),
           gain := (List.range 276).map (fun p => (p, (Config.freeWord draw (276 + p)).setWidth 16)), cal := true, calsw := false }

/-- The off-and-gain table (R252). -/
def XArray.table (a : XArray) : List Byte :=
  (List.range 276).flatMap (fun p => le 4 ((a.offOf p).toNat + 65536 * (a.gainOf p).toNat))

/-- What an instruction other than `xmv` does when it completes (R248-R252). -/
def State.xbarFinish (s : State) (core arr : Nat) (b : XbarBusy) : State :=
  let n := arrayNo core arr
  let a := s.array n
  let put := fun (s : State) (l : List Byte) => s.localStore core b.x (unitAddr b.entry.a) l [] false
  match b.entry.instr with
  | .xver _ =>
    let p := bits b.entry.b.toNat 8 0
    (put s (a.verRecord p (a.mismatch p))).updArray n (fun a => a.verified p)
  | .xprog _ => (s.updArray n (fun a => a.pulse (bits b.entry.a.toNat 8 0) s.free)).takeFree
  | .xdrift _ =>
    let c := a.tideCounts s.free
    (put s (c.flatMap (le 2))).takeFree.tideDone n c (some (core, b.x))
  | .xcalMeas _ _ =>
    let s := (s.updArray n (fun a => a.measured s.free)).takeFree
    s.takeFree.tideDone n ((s.array n).tideCounts s.free) (some (core, b.x))
  | .xcalLdsc _ => s.updArray n (fun a => { a with colScale := (List.range 256).map (fun j => (j, b.words.getD j 0)) })
  | .xcalLdog _ => s.updArray n (fun a => { a with
      off := (List.range 276).map (fun p => (p, (b.words.getD p 0).setWidth 10))
      gain := (List.range 276).map (fun p => (p, (b.words.getD p 0).extractLsb' 16 16)), cal := true, calsw := true })
  | .xcalStog _ => put s a.table
  | _ => s

/-- CROSSBAR_INSTRUCTION_COMPLETE (R242): the next vector of an `xmv`, or the result of another instruction; with the
last one the instruction completes. -/
def execCrossbarInstructionComplete (core arr : Nat) (s : State) : Out :=
  if !s.xbarDone core arr then .next s
  else match (s.array (arrayNo core arr)).busy with
    | none => .next s
    | some b =>
      match b.entry.instr with
      | .xmv _ _ => .next (s.xmvVector core arr b)
      | _ => .next ((s.xbarFinish core arr b).xbarEnd core arr b)

end Sys2Proof.Machine
end

