-- ==== Sys2Proof/Machine/Kv.lean ====
section
/-! DEFINITION. The KV instructions and KV-bound streams (chapter 13 of the spec): a KV instruction sends its operation
to the KV unit of its die and blocks; issued again, it takes the outcome (R262). -/

namespace Sys2Proof.Machine

/-! ## Instructions -/

/-- The local operand of a KV instruction: the bytes it names and the multiple its address must be of (R262, R264). -/
def kvLocal (i : Instr) : Nat × Nat :=
  match i with
  | .kvapp _ _ _ _ => (1024, 64)
  | .kvfind _ _ _ _ => (64, 64)
  | .kvpub _ _ _ _ => (64, 64)
  | .kvstrm _ => (16, 16)
  | _ => (0, 1)

/-- The sources of a KV instruction. -/
def kvSources (i : Instr) : List Src :=
  match i with
  | .kvnew a b _ => [a, b]
  | .kvapp _ a b _ => [a, b]
  | .kvrefInc a b _ => [a, b]
  | .kvrefDec a b _ => [a, b]
  | .kvtrunc a b _ => [a, b]
  | .kvfind _ a b _ => [a, b]
  | .kvpub _ a b _ => [a, b]
  | .kvcow a _ => [a]
  | .kvstrm o => [o.a, o.b]
  | _ => []

/-- The issue checks of a KV instruction (R262, R273). -/
def State.kvEnd (s : State) (i : Instr) (vb : Word) : SlotEnd :=
  let n := kvLocal i
  (need (!(kvSources i).any streamed) 0x81).and
    ((if n.1 = 0 then .commit
      else (need (vb.toNat % n.2 == 0) 0x4B).and (withAddr (s.checkOwn vb n.1) (fun _ => .commit))).and
      (match i with
        | .kvstrm o => need (!(s.me.stream o.k.toNat).cfg) 0x6A
        | _ => .commit))

/-- Issue of a KV instruction (R262): the first issue checks it, sends the operation and blocks; the next one takes the
outcome held for this bundle. -/
def kvIssue (i : Instr) (d : Dest) (s : State) : Out :=
  issue (viewOf i)
    (fun s x => match s.me.kv with
      | .value p _ => if p = s.me.pc then .commit else (s.kvEnd i (lo64 x.b)).and (.block (.kv i (lo64 x.a) (lo64 x.b)))
      | .cause p c info =>
        if p = s.me.pc then (if c = 0x47 then .commit else .trap 13 c (some info) 0 0)
        else (s.kvEnd i (lo64 x.b)).and (.block (.kv i (lo64 x.a) (lo64 x.b)))
      | _ => (s.kvEnd i (lo64 x.b)).and (.block (.kv i (lo64 x.a) (lo64 x.b))))
    (fun _ s =>
      let t := s.upd (fun c => { c with kv := .none })
      match s.me.kv with
      | .value _ v => if d = .none then t else t.deliverAs d none 1 (wide v) (BitVec.allOnes 128) 0
      | _ => t.consumed) s

/-- `kvnew` (R265). -/
def execKvnew (a b : Src) (p : BitVec 2) (s : State) : Out := kvIssue (.kvnew a b p) .none s
/-- `kvapp` (R266). -/
def execKvapp (d : BitVec 5) (a b : Src) (p : BitVec 2) (s : State) : Out := kvIssue (.kvapp d a b p) (.s d.toNat) s
/-- `kvref.inc` (R268). -/
def execKvrefInc (a b : Src) (p : BitVec 2) (s : State) : Out := kvIssue (.kvrefInc a b p) .none s
/-- `kvref.dec` (R268). -/
def execKvrefDec (a b : Src) (p : BitVec 2) (s : State) : Out := kvIssue (.kvrefDec a b p) .none s
/-- `kvtrunc` (R269). -/
def execKvtrunc (a b : Src) (p : BitVec 2) (s : State) : Out := kvIssue (.kvtrunc a b p) .none s
/-- `kvfind` (R270). -/
def execKvfind (d : BitVec 5) (a b : Src) (p : BitVec 2) (s : State) : Out := kvIssue (.kvfind d a b p) (.s d.toNat) s
/-- `kvpub` (R272). -/
def execKvpub (d : BitVec 5) (a b : Src) (p : BitVec 2) (s : State) : Out := kvIssue (.kvpub d a b p) (.s d.toNat) s
/-- `kvcow` (R267). -/
def execKvcow (a : Src) (p : BitVec 2) (s : State) : Out := kvIssue (.kvcow a p) .none s
/-- `kvstrm` (R273). -/
def execKvstrm (o : KAB) (s : State) : Out := kvIssue (.kvstrm o) .none s

/-! ## The operation -/

/-- The virtual address of a page's frame (R258). -/
def frameOf (e : KvEnv) (p : PoolD) (page : Nat) : KvM Word := do
  let c ← readCpt e p page
  pure (p.frame + BitVec.ofNat 64 (4096 * c.frame))

/-- The frames of pages. -/
def framesOf (e : KvEnv) (p : PoolD) : List Nat → KvM (List Word)
  | [] => pure []
  | g :: t => do
    let f ← frameOf e p g
    let r ← framesOf e p t
    pure (f :: r)

/-- The entries of a KV-bound stream: 36 for each chunk of 128 tokens (R274). -/
def kvEntries (ntok : Nat) : Nat := 36 * ((ntok + 127) / 128)

/-- A KV-bound stream as `kvstrm` starts it (R273): format IB8; a row of it is an entry. -/
def kvStreamOf (v : KvStream) : Stream :=
  { Stream.reset with cfg := true, started := true, fmt := 10, kind := 4, count := kvEntries v.ntok, kv := some v }

/-- Takes translation pins on frames for a stream (R27, R273): a wait or the first fault is answered with no pin taken. -/
def State.pinFrames (s : State) (core x k : Nat) (frames : List Word) : PinnedAll × State :=
  let r := s.pinnedAll { core := core, x := x, holder := .stream k } .read (frames.flatMap (fun f => [f, f + 4095]))
  match r.1 with
  | .ok l => (.ok l, r.2)
  | e => (e, s)

/-- `kvstrm` at the unit: the stream is configured with its pages pinned. -/
def kvStart (e : KvEnv) (k : Nat) (a : Word) (rcd : List Byte) (bad : Bool) (s : State) :
    Option (Except (Byte × Word) (Word × State)) :=
  match kvStream e a rcd bad s with
  | .error f => some (.error f)
  | .ok (v, s) =>
    match (readPool e v.pool >>= fun p => framesOf e p v.pages) s with
    | .error f => some (.error f)
    | .ok (fr, s) => match s.pinFrames e.core e.x k fr with
      | (.wait, _) => none
      | (.fault c a, _) => some (.error (c, a))
      | (.ok _, s) => some (.ok (0, s.updCtx e.core e.x (fun c => c.setStream k (kvStreamOf v))))

/-- An operation on the unit: none where it has to wait for a shootdown (R29), else its value with the new state, or its
cause with EINFO. -/
def State.kvRun (s : State) (core x : Nat) (i : Instr) (a b : Word) : Option (Except (Byte × Word) (Word × State)) :=
  let e := s.kvEnv core x
  let n := (kvLocal i).1
  let l := (localOf b).getD 0
  let rcd := (s.localBytes core x l n).1
  let bad := (s.localBytes core x l n).2
  match i with
  | .kvnew _ _ _ => some (kvNew e a b s)
  | .kvapp _ _ _ _ => some (kvApp e a rcd bad s)
  | .kvrefInc _ _ _ => some (kvRef e a b true s)
  | .kvrefDec _ _ _ => some (kvRef e a b false s)
  | .kvtrunc _ _ _ => some (kvTrunc e a b s)
  | .kvfind _ _ _ _ => some (kvFind e a rcd bad s)
  | .kvpub _ _ _ _ => some (kvPub e a rcd bad s)
  | .kvcow _ _ => some (kvCow e a s)
  | .kvstrm o => kvStart e o.k.toNat a rcd bad s
  | _ => none

/-- The operation that a blocked context has sent and that the unit can start: every earlier memory-slot access is
performed, pushes to write streams among them, and no engine command holds the banks of the local operand (R61, R262). -/
def State.kvSent (s : State) (core x : Nat) : Option (Word × Instr × Word × Word) :=
  let c := s.ctx core x
  match c.blocked, c.kv with
  | .kv _ _ _, .sent p i a b =>
    if c.task.isSome && c.log.isEmpty && !c.writesOut && !s.reserved core (s.banksOf core x ((localOf b).getD 0) (kvLocal i).1) then
      some (p, i, a, b)
    else none
  | _, _ => none

/-- Whether KV_OPERATION has something to do. -/
def State.kvReady (s : State) (core x : Nat) : Bool :=
  match s.kvSent core x with
  | some (_, i, a, b) => (s.kvRun core x i a b).isSome
  | none => false

/-- KV_OPERATION (R262, R263): the operation completes whole, or raises its cause and changes nothing; the outcome is
held for the context. -/
def execKvOperation (core x : Nat) (s : State) : Out :=
  match s.kvSent core x with
  | none => .next s
  | some (p, i, a, b) =>
    match s.kvRun core x i a b with
    | none => .next s
    | some (.ok (v, t)) => .next (t.updCtx core x (fun c => { c with kv := .value p v }))
    | some (.error (c, info)) => .next (s.updCtx core x (fun k => { k with kv := .cause p c info }))

/-! ## Filling a KV-bound stream -/

/-- Bytes of a frame at the home slices with whether any is poisoned, through the pins of a stream (R27, R263). -/
def kvPeek (e : KvEnv) (k : Nat) (va : Word) (n : Nat) : KvM (List Byte × Bool) := fun s =>
  match s.pinnedAll { core := e.core, x := e.x, holder := .stream k } .read (vaSectors va n) with
  | (.fault c a, _) => .error (c, a)
  | (.wait, _) => .error (0x40, va)
  | (.ok l, s) =>
    .ok (((l.flatMap (fun pa => bytesOf (s.homeSector (pa / 64)).1 64)).drop (va.toNat % 64) |>.take n,
      l.any (fun pa => (s.homeSector (pa / 64)).2)), l.foldl (fun s pa => s.fillHome (pa / 64)) s)

/-- The IB8 block of a page with exponent `ex` and 16 stored elements (R274); exponent 0 is the zero block. -/
def kvBlockOf (ex : Nat) (q : List Byte) : List Byte :=
  bytesOf (BitVec.ofNat 144 ((ex - 1) + 65536 * packNat 8 (fun k =>
    let b := q.getD k 0
    mag8 b + (if b.toInt < 0 then 128 else 0)) 16)) 18

/-- The element of one token slot at an offset of its frame: 0 where the token is not delivered. -/
def kvElems (e : KvEnv) (k : Nat) (fr : Word) (live : Nat → Bool) : List (Nat × Nat) → KvM (List Byte × Bool)
  | [] => pure ([], false)
  | (t, off) :: rest => do
    let r ← kvElems e k fr live rest
    if live t then do
      let b ← kvPeek e k (fr + BitVec.ofNat 64 off) 1
      pure (b.1 ++ r.1, b.2 || r.2)
    else pure (0 :: r.1, r.2)

/-- Block `b` of a stream (R274): its 18 bytes, and whether it took poisoned bytes. -/
def kvBlock (e : KvEnv) (k : Nat) (v : KvStream) (b : Nat) : KvM (List Byte × Bool) := do
  let u := b / 1024
  let s := b / 256 % 4
  let c := b % 256 / 2
  let j := b % 2
  let t0 := if v.mode then 128 * u + 32 * s + 16 * j else 128 * u + c
  if v.ntok ≤ t0 then pure (List.replicate 18 0, false)
  else do
    let p ← readPool e v.pool
    let g := v.pages.getD (t0 / 16) 0
    let m ← readCpt e p g
    let fr := p.frame + BitVec.ofNat 64 (4096 * m.frame)
    let live := fun t => decide (t < v.ntok) && decide (t % 16 < m.fill)
    if v.mode then do
      let q ← kvElems e k fr live ((List.range 16).map (fun i => (t0 + i, 0x800 + 128 * i + c)))
      pure (if (List.range 16).any (fun i => live (t0 + i)) then kvBlockOf m.ev q.1 else List.replicate 18 0, q.2)
    else if live t0 then do
      let q ← kvPeek e k (fr + BitVec.ofNat 64 (128 * (t0 % 16) + 32 * s + 16 * j)) 16
      pure (kvBlockOf m.ek q.1, q.2)
    else pure (List.replicate 18 0, false)

/-- Blocks `b` to `b + n - 1`: their bytes, each with its poison. -/
def kvBlocks (e : KvEnv) (k : Nat) (v : KvStream) (b : Nat) : Nat → KvM (List Byte × List Bool)
  | 0 => pure ([], [])
  | n + 1 => do
    let r ← kvBlocks e k v b n
    let m ← kvBlock e k v (b + n)
    pure (r.1 ++ m.1, r.2 ++ List.replicate 18 m.2)

/-- Entry `n` of a stream (R274). -/
def kvEntry (e : KvEnv) (k : Nat) (v : KvStream) (n : Nat) : KvM Entry := do
  let b := 512 * n / 18
  let r ← kvBlocks e k v b ((512 * n + 511) / 18 + 1 - b)
  let data := (r.1.drop (512 * n - 18 * b)).take 512
  let bad := (r.2.drop (512 * n - 18 * b)).take 512
  pure { data := ofVecBytes data, scales := 0, lines := [], num := 0,
         poison := BitVec.ofNat 8 (packNat 1 (fun i => (((bad.drop (64 * i)).take 64).any id).toNat) 8) }

/-- Pins a page again (R275): a page released meanwhile raises 0x89, one whose PINS is full 0x8D. -/
def kvRepin (e : KvEnv) (pool g : Nat) : KvM Word := do
  let p ← readPool e pool
  let _ ← kvCheck (g < p.npages) 0x89 g
  let c ← readCpt e p g
  let _ ← kvCheck c.alloc 0x89 g
  let _ ← kvCheck (c.pins != 65535) 0x8D g
  writeCpt e p g { c with pins := c.pins + 1 }
  pure (p.frame + BitVec.ofNat 64 (4096 * c.frame))

/-- The pages of a stream from the chunk of its next entry on that it has not pinned (R275). -/
def Stream.unpinned (q : Stream) (v : KvStream) : KvStream × List Nat :=
  let v := if v.npin = 0 then { v with lo := 8 * (q.row / 36) } else v
  (v, v.pages.drop (v.lo + v.npin))

/-- The next thing a KV-bound stream's generator does: none where a pin has to wait for a shootdown. -/
def State.kvFill (s : State) (core x k : Nat) : Option State :=
  let q := (s.ctx core x).stream k
  let e := s.kvEnv core x
  match q.kv with
  | none => none
  | some v =>
    match q.unpinned v with
    | (v, g :: _) =>
      (match kvRepin e v.pool g s with
        | .error (c, i) => some (s.haltStream core x k c i)
        | .ok (fr, t) => match t.pinFrames core x k [fr] with
          | (.wait, _) => none
          | (.fault c a, _) => some (s.haltStream core x k c a)
          | (.ok _, t) => some (t.updCtx core x (fun c => c.setStream k { q with kv := some { v with npin := v.npin + 1 } })))
    | (_, []) =>
      match kvEntry e k v q.row s with
      | .error (c, i) => some (s.haltStream core x k c i)
      | .ok (n, t) => some (t.updCtx core x (fun c => c.setStream k { q with entries := q.entries ++ [n], row := q.row + 1 }))

/-- Whether a KV-bound stream's generator has something to do (R273-R275). -/
def State.kvFillReady (s : State) (core x k : Nat) : Bool :=
  let q := (s.ctx core x).stream k
  s.streamRuns core x k [4] && decide (q.entries.length < 8) && decide (q.row < q.count) && (s.kvFill core x k).isSome

/-- KV_STREAM_ENTRY_FILL (R274, R275). -/
def execKvStreamEntryFill (core x k : Nat) (s : State) : Out :=
  if !s.kvFillReady core x k then .next s
  else .next ((s.kvFill core x k).getD s)

end Sys2Proof.Machine
end

