-- ==== Sys2Proof/Machine/Sfu.lean ====
section
/-! DEFINITION. The special functions (R129, R130, R198, R199). Reciprocals and roots are decided by exact integer
arithmetic. The transcendental functions are irrational at every operand that has no exact rule, so their results are
always inexact; each is computed to some 300 bits, which decides its rounding to 12. -/

namespace Sys2Proof.Machine

/-- Bits of fixed-point arithmetic behind the binary point. -/
def sfuBits : Nat := 384

/-- The number one in that fixed point. -/
def sfuOne : Nat := 2 ^ sfuBits

/-- The product of two fixed-point numbers. -/
def fxMul (a b : Nat) : Nat := a * b / sfuOne

/-- `e^y − 1` for a fixed-point `0 ≤ y < 1`, by `n` terms from term `k`, the last of which was `t`. -/
def expTerms (y : Nat) : Nat → Nat → Nat → Nat
  | 0, _, _ => 0
  | n + 1, k, t =>
    let t' := fxMul t y / k
    t' + expTerms y n (k + 1) t'

/-- `e^y` for a fixed-point `0 ≤ y < 1`. -/
def expFrac (y : Nat) : Nat := sfuOne + expTerms y 90 1 sfuOne

/-- `atanh t` for a fixed-point `0 ≤ t ≤ 1/3`: `n` terms from the odd `k`, with `p` the power of `t` and `s` its
square. -/
def atanhTerms (s : Nat) : Nat → Nat → Nat → Nat
  | 0, _, _ => 0
  | n + 1, k, p => p / k + atanhTerms s n (k + 2) (fxMul p s)

/-- `ln ((1 + t) / (1 − t))` for a fixed-point `0 ≤ t ≤ 1/3`. -/
def lnRatio (t : Nat) : Nat := 2 * atanhTerms (fxMul t t) 130 1 t

/-- `ln 2`. -/
def ln2Fx : Nat := lnRatio (sfuOne / 3)

/-- `e^y` for a fixed-point `y ≥ 0`: a fixed-point significand and a power of two. -/
def expFx (y : Nat) : Nat × Nat := (expFrac (y % ln2Fx), y / ln2Fx)

/-- A magnitude as fixed point, rounded down. -/
def toFx (m : Nat) (e : Int) : Nat :=
  if 0 ≤ e + (sfuBits : Int) then m * 2 ^ (e + (sfuBits : Int)).toNat else m / 2 ^ (-(e + (sfuBits : Int))).toNat

/-- `round12` of an inexact value known as `m × 2^e` with an error below one unit of `m`. -/
def near12 (neg : Bool) (m : Nat) (e : Int) : Nat × Flags :=
  let r := round12 neg (2 * m + 1) (e - 1)
  (r.1, r.2 ||| fNX)

/-- `round12` of a value just below `m × 2^e` in magnitude. -/
def below12 (neg : Bool) (m : Nat) (e : Int) : Nat × Flags := near12 neg (m * 2 ^ 80 - 1) (e - 80)

/-- The FP32 zero of a sign. -/
def zero32 (neg : Bool) : Nat := fp32.sign neg

/-- One in FP32. -/
def one32 : Nat := 0x3F80_0000

/-- `vrcp` of a finite nonzero value, decided in the order of R199. -/
def rcpFin (neg : Bool) (m : Nat) (e : Int) : Nat × Flags :=
  if magGt m e 1 126 then (zero32 neg, fUF ||| fNX)
  else
    let q := 2 ^ 200 / m
    if 2 ^ 200 % m = 0 then round12 neg q (-e - 200) else near12 neg q (-e - 200)

/-- `vsqrt` of a positive finite value. -/
def sqrtFin (m : Nat) (e : Int) : Nat × Flags :=
  let m := if e % 2 = 0 then m else 2 * m
  let e := if e % 2 = 0 then e else e - 1
  let w := m * 2 ^ 200
  let r := Nat.sqrt w
  if r * r = w then round12 false r (e / 2 - 100) else near12 false r (e / 2 - 100)

/-- `vrsq` of a positive finite value. -/
def rsqFin (m : Nat) (e : Int) : Nat × Flags :=
  let m := if e % 2 = 0 then m else 2 * m
  let e := if e % 2 = 0 then e else e - 1
  let w := 2 ^ 300
  let r := Nat.sqrt (w / m)
  if r * r * m = w then round12 false r (-(e / 2) - 150) else near12 false r (-(e / 2) - 150)

/-- `exp2_12` of a finite value (R130). -/
def exp2Fin (neg : Bool) (m : Nat) (e : Int) : Nat × Flags :=
  if m = 0 then (one32, 0)
  else if neg ∧ magGt m e 126 0 then (0, fUF ||| fNX)
  else if !neg ∧ !magGt 128 0 m e then (fp32.infinity false, fOF ||| fNX)
  else
    let fx := toFx m e
    let whole := fx / sfuOne
    let frac := fx % sfuOne
    if frac = 0 then round12 false 1 (if neg then -(whole : Int) else whole)
    else if neg then near12 false (expFrac (fxMul (sfuOne - frac) ln2Fx)) (-(whole : Int) - 1 - sfuBits)
    else near12 false (expFrac (fxMul frac ln2Fx)) ((whole : Int) - sfuBits)

/-- `vlog2` of a positive finite value: a power of two gives its exponent exactly. -/
def log2Fin (m : Nat) (e : Int) : Nat × Flags :=
  let k := m.log2
  let n := (k : Int) + e
  if m = 2 ^ k then fp32.round 12 .rne (decide (n < 0)) n.natAbs 0
  else
    let t := (m - 2 ^ k) * sfuOne / (m + 2 ^ k)
    let f := lnRatio t * sfuOne / ln2Fx
    let v : Int := n * sfuOne + f
    near12 (decide (v < 0)) v.natAbs (-sfuBits)

/-- `vtanh` of a finite nonzero value. -/
def tanhFin (neg : Bool) (m : Nat) (e : Int) : Nat × Flags :=
  if magGt m e 64 0 then below12 neg 1 0
  else if magGt 1 (-24) m e then below12 neg m e
  else
    let x := expFx (2 * toFx m e)
    let big := x.1 * 2 ^ x.2
    near12 neg ((big - sfuOne) * sfuOne / (big + sfuOne)) (-sfuBits)

/-- `vsilu` of a finite nonzero value. -/
def siluFin (neg : Bool) (m : Nat) (e : Int) : Nat × Flags :=
  if magGt m e 160 0 then (if neg then (zero32 true, fUF ||| fNX) else below12 false m e)
  else
    let x := expFx (toFx m e)
    let big := x.1 * 2 ^ x.2
    let num := if neg then sfuOne else big
    near12 neg (m * (num * 2 ^ 300 / (big + sfuOne))) (e - 300)

/-- The special function of a number on an FP32 operand (R198). -/
def sfu (fn : Nat) (v : Nat) : Nat × Flags :=
  let bad : Nat × Flags := (fp32.nan, fNV)
  match fp32.unpack v with
  | .nan s => (fp32.nan, sigFlag s)
  | .inf neg =>
    match fn with
    | 0 => (zero32 neg, 0)
    | 1 => if neg then bad else (0, 0)
    | 2 => if neg then bad else (v, 0)
    | 3 => if neg then (0, 0) else (v, 0)
    | 4 => if neg then bad else (v, 0)
    | 5 => (zero32 neg + one32, 0)
    | _ => if neg then (zero32 true, 0) else (v, 0)
  | .fin neg m e =>
    if m = 0 then
      match fn with
      | 0 => (fp32.infinity neg, fDZ)
      | 1 => (fp32.infinity neg, fDZ)
      | 3 => (one32, 0)
      | 4 => (fp32.infinity true, fDZ)
      | _ => (v, 0)
    else
      match fn with
      | 0 => rcpFin neg m e
      | 1 => if neg then bad else rsqFin m e
      | 2 => if neg then bad else sqrtFin m e
      | 3 => exp2Fin neg m e
      | 4 => if neg then bad else log2Fin m e
      | 5 => tanhFin neg m e
      | _ => siluFin neg m e

end Sys2Proof.Machine
end

