-- ==== Sys2Proof/Machine/Collective.lean ====
section
/-! DEFINITION. The arithmetic of a collective: the wire formats, the tree, the attention combine and the poison of its
rows (R290-R293). -/

namespace Sys2Proof.Machine

/-- A row on its way through a reduction: `m` and `l` of a triple, and its elements, all FP32 (R276, R289). -/
structure RowValue where
  m : Nat
  l : Nat
  o : List Nat
  deriving DecidableEq, Repr

/-- Division in FP32, rounded once (R291). -/
def divFp32 (a b : Nat) : Nat × Flags :=
  let x := fp32.unpack a
  let y := fp32.unpack b
  (fp32.nans [x, y]).getD
    (match x, y with
      | .inf _, .inf _ => fp32.quiet true
      | .inf n, .fin k _ _ => (fp32.infinity (n != k), 0)
      | .fin n _ _, .inf k => (fp32.sign (n != k), 0)
      | .fin n m e, .fin k d f =>
        if d = 0 then (if m = 0 then fp32.quiet true else (fp32.infinity (n != k), fDZ))
        else if m = 0 then (fp32.sign (n != k), 0)
        else fp32.rnd .rne (n != k) (2 * (m * 2 ^ 100 / d) + (decide (m * 2 ^ 100 % d ≠ 0)).toNat) (e - f - 101)
      | _, _ => fp32.quiet false)

/-- The elements of a 16-element block after one trip through a wire format (R122, R123, R290). -/
def wireBlock (code : Nat) (xs : List Nat) : List Nat × Flags :=
  let q := quantIb code (List.replicate 16 .rne) (xs.map fp32.unpack)
  ((List.range xs.length).map (fun k => (fp32.convert .rne (ibValue code q.1 k)).1), q.2)

/-- A value as it travels: the elements quantised in the wire format, `m` and `l` as they are (R290). -/
def RowValue.wire (code : Nat) (v : RowValue) : RowValue × Flags :=
  if code = 4 then (v, 0)
  else
    let r := (chunks 16 (v.o.length / 16 + 1) v.o).map (wireBlock code)
    ({ v with o := r.flatMap (·.1) }, orFlags (r.map (·.2)))

/-- Whether a pattern is a NaN. -/
def isNan32 (a : Nat) : Bool := (fp32.unpack a).nan?.isSome

/-- The weight of one side of the attention combine (R130, R291). -/
def attnWeight (own m : Nat) : Nat × Flags :=
  if own = 0xFF80_0000 then (0, 0)
  else
    let d := fp32.sub .rne own m
    let w := sfu 3 d.1
    (w.1, d.2 ||| w.2)

/-- One element of the attention combine: each product and the sum rounded (R291). -/
def attnMix (p q x y : Nat) : Nat × Flags :=
  let u := fp32.mul .rne p x
  let v := fp32.mul .rne q y
  let r := fp32.add .rne u.1 v.1
  (r.1, u.2 ||| v.2 ||| r.2)

/-- The attention combine (R291). -/
def attnCombine (a b : RowValue) : RowValue × Flags :=
  let nan := (a.m :: a.l :: a.o ++ b.m :: b.l :: b.o).any isNan32
  let m := if isNan32 a.m ∨ isNan32 b.m then (fp32.nan, 0) else fp32.pick true a.m b.m
  let p := attnWeight a.m m.1
  let q := attnWeight b.m m.1
  let l := attnMix p.1 q.1 a.l b.l
  let o := (a.o.zip b.o).map (fun e => attnMix p.1 q.1 e.1 e.2)
  ({ m := m.1, l := l.1, o := o.map (·.1) },
   (if nan then fNV else 0) ||| m.2 ||| p.2 ||| q.2 ||| l.2 ||| orFlags (o.map (·.2)))

/-- A combine of the operation of an OPF (R290). -/
def combine (op : Nat) (a b : RowValue) : RowValue × Flags :=
  if op = 2 then attnCombine a b
  else
    let o := (a.o.zip b.o).map (fun e => if op = 0 then fp32.add .rne e.1 e.2 else fp32.pick true e.1 e.2)
    ({ m := 0, l := 0, o := o.map (·.1) }, orFlags (o.map (·.2)))

/-- One level of the tree: adjacent pairs combine and are quantised again; a value without a partner passes up (R290). -/
def treeLevel (op code : Nat) : List RowValue → List RowValue × Flags
  | a :: b :: t =>
    let c := combine op a b
    let w := c.1.wire code
    let r := treeLevel op code t
    (w.1 :: r.1, c.2 ||| w.2 ||| r.2)
  | l => (l, 0)

/-- The levels of the tree, at most `n` of them. -/
def treeReduce (op code : Nat) : Nat → List RowValue → List RowValue × Flags
  | 0, l => (l, 0)
  | n + 1, l =>
    if l.length ≤ 1 then (l, 0)
    else
      let r := treeLevel op code l
      let u := treeReduce op code n r.1
      (u.1, r.2 ||| u.2)

/-- The `n`-th FP32 word of a row. -/
def rowWord (b : List Byte) (n : Nat) : Nat := field b (4 * n) 4

/-- A row's value from its bytes (R276, R289). -/
def RowValue.ofBytes (op : Nat) (b : List Byte) : RowValue :=
  if op = 2 then { m := rowWord b 0, l := rowWord b 1, o := (List.range 128).map (fun i => rowWord b (16 + i)) }
  else { m := 0, l := 0, o := (List.range (b.length / 4)).map (rowWord b) }

/-- Four bytes of a pattern. -/
def word4 (v : Nat) : List Byte := bytesOf (BitVec.ofNat 32 v) 4

/-- The result row as bytes: with NORM the elements are divided by `l`, or the row is marked FULLMASK (R291). The value
that rank 0 sends has passed the wire format once more. -/
def RowValue.final (op code : Nat) (norm : Bool) (v : RowValue) : List Byte × Flags :=
  if op ≠ 2 then (v.o.flatMap word4, 0)
  else
    let q := v.o.map (fun x => divFp32 x v.l)
    let n : RowValue × Flags :=
      if !norm then (v, 0)
      else if v.l = 0 then ({ v with o := List.replicate 128 0 }, 0)
      else ({ v with o := q.map (·.1) }, orFlags (q.map (·.2)))
    let w := n.1.wire code
    (word4 v.m ++ word4 v.l ++ word4 (norm && v.l == 0).toNat ++ List.replicate 52 0 ++ w.1.o.flatMap word4, n.2 ||| w.2)

/-- The pieces of a result row that are poisoned: those poisoned at any rank, and every piece of a triple whose first
piece is (R290). -/
def poisonedPieces (op len : Nat) (rows : List Piece) : List Nat :=
  let n := (len + 63) / 64
  let bad := fun (k : Nat) => rows.any (fun p => ((p.2.drop (64 * k)).take 64).any id)
  if op = 2 ∧ bad 0 then List.range n else (List.range n).filter bad

/-- The value that adjacent ranks' rows, in rank order, reduce to, with its poisoned pieces and the flags of the others (R290). -/
def reduceValue (opf : Byte) (len : Nat) (rows : List Piece) : RowValue × List Nat × Flags :=
  let op := bits opf.toNat 5 4
  let code := bits opf.toNat 3 0
  let bad := poisonedPieces op len rows
  let clean := fun (b : List Byte) => (List.range len).map (fun i => if bad.contains (i / 64) then 0 else b.getD i 0)
  let start := rows.map (fun p => (RowValue.ofBytes op (clean p.1)).wire code)
  let t := treeReduce op code rows.length (start.map (·.1))
  ((t.1.head?).getD { m := 0, l := 0, o := [] }, bad, orFlags (start.map (·.2)) ||| t.2)

/-- A result row from the ranks' rows, in rank order: its bytes, its poisoned pieces and the flags of the others. What
the poisoned pieces hold is left to the caller (R290). -/
def reduceRow (opf : Byte) (len : Nat) (rows : List Piece) : List Byte × List Nat × Flags :=
  let v := reduceValue opf len rows
  let f := v.1.final (bits opf.toNat 5 4) (bits opf.toNat 3 0) (opf.getLsbD 7)
  (f.1, v.2.1, v.2.2 ||| f.2)

/-- What some ranks' rows come to on their way up the tree, as it crosses to another engine (R290). -/
def partialRow (opf : Byte) (len : Nat) (rows : List Piece) : List Byte × List Nat × Flags :=
  let v := reduceValue opf len rows
  let head := if bits opf.toNat 5 4 = 2 then word4 v.1.m ++ word4 v.1.l ++ List.replicate 56 0 else []
  (head ++ v.1.o.flatMap word4, v.2)

/-- A free byte for a poisoned place of a result. -/
def freeByte (draw i : Nat) : Byte := (Config.freeWord draw i).setWidth 8

/-- Rows with free bytes under their poisoned pieces, and their flags, to which poisoned pieces may add any (R290, R293). -/
def spreadRows (draw len : Nat) (r : List (List Byte × List Nat × Flags)) : List Piece × Flags :=
  let done := (List.range r.length).map (fun i =>
    let x := r.getD i ([], [], 0)
    ((List.range len).map (fun j => if x.2.1.contains (j / 64) then freeByte draw (len * i + j) else x.1.getD j 0),
     (List.range len).map (fun j => x.2.1.contains (j / 64))))
  let extra : Flags := if r.any (fun x => !x.2.1.isEmpty) then (Config.freeWord draw (len * r.length)).setWidth 5 else 0
  (done, orFlags (r.map (·.2.2)) ||| extra)

/-- Row `i` of every rank. -/
def rankRows (rows : List (List Piece)) (i : Nat) : List Piece := rows.map (fun l => l.getD i ([], []))

/-- The result rows of a collective (R290, R293). `rows` holds the ranks' rows, in rank order. -/
def reduceRows (draw : Nat) (opf : Byte) (len nrows : Nat) (rows : List (List Piece)) : List Piece × Flags :=
  spreadRows draw len ((List.range nrows).map (fun i => reduceRow opf len (rankRows rows i)))

/-- The level of the tree at which the value of rank `k` is a right operand, within `n` levels: its adjacent ranks' values have
joined it up to there (R290). -/
def treeRise (k : Nat) : Nat → Nat
  | 0 => 0
  | n + 1 => if k % 2 = 1 then 0 else 1 + treeRise (k / 2) n

/-- The rank whose engine combines the value of rank `k` with its own as the left operand; `k` is not 0 (R290). -/
def treeLeft (k : Nat) : Nat := k - 2 ^ treeRise k 9

/-- The rows that rank `k` brings to that engine: what its ranks' rows have come to (R290). -/
def partialRows (draw : Nat) (opf : Byte) (len nrows k : Nat) (rows : List (List Piece)) : List Piece × Flags :=
  spreadRows draw len ((List.range nrows).map (fun i =>
    partialRow opf len (rankRows ((rows.drop k).take (2 ^ treeRise k 9)) i)))

end Sys2Proof.Machine
end

