-- ==== Sys2Proof/Machine/Fabric.lean ====
section
/-! DEFINITION. The way out of the device: the Narrows and the Strait ports with their logs (R278-R281), the fabric windows
that other devices reach this one through (R282), and the memory accesses of agents that have no TLB of a core. -/

namespace Sys2Proof.Machine

/-! ## Accesses at the home slices -/

/-- Translates addresses one by one without a core's TLB; the first that faults gives the cause and its address. -/
def State.translateBareAll (s : State) (asn root : Nat) (k : AccessKind) :
    List Word → Except (Byte × Word) (List Nat) × State
  | [] => (.ok [], s)
  | va :: t =>
    match s.translateBare asn root va k with
    | (.fault c, s) => (.error (c, va), s)
    | (.ok pa, s) =>
      match s.translateBareAll asn root k t with
      | (.ok l, s) => (.ok (pa :: l), s)
      | (.error e, s) => (.error e, s)

/-- `n` bytes from offset `k` of the sectors that physical addresses name, with the poison of each (R32). -/
def State.sectorBytes (s : State) (l : List Nat) (k n : Nat) : Piece :=
  (((l.flatMap (fun pa => bytesOf (s.homeSector (pa / 64)).1 64)).drop k).take n,
   ((l.flatMap (fun pa => List.replicate 64 (s.homeSector (pa / 64)).2)).drop k).take n)

/-- Writes bytes from offset `k` of the sectors that physical addresses name; a sector that receives a poisoned byte is
poisoned (R32). -/
def State.sectorStore (s : State) (l : List Nat) (k : Nat) (v : Piece) : State :=
  (List.range l.length).foldl (fun s i =>
    let p := pieceOf k v.1 [] i
    let bad := (List.range 64).any (fun j => decide (k ≤ 64 * i + j) && v.2.getD (64 * i + j - k) false)
    s.homeWrite (l.getD i 0 / 64) p.1 p.2 bad) s

/-- The reads fill the home slices (R38). -/
def State.touchHome (s : State) (l : List Nat) : State := l.foldl (fun s pa => s.fillHome (pa / 64)) s

/-- A read of global bytes at the home slices for an address space (R65). -/
def State.bareRead (s : State) (asn root : Nat) (a : Word) (n : Nat) : Except (Byte × Word) Piece × State :=
  match s.translateBareAll asn root .read (vaSectors a n) with
  | (.error e, s) => (.error e, s)
  | (.ok l, s) => (.ok (s.sectorBytes l (a.toNat % 64) n), s.touchHome l)

/-- A write of global bytes at the home slices for an address space (R65). -/
def State.bareWrite (s : State) (asn root : Nat) (a : Word) (v : Piece) : Except (Byte × Word) Unit × State :=
  match s.translateBareAll asn root .write (vaSectors a v.1.length) with
  | (.error e, s) => (.error e, s)
  | (.ok l, s) => (.ok (), s.sectorStore l (a.toNat % 64) v)

/-! ## Routing (R281) -/

/-- The device's own DEVID (R281, R367). -/
def State.devid (s : State) : Nat := bits s.regs.fabid.toNat 7 0

/-- The ports that the routing table gives a DEVID; the entry of the device's own is ignored (R368). -/
def State.routePorts (s : State) (dev : Nat) : Nat := if dev = s.devid then 0 else bits (mget 0 s.regs.route dev).toNat 17 0

/-- Whether the routing table forwards arriving traffic for a DEVID (R281, R368). -/
def State.forwards (s : State) (dev : Nat) : Bool := dev != s.devid && (mget 0 s.regs.route dev).getLsbD 18

/-- Whether a port carries traffic: it is up, its far end reports this fleet, and the routing table lists that device
for the port (R281). -/
def State.portCarries (s : State) (p : Nat) : Bool :=
  let k := s.link p
  k.en && k.up && decide (k.fleet.toNat = bits s.regs.fabid.toNat 23 8) && (s.routePorts k.far.toNat).testBit p

/-- The ports that may carry traffic to a device now (R281). -/
def State.portsTo (s : State) (dev : Nat) : List Nat :=
  (List.range 18).filter (fun p => (s.routePorts dev).testBit p && s.portCarries p)

/-- Whether some port that the routing mask allows reaches a device (R281, R294). -/
def State.reaches (s : State) (dev : Nat) : Bool := !(s.portsTo dev).isEmpty

/-- Whether a PEER is known: a DEVID in the routing table, or the device's own (R286). -/
def State.peerKnown (s : State) (dev : Nat) : Bool := dev == s.devid || s.routePorts dev != 0

/-! ## Windows (R282) -/

/-- An entry of the fabric window table. -/
def State.fwin (s : State) (w : Nat) : Nat := (mget 0 s.regs.fwin w).toNat

/-- Whether any port carries traffic (R281). -/
def State.linked (s : State) : Bool := (List.range 18).any s.portCarries

/-- The page-table root of an address space that a window names: that of the newest launch of the space, or else of the
first launch queue that has it (a reading of the model, assumption 61). -/
def State.rootOfAsn (s : State) (asn : Nat) : Option Nat :=
  match ((s.launches.filter (fun e => e.2.asn == asn)).getLast?) with
  | some e => some e.2.ptroot
  | none =>
    (List.range 4096).findSome? (fun n =>
      let d := (s.homeBytes (s.regs.qtbase.toNat + 64 * n) 64).1
      if field d 0x0A 2 % 4096 = asn then some (field d 0x18 8) else none)

/-- The home slices after that root has been looked for: the descriptors read up to the one that has the space (R38). -/
def State.rootRead (s : State) (asn : Nat) : State :=
  if s.launches.any (fun e => e.2.asn == asn) then s
  else
    let n := (List.range 4096).findIdx (fun n => field (s.homeBytes (s.regs.qtbase.toNat + 64 * n) 64).1 0x0A 2 % 4096 == asn)
    (List.range (Nat.min (n + 1) 4096)).foldl (fun s n => s.fillHome (s.regs.qtbase.toNat / 64 + n)) s

/-- The base of a window as a virtual address (R20, R282). -/
def windowBase (e : Nat) : Word := (BitVec.ofNat 57 (bits e 56 0)).signExtend 64

/-- A translation with a pin that is held for one access, in an address space (R27, R282): while its page is being shot down it
waits (R29). -/
def State.openPage (s : State) (asn root : Nat) (va : Word) (k : AccessKind) : Pinned × State :=
  let v := va.toNat % 2 ^ 57
  if s.pinBlocked v 1 then (.wait, s)
  else match s.leafFor .bare asn root va (some k) with
    | (.error c, s) => (.fault c, s)
    | (.ok e, t) =>
      if s.pinBlocked e.va (2 ^ (12 + e.k)) then (.wait, s)
      else (if backed (e.addr v) then .ok (e.addr v) else .fault 0x46, t)

/-- Such translations of several addresses. -/
def State.openAll (asn root : Nat) (k : AccessKind) : List Word → State → PinnedAll × State
  | [], s => (.ok [], s)
  | va :: t, s =>
    match s.openPage asn root va k with
    | (.fault c, s) => (.fault c va, s)
    | (.wait, s) => (.wait, s)
    | (.ok pa, s) =>
      match openAll asn root k t s with
      | (.ok l, s) => (.ok (pa :: l), s)
      | r => r

/-- The target's check and translation of an access through a window: the physical addresses of its sectors, a wait, or the
refusal 0x72 (R282). -/
def State.windowAt (s : State) (w : Nat) (off : Int) (n : Nat) (k : AccessKind) : PinnedAll × State :=
  let e := s.fwin w
  let perm := match k with
    | .read => 116
    | _ => 117
  if !e.testBit 118 ∨ off < 0 ∨ bits e 103 64 < off.toNat + n ∨ !e.testBit perm then (.fault 0x72 0, s)
  else match s.rootOfAsn (bits e 115 104) with
    | none => (.fault 0x72 0, s.rootRead (bits e 115 104))
    | some root =>
      match State.openAll (bits e 115 104) root k (vaSectors (windowBase e + BitVec.ofNat 64 off.toNat) n)
          (s.rootRead (bits e 115 104)) with
      | (.fault _ _, s) => (.fault 0x72 0, s)
      | r => r

/-- Bytes read through a window. -/
def State.windowRead (s : State) (w : Nat) (off : Int) (n : Nat) : Got × State :=
  match s.windowAt w off n .read with
  | (.ok l, s) => let v := s.sectorBytes l (off.toNat % 64) n; (.ok v.1 v.2 [], s.touchHome l)
  | (.wait, _) => (.wait, s)
  | (.fault c a, s) => (.fault c a, s)

/-- Bytes written through a window. -/
def State.windowWrite (s : State) (w : Nat) (off : Int) (v : Piece) : PinnedAll × State :=
  match s.windowAt w off v.1.length .write with
  | (.ok l, s) => (.ok l, s.sectorStore l (off.toNat % 64) v)
  | (.wait, _) => (.wait, s)
  | r => r

/-- A LAND on a barrier object named through a window (R282, R287): none where it has to wait, else what it did with the
cause it raises, or a refusal. -/
def State.windowLand (s : State) (w : Nat) (off : Int) (n : Nat) : Option WindowReply × State :=
  if off % 16 ≠ 0 then (some (.done (some 0x67)), s)
  else match s.windowAt w off 16 .atomic with
    | (.ok (pa :: _), s) => let r := s.updGlobalBar pa (.land n); (some (.done r.2), r.1)
    | (.wait, _) => (none, s)
    | (_, s) => (some .refused, s)

/-- The window number of a window address. -/
def winOf (a : Word) : Nat := bits a.toNat 63 56

/-- The offset of a window address. -/
def winOff (a : Word) : Int := bits a.toNat 47 0

/-- Bytes whose listed 64-byte pieces are poisoned. -/
def withMarks (b : List Byte) (marks : List Nat) : Piece :=
  (b, (List.range b.length).map (fun i => marks.contains (i / 64)))

/-- Answers an access of another device. -/
def State.answered (s : State) (r : WindowReply) : State := { s with replies := s.replies ++ [r] }

/-- WINDOW_ACCESS (R282): an access of another device, which comes through a port that carries traffic (R281), is checked, performed
at the home slices and answered. One to a page that is being shot down is not taken yet (R29, assumption 130). -/
def execWindowAccess (a : Word) (kind : WindowKind) (n : Nat) (data : List Byte) (marks : List Nat) (s : State) : Out :=
  if !s.linked then .next s
  else if bits a.toNat 55 48 ≠ 0 then .next (s.answered .refused)
  else match kind with
    | .read => match s.windowRead (winOf a) (winOff a) n with
      | (.ok b p _, s) => .next (s.answered (.bytes (b, p)))
      | (.wait, _) => .next s
      | (.fault _ _, s) => .next (s.answered .refused)
    | .write => match s.windowWrite (winOf a) (winOff a) (withMarks data marks) with
      | (.ok _, s) => .next (s.answered (.done none))
      | (.wait, _) => .next s
      | (.fault _ _, s) => .next (s.answered .refused)
    | .land => match s.windowLand (winOf a) (winOff a) n with
      | (some r, s) => .next (s.answered r)
      | (none, _) => .next s

/-! ## Links (R278-R280) -/

/-- An event of a Strait port, offered to the severity matrix as the link class (R279, R343). -/
def linkEvent (cause port : Nat) : Event := { ev cause 3 4 port with cls := 10 }

/-- Replays of one flit or sector that was recovered: counted, logged and offered (R278-R280). -/
def State.replayed (s : State) (link tries lane : Nat) (e : Event) : State :=
  if tries = 0 then s
  else ((s.updLink link (fun k => { k with replays := k.replays + BitVec.ofNat 32 tries })).linkLog link 1 lane tries).offer e

/-- NARROWS_SECTOR_RECEIVE (R278, R280): a sector arrives after some replays, or is uncorrectable. -/
def execNarrowsSectorReceive (tries : BitVec 16) (ok : Bool) (s : State) : Out :=
  if ok then .next (s.replayed 18 tries.toNat 0xFF { ev 0xFF 3 0 0 with cls := 10 })
  else
    let s := s.updLink 18 (fun k => { k with replays := k.replays + tries.setWidth 32 })
    .next ((s.linkLog 18 5 0xFF tries.toNat).offer (ev 0x5B 3 0 0))

/-- Traffic for another device leaves through the ports that may carry it there (R281). -/
def State.onward (s : State) (dest : Nat) : State :=
  { s with outbox := s.outbox ++ [.onward (BitVec.ofNat 8 dest)
      ((s.portsTo dest).foldl (fun m p => m ||| ((1 : BitVec 18) <<< p)) 0)] }

/-- Traffic for another device that arrives here is routed on where the routing table forwards it; while no port reaches its
target it waits (R281). -/
def State.routedOn (s : State) (dest : Nat) : State :=
  if !s.forwards dest then s
  else if s.reaches dest then s.onward dest
  else { s with transit := s.transit ++ [BitVec.ofNat 8 dest] }

/-- Traffic that waited for a port leaves, once the ports or the routing table let it (R281). -/
def State.forwardTransit (s : State) : State :=
  let can := fun (d : BitVec 8) => s.forwards d.toNat && s.reaches d.toNat
  (s.transit.filter can).foldl (fun s d => s.onward d.toNat) { s with transit := s.transit.filter (fun d => !can d) }

/-- The lane that a link log names: one of the eight of a port, or none (R280). -/
def laneByte (lane : Byte) : Nat := if lane.toNat < 8 then lane.toNat else 0xFF

/-- STRAIT_FLIT_RECEIVE (R279, R281): a flit arrives that at most eight replays recovered; one for another device is routed
on. -/
def execStraitFlitReceive (port dest : Nat) (r : FlitReplays) (s : State) : Out :=
  if port < 18 ∧ s.portCarries port ∧ r.tries.toNat ≤ 8 then
    .next ((s.replayed port r.tries.toNat (laneByte r.lane) (linkEvent 0xFF port)).routedOn dest)
  else .next s

/-- Eight replays of a flit that all failed, and the retraining that follows, are counted (R279, R368). -/
def Link.retrained (k : Link) : Link :=
  { k with replays := k.replays + 8, retrains := if k.retrains.toNat = 65535 then k.retrains else k.retrains + 1 }

/-- LINK_RETRAIN (R279, R280): all eight replays failed, and the link retrained. -/
def execLinkRetrain (port : Nat) (lane : Byte) (s : State) : Out :=
  if port < 18 ∧ (s.link port).en ∧ (s.link port).up then
    .next (((s.updLink port Link.retrained).linkLog port 2 (laneByte lane) 8).offer (linkEvent 0xB3 port))
  else .next s

/-- LINK_TRAINED (R280, R281): an enabled port comes up and learns who is at its far end. -/
def execLinkTrained (port : Nat) (far : Byte) (fleet : BitVec 16) (s : State) : Out :=
  if port < 18 ∧ (s.link port).en ∧ !(s.link port).up then
    .next ((s.updLink port (fun k => { k with up := true, far := far, fleet := fleet })).linkLog port 4 0xFF 0).forwardTransit
  else .next s

/-- PORT_TRAIN_TIMEOUT (R279, R280): a port that could not retrain is taken down. -/
def execPortTrainTimeout (port : Nat) (lane : Byte) (s : State) : Out :=
  if port < 18 ∧ (s.link port).en then
    let s := s.updLink port (fun k => { k.retrained with up := false })
    .next ((s.linkLog port 3 (laneByte lane) 8).offer (linkEvent 0xB4 port))
  else .next s

/-- A write of LINKCTL.EN (R368): a port that is disabled goes down, which its log records (R280). -/
def State.enableLink (s : State) (port : Nat) (en : Bool) : State :=
  if 18 ≤ port then s
  else
    let was := (s.link port).up
    let s := s.updLink port (fun k => { k with en := en, up := k.up && en })
    if was && !en then s.linkLog port 3 0xFF 0 else s

/-- LINK_ENABLE (R368). -/
def execLinkEnable (port : Nat) (en : Bool) (s : State) : Out := s.ifBooted (s.enableLink port en)

end Sys2Proof.Machine
end

