-- ==== Sys2Proof/Machine/Sound.lean ====
section
/-! DEFINITION. The Sound engine: records and their checks, puts and gets, collectives and all-to-alls, and the queues'
halts (R283-R297). -/

namespace Sys2Proof.Machine

/-! ## Records (R285, R286) -/

/-- The command that a 64-byte record describes, for an instruction of a kind (R285). -/
def soundOf (kind : Nat) (b : List Byte) : SoundCmd :=
  { kind := kind, laddr := BitVec.ofNat 64 (field b 0 8), raddr := BitVec.ofNat 64 (field b 8 8),
    peer := BitVec.ofNat 16 (field b 0x10 2), opf := b.getD 0x12 0, flags := b.getD 0x13 0, len := field b 0x14 4,
    nrows := field b 0x18 4, lstr := BitVec.ofNat 32 (field b 0x1C 4), rstr := BitVec.ofNat 32 (field b 0x20 4),
    tag := BitVec.ofNat 32 (field b 0x24 4), bar := BitVec.ofNat 64 (field b 0x28 8),
    rbar := BitVec.ofNat 64 (field b 0x30 8), sbstr := BitVec.ofNat 32 (field b 0x38 4),
    dbstr := BitVec.ofNat 32 (field b 0x3C 4), group := [], started := false, row := 0, off := 0, sent := false,
    held := 0, owed := 0, seq := 0, since := 0 }

/-- LLOC: LADDR is local. -/
def SoundCmd.lloc (c : SoundCmd) : Bool := c.flags.getLsbD 0
/-- DLOC: RADDR is local. -/
def SoundCmd.dloc (c : SoundCmd) : Bool := c.flags.getLsbD 1
/-- BARLOC: BAR is local. -/
def SoundCmd.barloc (c : SoundCmd) : Bool := c.flags.getLsbD 2
/-- The DEVID or group number. -/
def SoundCmd.target (c : SoundCmd) : Nat := c.peer.toNat % 256
/-- The operation of a collective. -/
def SoundCmd.op (c : SoundCmd) : Nat := bits c.opf.toNat 5 4
/-- ROOT. -/
def SoundCmd.root (c : SoundCmd) : Bool := c.opf.getLsbD 6

/-- A row length that R285 and R289 allow. -/
def SoundCmd.lenOk (c : SoundCmd) : Bool :=
  decide (1 ≤ c.len) && decide (c.len ≤ 0x100_0000) &&
    (c.kind != 2 || (if c.op = 2 then c.len == 576 else c.len % 64 == 0))

/-- A malformed record (the first two rows of R286's table). -/
def SoundCmd.malformed (c : SoundCmd) : Bool :=
  bits c.flags.toNat 7 3 != 0 || c.peer.toNat / 256 != 0 || (c.kind != 2 && (c.opf != 0 || c.dloc)) ||
    (c.kind < 2 && c.tag != 0) || (2 ≤ c.kind && c.tag == 0) || (c.kind != 0 && c.rbar != 0) ||
    (c.kind != 3 && (c.sbstr != 0 || c.dbstr != 0)) || (c.kind != 2 && bits c.raddr.toNat 55 48 != 0) ||
    bits c.rbar.toNat 55 48 != 0 || !c.lenOk || c.nrows == 0 || 65536 < c.nrows ||
    (c.kind == 2 && (c.op == 3 || !(([4, 10, 11] : List Nat).contains (bits c.opf.toNat 3 0))))

/-- The first address of block `j` of an all-to-all, or of the rows of another command (R292). -/
def SoundCmd.block (c : SoundCmd) (j : Nat) : Word := rowAddr c.laddr c.sbstr j

/-- The blocks a command's local side has: one for each rank of an all-to-all. -/
def SoundCmd.blocks (c : SoundCmd) : List Nat := if c.kind = 3 then List.range c.group.length else [0]

/-- The local extents at LADDR: the first address of each run of rows (R285). -/
def SoundCmd.sources (c : SoundCmd) : List Word := if c.lloc then c.blocks.map c.block else []

/-- Whether the local extents of a command lie in the allocation (R285). -/
def SoundCmd.within (c : SoundCmd) (limit : Nat) : Bool :=
  c.sources.all (fun a => rowsWithin a c.lstr c.len c.nrows limit) &&
    (!(c.kind == 2 && c.dloc) || rowsWithin c.raddr c.rstr c.len c.nrows limit)

/-- The banks, of the local numbering, that rows of `len` bytes touch (R61). -/
def banksOfRows (len : Nat) (rows : List Word) : BitVec 32 :=
  rows.foldl (fun m a => (List.range ((a.toNat + len - 1) / 65536 - a.toNat / 65536 + 1)).foldl
    (fun m k => m ||| ((1 : BitVec 32) <<< (a.toNat / 65536 + k))) m) 0

/-- The banks of the rows at LADDR. -/
def SoundCmd.nearBanks (c : SoundCmd) : BitVec 32 :=
  banksOfRows c.len (c.sources.flatMap (fun a => (List.range c.nrows).map (rowAddr a c.lstr)))

/-- The banks of a collective's local destination. -/
def SoundCmd.farBanks (c : SoundCmd) : BitVec 32 :=
  if c.kind = 2 ∧ c.dloc then banksOfRows c.len ((List.range c.nrows).map (rowAddr c.raddr c.rstr)) else 0

/-! ## Groups (R283) -/

/-- The ranks of a group descriptor, or none where it is malformed (R283). -/
def groupRanks (b : List Byte) : Option (List (BitVec 16)) :=
  let n := field b 0 2
  let r := (List.range n).map (fun k => field b (64 + 2 * k) 2)
  if n = 0 ∨ 512 < n ∨ (slice b 2 62).any (· != 0) ∨ r.any (fun e => e < 0x8000 || bits e 14 9 != 0) ∨ !(decide r.Nodup)
  then none else some (r.map (fun e => BitVec.ofNat 16 (e % 512)))

/-- The rank that names this device and a die. -/
def State.rankId (s : State) (die : Nat) : BitVec 16 := BitVec.ofNat 16 (s.devid + 256 * die)

/-- The descriptor of a group, read at issue (R283, R286): its ranks, or the cause with its EINFO; and the state after the
read. -/
def State.groupAt (s : State) (core x g : Nat) : Except (Byte × Option Word) (List (BitVec 16)) × State :=
  match s.bareRead (s.asnOf core x) (s.rootOf core x) (s.regs.grpbase + BitVec.ofNat 64 (1088 * g)) 1088 with
  | (.error e, s) => (.error (e.1, some e.2), s)
  | (.ok v, s) =>
    (if v.2.any id then .error (0x73, none)
     else match groupRanks v.1 with
      | some r => if r.contains (s.rankId (coreDie core)) then .ok r else .error (0x73, none)
      | none => .error (0x73, none), s)

/-! ## Issue (R286) -/

/-- A command with what its group descriptor gives, and the state after the descriptor is read. -/
def State.withGroup (s : State) (c : SoundCmd) : SoundCmd × State :=
  if c.kind < 2 then (c, s)
  else let r := s.groupAt s.cur s.x c.target; ({ c with group := r.1.toOption.getD [] }, r.2)

/-- The checks of a record, in the order of R286's table; the extents of an all-to-all, which the number of ranks
decides, come after its group. -/
def State.soundEnd (s : State) (c : SoundCmd) (q : Nat) : SlotEnd :=
  let limit := 65536 * s.me.task.elim 0 (·.banks)
  let room := if s.me.queueFull true q then SlotEnd.block (.queue true q) else .commit
  (need (!c.malformed) 0x70).and
    ((need ((c.kind == 3 || c.within limit) && !(c.bar != 0 && c.barloc && decide (limit < c.bar.toNat + 16))) 0x49).and
      ((need (c.bar.toNat % 16 == 0 && c.rbar.toNat % 16 == 0) 0x67).and
        (if c.kind < 2 then (need (s.peerKnown c.target) 0x71).and room
         else match (s.groupAt s.cur s.x c.target).1 with
          | .error e => .trap 13 e.1 e.2 0 0
          | .ok _ => (need ((s.withGroup c).1.within limit) 0x49).and room)))

/-- `fput`, `fget`, `fcoll` and `fa2a`: the command joins its queue and its banks the reservation table (R286). -/
def soundIssue (v : View) (kind q : Nat) (s : State) : Out :=
  issue v
    (fun s x => s.recordEnd (lo64 x.a) 64 64 0x70 (fun b => s.soundEnd (soundOf kind b) q))
    (fun x s => match s.recordBytes (lo64 x.a) 64 with
      | none => s.consumed
      | some b =>
        let r := s.withGroup (soundOf kind b)
        let c := r.1
        let s := r.2
        let set := c.nearBanks ||| c.farBanks
        let s := s.reserve s.cur (bankList (s.me.task.elim 0 (·.b0)) set) true
        { s.upd (fun k => k.enqueue true q (.sound { c with held := set, seq := s.soundSeq })) with
          soundSeq := s.soundSeq + 1 }) s

/-- `fput` (R286, R287). -/
def execFput (o : QA) (s : State) : Out := soundIssue (viewOf (.fput o)) 0 o.q.toNat s

/-- `fget` (R286, R287). -/
def execFget (o : QA) (s : State) : Out := soundIssue (viewOf (.fget o)) 1 o.q.toNat s

/-- `fcoll` (R286, R289). -/
def execFcoll (o : QA) (s : State) : Out := soundIssue (viewOf (.fcoll o)) 2 o.q.toNat s

/-- `fa2a` (R286, R292). -/
def execFa2a (o : QA) (s : State) : Out := soundIssue (viewOf (.fa2a o)) 3 o.q.toNat s

/-- The commands now in the Sound-engine queues that a mask names. -/
def Ctx.fwaitNames (c : Ctx) (m : BitVec 2) : List Nat :=
  ((List.range 2).filter (fun q => m.getLsbD q)).flatMap (fun q => (c.soundQ q).entries.filterMap (fun e => match e with
    | .sound k => some k.seq
    | _ => none))

/-- `fwait` (R288). -/
def execFwait (m : BitVec 2) (p : BitVec 2) (s : State) : Out :=
  issue (viewOf (.fwait m p))
    (fun s _ => if (s.me.fwaitNames m).isEmpty then .commit else .block (.fwait (s.me.fwaitNames m)))
    (fun _ s => s) s

/-! ## Queues -/

/-- The head command of a queue. -/
def Ctx.soundHead (c : Ctx) (q : Nat) : Option SoundCmd :=
  match (c.soundQ q).entries.head? with
  | some (.sound k) => some k
  | _ => none

/-- Changes the head command of a queue. -/
def Ctx.setSoundHead (c : Ctx) (q : Nat) (k : SoundCmd) : Ctx :=
  c.setSoundQ q { c.soundQ q with entries := .sound k :: (c.soundQ q).entries.drop 1 }

/-- A context with a queue halted at its head (R284, R294). -/
def Ctx.haltSoundQ (c : Ctx) (q : Nat) (cause : Byte) : Ctx :=
  c.setSoundQ q { c.soundQ q with halt := true, cause := cause }

/-- A context with a queue that is not halted. -/
def Ctx.freeSoundQ (c : Ctx) (q : Nat) : Ctx := c.setSoundQ q { c.soundQ q with halt := false, cause := 0 }

/-- A context whose head command has left its queue. -/
def Ctx.popSound (c : Ctx) (q : Nat) : Ctx :=
  (c.setSoundQ q { c.soundQ q with entries := (c.soundQ q).entries.drop 1 }).settleJoins

/-- Halts a queue at its head command and delivers the cause as a late fault of the queue (R294). -/
def State.haltSound (s : State) (core x q : Nat) (cause : Byte) (info : Word) : State :=
  (s.updCtx core x (fun c => c.haltSoundQ q cause)).agentFault core x cause (4 + q) 0 info 3

/-- Takes banks out of the reservation table that a command no longer needs, down to `keep` (R285). -/
def State.releaseSound (s : State) (core x : Nat) (c : SoundCmd) (keep : BitVec 32) : State :=
  s.reserve core (bankList ((s.ctx core x).task.elim 0 (·.b0)) (c.held &&& ~~~keep)) false

/-- The Sound engine as a holder of pins for a queue's command. -/
def soundHolder (core x q : Nat) : PinHolder := { core := core, x := x, holder := .sound q }

/-- The head command gives up its banks and pins and leaves its queue. -/
def State.finishSound (s : State) (core x q : Nat) (c : SoundCmd) : State :=
  ((s.releaseSound core x c 0).dropPins (soundHolder core x q)).updCtx core x (fun k => k.popSound q)

/-! ## Puts and gets (R287) -/

/-- Reads of the issuing task's side of a transfer: a global page is pinned first (R27), and read at the home slices (R65). -/
def State.nearRead (s : State) (core x q : Nat) (loc : Bool) (a : Word) (n : Nat) : Got × State :=
  if loc then (.ok (s.localBytes core x a.toNat n).1 (s.localPoison core x a.toNat n) [], s)
  else match s.pinnedAll (soundHolder core x q) .read (vaSectors a n) with
    | (.wait, _) => (.wait, s)
    | (.fault c va, s) => (.fault c va, s)
    | (.ok l, s) => let v := s.sectorBytes l (a.toNat % 64) n; (.ok v.1 v.2 [], s.touchHome l)

/-- Writes of the issuing task's side. -/
def State.nearWrite (s : State) (core x q : Nat) (loc : Bool) (a : Word) (v : Piece) : PinnedAll × State :=
  if loc then (.ok [], s.copyLocal core x a.toNat v)
  else match s.pinnedAll (soundHolder core x q) .write (vaSectors a v.1.length) with
    | (.ok l, s) => (.ok l, s.sectorStore l (a.toNat % 64) v)
    | (.wait, _) => (.wait, s)
    | r => r

/-- An update of a barrier object of the issuing task (R62, R63). -/
def State.soundBar (s : State) (core x : Nat) (loc : Bool) (a : Word) (u : BarOp) : Counted × State :=
  let answer := fun (r : State × Option Byte) (t : State) => match r.2 with
    | some 0x67 => (Counted.refused 0x67 0, t)
    | c => (Counted.done c, r.1)
  if loc then answer (s.updLocalBar core x a.toNat u) s
  else match s.translateBare (s.asnOf core x) (s.rootOf core x) a .atomic with
    | (.fault c, s) => (.refused c a, s)
    | (.ok pa, t) => answer (t.updGlobalBar pa u) t

/-- The place of a command's next byte at LADDR. -/
def SoundCmd.near (c : SoundCmd) : Word := rowAddr c.laddr c.lstr c.row + BitVec.ofNat 64 c.off

/-- The window offset of a command's next byte. -/
def SoundCmd.far (c : SoundCmd) : Int := winOff c.raddr + (c.row : Int) * stride c.rstr + (c.off : Int)

/-- A command after `n` more bytes of its row have landed, `owed` of which are still to be counted. -/
def SoundCmd.moved (c : SoundCmd) (n owed now : Nat) : SoundCmd :=
  if c.off + n = c.len then { c with row := c.row + 1, off := 0, owed := owed, since := now }
  else { c with off := c.off + n, owed := owed, since := now }

/-- Moves `n` bytes between the task and a window of this device (R287). -/
def State.soundMove (s : State) (core x q : Nat) (c : SoundCmd) (n : Nat) : PinnedAll × State :=
  if c.kind = 0 then
    match s.nearRead core x q c.lloc c.near n with
    | (.wait, _) => (.wait, s)
    | (.fault e i, s) => (.fault e i, s)
    | (.ok b bad _, s) => s.windowWrite (winOf c.raddr) c.far (b, bad)
  else
    match s.windowRead (winOf c.raddr) c.far n with
    | (.wait, _) => (.wait, s)
    | (.fault e i, s) => (.fault e i, s)
    | (.ok b bad _, s) => s.nearWrite core x q c.lloc c.near (b, bad)

/-- Counts landed bytes: on BAR for a get, on RBAR at the target for a put to this device (R287); none where the count has to
wait for a pin. -/
def State.soundCount (s : State) (core x : Nat) (c : SoundCmd) : Option (Counted × State) :=
  if c.owed = 0 then some (.done none, s)
  else if c.kind = 1 then some (s.soundBar core x c.barloc c.bar (.land c.owed))
  else match s.windowLand (winOf c.rbar) (winOff c.rbar) c.owed with
    | (none, _) => none
    | (some (.done (some 0x67)), s) => some (.refused 0x67 0, s)
    | (some (.done k), s) => some (.done k, s)
    | (some _, s) => some (.refused 0x72 0, s)

/-- A queue halted with its head command as it stands (R294). -/
def State.soundStop (s : State) (core x q : Nat) (c : SoundCmd) (cause : Byte) (info : Word) : State :=
  (s.updCtx core x (fun k => k.setSoundHead q c)).haltSound core x q cause info

/-- A command whose landed bytes are all counted goes on: after its last row a get is done, and a put waits for the
acknowledgement of its bytes (R287). A saturated count is a late fault (R63). -/
def State.soundCounted (s : State) (core x q : Nat) (c : SoundCmd) (fault : Option Byte) : State :=
  let s := fault.elim s (fun e => s.lateFault core x e (4 + q) 0 0 3)
  let c := { c with owed := 0, since := s.cycle }
  if c.row < c.nrows then s.updCtx core x (fun k => k.setSoundHead q c)
  else if c.kind = 1 then s.finishSound core x q c
  else s.updCtx core x (fun k => k.setSoundHead q { c with sent := true })

/-- Counts what a command owes; one that is refused halts the queue (R287, R294). -/
def State.soundPay (s : State) (core x q : Nat) (c : SoundCmd) : Option State :=
  (s.soundCount core x c).map (fun r => match r with
    | (.refused e i, s) => s.soundStop core x q c e i
    | (.done f, s) => s.soundCounted core x q c f)

/-- What bytes that land owe: nothing where no barrier object is named (R285, R287). -/
def SoundCmd.owes (c : SoundCmd) (n : Nat) : Nat := if (if c.kind = 1 then c.bar else c.rbar) = 0 then 0 else n

/-- The head command after `n` more bytes have landed. With its last local byte its banks leave the reservation table, before
the bytes are counted (R49, R285). -/
def State.soundMoved (s : State) (core x q : Nat) (c : SoundCmd) (n : Nat) : SoundCmd × State :=
  let c := c.moved n (c.owes n) s.cycle
  let r := if c.row < c.nrows then (c, s) else ({ c with held := 0 }, s.releaseSound core x c 0)
  (r.1, r.2.updCtx core x (fun k => k.setSoundHead q r.1))

/-- The bytes of the next piece of a transfer within this device. -/
def SoundCmd.pieceLen (c : SoundCmd) : Nat := Nat.min 512 (c.len - c.off)

/-- A command whose bytes have moved: what it owes is counted after the transfers of the cycle (R60); one that owes nothing goes on. -/
def State.soundLanded (s : State) (core x q : Nat) (c : SoundCmd) : State :=
  if c.owed = 0 then s.soundCounted core x q c none else s

/-- One piece of a transfer within this device; none where a pin has to wait (R27, R287). -/
def State.soundPiece (s : State) (core x q : Nat) (c : SoundCmd) : Option State :=
  match s.soundMove core x q c c.pieceLen with
  | (.wait, _) => none
  | (.fault e i, s) => some (s.soundStop core x q c e i)
  | (.ok _, s) => let m := s.soundMoved core x q c c.pieceLen; some (m.2.soundLanded core x q m.1)

/-- What another device's answer does to a transfer of the rest of a row, or to the count of a row that it has taken (R282,
R287, R294); none where nothing comes of it. -/
def State.soundReply (s : State) (core x q : Nat) (c : SoundCmd) (reply : RemoteReply) : Option State :=
  let n := c.len - c.off
  match reply with
  | .none => if ((s.ctx core x).soundHead q).any (·.started) then none else some (s.updCtx core x (fun k => k.setSoundHead q c))
  | .refused => some (s.soundStop core x q c 0x72 0)
  | .unreachable => some (s.soundStop core x q c 0x71 0)
  | .accepted =>
    if c.kind ≠ 0 ∨ c.owed ≠ 0 then none
    else match s.nearRead core x q c.lloc c.near n with
      | (.wait, _) => none
      | (.fault e i, s) => some (s.soundStop core x q c e i)
      | (.ok b bad _, s) =>
        let a := c.raddr + BitVec.ofInt 64 (c.far - winOff c.raddr)
        let m := ({ s with outbox := s.outbox ++ [Sent.write (BitVec.ofNat 8 c.target) a (b, bad)] } : State).soundMoved core x q c n
        some (m.2.soundLanded core x q m.1)
  | .counted f =>
    if c.kind ≠ 0 ∨ c.owed = 0 then none
    else
      let s := { s with outbox := s.outbox ++ [Sent.land (BitVec.ofNat 8 c.target) c.rbar c.owed] }
      some (if f = some 0x67 then s.soundStop core x q c 0x67 0 else s.soundCounted core x q c f)
  | .bytes d marks =>
    if c.kind = 0 ∨ d.length ≠ n then none
    else match s.nearWrite core x q c.lloc c.near (withMarks d marks) with
      | (.wait, _) => none
      | (.fault e i, s) => some (s.soundStop core x q c e i)
      | (.ok _, s) => let m := s.soundMoved core x q c n; some (m.2.soundLanded core x q m.1)

/-- Whether a queue's head is a put or get that may move: the queue is not halted, it has rows or counts to go, and a
context that is being saved starts none (R284, R294, R295). -/
def State.soundReady (s : State) (core x q : Nat) : Bool :=
  let c := s.ctx core x
  c.task.isSome && !(c.soundQ q).halt && (c.soundHead q).any (fun k => decide (k.kind < 2) && !k.sent && (k.started || !c.save.halted))

/-- Whether a command's next action is this device's own: its target is a window here, or a get has bytes to count. -/
def State.soundHere (s : State) (c : SoundCmd) : Bool := c.target == s.devid || (c.kind == 1 && c.owed != 0)

/-- What a queue's head command does next, with what another device answers, where it needs that; none where nothing happens
(R287, R294). -/
def State.soundNext (s : State) (core x q : Nat) (reply : RemoteReply) : Option State :=
  if !s.soundReady core x q then none
  else ((s.ctx core x).soundHead q).bind (fun c =>
    let c := if c.started then c else { c with started := true, since := s.cycle }
    if s.soundHere c then (if c.owed = 0 then s.soundPiece core x q c else s.soundPay core x q c)
    else if !s.reaches c.target then some (s.soundStop core x q c 0x71 0)
    else s.soundReply core x q c reply)

/-- SOUND_TRANSFER (R287): a piece of a row moves. Towards another device, what that device answers decides. -/
def execSoundTransfer (core x q : Nat) (reply : RemoteReply) (s : State) : Out :=
  .next ((s.soundNext core x q reply).getD s)

/-- Whether a queue's head is a put whose bytes have all been sent (R287). -/
def State.ackReady (s : State) (core x q : Nat) : Bool :=
  let c := s.ctx core x
  c.task.isSome && !(c.soundQ q).halt && (c.soundHead q).any (·.sent)

/-- SOUND_ACKNOWLEDGEMENT (R287): every byte of a put is acknowledged, and its OUTDONE is counted. -/
def execSoundAcknowledgement (core x q : Nat) (s : State) : Out :=
  if !s.ackReady core x q then .next s
  else match (s.ctx core x).soundHead q with
    | none => .next s
    | some c =>
      if c.bar = 0 then .next (s.finishSound core x q c)
      else match s.soundBar core x c.barloc c.bar .outdone with
        | (.refused e i, s) => .next (s.haltSound core x q e i)
        | (.done f, s) => .next ((f.elim s (fun e => s.lateFault core x e (4 + q) 0 0 3)).finishSound core x q c)

/-! ## Members of a collective, on their context or saved -/

/-- Where a task runs, if it does. -/
def State.placeOf (s : State) (launch task : Nat) : Option (Nat × Nat) :=
  (s.ctxs.find? (fun e => e.2.task.any (fun t => t.launch == launch && t.task == task))).map (fun e => (e.1 / 4, e.1 % 4))

/-- Whether a task is saved. -/
def State.isSaved (s : State) (launch task : Nat) : Bool :=
  s.saved.any (fun v => v.launch == launch && v.task.task == task)

/-- Keeps an effect on a member whose task is saved until the task runs again (R295). -/
def State.heldFor (s : State) (m : Member) (e : HeldEffect) : State :=
  { s with heldResults := s.heldResults ++ [{ launch := m.launch, task := m.task, q := m.q, effect := e }] }

/-- Whether a member's command is still in its queue: its task has been neither ended nor killed since it joined. -/
def State.memberAlive (s : State) (m : Member) : Bool :=
  match s.placeOf m.launch m.task with
  | some p => (s.ctx p.1 p.2).soundSeqs.contains m.cmd.seq
  | none => s.isSaved m.launch m.task

/-- A late fault of a member's queue, kept with a saved task until it runs again (R294, R295). -/
def State.memberFault (s : State) (m : Member) (cause : Byte) (info : Word) : State :=
  match s.placeOf m.launch m.task with
  | some p => s.lateFault p.1 p.2 cause (4 + m.q) 0 info 3
  | none => match s.saved.find? (fun v => v.launch == m.launch && v.task.task == m.task) with
    | none => s
    | some v =>
      let r := s.reportSaved v { taskEv cause.toNat 3 v.core v.task with info := info }
      if r.2 then r.1.heldFor m (.fault cause info s.cycle) else r.1

/-- Halts a member's queue with a cause (R294). -/
def State.haltMember (s : State) (m : Member) (cause : Byte) (info : Word) : State :=
  let s := match s.placeOf m.launch m.task with
    | some p => s.updCtx p.1 p.2 (fun c => c.haltSoundQ m.q cause)
    | none => s.heldFor m (.halt cause)
  s.memberFault m cause info

/-- The ranks of a group on this device. -/
def State.ownRanks (s : State) (c : Coll) : List Nat :=
  (List.range c.ranks.length).filter (fun r => (c.ranks.getD r 0).toNat % 256 == s.devid)

/-- Puts a collective back in its place, or takes it away once every rank of this device has finished. -/
def State.setColl (s : State) (i : Nat) (c : Coll) : State :=
  if (s.ownRanks c).all (fun r => c.finished.contains r) then { s with colls := s.colls.eraseIdx i }
  else { s with colls := s.colls.set i c }

/-- The address space of a launch. -/
def State.spaceOf (s : State) (launch : Nat) : Nat × Nat := (s.launch launch).elim (0, 0) (fun l => (l.asn, l.ptroot))

/-- What a count at a member's BAR did: the late fault of a refused or saturated one, which halts nothing, or the cause and EINFO
of a translation that faults, which halts the queue (R294). -/
def State.memberCounted (m : Member) : Counted × State → Option (Byte × Word) × State
  | (.refused 0x67 i, s) => (none, s.memberFault m 0x67 i)
  | (.refused e i, s) => (some (e, i), s)
  | (.done f, s) => (none, f.elim s (fun e => s.memberFault m e 0))

/-- Counts bytes at a member's BAR (R294). For a saved task a count on a local object, and every count of rows that are held, is held
with them (R295). -/
def State.countMember (s : State) (m : Member) (n : Nat) : Option (Byte × Word) × State :=
  if m.cmd.bar = 0 then (none, s)
  else match s.placeOf m.launch m.task with
    | some p => State.memberCounted m (s.soundBar p.1 p.2 m.cmd.barloc m.cmd.bar (.land n))
    | none =>
      if m.cmd.barloc || m.cmd.dloc then (none, s.heldFor m (.count m.cmd.barloc m.cmd.bar n))
      else
        let sp := s.spaceOf m.launch
        match s.translateBare sp.1 sp.2 m.cmd.bar .atomic with
        | (.fault e, s) => (some (e, m.cmd.bar), s)
        | (.ok pa, t) => let r := t.updGlobalBar pa (.land n); State.memberCounted m (.done r.2, r.1)

/-- A member with `n` bytes landed that are still to be counted (R60). -/
def Member.owing (m : Member) (n : Nat) : Member := { m with cmd := { m.cmd with owed := n } }

/-- Counts what the members of a collective that ends still owe: every row written is counted (R294). -/
def State.countAll (s : State) (l : List Member) : State :=
  l.foldl (fun s m => if m.cmd.owed = 0 || !s.memberAlive m then s else (s.countMember m m.cmd.owed).2) s

/-- The ranks that fault in their own right do so with the causes given; every other rank that has joined and not
finished halts with the cause of an abort, and the collective is over (R289, R294). -/
def State.abortColl (s : State) (i : Nat) (c : Coll) (own : List Nat) (cause : Byte) : State :=
  let left := c.members.filter (fun m => !c.finished.contains m.rank && !own.contains m.rank)
  (left.foldl (fun s m => s.haltMember m cause 0) (s.countAll c.members)).setColl i
    { c with failed := true, finished := c.finished ++ own ++ left.map (·.rank) }

/-! ## Joining (R289) -/

/-- The place of a rank in a group. -/
def SoundCmd.rankOf (c : SoundCmd) (id : BitVec 16) : Nat := c.group.findIdx (· == id)

/-- The engine queues of the tasks of a die, on a context or saved, with the commands that wait in them (R289). -/
def State.dieSound (s : State) (die : Nat) : List QEntry :=
  let own := fun (c : Ctx) => ([0, 1] : List Nat).flatMap (fun q => (c.soundQ q).entries)
  (s.ctxs.filter (fun e => e.2.task.isSome && coreDie (e.1 / 4) == die)).flatMap (fun e => own e.2) ++
    (s.saved.filter (fun v => coreDie v.core == die)).flatMap (fun v => own v.ctx)

/-- Whether an entry is a command that names the same collective, was issued earlier, and has not joined it. -/
def QEntry.before (c : SoundCmd) : QEntry → Bool
  | .sound k => decide (2 ≤ k.kind) && k.target == c.target && k.tag == c.tag && !k.started && decide (k.seq < c.seq)
  | _ => false

/-- Whether a queue's head is a collective or all-to-all that may join: commands of a die with the same group and TAG join in
the order of their issue (R289; assumption 131). -/
def State.joinReady (s : State) (core x q : Nat) : Bool :=
  let c := s.ctx core x
  c.task.isSome && !(c.soundQ q).halt && !c.save.halted && (c.soundHead q).any (fun k =>
    decide (2 ≤ k.kind) && !k.started && !(s.dieSound (coreDie core)).any (QEntry.before k))

/-- The addresses of the rows that a rank brings: its contribution, or its blocks one after another (R289, R292). -/
def SoundCmd.brings (c : SoundCmd) : List Word :=
  c.blocks.flatMap (fun j => (List.range c.nrows).map (rowAddr (c.block j) c.lstr))

/-- What reading the rows of a rank answers: the rows, a wait for a pin, or a fault. -/
inductive Rows where
  | ok (l : List Piece)
  | wait
  | fault (cause : Byte) (va : Word)
  deriving DecidableEq, Repr

/-- Reads the rows a rank brings. -/
def State.readRows (core x q : Nat) (c : SoundCmd) : List Word → State → Rows × State
  | [], s => (.ok [], s)
  | a :: t, s =>
    match s.nearRead core x q c.lloc a c.len with
    | (.wait, s) => (.wait, s)
    | (.fault e i, s) => (.fault e i, s)
    | (.ok b bad _, s) =>
      match readRows core x q c t s with
      | (.ok l, s) => (.ok ((b, bad) :: l), s)
      | r => r

/-- The die of a rank of this device. -/
def Coll.dieOf (c : Coll) (r : Nat) : Nat := (c.ranks.getD r 0).toNat / 256

/-- Whether a collective of a group and tag is in progress on a die (R289). -/
def Coll.inProgressAt (c : Coll) (group tag die : Nat) : Bool :=
  c.group == group && c.tag == tag && !c.failed && c.members.any (fun m => c.dieOf m.rank == die && !c.finished.contains m.rank)

/-- Whether rank `r` of a die, of a command whose group has the same ranks, may still join a collective. -/
def Coll.openTo (c : Coll) (k : SoundCmd) (die r : Nat) : Bool :=
  c.group == k.target && c.tag == k.tag.toNat && c.ranks == k.group && !c.finished.contains r &&
    !c.members.any (fun m => c.dieOf m.rank == die)

/-- The collective that a command of a die joins, which is a new one where none waits for its rank. -/
def State.collFor (s : State) (c : SoundCmd) (die r : Nat) : State × Nat :=
  match s.colls.findIdx? (fun k => k.openTo c die r) with
  | some i => (s, i)
  | none => ({ s with colls := s.colls ++ [{ group := c.target, tag := c.tag.toNat, ranks := c.group, members := [],
                                             result := none, finished := [], blocks := [], failed := false, since := s.cycle }] },
             s.colls.length)

/-- Whether a rank still has local bytes to write once it has joined: the result rows of a local destination (R285, R289). -/
def SoundCmd.writesLocal (c : SoundCmd) (r : Nat) : Bool := c.kind == 2 && c.dloc && !(c.root && r != 0)

/-- A rank takes part in a collective: its rows enter the engine, and it waits for the others. With its last local byte its banks
leave the reservation table (R285). -/
def State.joined (s : State) (core x q i r : Nat) (t : Task) (c : SoundCmd) (k : Coll) (rows : List Piece) : State :=
  let s := if c.writesLocal r then s else s.releaseSound core x c 0
  let c := if c.writesLocal r then c else { c with held := 0 }
  let m : Member := { rank := r, launch := t.launch, task := t.task, q := q, cmd := c, rows := rows }
  (s.updCtx core x (fun k => k.setSoundHead q c)).setColl i { k with members := k.members ++ [m], since := s.cycle }

/-- A command that starts joins its collective, or halts with what keeps it from that; none where a pin has to wait (R27, R289,
R294). -/
def State.soundJoin (s : State) (core x q : Nat) (t : Task) (c : SoundCmd) : Option State :=
  let r := c.rankOf (s.rankId (coreDie core))
  let c := { c with started := true, since := s.cycle }
  let s := s.updCtx core x (fun k => k.setSoundHead q c)
  if s.colls.any (fun k => k.inProgressAt c.target c.tag.toNat (coreDie core)) then some (s.haltSound core x q 0x74 0)
  else
    let p := s.collFor c (coreDie core) r
    match p.1.colls[p.2]? with
    | none => some p.1
    | some k =>
      if k.failed then some ((p.1.haltSound core x q 0x76 0).setColl p.2 { k with finished := k.finished ++ [r] })
      else if c.group.any (fun e => e.toNat % 256 != s.devid && !s.reaches (e.toNat % 256)) then
        some ((p.1.haltSound core x q 0x71 0).abortColl p.2 k [r] 0x76)
      else match State.readRows core x q c c.brings p.1 with
        | (.wait, _) => none
        | (.fault e i, s) => some ((s.haltSound core x q e i).abortColl p.2 k [r] 0x76)
        | (.ok rows, s) => some (s.joined core x q p.2 r t c k rows)

/-- The join that a queue's head command can make now. -/
def State.joinNext (s : State) (core x q : Nat) : Option State :=
  if !s.joinReady core x q then none
  else match (s.ctx core x).task, (s.ctx core x).soundHead q with
    | some t, some c => s.soundJoin core x q t c
    | _, _ => none

/-- COLLECTIVE_JOIN (R289, R294): the command starts, its rank's rows enter the engine, and it waits for the others. -/
def execCollectiveJoin (core x q : Nat) (s : State) : Out := .next ((s.joinNext core x q).getD s)

/-! ## Running (R289-R292) -/

/-- The rank of a remote share. -/
def shareRank : RemoteShare → Nat
  | .rows r _ _ _ _ _ => r
  | .aborted r => r

/-- Whether a remote share is an abort. -/
def shareAborted : RemoteShare → Bool
  | .aborted _ => true
  | _ => false

/-- Whether a share agrees with a command in operation, wire format, ROOT, NORM, LEN and NROWS (R289). -/
def shareAgrees (c : SoundCmd) : RemoteShare → Bool
  | .rows _ opf len nrows _ _ => opf == c.opf && len == c.len && nrows == c.nrows
  | .aborted _ => false

/-- The rows of a remote share. -/
def shareRows : RemoteShare → List Piece
  | .rows _ _ len nrows d marks =>
    let n := (len + 63) / 64
    (List.range nrows).map (fun i => withMarks (slice d (len * i) len)
      ((List.range n).filter (fun k => marks.contains (n * i + k))))
  | .aborted _ => []

/-- Whether two members agree (R289). -/
def membersAgree (a b : SoundCmd) : Bool := a.kind == b.kind && a.opf == b.opf && a.len == b.len && a.nrows == b.nrows

/-- The first collective of a group and tag that waits to run. -/
def State.waitingColl (s : State) (group tag : Nat) : Option Nat :=
  s.colls.findIdx? (fun k => k.group == group && k.tag == tag && !k.failed && k.result.isNone)

/-- Whether every rank of this device has joined. -/
def State.allJoined (s : State) (c : Coll) : Bool := (s.ownRanks c).all (fun r => c.members.any (fun m => m.rank == r))

/-- The rows of every rank, in rank order. -/
def Coll.shares (c : Coll) (remote : List RemoteShare) : List (List Piece) :=
  (List.range c.ranks.length).map (fun r => match c.members.find? (fun m => m.rank == r) with
    | some m => m.rows
    | none => (remote.find? (fun h => shareRank h == r)).elim [] shareRows)

/-- The ranks of other devices. -/
def State.otherRanks (s : State) (c : Coll) : List Nat :=
  (List.range c.ranks.length).filter (fun r => !(s.ownRanks c).contains r)

/-- What the ranks of this device send to other devices as a reduction runs, by sender and receiver: each rank but 0 the value of its
part of the tree, to the engine that combines it, and rank 0 the final value, which under ROOT no other rank writes (R289, R290). -/
def State.collSends (s : State) (c : Coll) (root : Bool) : List (Nat × Nat) :=
  let others := s.otherRanks c
  (((s.ownRanks c).filter (· != 0)).map (fun k => (k, treeLeft k)) ++
    (if root then [] else ((s.ownRanks c).filter (· == 0)).flatMap (fun k => others.map (fun r => (k, r))))).filter
      (fun p => others.contains p.2)

/-- The rows of one of them, with their flags (R290, R293). -/
def Coll.sent (c : Coll) (draw : Nat) (m : SoundCmd) (shares : List (List Piece)) (r : List Piece × Flags) (p : Nat × Nat) : Sent :=
  let v := if p.1 = 0 then r else partialRows (draw + p.1) m.opf m.len m.nrows p.1 shares
  .values (c.ranks.getD p.2 0) c.group c.tag v.1 v.2

/-- A reduction runs (R290): what goes to other devices leaves, and the result is there for the ranks of this one. A rank that no port
lets send raises 0x71 (R294). -/
def State.reduced (s : State) (i : Nat) (c : Coll) (m : SoundCmd) (remote : List RemoteShare) : State :=
  let sends := s.collSends c m.root
  let cut := ((sends.filter (fun p => !s.reaches ((c.ranks.getD p.2 0).toNat % 256))).map (·.1)).dedup
  let shares := c.shares remote
  let r := reduceRows s.free m.opf m.len m.nrows shares
  let t := s.takeFree.setColl i { c with result := some r, since := s.cycle }
  if sends.isEmpty then t
  else if cut.isEmpty then
    { t with
      free := t.free + c.ranks.length
      outbox := s.outbox ++ sends.map (c.sent (s.free + 1) m shares r) }
  else ((c.members.filter (fun k => cut.contains k.rank)).foldl (fun s k => s.haltMember k 0x71 0) s).abortColl i c cut 0x76

/-- The oldest collective of a group and tag in progress here, and whether a rank of another device aborts it, before or after it has
run (R294). -/
def State.abortedBy (s : State) (group tag : Nat) (remote : List RemoteShare) : Option (Nat × Coll) :=
  (s.colls.findIdx? (fun k => k.group == group && k.tag == tag && !k.failed)).bind (fun i => (s.colls[i]?).bind (fun c =>
    if s.linked && remote.any (fun h => (s.otherRanks c).contains (shareRank h) && shareAborted h) then some (i, c) else none))

/-- The cycles that FTIMEOUT allows without progress (R294, R367). -/
def State.timeoutCycles (s : State) : Nat := 1900 * s.regs.ftimeout.toNat

/-- The members of a collective whose tasks are saved, where it has made no progress for FTIMEOUT (R294, R295). -/
def State.overdueSaved (s : State) (c : Coll) : List Member :=
  if c.failed || s.cycle < c.since + s.timeoutCycles then []
  else c.members.filter (fun m => !c.finished.contains m.rank && (s.placeOf m.launch m.task).isNone && s.isSaved m.launch m.task)

/-- The first collective of a group and tag with such members. -/
def State.overdueColl (s : State) (group tag : Nat) : Option Nat :=
  s.colls.findIdx? (fun k => k.group == group && k.tag == tag && !(s.overdueSaved k).isEmpty)

/-- COLLECTIVE_RUN (R289, R290): with every rank joined the reduction runs; a mismatch raises 0x74 at every rank, and an
abort at another device, or a member lost with its task, 0x76. An all-to-all may then exchange its blocks. A collective that makes no
progress raises 0x75 at its saved ranks (R294). -/
def execCollectiveRun (group tag : Nat) (remote : List RemoteShare) (s : State) : Out :=
  match s.abortedBy group tag remote with
  | some p => .next (s.abortColl p.1 p.2 [] 0x76)
  | none => match (s.overdueColl group tag).bind (fun i => (s.colls[i]?).map (fun c => (i, c))) with
  | some p =>
    let late := s.overdueSaved p.2
    .next ((late.foldl (fun s m => s.haltMember m 0x75 0) s).abortColl p.1 p.2 (late.map (·.rank)) 0x76)
  | none => match s.waitingColl group tag with
  | none => .next s
  | some i =>
    match s.colls[i]? with
    | none => .next s
    | some c =>
      let lost := (c.members.filter (fun m => !s.memberAlive m)).map (·.rank)
      let others := s.otherRanks c
      if !lost.isEmpty then .next (s.abortColl i c lost 0x76)
      else match c.members with
        | [] => .next s
        | m :: _ =>
          let here := fun (r : Nat) => remote.filter (fun h => shareRank h == r)
          if !s.allJoined c ∨ (!others.isEmpty ∧ !s.linked) ∨ others.any (fun r => (here r).isEmpty) then .next s
          else if c.members.any (fun k => !membersAgree m.cmd k.cmd) ∨ others.any (fun r => !(here r).all (shareAgrees m.cmd))
          then .next (s.abortColl i c [] 0x74)
          else if m.cmd.kind = 3 then .next (s.setColl i { c with result := some ([], 0), since := s.cycle })
          else .next (s.reduced i c m.cmd remote)

/-- Whether a waiting collective has something to do without other devices: all its ranks are here and have joined, or a
member is lost. -/
def State.runReady (s : State) (c : Coll) : Bool :=
  !c.failed && c.result.isNone &&
    (c.members.any (fun m => !s.memberAlive m) || ((s.ownRanks c).length == c.ranks.length && s.allJoined c))

/-! ## Results (R289, R290, R293-R295) -/

/-- A command that is the head of a queue gives up what it holds and leaves it. -/
def State.finishHead (s : State) (core x q : Nat) (cmd : SoundCmd) : State :=
  match (s.ctx core x).soundHead q with
  | some k => if k.seq = cmd.seq then s.finishSound core x q k else s
  | none => s

/-- A member's command leaves the queue of its task. -/
def State.finishMember (s : State) (m : Member) : State :=
  match s.placeOf m.launch m.task with
  | some p => s.finishHead p.1 p.2 m.q m.cmd
  | none => s.heldFor m (.finished m.cmd)

/-- The flags of a collective reach a rank's context (R293). -/
def State.memberFlags (s : State) (m : Member) (f : BitVec 5) : State :=
  match s.placeOf m.launch m.task with
  | some p => s.unitFlags p.1 p.2 f (4 + m.q)
  | none =>
    let on := match s.saved.find? (fun v => v.launch == m.launch && v.task.task == m.task) with
      | some v => if v.ctx.hnd then 0 else f &&& v.ctx.tvec.extractLsb' 57 5
      | none => 0
    let s := s.heldFor m (.flags f)
    if on = 0 then s else s.memberFault m (flagCause on) (on.setWidth 64)

/-- Writes one result row of a member (R289, R295): at its place, or for a saved task as its results are held. -/
def State.writeResultRow (s : State) (m : Member) (a : Word) (v : Piece) : PinnedAll × State :=
  match s.placeOf m.launch m.task with
  | some p => s.nearWrite p.1 p.2 m.q m.cmd.dloc a v
  | none =>
    if m.cmd.dloc then (.ok [], s.heldFor m (.row a v))
    else
      let sp := s.spaceOf m.launch
      match State.openAll sp.1 sp.2 .write (vaSectors a v.1.length) s with
      | (.ok l, s) => (.ok l, s.sectorStore l (a.toNat % 64) v)
      | r => r

/-- A member with its first `n` result rows landed; the ROW of its queue shows it (R284). -/
def Member.landed (m : Member) (n : Nat) : Member := { m with cmd := { m.cmd with row := n } }

/-- A member's command shows the first row that has not landed (R284). -/
def State.showRow (s : State) (m : Member) : State :=
  match s.placeOf m.launch m.task with
  | some p => s.updCtx p.1 p.2 (fun c => (c.soundHead m.q).elim c (fun k =>
      if k.seq = m.cmd.seq then c.setSoundHead m.q { k with row := m.cmd.row } else c))
  | none => s.heldFor m (.landed m.cmd.row)

/-- With the last result row of a rank its banks leave the reservation table (R49, R285). -/
def State.freeMember (s : State) (m : Member) : State :=
  match s.placeOf m.launch m.task with
  | some p => match (s.ctx p.1 p.2).soundHead m.q with
    | some k => if k.seq = m.cmd.seq then (s.releaseSound p.1 p.2 k 0).updCtx p.1 p.2 (fun c => c.setSoundHead m.q { k with held := 0 })
        else s
    | none => s
  | none => s

/-- A collective with a member as it now stands. -/
def Coll.setMember (c : Coll) (m : Member) : Coll :=
  { c with members := c.members.map (fun k => if k.rank = m.rank then m else k) }

/-- A rank that has written its results completes, with the flags of the collective (R293). -/
def State.resultsDone (s : State) (i : Nat) (c : Coll) (m : Member) (f : BitVec 5) : State :=
  ((s.memberFlags m f).finishMember m).setColl i { c with finished := c.finished ++ [m.rank], since := s.cycle }

/-- Counts what a rank owes; a BAR whose page faults halts its queue, which aborts the others (R294). -/
def State.payMember (s : State) (i : Nat) (c : Coll) (m : Member) : State :=
  let c := c.setMember (m.owing 0)
  match s.countMember m m.cmd.owed with
  | (some e, s) => (s.haltMember m e.1 e.2).abortColl i c [m.rank] 0x76
  | (none, s) => s.setColl i { c with since := s.cycle }

/-- The next result row of a rank lands; once the last has landed and is counted, the rank completes. Under ROOT only rank 0 writes; a fault
at a rank aborts the others; none where a pin has to wait (R27, R289, R290, R294). -/
def State.landResult (s : State) (i : Nat) (c : Coll) (m : Member) (v : List Piece × BitVec 5) : Option State :=
  if !s.memberAlive m then some (s.abortColl i c [m.rank] 0x76)
  else if m.cmd.root ∧ m.rank ≠ 0 then
    some ((s.finishMember m).setColl i { c with finished := c.finished ++ [m.rank], since := s.cycle })
  else match v.1[m.cmd.row]? with
    | none => some (s.resultsDone i c m v.2)
    | some row =>
      match s.writeResultRow m (rowAddr m.cmd.raddr m.cmd.rstr m.cmd.row) row with
      | (.wait, _) => none
      | (.fault e va, s) => some ((s.haltMember m e va).abortColl i c [m.rank] 0x76)
      | (.ok _, s) =>
        let m := m.landed (m.cmd.row + 1)
        let s := if m.cmd.row < v.1.length then s else s.freeMember m
        some ((s.showRow m).setColl i { c.setMember (m.owing (if m.cmd.bar = 0 then 0 else m.cmd.len)) with since := s.cycle })

/-! ## All-to-all (R292) -/

/-- The rows of one block of an exchange at the places that a source's command gives them. -/
def blockRows (c : SoundCmd) (rows : List Piece) (src : Nat) : List (Int × Piece) :=
  (List.range rows.length).map (fun (i : Nat) =>
    (winOff c.raddr + (src : Int) * stride c.dbstr + (i : Int) * stride c.rstr, rows.getD i ([], [])))

/-- What landing the rows of a block answers: all have landed, a row has to wait, or one is refused after some have landed. -/
inductive Landed where
  | all
  | wait
  | refused (rows : Nat)
  deriving DecidableEq, Repr

/-- Lands the rows of a block through a window of this device, of which `n` have landed. -/
def landRows (w n : Nat) : List (Int × Piece) → State → Landed × State
  | [], s => (.all, s)
  | e :: t, s =>
    match s.windowWrite w e.1 e.2 with
    | (.wait, s) => (.wait, s)
    | (.fault _ _, s) => (.refused n, s)
    | (.ok _, s) => landRows w (n + 1) t s

/-- A rank that has sent and received all its blocks completes. -/
def State.settleRank (s : State) (c : Coll) (r : Nat) : State × Coll :=
  let n := c.ranks.length
  match c.members.find? (fun m => m.rank == r) with
  | none => (s, c)
  | some m =>
    if !c.finished.contains r ∧ m.cmd.owed = 0 ∧ (List.range n).all (fun k => c.blocks.contains (k, r) && c.blocks.contains (r, k)) then
      (s.finishMember m, { c with finished := c.finished ++ [r] })
    else (s, c)

/-- The first all-to-all of a group and tag whose block from a rank to a rank is still to be exchanged. -/
def State.blockFor (s : State) (group tag src dst : Nat) : Option Nat :=
  s.colls.findIdx? (fun k => k.group == group && k.tag == tag && !k.failed && k.result.isSome &&
    !k.blocks.contains (src, dst) && decide (src < k.ranks.length) && decide (dst < k.ranks.length) &&
    k.members.any (fun m => m.cmd.kind == 3))

/-- A block has moved: the ranks that have sent and received all of theirs complete. -/
def State.exchanged (s : State) (i : Nat) (c : Coll) (src dst : Nat) : State :=
  let a := s.settleRank { c with blocks := c.blocks ++ [(src, dst)], since := s.cycle } src
  let b := a.1.settleRank a.2 dst
  b.1.setColl i b.2

/-- A rank whose last block to be sent is refused shows the row at which that happened; with other blocks to send, row 0 is not
yet completely transferred (R284). -/
def Coll.rowAtRefusal (c : Coll) (src dst rows : Nat) : Nat :=
  if (List.range c.ranks.length).all (fun j => j == dst || c.blocks.contains (src, j)) then rows else 0

/-- A collective with a rank at which `n` more rows have landed, to be counted where BAR names an object. -/
def Coll.rowsAt (c : Coll) (t : Member) (n : Nat) : Coll :=
  c.setMember (t.owing (if t.cmd.bar = 0 then 0 else t.cmd.owed + n * t.cmd.len))

/-- The block from a rank of this device, `f`, or of another one lands at rank `t` of this one, at the place that the source's command
gives it. It is counted as far as it lands, and a refusal aborts the exchange (R292, R294); none where a pin has to wait. -/
def State.landBlock (s : State) (i : Nat) (c : Coll) (src dst : Nat) (f : Option Member) (t : Member) (place : SoundCmd)
    (rows : List Piece) : Option State :=
  match landRows (winOf place.raddr) 0 (blockRows place rows src) s with
  | (.wait, _) => none
  | (.all, s) => some (s.exchanged i (c.rowsAt t t.cmd.nrows) src dst)
  | (.refused n, s) =>
    let c := c.rowsAt t n
    some (match f with
      | some m => ((s.showRow (m.landed (c.rowAtRefusal src dst n))).haltMember m 0x72 0).abortColl i c [src] 0x76
      | none => (s.answered .refused).abortColl i c [src] 0x76)

/-- What a block leaves the engine as, for a rank of another device (R292). -/
def blockSent (devid : BitVec 8) (c : SoundCmd) (rows : List Piece) (src : Nat) : List Sent :=
  (blockRows c rows src).map (fun e => .write devid (c.raddr + BitVec.ofInt 64 (e.1 - winOff c.raddr)) e.2)

/-- A block for a rank of another device leaves through the engine once that rank takes it; one that it refuses, or that no port lets
send, aborts the exchange (R292, R294). -/
def State.blockAway (s : State) (i : Nat) (c : Coll) (src dst : Nat) (f : Member) (rows : List Piece) (remote : RemoteBlock) :
    Option State :=
  let stop := fun (e : Byte) => ((s.showRow (f.landed (c.rowAtRefusal src dst 0))).haltMember f e 0).abortColl i c [src] 0x76
  let dev := (c.ranks.getD dst 0).toNat % 256
  if !s.reaches dev then some (stop 0x71)
  else match remote with
    | .accepted =>
      some (({ s with outbox := s.outbox ++ blockSent (BitVec.ofNat 8 dev) f.cmd rows src } : State).exchanged i c src dst)
    | .refused => some (stop 0x72)
    | _ => none

/-- A block of a rank of another device lands here, at the place that its command gives it (R292). -/
def State.blockIn (s : State) (i : Nat) (c : Coll) (src dst : Nat) (t : Member) (remote : RemoteBlock) (marks : List Nat) :
    Option State :=
  match remote with
  | .bytes raddr dbstr rstr d =>
    if d.length ≠ t.cmd.nrows * t.cmd.len || !s.linked then none
    else s.landBlock i c src dst none t { t.cmd with raddr := raddr, dbstr := dbstr, rstr := rstr }
      (shareRows (.rows src 0 t.cmd.len t.cmd.nrows d marks))
  | _ => none

/-- Block `dst` of rank `src` lands at rank `dst`. What ranks of other devices do comes with the event; none where nothing can happen
now (R292). -/
def State.exchangeNext (s : State) (group tag src dst : Nat) (remote : RemoteBlock) (marks : List Nat) : Option State :=
  (s.blockFor group tag src dst).bind (fun i => (s.colls[i]?).bind (fun c =>
    let lost := (c.members.filter (fun m => !c.finished.contains m.rank && !s.memberAlive m)).map (·.rank)
    let rows := fun (m : Member) => (m.rows.drop (m.cmd.nrows * dst)).take m.cmd.nrows
    if !lost.isEmpty then some (s.abortColl i c lost 0x76)
    else match c.members.find? (fun m => m.rank == src), c.members.find? (fun m => m.rank == dst) with
      | none, none => none
      | some f, none => s.blockAway i c src dst f (rows f) remote
      | some f, some t => s.landBlock i c src dst (some f) t f.cmd (rows f)
      | none, some t => s.blockIn i c src dst t remote marks))

/-- The first collective of a group and tag with a rank of a die that has bytes to count, or a result to write. -/
def State.dueAt (s : State) (die group tag : Nat) (counts : Bool) : Option (Nat × Coll × Member) :=
  let mine := fun (c : Coll) => c.members.find? (fun m => c.dieOf m.rank == die && !c.finished.contains m.rank &&
    (if counts then m.cmd.owed != 0 else m.cmd.kind == 2))
  (s.colls.findIdx? (fun c => c.group == group && c.tag == tag && !c.failed && c.result.isSome && (mine c).isSome)).bind
    (fun i => (s.colls[i]?).bind (fun c => (mine c).map (fun m => (i, c, m))))

/-- Counts what a rank owes (R60, R294); a rank of an all-to-all that has exchanged all its blocks then completes (R292). -/
def State.payRank (s : State) (i : Nat) (c : Coll) (m : Member) : State :=
  let s := s.payMember i c m
  match s.colls[i]? with
  | some k => if m.cmd.kind = 3 ∧ k.members.any (fun n => n.cmd.seq == m.cmd.seq) then
      let r := s.settleRank k m.rank; r.1.setColl i r.2 else s
  | none => s

/-- What the rank of a die of a group and tag does next: it counts what has landed, or its next result row lands; none where there is
nothing or it has to wait. -/
def State.resultNext (s : State) (die group tag : Nat) : Option State :=
  match s.dueAt die group tag true with
  | some e => some (if s.memberAlive e.2.2 then s.payRank e.1 e.2.1 e.2.2 else s.abortColl e.1 e.2.1 [e.2.2.rank] 0x76)
  | none => (s.dueAt die group tag false).bind (fun e => e.2.1.result.bind (s.landResult e.1 e.2.1 e.2.2))

/-- COLLECTIVE_RESULT_WRITE (R289, R290, R293): the rank of a die writes its next result row, or counts what it has written; with its
last row it sets the flags and completes. -/
def execCollectiveResultWrite (die group tag : Nat) (s : State) : Out := .next ((s.resultNext die group tag).getD s)

/-- ALL_TO_ALL_EXCHANGE (R292). -/
def execAllToAllExchange (group tag src dst : Nat) (remote : RemoteBlock) (marks : List Nat) (s : State) : Out :=
  .next ((s.exchangeNext group tag src dst remote marks).getD s)

/-! ## Timeouts, halts and discards (R284, R294) -/

/-- The collective in progress that a queue's head command belongs to, with its rank. -/
def State.collOf (s : State) (core x q : Nat) : Option (Nat × Coll × Nat) :=
  (s.ctx core x).soundHead q |>.bind (fun k =>
    (List.range s.colls.length).findSome? (fun i => (s.colls[i]?).bind (fun c =>
      (c.members.find? (fun m => m.cmd.seq == k.seq && !c.finished.contains m.rank && !c.failed)).map (fun m => (i, c, m.rank)))))

/-- Whether a started head command has made no progress for FTIMEOUT: its own, or that of the collective it has joined (R294). -/
def State.timeoutDue (s : State) (core x q : Nat) : Bool :=
  let c := s.ctx core x
  c.task.isSome && !(c.soundQ q).halt && (c.soundHead q).any (fun k =>
    k.started && decide ((s.collOf core x q).elim k.since (fun e => e.2.1.since) + s.timeoutCycles ≤ s.cycle))

/-- FABRIC_TIMEOUT (R294). -/
def execFabricTimeout (core x q : Nat) (s : State) : Out :=
  if !s.timeoutDue core x q then .next s
  else
    let k := s.collOf core x q
    let s := s.haltSound core x q 0x75 0
    .next (match k with
      | some (i, c, r) => s.abortColl i c [r] 0x76
      | none => s)

/-- SNDQ as it reads (R284). -/
def Queue.soundStatus (q : Queue) : Word :=
  let head := match q.entries.head? with
    | some (.sound c) => (c.started.toNat, c.row, c.kind)
    | _ => (0, 0, 0)
  BitVec.ofNat 64 (q.entries.length + 32 * q.halt.toNat + 64 * head.1 + 256 * (if q.halt then q.cause.toNat else 0) +
    65536 * (head.2.1 % 65536) + 2 ^ 32 * head.2.2)

/-- DISCARD written while halted: the head command is dropped, which aborts its collective (R284, R294). -/
def State.discardSound (s : State) (core x q : Nat) : State :=
  if !((s.ctx core x).soundQ q).halt then s
  else match (s.ctx core x).soundHead q with
    | none => s.updCtx core x (fun c => c.freeSoundQ q)
    | some c =>
      let k := s.collOf core x q
      let s := (s.updCtx core x (fun c => c.freeSoundQ q)).finishSound core x q c
      match k with
      | some (i, c, r) => s.abortColl i c [r] 0x76
      | none => s

/-- HALT written: a put or get resumes at its first byte not yet transferred; a collective or all-to-all is discarded
(R284, R294). -/
def State.resumeSound (s : State) (core x q : Nat) : State :=
  if !((s.ctx core x).soundQ q).halt then s
  else match (s.ctx core x).soundHead q with
    | none => s.updCtx core x (fun c => c.freeSoundQ q)
    | some c =>
      if 2 ≤ c.kind then s.discardSound core x q
      else s.updCtx core x (fun k => (k.setSoundHead q { c with since := s.cycle }).freeSoundQ q)

/-- SNDQ_HALT (R284). -/
def execSndqHalt (core x q : Nat) (s : State) : Out := .next (s.resumeSound core x q)

/-- SNDQ_DISCARD (R284). -/
def execSndqDiscard (core x q : Nat) (s : State) : Out := .next (s.discardSound core x q)

/-! ## Results held for a saved task (R295) -/

/-- One held effect, on a context where its task stands again. -/
def State.applyEffect (s : State) (core x q : Nat) : HeldEffect → State
  | .row a v => s.copyLocal core x a.toNat v
  | .landed n => s.updCtx core x (fun c => (c.soundHead q).elim c (fun k => c.setSoundHead q { k with row := n }))
  | .count loc bar n =>
    match s.soundBar core x loc bar (.land n) with
    | (.refused e i, s) => if e = 0x67 then s.lateFault core x e (4 + q) 0 i 3 else s.haltSound core x q e i
    | (.done f, s) => f.elim s (fun e => s.lateFault core x e (4 + q) 0 0 3)
  | .flags f => s.updCtx core x (fun c => { c with fflags := c.fflags ||| f })
  | .fault cause info seen => s.updCtx core x (fun c =>
      { c with pending := c.pending ++ [{ cause := cause, src := 4 + q, snum := 0, info := info, seen := seen }] })
  | .halt cause => s.updCtx core x (fun c => c.haltSoundQ q cause)
  | .finished cmd => if ((s.ctx core x).soundQ q).halt then s else s.finishHead core x q cmd

/-- Carries out, in their order, the effects that the engine held for a task that is on a context again (R295). -/
def State.applyHeld (s : State) (core x : Nat) : State :=
  match (s.ctx core x).task with
  | none => s
  | some t =>
    let mine := s.heldResults.filter (fun h => h.launch == t.launch && h.task == t.task)
    let s := { s with heldResults := s.heldResults.filter (fun h => !(h.launch == t.launch && h.task == t.task)) }
    mine.foldl (fun s h => s.applyEffect core x h.q h.effect) s

end Sys2Proof.Machine
end

