-- ==== Sys2Proof/Machine/Area.lean ====
section
/-! DEFINITION. The sections of a context area that hold queues, the operand log and streams: their bytes, their checks at a
restore and what a restore reads from them (R337-R340). -/

namespace Sys2Proof.Machine

/-- A number as eight bytes. -/
def le8 (n : Nat) : List Byte := le 8 n

/-- Bytes filled up with zeros to a length. -/
def padTo (n : Nat) (l : List Byte) : List Byte := l ++ List.replicate (n - l.length) 0

/-- A section of an area. -/
def cut (b : List Byte) (off n : Nat) : List Byte := (b.drop off).take n

/-- Whether bytes of an area are 0. -/
def zeroAt (b : List Byte) (off n : Nat) : Bool := (cut b off n).all (· == 0)

/-- A word of an area. -/
def wordAt (b : List Byte) (off : Nat) : Word := BitVec.ofNat 64 (field b off 8)

/-- The code of a destination in a saved flight record or log entry (the spec gives no codes; a choice of the model). -/
def destCode : Dest → Nat
  | .none => 0
  | .s r => 0x100 + r
  | .v r => 0x200 + r
  | .p r => 0x300 + r
  | .ctl n => 0x400 + n

/-- The destination of a code. -/
def destOfCode (n : Nat) : Dest :=
  match n / 256 with
  | 1 => .s (n % 256)
  | 2 => .v (n % 256)
  | 3 => .p (n % 256)
  | 4 => .ctl (n % 256)
  | _ => .none

/-! ## FQ and SQ -/

/-- The 64-byte record of a ferry command (R45). -/
def FerryCmd.record (c : FerryCmd) : List Byte :=
  bytesOf c.src 8 ++ bytesOf c.dst 8 ++ le 4 c.rowlen ++ le 4 c.nrows ++ bytesOf c.sstr 4 ++ bytesOf c.dstr 4 ++
    bytesOf c.bankset 4 ++ bytesOf c.mcast 2 ++ [c.strm, c.flags] ++ bytesOf c.bar 8 ++ bytesOf c.mword 4 ++
    bytesOf c.mopa 4 ++ bytesOf c.mopb 4 ++ le 4 0

/-- The 64-byte record of a Sound-engine command (R285). -/
def SoundCmd.record (c : SoundCmd) : List Byte :=
  bytesOf c.laddr 8 ++ bytesOf c.raddr 8 ++ bytesOf c.peer 2 ++ [c.opf, c.flags] ++ le 4 c.len ++ le 4 c.nrows ++
    bytesOf c.lstr 4 ++ bytesOf c.rstr 4 ++ bytesOf c.tag 4 ++ bytesOf c.bar 8 ++ bytesOf c.rbar 8 ++
    bytesOf c.sbstr 4 ++ bytesOf c.dbstr 4

/-- A place of a saved queue: a record, or a joining entry with its mask and its number (R338). -/
def QEntry.image : QEntry → List Byte
  | .ferry c => c.record
  | .sound c => c.record
  | .join m n => padTo 64 (padTo 8 (bytesOf m 1) ++ le8 n)

/-- Whether an entry is a joining entry. -/
def QEntry.isJoin : QEntry → Bool
  | .join _ _ => true
  | _ => false

/-- A saved queue: its status register, the byte within the row at which its head goes on, JOINS and its places (R337, R338). -/
def Queue.image (q : Queue) (status : Word) (off : Nat) : List Byte :=
  padTo 64 (bytesOf status 8 ++ le8 off ++ le 2 (packNat 1 (fun k => (q.entries.getD k (.join 0 0)).isJoin.toNat) q.entries.length)) ++
    padTo 1024 (q.entries.flatMap QEntry.image)

/-- The byte within its row at which a command goes on (R53). -/
def QEntry.off : QEntry → Nat
  | .ferry c => c.off
  | .sound c => c.off
  | .join _ _ => 0

/-- FQ (R337). -/
def Ctx.areaFq (c : Ctx) : List Byte :=
  (List.range 2).flatMap (fun n => (c.ferryQ n).image (c.ferryQ n).ferryStatus ((c.ferryQ n).entries.head?.elim 0 (·.off)))

/-- SQ (R337). -/
def Ctx.areaSq (c : Ctx) : List Byte :=
  (List.range 2).flatMap (fun n => (c.soundQ n).image (c.soundQ n).soundStatus ((c.soundQ n).entries.head?.elim 0 (·.off)))

/-- The places in use of a saved queue, each with whether it is a joining entry (R338). -/
def placesOf (b : List Byte) : List (Bool × List Byte) :=
  (List.range (field b 0 1 % 32)).map (fun k => ((field b 0x10 2).testBit k, cut b (64 + 64 * k) 64))

/-- A joining entry from its place. -/
def joinOf (p : List Byte) : BitVec 4 × Nat := (BitVec.ofNat 4 (field p 0 1), field p 8 8)

/-- The joins of the four saved queues, ferry queues first. -/
def joinsOf (fq sq : List Byte) : List (List (BitVec 4 × Nat)) :=
  [cut fq 0 1088, cut fq 1088 1088, cut sq 0 1088, cut sq 1088 1088].map (fun b =>
    ((placesOf b).filter (·.1)).map (fun p => joinOf p.2))

/-- Whether the joining entries of the saved queue `n` of four are well formed, name their own queue, and have their partners
in every other queue they name (R338, R339). -/
def joinsOk (fq sq b : List Byte) (n : Nat) : Bool :=
  ((placesOf b).filter (·.1)).all (fun p =>
    (p.2.drop 16).all (· == 0) && (cut p.2 1 7).all (· == 0) && decide (field p.2 0 1 < 16) &&
      (joinOf p.2).1.getLsbD n &&
      (List.range 4).all (fun k => !(joinOf p.2).1.getLsbD k || ((joinsOf fq sq).getD k []).contains (joinOf p.2)))

/-- Whether the head of a saved queue is well formed: at most 16 entries, and a bit of JOINS for none beyond them. -/
def queueHeadOk (b : List Byte) : Bool := field b 0 1 % 32 ≤ 16 && field b 0x10 2 < 2 ^ (field b 0 1 % 32)

/-- The reserved bits of a saved queue's status register, from bit `top` on, and the bytes after JOINS hold 0. -/
def queueReservedOk (top : Nat) (b : List Byte) : Bool := field b 0 8 < 2 ^ top && zeroAt b 0x12 0x2E

/-- A command record that a ferry queue can hold: its fields, its local extents and its bank set are as R46 asks. -/
def ferryRecordOk (banks : Nat) (r : List Byte) : Bool :=
  let c := ferryOf r
  !(c.malformed (field r 0x3C 4)) && c.extents.all (fun e => rowsWithin e.1 e.2.1 e.2.2.1 e.2.2.2 (65536 * banks)) &&
    c.extents.all (fun e => rowsInBanks c.bankset e.1 e.2.1 e.2.2.1 e.2.2.2) && (c.mword == 0 || followOk c.mword)

/-- FQ can be restored (R339). -/
def ferrySectionOk (banks : Nat) (fq sq : List Byte) : Bool :=
  (List.range 2).all (fun n =>
    let b := cut fq (1088 * n) 1088
    queueHeadOk b && joinsOk fq sq b n &&
      ((placesOf b).filter (!·.1)).all (fun p => ferryRecordOk banks p.2))

/-- The kept command of a place of a saved Sound-engine queue, whose kind a record does not say. -/
def keptSound (q : Queue) (k : Nat) : Option SoundCmd :=
  match q.entries[k]? with
  | some (.sound c) => some c
  | _ => none

/-- SQ can be restored (R339): a record stands where a command of its kind was saved. -/
def soundSectionOk (c : Ctx) (banks : Nat) (fq sq : List Byte) : Bool :=
  (List.range 2).all (fun n =>
    let b := cut sq (1088 * n) 1088
    let l := placesOf b
    queueHeadOk b && field b 8 8 < 2 ^ 32 && joinsOk fq sq b (2 + n) &&
      (List.range l.length).all (fun k =>
        let p := l.getD k (true, [])
        p.1 || (match keptSound (c.soundQ n) k with
          | some o => !(soundOf o.kind p.2).malformed && ({ soundOf o.kind p.2 with group := o.group }).within (65536 * banks)
          | none => false)))

/-- A ferry command restored at place `k`: the record and, of the head, the progress are the area's; buffered bytes and owed
counts are those kept. -/
def ferryAt (old : Queue) (b r : List Byte) (k : Nat) : FerryCmd :=
  let c := ferryOf r
  let row := field b 2 2
  match old.entries[k]? with
  | some (.ferry o) =>
    if k = 0 then { c with
      started := (field b 0 1).testBit 6, off := field b 8 8, rowsrc := if o.row % 65536 = row then o.rowsrc else none
      rowbuf := o.rowbuf, rowpoison := o.rowpoison, owed := o.owed,
      row := if o.row % 65536 = row then o.row else row }
    else c
  | _ => c

/-- Whether the ferry command at place `k` of a restored queue holds its banks: not where its last local byte had moved when it
was saved (R49, R340). -/
def holdsAt (old : Queue) (k : Nat) : Bool :=
  match old.entries[k]? with
  | some (.ferry o) => !o.held.isEmpty || !o.started
  | _ => true

/-- A Sound-engine command restored at place `k`; a group is read again where the area names another. -/
def State.soundAt (s : State) (core x : Nat) (old : Queue) (r : List Byte) (k : Nat) : QEntry :=
  match keptSound old k with
  | some o =>
    let c := soundOf o.kind r
    .sound { c with
      group := if c.peer = o.peer then o.group else (s.groupAt core x c.target).1.toOption.getD []
      started := o.started, row := o.row, off := o.off, sent := o.sent, held := o.held, owed := o.owed, seq := o.seq,
      since := o.since }
  | none => .join 0 0

/-- A restored queue: each place with its entry, and the halt state of the saved status register. -/
def restoredQ (b : List Byte) (entry : Nat → List Byte → QEntry) : Queue :=
  let l := placesOf b
  { entries := (List.range l.length).map (fun k =>
      let p := l.getD k (true, [])
      if p.1 then .join (joinOf p.2).1 (joinOf p.2).2 else entry k p.2)
    halt := (field b 0 1).testBit 5
    cause := BitVec.ofNat 8 (field b 1 1) }

/-! ## MQ and XQ -/

/-- The eight places of a saved unit queue: word, A value, B value and state, which is the vectors done of an `xmv` (R337). A ninth
entry, where eight wait behind one that the save stopped (R244), has no place and is kept beside the area. -/
def unitImage (l : List UnitEntry) : List Byte :=
  padTo 256 ((l.take 8).flatMap (fun e => le8 e.word.toNat ++ bytesOf e.a 8 ++ bytesOf e.b 8 ++ le8 e.done))

/-- A saved place of a unit queue: its word, its instruction, its values and its state. A word of 0 marks a free place. -/
structure UnitPlace where
  word : BitVec 32
  i : Option Instr
  a : Word
  b : Word
  done : Nat
  deriving DecidableEq, Repr

/-- The places in use of a saved unit queue. -/
def unitPlaces (b : List Byte) : List UnitPlace :=
  (((List.range 8).map (fun k => cut b (32 * k) 32)).filter (fun p => field p 0 8 != 0)).map (fun p =>
    { word := BitVec.ofNat 32 (field p 0 8)
      i := if field p 0 8 < 2 ^ 32 then (decodeWord (field p 0 8 % 2 ^ 31)).toOption else none
      a := wordAt p 8, b := wordAt p 16, done := field p 24 8 })

/-- A saved place of the matrix queue that can be restored: an instruction of the unit with operands it accepts. A `tmmg` has
no place, since its group table has none. -/
def State.matrixPlaceOk (s : State) (core x : Nat) (p : UnitPlace) : Bool :=
  p.i.any (fun i => (match i with
    | .tmma _ | .tmmaZ _ | .zzero _ _ _ | .zld _ _ _ _ | .zst _ _ _ _ | .zstR _ _ _ _ | .zcvt _ _ _ _ | .zacc _ _ _ => true
    | _ => false) && p.done == 0 && (s.matrixBad core x i p.a p.b [] true).isNone)

/-- The number of vectors of a place, or 1 where the instruction is no `xmv`. -/
def placeVectors (i : Instr) (a : Word) : Nat :=
  match i with
  | .xmv _ _ => xmvCount a
  | _ => 1

/-- A saved place of the crossbar queue that can be restored, but for its array, which has a cause of its own (R339). -/
def State.xbarPlaceOk (s : State) (core x : Nat) (p : UnitPlace) : Bool :=
  p.i.any (fun i => (match i with
    | .xmv _ _ | .xload _ | .xprog _ | .xver _ | .xremap _ | .xdrift _ | .xcalMeas _ _ | .xcalLdsc _ | .xcalLdog _ | .xcalStog _
    | .xfb _ => true
    | _ => false) && decide (p.done < placeVectors i p.a) &&
      (match s.xbarBad core x i p.a p.b with
        | none => true
        | some c => c == 0x90))

/-- An entry of a restored matrix queue. -/
def State.matrixPlace (s : State) (core x : Nat) (p : UnitPlace) : UnitEntry :=
  s.matrixEntry core x p.word (p.i.getD .nop) p.a p.b [] true

/-- An entry of a restored crossbar queue. -/
def State.xbarPlace (s : State) (p : UnitPlace) : UnitEntry :=
  { word := p.word, a := p.a, b := p.b, table := [], steps := 0, fmts := (0, 0), streams := [], closed := [], done := p.done,
    follow := false, arrival := s.cycle }

/-! ## OLOG -/

/-- The state byte of a saved log entry: what it does when it is performed. -/
def LogOp.code : LogOp → Nat
  | .load => 1
  | .store => 2
  | .vload => 3
  | .vstore => 4
  | .gather => 5
  | .scatter => 6
  | .amo o => 8 + o.toNat
  | .vamo o => 16 + o.toNat
  | .cinv => 20
  | .cwb => 21
  | .acqRead => 22
  | .bwaitRead => 23
  | .binit => 24
  | .barrive r => 25 + r.toNat
  | .bxpect => 27
  | .rel sc => 32 + sc

/-- The operation of a state byte. -/
def logOpOf (n : Nat) : Option LogOp :=
  if n = 1 then some .load
  else if n = 2 then some .store
  else if n = 3 then some .vload
  else if n = 4 then some .vstore
  else if n = 5 then some .gather
  else if n = 6 then some .scatter
  else if 8 ≤ n ∧ n < 16 then some (.amo (BitVec.ofNat 3 (n - 8)))
  else if 16 ≤ n ∧ n < 20 then some (.vamo (BitVec.ofNat 2 (n - 16)))
  else if n = 20 then some .cinv
  else if n = 21 then some .cwb
  else if n = 22 then some .acqRead
  else if n = 23 then some .bwaitRead
  else if n = 24 then some .binit
  else if n = 25 ∨ n = 26 then some (.barrive (n == 26))
  else if n = 27 then some .bxpect
  else if 32 ≤ n ∧ n < 38 then some (.rel (n - 32))
  else none

/-- A saved log entry (R337): word, state, cause, address and order link, then what else it holds. -/
def LogEntry.image (e : LogEntry) : List Byte :=
  padTo 64 (bytesOf e.word 4 ++ le 1 e.op.code ++ [e.cause] ++ le 2 e.blocking.toNat ++ bytesOf e.addr 8 ++ le8 e.num ++
    bytesOf e.cmp 8 ++ bytesOf e.mask 16 ++ le 2 (destCode e.d)) ++ bytesOf e.data 512 ++ padTo 576 (bytesOf e.offs 512)

/-- OLOG (R337). -/
def Ctx.areaLog (c : Ctx) : List Byte := padTo 18432 (c.log.flatMap LogEntry.image)

/-- The places in use of a saved operand log. -/
def logPlaces (b : List Byte) : List (List Byte) :=
  ((List.range 16).map (fun k => cut b (1152 * k) 1152)).filter (fun p => field p 4 1 != 0)

/-- OLOG can be restored: every entry in use has an operation, faulted or held behind one that is, and the order is one (R148,
R339). -/
def logSectionOk (b : List Byte) : Bool :=
  (logPlaces b).all (fun p => (logOpOf (field p 4 1)).isSome && field p 6 2 < 2) &&
    decide ((logPlaces b).map (fun p => field p 16 8)).Nodup

/-- The log of an area, oldest first. -/
def logOf (b : List Byte) : List LogEntry :=
  let l := (logPlaces b).map (fun p =>
    { num := field p 16 8, op := (logOpOf (field p 4 1)).getD .load, addr := wordAt p 8,
      data := ofVecBytes (cut p 64 512), offs := ofVecBytes (cut p 576 512), cmp := wordAt p 24,
      mask := BitVec.ofNat 128 (field p 32 16), d := destOfCode (field p 48 2), blocking := (field p 6 1).testBit 0,
      cause := p.getD 5 0, word := BitVec.ofNat 32 (field p 0 4) : LogEntry })
  l.mergeSort (fun x y => x.num ≤ y.num)

/-! ## STRM -/

/-- A stream as a save stops it (R43, R340): bytes read for an entry that is not full are read again, and for a tile fetch pinned
again, so that the generator's position is where that entry begins. -/
def Stream.rewound (q : Stream) : Stream :=
  if q.kind < 3 ∧ q.pend ≠ [] ∧ q.rowlen ≠ 0 then
    { q with row := 32 * q.blk / q.rowlen, off := 32 * q.blk % q.rowlen, pend := [], pendPoison := [], pendLines := [] }
  else q

/-- How far the head entry of a stream is consumed: by a scalar reader, or of a write stream by its drain (R337). -/
def Stream.headDone (q : Stream) : Nat := if q.kind = 5 then q.pend.length else q.consumed

/-- The descriptor of a stream (R154). -/
def Stream.descriptor (q : Stream) : List Byte :=
  bytesOf q.base 8 ++ le 1 (q.fmt + 16 * q.scl.toNat) ++ le 1 (q.kind + 8 * q.loc.toNat) ++ le 2 q.rowlen ++ le 4 q.count ++
    bytesOf q.str0 4 ++ bytesOf q.str1 4 ++ le 2 q.ext ++ bytesOf q.sstr 2 ++ bytesOf q.soff 4

/-- A saved stream (R337): descriptor, SQSTAT, generator position, consumed bytes of the head entry, poison marks, scales and
entries. -/
def Stream.image (q : Stream) : List Byte :=
  padTo 64 (q.descriptor ++ bytesOf q.status 8 ++ le 4 q.row ++ le 4 q.off ++ le8 q.blk ++ le 2 q.headDone) ++
    padTo 64 (q.entries.flatMap (fun e => bytesOf e.poison 1)) ++ padTo 128 (q.entries.flatMap (fun e => bytesOf e.scales 16)) ++
    padTo 4096 (q.entries.flatMap (fun e => bytesOf e.data 512))

/-- STRM (R337). -/
def Ctx.areaStrm (c : Ctx) : List Byte := (List.range 16).flatMap (fun k => (c.stream k).image)

/-- A saved stream that can be restored (R339): an unconfigured one is empty, a configured one has a descriptor that R156
allows, or is KV-bound as the stream that was saved. -/
def streamPlaceOk (b : List Byte) : Bool :=
  let st := field b 32 8
  bits st 3 0 ≤ 8 && field b 56 2 ≤ 512 &&
    (if st.testBit 9 then bits st 6 4 == field b 9 1 % 8 && field b 40 4 ≤ field b 12 4 && (field b 9 1 % 8 == 4 || descOk (cut b 0 32))
     else bits st 9 0 == 0)

/-- The KV side of a saved stream that can be restored (R339): kind 4 exactly where a KV-bound stream was saved, and its row
within its count. -/
def kvPlaceOk (old : Stream) (b : List Byte) : Bool :=
  (((field b 32 8).testBit 9 && field b 9 1 % 8 == 4) == old.kv.isSome) &&
    (old.kv.isNone || (decide (field b 40 4 ≤ field b 12 4) && field b 12 4 == old.count))

/-- The stream of an area: what the area lays out is read from it; the bytes that a ferry has brought for an entry that is not
full, and the pages of a KV-bound stream, are those kept, and no line is pinned (R43, R275, R340). -/
def streamAt (old : Stream) (b : List Byte) : Stream :=
  let st := field b 32 8
  if st.testBit 9 then
    { streamOf (cut b 0 32) with
      started := st.testBit 7, halt := st.testBit 8, cause := BitVec.ofNat 8 (bits st 23 16)
      row := field b 40 4, off := field b 44 4, blk := field b 48 8
      consumed := if field b 9 1 % 8 = 5 then 0 else field b 56 2
      entries := (List.range (bits st 3 0)).map (fun k =>
        { data := ofVecBytes (cut b (256 + 512 * k) 512), scales := BitVec.ofNat 128 (field b (128 + 16 * k) 16),
          poison := BitVec.ofNat 8 (field b (64 + k) 1), lines := [], num := (old.entries[k]?).elim 0 (·.num) })
      pend := if field b 9 1 % 8 = 5 then List.replicate (field b 56 2) 0 else if field b 9 1 % 8 = 3 then old.pend else []
      pendPoison := if field b 9 1 % 8 = 3 then old.pendPoison else []
      pendLines := [], after := old.after, kv := old.kv }
  else Stream.reset

/-! ## Reserved fields (R339) -/

/-- The reserved fields of HDR and SREG, and of CTRL with the bits that R89, R94, R321, R322 and R326 reserve, hold 0; VMODE holds
no reserved value. -/
def ctrlReservedOk (b : List Byte) : Bool :=
  let tvec := field b 0x210 8
  let ecause := field b 0x220 8
  field b 0x1E 2 == 0 && zeroAt b 0x30 0xD0 && field b 0x100 8 == 0 &&
    field b 0x200 8 < 2048 && vmodeOk (field b 0x200 8) && field b 0x208 8 < 32 &&
    bits tvec 3 2 == 0 && bits tvec 63 62 == 0 && ecause < 2 ^ 19 && bits ecause 12 9 ≤ 10 &&
    field b 0x288 8 < 8 && field b 0x290 8 < 2 ^ 24 && field b 0x2B0 8 < 4 && zeroAt b 0x2B9 7 && zeroAt b 0x2C9 7 &&
    field b 0x2D8 1 < 3 && zeroAt b 0x2DA 6 && zeroAt b 0x2E8 0x118

/-- The gaps of CONT hold 0, and so do the bits that R94 reserves. -/
def contReservedOk (b : List Byte) : Bool :=
  (List.range 4).all (fun k =>
    let r := cut b (0x500 + 320 * k) 320
    field r 248 8 < 32 && zeroAt r 272 47 && (k == 0 || field r 319 1 == 0))

/-- The gaps of FLIGHT hold 0. -/
def flightReservedOk (f : List Byte) : Bool :=
  (List.range 24).all (fun k =>
    let r := cut f (576 * k) 576
    field r 4 1 < 32 && zeroAt r 5 11 && zeroAt r 32 32)

/-- The gaps of OLOG hold 0. -/
def logReservedOk (l : List Byte) : Bool :=
  (List.range 16).all (fun k => zeroAt (cut l (1152 * k) 1152) 50 14 && zeroAt (cut l (1152 * k) 1152) 1088 64)

/-- The gaps of STRM and the bits that R154 and R159 reserve hold 0. -/
def strmReservedOk (m : List Byte) : Bool :=
  (List.range 16).all (fun k =>
    let r := cut m (4352 * k) 4352
    field r 8 1 < 32 && field r 9 1 < 16 && bits (field r 32 8) 15 10 == 0 && field r 32 8 < 2 ^ 56 && zeroAt r 58 6 && zeroAt r 72 56)

/-- Every reserved field of the sections of fixed size (R5, R339). -/
def reservedOk (b : List Byte) : Bool :=
  ctrlReservedOk b && contReservedOk b &&
    (List.range 2).all (fun n => queueReservedOk 32 (cut b (0x1040 + 1088 * n) 64) &&
      queueReservedOk 34 (cut b (0x18C0 + 1088 * n) 64)) &&
    (List.range 16).all (fun k => zeroAt b (0x2144 + 32 * k) 4) && zeroAt b 0x480 128 && zeroAt b 0x2340 192 &&
    flightReservedOk (cut b 0x2400 13824) && logReservedOk (cut b 0x5A00 18432) && strmReservedOk (cut b 0x1_2200 69632)

/-- The header of a tile: a type tag of one bit, the row map, and gaps that hold 0. -/
def tileReservedOk (h : List Byte) : Bool := field h 0 8 < 2 && zeroAt h 16 48

end Sys2Proof.Machine
end

