-- ==== Sys2Proof/Machine/Distributor.lean ====
section
/-! DEFINITION. The distributor: which launches are eligible, where their tasks fit, which tasks make way for them, what
is kept for them, and the placing of a launch (R303-R307, R313-R315, R318, R335, R374). -/

namespace Sys2Proof.Machine

/-! ## Choices -/

/-- Lexicographic order. -/
def lexLt : List Nat → List Nat → Bool
  | _, [] => false
  | [], _ => true
  | a :: l, b :: m => decide (a < b) || (a == b && lexLt l m)

/-- The first of the least elements by a key. -/
def least {α : Type} (key : α → List Nat) : List α → Option α
  | [] => none
  | a :: t =>
    match least key t with
    | none => some a
    | some b => if lexLt (key b) (key a) then some b else some a

/-- Puts an element into a list sorted by a key. -/
def insertBy {α : Type} (key : α → List Nat) (a : α) : List α → List α
  | [] => [a]
  | b :: t => if lexLt (key a) (key b) then a :: b :: t else b :: insertBy key a t

/-- Sorts by a key. -/
def sortBy {α : Type} (key : α → List Nat) (l : List α) : List α := l.foldl (fun m a => insertBy key a m) []

/-- Sorts numbers. -/
def sortNat (l : List Nat) : List Nat := sortBy (fun n => [n]) l

/-- Every sublist of a list. -/
def subsets {α : Type} : List α → List (List α)
  | [] => [[]]
  | a :: t => subsets t ++ (subsets t).map (fun l => a :: l)

/-! ## What is placed where -/

/-- The tasks placed on a core, with their contexts. -/
def State.tasksOn (s : State) (core : Nat) : List (Nat × Task) :=
  (List.range 4).filterMap (fun x => (s.ctx core x).task.map (fun t => (x, t)))

/-- The priority of a launch. -/
def State.prioOf (s : State) (launch : Nat) : Nat := (s.launch launch).elim 0 (·.rcd.prio)

/-- Whether a launch is hot. -/
def State.isHot (s : State) (launch : Nat) : Bool := (s.launch launch).elim false (·.rcd.heat == 2)

/-- The orthogonal neighbours of a core that are in service (R313, R362). -/
def State.around (s : State) (core : Nat) : List Nat := ((List.range 4).filterMap (neighbour core)).filter s.inService

/-- The hot tasks placed beside a core. -/
def State.hotBeside (s : State) (core : Nat) : List (Nat × Nat) :=
  ((List.range 4).filterMap (neighbour core)).flatMap (fun n =>
    ((s.tasksOn n).filter (fun p => s.isHot p.2.launch)).map (fun p => (n, p.1)))

/-- Whether a core that no placed hot task keeps dark is dark for a launch of some priority: a hot task is saved on a core next to it
(R313). One whose launch has a lower priority keeps nothing from a launch that may pre-empt it (R64; assumption 133). -/
def State.dark (s : State) (prio core : Nat) : Bool :=
  ((List.range 4).filterMap (neighbour core)).any (fun n =>
    s.saved.any (fun v => v.core == n && v.hot && decide (prio ≤ s.prioOf v.launch)))

/-- The priority of a placed task's launch. -/
def State.prioAt (s : State) (q : Nat × Nat) : Nat := (s.launchOf q.1 q.2).elim 0 (·.rcd.prio)

/-- How long ago the launch of a placed task started. -/
def State.ageAt (s : State) (q : Nat × Nat) : Nat := (s.launchOf q.1 q.2).elim 0 (fun l => s.cycle - l.startedAt)

/-! ## Context-save areas -/

/-- The size of a task's area (R335). -/
def areaSize (zt banks dirs : Nat) : Nat := 143872 + 32832 * zt + 65664 * banks + 2232320 * dirs

/-- The size of a task's area, rounded up to 4 KiB (R335). -/
def Task.areaRounded (t : Task) : Nat :=
  (areaSize t.tiles.length t.banks (t.leases.filter (·.isSome)).length + 4095) / 4096 * 4096

/-- The areas in use in a die's save region: base and size. -/
def State.areas (s : State) (die : Nat) : List (Nat × Nat) :=
  (s.ctxs.filterMap (fun e => if coreDie (e.1 / 4) = die then
    e.2.task.bind (fun t => e.2.area.map (fun a => (a, t.areaRounded))) else none)) ++
  (s.saved.filter (fun v => coreDie v.core == die)).map (fun v => (v.area, v.task.areaRounded))

/-- The lowest place of a size in a region with areas in use (the choice of the place is the model's). -/
def lowestFree (base len size : Nat) (used : List (Nat × Nat)) : Option Nat :=
  least (fun a => [a]) ((base :: used.map (fun u => u.1 + u.2)).filter (fun a =>
    decide (base ≤ a ∧ a + size ≤ base + len) && used.all (fun u => decide (a + size ≤ u.1 ∨ u.1 + u.2 ≤ a))))

/-- An area for a task, in the save region of its die (R335). -/
def State.areaFor (s : State) (die : Nat) (t : Task) (more : List (Nat × Nat)) : Option Nat :=
  lowestFree (mget 0 s.regs.savebase die).toNat (mget 0 s.regs.savelen die).toNat t.areaRounded (s.areas die ++ more)

/-- Areas for every task of a choice, each with its own, or none where one cannot be allocated (R335). -/
def State.areasFor (s : State) : List (Nat × Nat) → List (Nat × Nat × Nat) → Option (List ((Nat × Nat) × Nat))
  | [], _ => some []
  | q :: rest, more =>
    match (s.ctx q.1 q.2).task with
    | none => s.areasFor rest more
    | some t =>
      let die := coreDie q.1
      match s.areaFor die t ((more.filter (fun m => m.1 == die)).map (·.2)) with
      | none => none
      | some a => (s.areasFor rest ((die, a, t.areaRounded) :: more)).map (fun l => (q, a) :: l)

/-! ## Room on a core -/

/-- What is to be seated on one core: `k` contexts of a launch, or of one saved task of it, with their banks and tiles;
a resumed task needs its directions and its die. -/
structure Demand where
  launch : Nat
  task : Option Nat
  prio : Nat
  heat : Nat
  k : Nat
  nb : Nat
  zt : Nat
  dirs : List Bool
  die : Option Nat
  deriving DecidableEq, Repr

/-- The demand of a launch on each of its cores (R306). -/
def Launch.demand (l : Launch) : Demand :=
  { launch := l.id, task := none, prio := l.rcd.prio, heat := l.rcd.heat, k := l.rcd.tpc, nb := l.rcd.banks,
    zt := l.rcd.zt, dirs := [], die := none }

/-- The demand of a saved task (R64, R83). -/
def Saved.demand (v : Saved) (l : Launch) : Demand :=
  { launch := v.launch, task := some v.task.task, prio := l.rcd.prio, heat := l.rcd.heat, k := 1, nb := l.rcd.banks,
    zt := l.rcd.zt, dirs := v.task.leases.map (·.isSome), die := some (coreDie v.core) }

/-- A core chosen for a demand: the first bank of each of its runs, its tiles, and the contexts that must leave. -/
structure Seat where
  core : Nat
  banks : List Nat
  tiles : List Nat
  victims : List (Nat × Nat)
  deriving DecidableEq, Repr

/-- The banks of a run. -/
def runBanks (b nb : Nat) : List Nat := (List.range nb).map (fun i => b + i)

/-- The lowest run of whole banks that is free (R56). -/
def firstRun (used : List Nat) (nb : Nat) : Option Nat :=
  (List.range (33 - nb)).find? (fun b => (runBanks b nb).all (fun i => !used.contains i))

/-- The lowest runs of whole banks, one after the other. -/
def firstRuns (nb : Nat) : Nat → List Nat → Option (List Nat)
  | 0, _ => some []
  | k + 1, used =>
    match firstRun used nb with
    | none => none
    | some b => (firstRuns nb k (used ++ runBanks b nb)).map (fun l => b :: l)

/-- The holds that keep a demand off (R305): every hold of another for resources being freed, and an ageing launch's
where the demand's priority is no higher. -/
def State.bindingHolds (s : State) (d : Demand) : List Hold :=
  s.holds.filter (fun h => !(h.launch == d.launch && h.task == d.task) && (!h.soft || decide (d.prio ≤ s.prioOf h.launch)))

/-- The banks and tiles a demand would receive on a core once the contexts in `gone` have left, with what is held for
others left free (R56, R93, R305, R306). -/
def State.room (s : State) (d : Demand) (core : Nat) (gone : List (Nat × Nat)) : Option (List Nat × List Nat) :=
  let holds := (s.bindingHolds d).filter (fun h => h.core == core)
  let live := (s.tasksOn core).filter (fun p => !gone.contains (core, p.1))
  let later := live.filter (fun p => !holds.any (fun h => h.awaits.contains (core, p.1)))
  let kept := (holds.map (·.ctxs)).foldl (· + ·) 0
  if holds.any (·.whole) ∨ 4 < live.length + d.k ∨ 4 < later.length + kept + d.k then none
  else
    let used := live.flatMap (fun p => runBanks p.2.b0 p.2.banks) ++ holds.flatMap (·.banks)
    let tiles := (List.range 16).filter (fun z =>
      !live.any (fun p => p.2.tiles.contains z) && !holds.any (fun h => h.tiles.contains z))
    if tiles.length < d.k * d.zt then none
    else (firstRuns d.nb d.k used).map (fun b => (b, tiles.take (d.k * d.zt)))

/-- The contexts that cannot stay beside a demand: tasks of the other kind of heat on the core, for a hot demand every task on a
neighbour (R313), and for another the hot tasks that the core is lent to or dark for (R64). -/
def State.mustLeave (s : State) (d : Demand) (core : Nat) : List (Nat × Nat) :=
  ((s.tasksOn core).filter (fun p => s.isHot p.2.launch != (d.heat == 2))).map (fun p => (core, p.1)) ++
  (if d.heat = 2 then (s.around core).flatMap (fun n => (s.tasksOn n).map (fun p => (n, p.1))) else s.hotBeside core)

/-- Whether a core may take a demand at all (R64, R83, R306, R313, R362). -/
def State.coreOpen (s : State) (d : Demand) (core : Nat) : Bool :=
  s.inService core && !(s.island (coreIsland core)).resetting && !s.dark d.prio core && d.die.all (fun k => k == coreDie core) &&
  (d.heat != 2 ||
    (coreParity core == (s.regs.hotpar.getLsbD (coreDie core)).toNat &&
      (s.around core).all (fun n => !(s.bindingHolds d).any (fun h => h.core == n)))) &&
  (List.range 4).all (fun i => !d.dirs.getD i false ||
    (neighbour core i).any (fun n => s.inService n && (s.core n).lentTo.isNone))

/-- The order of choices (R305, R374): fewest tasks, then lowest priorities, then the most recently started launches,
then the greater highest core number; `tail` decides the rest. -/
def State.choiceKey (s : State) (vs : List (Nat × Nat)) (tail : List Nat) : List Nat :=
  [vs.length] ++ sortNat (vs.map s.prioAt) ++ sortNat (vs.map s.ageAt) ++
    [if vs.isEmpty then 0 else 511 - vs.foldl (fun m q => Nat.max m q.1) 0] ++ tail

/-- Every way to seat a demand on a core where tasks of priority below `lim` for which `may` holds can leave. -/
def State.seatWays (s : State) (d : Demand) (lim : Nat) (may : Nat × Nat → Bool) (core : Nat) : List Seat :=
  let leave := fun (q : Nat × Nat) => decide (s.prioAt q < lim) && may q
  let must := s.mustLeave d core
  if !s.coreOpen d core ∨ !must.all leave then []
  else
    let rest := ((s.tasksOn core).map (fun p => (core, p.1))).filter (fun q => !must.contains q && leave q)
    (subsets rest).filterMap (fun v =>
      (s.room d core (must ++ v)).map (fun r => { core := core, banks := r.1, tiles := r.2, victims := must ++ v }))

/-- The best of them. -/
def State.seat (s : State) (d : Demand) (lim : Nat) (may : Nat × Nat → Bool) (core : Nat) : Option Seat :=
  least (fun t => s.choiceKey t.victims []) (s.seatWays d lim may core)

/-- The contexts that leave for a list of seats. -/
def leaving (l : List Seat) : List (Nat × Nat) := (l.flatMap (·.victims)).dedup

/-- Whether every victim of a choice can be saved (R335); a launch that only waits needs no area. -/
def State.savable (s : State) (ending : Bool) (l : List Seat) : Bool := ending || (s.areasFor (leaving l) []).isSome

/-- Whether two of some seats would take the same victim: one beside both of their cores. -/
def shareVictim : List Seat → Bool
  | [] => false
  | t :: rest => rest.any (fun u => t.victims.any u.victims.contains) || shareVictim rest

/-- The seats that the cores of an island offer. -/
def State.seatsOn (s : State) (d : Demand) (lim : Nat) (may : Nat × Nat → Bool) (island : Nat) : List Seat :=
  (List.range 16).filterMap (fun i => s.seat d lim may (islandCore island i))

/-- The order of choices of whole crews: by the tasks that leave for all of them, then the lowest-indexed cores (R305, R306). -/
def State.seatsKey (s : State) (l : List Seat) : List Nat :=
  s.choiceKey (leaving l) (l.flatMap (fun t => [coreIsland t.core, islandIndex t.core]))

/-- What seats cost, before R374 decides: how many tasks leave, their priorities and how long ago their launches started (R305). -/
def State.cost (s : State) (l : List Seat) : List Nat :=
  let v := leaving l
  [v.length] ++ sortNat (v.map s.prioAt) ++ sortNat (v.map s.ageAt)

/-- The `n` of some groups of seats, no two of which share a victim, whose tasks it costs least to move; of those that cost alike the
first, unless another has the highest core (R305, R374). `place` is the order of the groups. -/
def State.cheapest {α : Type} (s : State) (seats : α → List Seat) (place : α → List Nat) (n : Nat) (l : List α) : Option (List α) :=
  let order := sortBy (fun a => s.cost (seats a) ++ place a) l
  match n, order[n - 1]? with
  | 0, _ => some []
  | _, none => none
  | n + 1, some last =>
    let sure := order.filter (fun a => lexLt (s.cost (seats a)) (s.cost (seats last)))
    let alike := order.filter (fun a => s.cost (seats a) == s.cost (seats last))
    let swapped := match least (fun a => s.choiceKey (leaving (seats a)) []) alike with
      | none => []
      | some top => sure ++ (top :: alike.filter (fun a => place a != place top)).take (n + 1 - sure.length)
    least (fun m => s.choiceKey (leaving (m.flatMap seats)) []) [order.take (n + 1), swapped]

/-- Every way to take `n` elements, each from another of some lists. -/
def choices {α : Type} : List (List α) → Nat → List (List α)
  | _, 0 => [[]]
  | [], _ + 1 => []
  | c :: rest, n + 1 =>
    if rest.length < n then [] else c.flatMap (fun a => (choices rest n).map (fun t => a :: t)) ++ choices rest (n + 1)

/-- Every crew of `m` cores that an island can offer. -/
def State.crewWays (s : State) (d : Demand) (m lim : Nat) (may : Nat × Nat → Bool) (island : Nat) : List (List Seat) :=
  choices (((List.range 16).map (fun i => s.seatWays d lim may (islandCore island i))).filter (fun c => !c.isEmpty)) m

/-- The crew a demand of `m` cores receives on an island (R306): the lowest-indexed eligible cores, or those whose tasks
it costs least to move. Where no victim is shared the cost of a crew is that of its cores one by one; where one is, or where that crew
cannot be saved (R335), every crew is compared. -/
def State.crew (s : State) (d : Demand) (m lim : Nat) (ending : Bool) (may : Nat × Nat → Bool) (island : Nat) :
    Option (List Seat) :=
  let seats := s.seatsOn d lim may island
  let quick := if shareVictim seats then none else s.cheapest (fun t => [t]) (fun t => [islandIndex t.core]) m seats
  if seats.length < m then none
  else match quick.filter (s.savable ending) with
  | some l => some (sortBy (fun t => [islandIndex t.core]) l)
  | none => least s.seatsKey ((s.crewWays d m lim may island).filter (s.savable ending))

/-- The crews of a launch, by island: `n` of them, or with `n = 0` every crew that needs no victim (R306, R307). The choice is one
choice over all islands (R305, R374): where cores of two islands share a victim, or where the cheapest crews cannot all be saved
(R335), every choice is compared. -/
def State.plan (s : State) (d : Demand) (m n lim : Nat) (ending : Bool) (may : Nat × Nat → Bool) :
    Option (List (List Seat)) :=
  let crews := (List.range 32).filterMap (fun i => (s.crew d m lim ending may i).map (fun c => (i, c)))
  let n := if n = 0 then (if lim = 0 then Nat.max 1 crews.length else 1) else n
  let quick := if 1 < n ∧ shareVictim ((List.range 32).flatMap (s.seatsOn d lim may)) then none
    else s.cheapest (fun (e : Nat × List Seat) => e.2) (fun e => [e.1]) n crews
  if crews.length < n then none
  else match quick.filter (fun l => s.savable ending (l.flatMap (·.2))) with
  | some l => some ((sortBy (fun e => [e.1]) l).map (·.2))
  | none => least (fun l => s.seatsKey l.flatten)
      ((choices ((List.range 32).map (s.crewWays d m lim may)) n).filter (fun l => s.savable ending l.flatten))

/-! ## Eligibility and order -/

/-- Whether a launch's dependence is satisfied (R303). -/
def State.dependOk (s : State) (l : Launch) : Bool := !l.depWait || !(s.launch l.rcd.depend).elim false Launch.alive

/-- Whether the launch before in its queue lets a launch go (R303, R319). -/
def State.prevOk (s : State) (l : Launch) : Bool :=
  match l.prev.bind s.launch with
  | none => true
  | some p => if l.rcd.overlap then p.state != .accepted else !p.alive

/-- Whether START minus LEAD of a timed launch has been reached (R318). -/
def State.leadReached (s : State) (l : Launch) : Bool :=
  decide (l.startAt ≤ s.now.toNat + 1000 * s.regs.lead.toNat)

/-- Whether a launch waits to be placed (R303, R318). -/
def State.eligible (s : State) (l : Launch) : Bool :=
  l.state == .accepted && s.dependOk l && s.prevOk l && (l.startAt == 0 || (l.lead && s.leadReached l))

/-- Something the distributor decides about: an eligible launch, or a saved task of a started one (R304). -/
structure Item where
  launch : Launch
  saved : Option Saved
  deriving DecidableEq, Repr

/-- When a launch was accepted relative to the others: ids rise by one and wrap (R303). -/
def State.acceptOrder (s : State) (l : Launch) : Nat := (l.id + 2 ^ 32 - s.nextLaunch.toNat) % 2 ^ 32

/-- The order of decisions (R304). -/
def State.itemKey (s : State) (i : Item) : List Nat :=
  match i.saved with
  | some v => [15 - i.launch.rcd.prio, 0, 0, 0, s.acceptOrder i.launch, v.task.task]
  | none => [15 - i.launch.rcd.prio, 1, (i.launch.startAt == 0).toNat, i.launch.startAt, s.acceptOrder i.launch, 0]

/-- What the distributor may decide about, in order: tasks saved by an escalation are the runtime's (R304, R330). -/
def State.items (s : State) : List Item :=
  let back := s.saved.filterMap (fun v => if v.escalated then none else (s.launch v.launch).map (fun l => { launch := l, saved := some v }))
  let fresh := s.launches.filterMap (fun e => if s.eligible e.2 then some { launch := e.2, saved := none } else none)
  sortBy s.itemKey (back ++ fresh)

/-! ## Decisions -/

/-- One decision of the distributor: a flip of a die's parity, the note that a launch has become eligible, the placing of
a launch on cores by crew, resources kept for a launch or a saved task with the victims to be taken, their giving up,
and the resuming of a saved task on a core. -/
inductive Decision where
  | flip (die : Nat)
  | note (launch : Nat)
  | place (launch : Nat) (crews : List (List Nat))
  | claim (d : Demand) (seats : List Seat) (soft : Bool)
  | drop (launch : Nat)
  | resume (launch task core : Nat)
  deriving DecidableEq, Repr

/-- What a claim holds: the resources of its seats and, beside hot seats, whole neighbours. -/
def State.holdsOf (s : State) (d : Demand) (soft : Bool) (seats : List Seat) : List Hold :=
  let hold : Nat → Hold := fun core =>
    { launch := d.launch, task := d.task, core := core, ctxs := 0, banks := [], tiles := [], whole := true, soft := soft,
      awaits := (leaving seats).filter (fun q => q.1 == core) }
  seats.flatMap (fun t =>
    { hold t.core with ctxs := d.k, banks := t.banks.flatMap (fun b => runBanks b d.nb), tiles := t.tiles, whole := false } ::
      (if d.heat = 2 then (s.around t.core).map hold else []))

/-- Whether a context can still be chosen as a victim. -/
def State.takable (s : State) (q : Nat × Nat) : Bool := (s.ctx q.1 q.2).save == .no

/-- Whether victims of a launch are still to leave. -/
def State.awaiting (s : State) (launch : Nat) : Bool := s.ctxs.any (fun e => e.2.task.isSome && e.2.victimOf == some launch)

/-- The claim to make for a demand on seats: none where nothing changes. -/
def State.claimOf (s : State) (d : Demand) (soft : Bool) (seats : List Seat) : Option Decision :=
  let mine := s.holds.filter (fun h => h.launch == d.launch && h.task == d.task)
  if (leaving seats).isEmpty ∧ mine = s.holdsOf d soft seats then none
  else some (.claim d seats soft)

/-- What is decided for a saved task (R64, R83, R304, R305). -/
def State.decideSaved (s : State) (l : Launch) (v : Saved) : Option Decision :=
  let d := v.demand l
  let cores := (List.range 16).flatMap (fun i => (List.range 16).map (islandCore (16 * coreDie v.core + i)))
  let none' := fun (_ : Nat × Nat) => false
  match cores.find? (fun c => (s.seat d 0 none' c).isSome) with
  | some c => some (.resume l.id v.task.task c)
  | none =>
    if s.awaiting l.id then none
    else
      let pick := fun (may : Nat × Nat → Bool) =>
        least (fun t => s.choiceKey t.victims []) ((cores.flatMap (s.seatWays d l.rcd.prio may)).filter (fun t => s.savable false [t]))
      match (pick (fun q => s.takable q && !s.stuck q.1 q.2)).orElse (fun _ => pick s.takable) with
      | some t => s.claimOf d false [t]
      | none => none

/-- What is decided for an eligible launch (R304-R307, R318); `head` says that it heads its level. -/
def State.decideLaunch (s : State) (l : Launch) (head : Bool) : Option Decision :=
  let d := l.demand
  let m := l.rcd.crewCores
  let n := l.rcd.crews
  let early := l.startAt ≠ 0 ∧ s.now.toNat < l.startAt
  match (if early then none else s.plan d m n 0 false (fun _ => false)) with
  | some p => some (.place l.id (p.map (fun c => c.map (·.core))))
  | none =>
    if s.awaiting l.id then none
    else match ((s.plan d m n l.rcd.prio false (fun q => s.takable q && !s.stuck q.1 q.2)).orElse
        (fun _ => s.plan d m n l.rcd.prio false s.takable)) with
      | some p => s.claimOf d false p.flatten
      | none =>
        let mine := s.holds.filter (fun h => h.launch == l.id && h.task.isNone)
        if l.aged ∧ head then
          if mine.any (·.soft) then none
          else match s.plan d m n 16 true (fun _ => true) with
            | some p => s.claimOf d true p.flatten
            | none => none
        else if mine.isEmpty then none else some (.drop l.id)

/-- The first decision that the items call for, in their order (R304). -/
def State.decideItems (s : State) : List Item → List Nat → Option Decision
  | [], _ => none
  | i :: rest, heads =>
    let r := match i.saved with
      | some v => s.decideSaved i.launch v
      | none => s.decideLaunch i.launch (!heads.contains i.launch.rcd.prio)
    match r with
    | some d => some d
    | none => s.decideItems rest (if i.saved.isNone then i.launch.rcd.prio :: heads else heads)

/-- Whether the hot parity of a die is to flip (R315): a hot launch is eligible, one has retired there since the last flip, and
no hot task is placed or saved on the die. -/
def State.flipDue (s : State) (die : Nat) : Bool :=
  mget false s.hotRetired die &&
  s.launches.any (fun e => e.2.rcd.heat == 2 && s.eligible e.2) &&
  !s.ctxs.any (fun e => coreDie (e.1 / 4) == die && e.2.task.any (fun t => s.isHot t.launch)) &&
  !s.saved.any (fun v => coreDie v.core == die && v.hot)

/-- The next decision, if one is to be made: none during a power failure or after a fatal fault (R304, R356, R358). -/
def State.nextDecision (s : State) : Option Decision :=
  if s.regs.fatal || s.regs.failing || (s.launches.isEmpty && s.saved.isEmpty) then none
  else if s.flipDue 0 then some (.flip 0)
  else if s.flipDue 1 then some (.flip 1)
  else match s.launches.find? (fun e => s.eligible e.2 && e.2.eligibleAt.isNone) with
    | some e => some (.note e.1)
    | none => s.decideItems s.items []

/-! ## Placing -/

/-- Lends a neighbour of a core to a hot task, cleared (R58, R64, R314). -/
def State.lend (s : State) (core x dir : Nat) (allowed : Bool) : State × Lease :=
  match neighbour core dir with
  | none => (s, none)
  | some n =>
    if !allowed || !s.inService n || (s.core n).lentTo.isSome then (s, none)
    else
      let s := s.clearBanks n 0 32
      let s := (List.range 4).foldl (fun s y => s.clearVregs n y) s
      (s.updCore n (fun c => { c with lentTo := some (core, x) }), some n)

/-- Gives a task a context, its banks and tiles and its leases on a core, all of it cleared (R56, R58, R93, R314). Its
directions are limited to `dirs` where the task resumes. -/
def State.seatTask (s : State) (d : Demand) (core : Nat) (t : Task) (dirs : Option (List Bool)) : Option (State × Nat × Task) :=
  match (List.range 4).find? (fun x => (s.ctx core x).task.isNone), s.room { d with k := 1 } core [] with
  | some x, some (b :: _, tiles) =>
    let s := s.clearBanks core b d.nb
    let s := tiles.foldl (fun s z => s.clearTile core z) s
    let s := s.clearVregs core x
    let r := if d.heat = 2 then
        (List.range 4).foldl (fun (r : State × List Lease) i =>
          let n := r.1.lend core x i (dirs.elim true (fun l => l.getD i false))
          (n.1, r.2 ++ [n.2])) (s, [])
      else (s, [none, none, none, none])
    some (r.1, x, { t with b0 := b, banks := d.nb, tiles := tiles, leases := r.2 })
  | _, _ => none

/-- A context at task start (R88, R132, R309). -/
def Ctx.start (l : Launch) (t : Task) : Ctx :=
  { Ctx.reset with
    task := some t
    pc := l.rcd.entry
    regs := [(1, l.rcd.args), (2, BitVec.ofNat 64 l.id)]
    rand := { Rand.reset with key := BitVec.ofNat 64 (l.id * 2 ^ 32 + t.task) }
    walker := { Walker.reset with range := if t.stage = 0 then l.lineRange t.line else { Range.reset with owner := t.line } } }

/-- The tasks of a launch with their cores, in increasing core and context rank (R132, R172, R306, R314). -/
def Launch.tasksFor (l : Launch) (plan : List (List Nat)) : List (Nat × Task) :=
  let crews := plan.length
  let cpc := l.rcd.cpc
  let all := (List.range crews).flatMap (fun c =>
    let cores := plan.getD c []
    (List.range cores.length).flatMap (fun j => (List.range l.rcd.tpc).map (fun h =>
      let line := (c * cpc + j % cpc) * l.rcd.tpc + h
      let t : Task :=
        { launch := l.id, task := j / cpc * (crews * cpc * l.rcd.tpc) + line, crew := c, rank := j % cpc, ctxr := h,
          stage := j / cpc, line := line, b0 := 0, banks := 0, tiles := [], leases := [] }
      (cores.getD j 0, t))))
  sortBy (fun e => [e.1, e.2.ctxr]) all

/-- Places one task of a launch. -/
def State.placeTask (s : State) (l : Launch) (core : Nat) (t : Task) : State :=
  match s.seatTask l.demand core t none with
  | none => s
  | some (s, x, t) => (s.updCtx core x (fun _ => { Ctx.start l t with randAt := s.cycle })).trace 0 core l.id t.task 0

/-- Places a launch whole: its started entry, then its tasks (R304, R306, R309, R354, R357). A timed launch more than 2 µs
behind its START is logged as late (R318, R342). -/
def State.placeLaunch (s : State) (id : Nat) (plan : List (List Nat)) : State :=
  match s.launch id with
  | none => s
  | some l =>
    let tasks := l.tasksFor plan
    let s := s.updLaunch id (fun l => { l with
      crews := plan.length
      tasks := tasks.length
      startedAt := s.cycle
      dies := (plan.flatten.map coreDie).dedup })
    let s := { s with holds := s.holds.filter (fun h => h.launch != id)
                      intake := mset s.intake l.die ((mget [] s.intake l.die).filter (fun n => n != id)) }
    let s := s.journal l .started
    let l := (s.launch id).getD l
    let s := tasks.foldl (fun s e => s.placeTask l e.1 e.2) s
    if l.startAt = 0 then s
    else
      let late := s.now.toNat - l.startAt
      let s := s.trace 7 ((tasks.head?).elim 0 (·.1)) id 0 (BitVec.ofNat 64 late)
      if 2000 < late then s.offer { ev 0xAC 6 0 0 with launch := id } else s

/-- Asks for a victim (R305, R332, R335): its retirement is awaited and its area is kept for it. -/
def State.request (s : State) (launch : Nat) (v : (Nat × Nat) × Nat) : State :=
  let s := s.updCtx v.1.1 v.1.2 (fun c => { c with save := .awaited s.cycle, victimOf := some launch, area := some v.2 })
  s.count (coreIsland v.1.1) 5 1

/-- Makes a claim: what it needs is kept for it, and its victims are asked for (R305, R318). An ageing launch takes
nobody. -/
def State.claim (s : State) (d : Demand) (seats : List Seat) (soft : Bool) : State :=
  let others := s.holds.filter (fun h => !(h.launch == d.launch && h.task == d.task))
  let t := { s with holds := others ++ s.holdsOf d soft seats }
  if soft then t
  else ((s.areasFor (leaving seats) []).getD []).foldl (fun s v => s.request d.launch v) t

/-- Carries out a decision; a resumption has its own event. -/
def State.decided (s : State) : Decision → State
  | .flip die =>
    let par := s.regs.hotpar ^^^ BitVec.ofNat 2 (2 ^ die)
    let s := { s.updRegs (fun r => { r with hotpar := par }) with hotRetired := mset s.hotRetired die false }
    s.trace 4 0xFFFF 0 0 (BitVec.ofNat 64 (die + 2 * (par.getLsbD die).toNat))
  | .note id => s.updLaunch id (fun l => { l with eligibleAt := some s.cycle })
  | .place id plan => s.placeLaunch id plan
  | .claim d seats soft => s.claim d seats soft
  | .drop id => { s with holds := s.holds.filter (fun h => !(h.launch == id && h.task.isNone)) }
  | .resume _ _ _ => s

/-- DISTRIBUTOR_DECISION (R304): the next decision that is no resumption. -/
def execDistributorDecision (s : State) : Out :=
  .next (match s.nextDecision with
  | some d => s.decided d
  | none => s)

/-- Whether a launch has been eligible and unplaced for more than AGE (R305, R320). -/
def State.ageDue (s : State) (l : Launch) : Bool :=
  l.state == .accepted && !l.aged && l.eligibleAt.any (fun c => decide (c + 1900 * s.regs.age.toNat < s.cycle))

/-- AGE_EXPIRY (R305): the launch may reserve what it needs. -/
def execAgeExpiry (launch : Nat) (s : State) : Out :=
  .next (if (s.launch launch).any s.ageDue then s.updLaunch launch (fun l => { l with aged := true }) else s)

/-- Whether a timed launch reaches START minus LEAD (R318). -/
def State.leadDue (s : State) (l : Launch) : Bool :=
  l.state == .accepted && !l.lead && l.startAt != 0 && s.leadReached l

/-- TIMED_LAUNCH_LEAD (R318): the launch becomes eligible as far as its START goes. -/
def execTimedLaunchLead (launch : Nat) (s : State) : Out :=
  .next (if (s.launch launch).any s.leadDue then s.updLaunch launch (fun l => { l with lead := true }) else s)

end Sys2Proof.Machine
end

