-- ==== Sys2Proof/Machine/Save.lean ====
section
/-! DEFINITION. Save points, the drains, the context area, the save and the restore of a task, escalation to the runtime
and what the runtime does with an escalated task (R330-R340, R348). -/

namespace Sys2Proof.Machine

/-! ## Save points -/

/-- A product of the matrix unit. -/
def UnitEntry.isProduct (e : UnitEntry) : Bool :=
  match e.instr with
  | .tmma _ | .tmmaZ _ | .tmmg _ | .tmmgZ _ => true
  | _ => false

/-- Whether a context is at save point 1 or 3 of R332: blocked, or with a step count of 0 and no product queued. -/
def Ctx.atPoint (c : Ctx) : Bool := c.blocked != .no || (c.stepCount == 0 && !c.mq.any UnitEntry.isProduct)

/-- Whether a victim has reached a save point (R332). One whose matrix instruction waits on a halted stream is not taken (R333). -/
def State.pointReached (s : State) (core x : Nat) : Bool :=
  match (s.ctx core x).save with
  | .awaited _ => (s.ctx core x).task.isSome && (s.ctx core x).atPoint && !s.stuck core x
  | _ => false

/-- Whether 16,384 cycles have passed since the request (R332). -/
def State.pointOverdue (s : State) (core x : Nat) : Bool :=
  match (s.ctx core x).save with
  | .awaited t => (s.ctx core x).task.isSome && decide (t + 16384 ≤ s.cycle) && !s.stuck core x
  | _ => false

/-- Whether the launch of a context's task keeps its tasks over a power failure (R358). -/
def State.keeps (s : State) (core x : Nat) : Bool := (s.launchOf core x).elim false (·.rcd.keep)

/-- A victim stops: it issues nothing more (R332). In a power failure a task that is not kept, or one that is blocked on
`lnch`, is killed instead (R358). -/
def State.stopVictim (s : State) (core x : Nat) : State :=
  let s := if s.regs.pfActive && (!s.keeps core x || (s.ctx core x).blocked == .intake) then s.killTask core x
    else s.updCtx core x (fun c => { c with save := .stopped s.saveReason, latches := [] })
  if (s.core core).running = x then s.passCore core else s

/-- SAVE_POINT (R332): points 1 and 3; point 2 is the issue of a `zst.r`. A victim that has stopped runs on while its save waits
for a stream that it must resume itself (R333). -/
def execSavePoint (core x : Nat) (s : State) : Out :=
  .next (if s.pointReached core x then s.stopVictim core x
    else if s.runsOn core x then s.updCtx core x (fun c => { c with save := .awaited s.cycle }) else s)

/-- SAVE_POINT_TIMEOUT (R332): point 4. -/
def execSavePointTimeout (core x : Nat) (s : State) : Out := .next (if s.pointOverdue core x then s.stopVictim core x else s)

/-! ## Drains (R334) -/

/-- Whether the engine queues of a context hold nothing that runs to completion: a started ferry command is done, halted,
or bound to a stream that is full or has had its last row (R52, R54, R55); a started put or get is done or halted (R295). -/
def Ctx.enginesDrained (c : Ctx) : Bool :=
  (List.range 2).all (fun q =>
    (c.ferryQ q).entries.all (fun e => match e with
      | .ferry f => !f.started || (!f.handing && ((c.ferryQ q).halt || (f.bound && f.owed.isEmpty &&
          (decide (8 ≤ (c.stream f.stream).entries.length) || decide ((c.stream f.stream).count ≤ (c.stream f.stream).row)))))
      | _ => true) &&
    (c.soundQ q).entries.all (fun e => match e with
      | .sound k => !k.started || decide (2 ≤ k.kind) || (c.soundQ q).halt
      | _ => true))

/-- Whether every logged access of a stopped context is performed, faulted or held behind one that is: none can be performed, and no
drain that one may wait for has something to do (R83, R148). -/
def State.logSettled (s : State) (core x : Nat) : Bool :=
  let c := s.ctx core x
  c.log.all (fun e => e.cause != 0) ||
    (!(List.range c.log.length).any (s.entryReady core x) && !(List.range 16).any (s.drainReady core x))

/-- Whether the drains of R334 are complete. -/
def State.saveDrained (s : State) (core x : Nat) : Bool :=
  let c := s.ctx core x
  c.mq.isEmpty && (s.core core).matrix.all (fun m => m.x != x) &&
  (List.range 16).all (fun a => (s.array (arrayNo core a)).busy.all (fun b => b.x != x || b.measures)) &&
  c.enginesDrained && s.logSettled core x &&
  (match c.kv with
    | .sent _ _ _ _ => false
    | _ => true) &&
  !(c.blocked == .steal && c.walker.outcome == .asked)

/-! ## The context area (R335, R337) -/

/-- The directions a task holds leases in (R337). -/
def Task.dirBits (t : Task) : Nat := packNat 1 (fun i => (t.leases.getD i none).isSome.toNat) 4

/-- The number of leased directions. -/
def Task.dirCount (t : Task) : Nat := (t.leases.filter (·.isSome)).length

/-- The size S of a task's area (R335). -/
def Task.areaSize (t : Task) : Nat := Machine.areaSize t.tiles.length t.banks t.dirCount

/-- HDR (R337). -/
def State.areaHdr (s : State) (core x reason : Nat) (c : Ctx) (t : Task) : List Byte :=
  padTo 256 (le 4 1 ++ le 4 reason ++ le8 t.areaSize ++ le 4 t.launch ++ le 4 t.task ++ le 2 core ++ le 1 x ++
    le 1 t.tiles.length ++ le 1 t.banks ++ le 1 t.dirBits ++ le 2 0 ++ bytesOf s.now 8 ++ le8 c.clock)

/-- The bit of a pending fault in the bitmap of CTRL, if its source has one (R326, R337). -/
def Pending.bit (p : Pending) : Option Nat := if p.rank = 0 then none else some (p.rank - 1)

/-- The code of a held steal outcome. -/
def StealOutcome.code : StealOutcome → Nat
  | .none => 0
  | .asked => 1
  | .got => 2
  | .refused => 3

/-- The first pending fault of a unit as 16 bytes: its cause and EINFO, zero where there is none. -/
def Ctx.unitPending (c : Ctx) (src : Nat) : List Byte :=
  match c.pending.find? (fun p => p.src == src) with
  | some p => padTo 8 [p.cause] ++ bytesOf p.info 8
  | none => le8 0 ++ le8 0

/-- A held KV outcome as 16 bytes: 0 for none, 1 and the value, or the cause with its EINFO. -/
def KvOutcome.image : KvOutcome → List Byte
  | .value _ v => le8 1 ++ bytesOf v 8
  | .cause _ c i => padTo 8 [2, c] ++ bytesOf i 8
  | _ => le8 0 ++ le8 0

/-- CTRL (R337). -/
def Ctx.areaCtrl (c : Ctx) : List Byte :=
  let loop := match c.loop with
    | some l => [l.rem, l.i, l.start, BitVec.ofNat 64 l.b, l.ring]
    | none => [0, 0, 0, 0, 0]
  let w := c.walker.range
  padTo 512 ((([c.vmode, c.fflags.setWidth 64, c.tvec, c.epc, c.readEcause, c.einfo, c.emask, c.escr, c.mxsat, c.mxrag,
      c.xbclip, BitVec.ofNat 64 c.stepCount] ++ loop).flatMap (fun v => bytesOf v 8)) ++
    le8 (c.hnd.toNat + 2 * c.loop.isSome.toNat + 4 * (c.blocked != .no).toNat) ++
    le8 (packNat 1 (fun i => (c.pending.any (fun p => p.bit == some i)).toNat) 24) ++
    le8 w.next ++ le8 w.fin ++ le8 w.owner ++ le8 c.walker.outcome.code ++ c.unitPending 6 ++ c.unitPending 7 ++ c.kv.image)

/-- CONT (R337): the open regions, innermost first, and CDEPTH in the last byte of region 0. -/
def Ctx.areaCont (c : Ctx) : List Byte :=
  (List.range 4).flatMap (fun k =>
    let b := match c.regions[k]? with
      | some r => padTo 319 ((List.range 31).flatMap (fun i => bytesOf (mget 0 r.regs (i + 1)) 8) ++
          bytesOf (r.fflags.setWidth 64) 8 ++ bytesOf r.handler 8 ++ le8 r.d)
      | none => List.replicate 319 0
    b ++ [if k = 0 then BitVec.ofNat 8 c.regions.length else 0])

/-- BIND (R337). -/
def Ctx.areaBind (c : Ctx) : List Byte :=
  (List.range 16).flatMap (fun k => match c.bindings[k]? with
    | some b => bytesOf b.base 8 ++ bytesOf b.len 8 ++ bytesOf b.obj 8 ++ le8 1
    | none => List.replicate 32 0)

/-- An entry of FLIGHT (R337). The code of its destination says that the place is in use, and whether its result waits for the
return from the handler (the spec gives no codes; a choice of the model). -/
def flightImage (held : Bool) (f : InFlight) : List Byte :=
  padTo 16 (le 2 (destCode f.dest + 0x4000 + 0x8000 * held.toNat) ++ le 1 (f.latch.getD 255) ++ le 1 f.left ++ le 1 f.flags.toNat) ++
    bytesOf f.mask 16 ++ List.replicate 32 0 ++ bytesOf f.val 512

/-- FLIGHT (R99, R337): the results in flight, and of a task in its handler those of the bundles that its trap interrupted. -/
def Ctx.areaFlight (c : Ctx) : List Byte :=
  padTo 13824 (c.flight.flatMap (flightImage false) ++ c.held.flatMap (flightImage true))

/-- The sections of an area of fixed size, with their offsets (R337). -/
def State.areaFixed (s : State) (core x reason : Nat) (c : Ctx) (t : Task) : List (Nat × List Byte) :=
  [(0, s.areaHdr core x reason c t),
   (0x100, (List.range 32).flatMap (fun r => bytesOf (c.readS r) 8)),
   (0x200, c.areaCtrl),
   (0x400, padTo 256 ((List.range 8).flatMap (fun r => bytesOf (c.readP r) 16))),
   (0x500, c.areaCont),
   (0xA00, c.areaBind),
   (0xC00, c.rand.image),
   (0x1040, c.areaFq),
   (0x18C0, c.areaSq),
   (0x2140, unitImage c.mq),
   (0x2240, padTo 448 (unitImage c.xq)),
   (0x2400, c.areaFlight),
   (0x5A00, c.areaLog),
   (0xA200, (List.range 64).flatMap (fun r => bytesOf (s.readV core x r) 512)),
   (0x1_2200, c.areaStrm)]

/-- Writes a bank into an area: its row map and its written rows, with their poison (R335, R337). -/
def State.saveBank (s : State) (core bank base : Nat) : State :=
  let k := rowKey core bank 0
  let rows := s.spad.filter (fun e => decide (k ≤ e.1 ∧ e.1 < k + 1024))
  let s := s.homeStore base (bytesOf (BitVec.ofNat 1024 (packNat 1 (fun r => (mfind rows (k + r)).isSome.toNat) 1024)) 128)
  rows.foldl (fun s e => s.homeWrite ((base + 128) / 64 + (e.1 - k)) allBytes e.2.data e.2.poison) s

/-- Reads a bank back from an area: the rows its map names (R58). -/
def State.loadBank (s : State) (core bank base : Nat) : State :=
  let m := s.readHome base 128
  let got := (List.range 1024).filter (fun r => (m.1.1.getD (r / 8) 0).getLsbD (r % 8))
  got.foldl (fun s r =>
    let k := (base + 128) / 64 + r
    let v := s.homeSector k
    let s := s.fillHome k
    { s with spad := mset s.spad (rowKey core bank r) { data := v.1, poison := v.2 } }) m.2

/-- Writes a tile into an area: its tag, its row map and its written rows (R335, R337). -/
def State.saveTile (s : State) (core tile base : Nat) : State :=
  let k := accKey core tile 0
  let rows := s.acc.filter (fun e => decide (k ≤ e.1 ∧ e.1 < k + 64))
  let s := s.homeStore base (padTo 8 [BitVec.ofNat 8 (mget false s.ztag (16 * core + tile)).toNat] ++
    le8 (packNat 1 (fun r => (mfind rows (k + r)).isSome.toNat) 64) ++ List.replicate 48 0)
  rows.foldl (fun s e => (List.range 8).foldl (fun s i =>
    s.homeWrite ((base + 64) / 64 + 8 * (e.1 - k) + i) allBytes (e.2.data.extractLsb' (512 * i) 512) e.2.poison) s) s

/-- Reads a tile back from an area. -/
def State.loadTile (s : State) (core tile base : Nat) : State :=
  let h := s.readHome base 64
  let s := { h.2 with ztag := mset h.2.ztag (16 * core + tile) ((h.1.1.getD 0 0).getLsbD 0) }
  let got := (List.range 64).filter (fun r => (h.1.1.getD (8 + r / 8) 0).getLsbD (r % 8))
  got.foldl (fun s r =>
    let v := s.readHome (base + 64 + 512 * r) 512
    { v.2 with acc := mset v.2.acc (accKey core tile r) { data := ofVecBytes v.1.1, poison := v.1.2 } }) s

/-- Where the tiles, the banks and the leased windows of an area begin (R337). -/
def accAt (base k : Nat) : Nat := base + 0x2_3200 + 32832 * k
/-- The place of a bank in an area with `zt` tiles. -/
def spadAt (base zt k : Nat) : Nat := accAt base zt + 65664 * k
/-- The place of the `j`-th leased window. -/
def leaseAt (base zt nb j : Nat) : Nat := spadAt base zt nb + 2232320 * j

/-- The lenders of a task in the order N, E, S, W. -/
def Task.lenders (t : Task) : List Nat := t.leases.filterMap id

/-- Marks the sectors of an area that hold the poisoned pieces of a context's vector registers, kept from offset `at'` on (R32,
R59). -/
def State.saveBadV (s : State) (core x at' : Nat) : State :=
  (List.range 64).foldl (fun s r => (s.badPieces core x r).foldl (fun s p =>
    let k := (at' + 512 * r) / 64 + p
    s.homeWrite k allBytes (s.homeSector k).1 true) s) s

/-- Reads a context's vector registers back from an area, with their poison (R32, R59). -/
def State.loadV (s : State) (core x at' : Nat) : State :=
  (List.range 64).foldl (fun s r =>
    let v := s.readHome (at' + 512 * r) 512
    let s := v.2.writeV core x r (ofVecBytes v.1.1)
    (List.range 8).foldl (fun s p =>
      s.markV (8 * vkey core x r + p) (s.homeSector ((at' + 512 * r) / 64 + p)).2) s) s

/-- Writes the whole area of a context (R334, R337). -/
def State.writeArea (s : State) (core x reason base : Nat) (c : Ctx) (t : Task) : State :=
  let zt := t.tiles.length
  let s := (s.areaFixed core x reason c t).foldl (fun s p => s.homeStore (base + p.1) p.2) s
  let s := s.saveBadV core x (base + 0xA200)
  let s := (List.range zt).foldl (fun s k => s.saveTile core (t.tiles.getD k 0) (accAt base k)) s
  let s := (List.range t.banks).foldl (fun s k => s.saveBank core (t.b0 + k) (spadAt base zt k)) s
  (List.range t.lenders.length).foldl (fun s j =>
    let n := t.lenders.getD j 0
    let at' := leaseAt base zt t.banks j
    let s := (List.range 32).foldl (fun s b => s.saveBank n b (at' + 65664 * b)) s
    let s := s.homeStore (at' + 2101248) ((List.range 256).flatMap (fun r => bytesOf (s.readV n (r / 64) (r % 64)) 512))
    (List.range 4).foldl (fun s y => s.saveBadV n y (at' + 2101248 + 32768 * y)) s) s

/-- Reads the tiles, the banks and the leased windows of an area back into a new placement (R58, R64, R340). -/
def State.readStorage (s : State) (core x base : Nat) (t : Task) : State :=
  let zt := t.tiles.length
  let s := s.loadV core x (base + 0xA200)
  let s := (List.range zt).foldl (fun s k => s.loadTile core (t.tiles.getD k 0) (accAt base k)) s
  let s := (List.range t.banks).foldl (fun s k => s.loadBank core (t.b0 + k) (spadAt base zt k)) s
  (List.range t.lenders.length).foldl (fun s j =>
    let n := t.lenders.getD j 0
    let at' := leaseAt base zt t.banks j
    let s := (List.range 32).foldl (fun s b => s.loadBank n b (at' + 65664 * b)) s
    (List.range 4).foldl (fun s y => s.loadV n y (at' + 2101248 + 32768 * y)) s) s

/-! ## The save -/

/-- The context as its area keeps it: latches lost, KV pins given up, a measurement under way put
back to run again whole (R244, R275, R334, R340). -/
def State.ctxToSave (s : State) (core x : Nat) : Ctx :=
  let c := s.ctx core x
  let again := (List.range 16).filterMap (fun a => (s.array (arrayNo core a)).busy.bind (fun b => if b.x = x then some b.entry else none))
  { c with
    latches := []
    xq := again ++ c.xq
    syncRead := none
    streams := c.streams.map (fun e => (e.1, { e.2.rewound with kv := e.2.kv.map (fun v => { v with npin := 0 }) })) }

/-- An escalation (R330): its record, and where the severity matrix kills the context for it, the end of the task that was saved
(R345). -/
def State.escalated (s : State) (time : Word) (t : Task) (cause eflags core x : Nat) (epc einfo emask : Word) (area : Nat) : State :=
  let act := s.applied (escalatedEv t.launch t.task core)
  let s := s.escalation time t.launch t.task cause eflags core x epc einfo emask area
  match s.saved.find? (fun v => act == 3 && v.launch == t.launch && v.task.task == t.task) with
  | some v => s.killSaved v
  | none => s

/-- The escalation record of a context (R330). -/
def State.escalate (s : State) (core x : Nat) (t : Task) (c : Ctx) (cause : Byte) (flags area : Nat) (time : Word) : State :=
  s.escalated time t cause.toNat flags core x c.epc c.einfo c.emask area

/-- EFLAGS of an escalating trap: LATE and NESTED (R330). -/
def Ctx.escFlags (c : Ctx) (nested : Bool) : Nat := (c.ecause.getLsbD 8).toNat + 2 * nested.toNat

/-- A task whose area cannot be allocated is killed; an escalation is still recorded, with AREA = 0 (R336). -/
def State.saveAbandoned (s : State) (core x : Nat) (t : Task) (c : Ctx) : State :=
  let s := (s.offer (taskEv 0x5A 6 core t)).killTask core x
  let s := s.offer (taskEv 0xBE 6 core t)
  match c.esc with
  | some (cause, nested, time) => s.escalate core x t c cause (c.escFlags nested) 0 time
  | none => s

/-- A fault while the area is written kills the task, frees the area and escalates as 0x58 (R336), unless a kill or a reset of the
severity matrix replaces that delivery (R345). -/
def State.saveFaulted (s : State) (core x : Nat) (t : Task) (c : Ctx) : State :=
  let e := taskEv 0x58 6 core t
  let act := s.applied e
  let s := (s.offer e).killTask core x
  if 3 ≤ act then s else s.escalate core x t c 0x58 0 0 s.now

/-- The area is written, everything the task held is released, and the task is saved (R334-R337). -/
def State.saveInto (s : State) (core x reason area : Nat) (t : Task) : State :=
  let c := s.ctxToSave core x
  let s := (s.writeArea core x reason area c t).vacate core x t
  let v : Saved :=
    { launch := t.launch, task := t, core := core, hot := s.isHot t.launch, reason := reason, area := area,
      size := t.areaSize, ctx := c, escalated := c.esc.isSome }
  let s := { s with saved := s.saved ++ [v] }
  let s := s.trace 1 core t.launch t.task (BitVec.ofNat 64 reason)
  match c.esc with
  | some (cause, nested, time) => s.escalate core x t c cause (c.escFlags nested) area time
  | none => s

/-- Whether a context may be saved now. -/
def State.saveReady (s : State) (core x : Nat) : Bool :=
  (s.ctx core x).task.isSome && (s.ctx core x).save.halted && s.saveDrained core x

/-- CONTEXT_SAVE (R334-R337): after the drains the area is written and the resources are released. -/
def execContextSave (core x : Nat) (s : State) : Out :=
  let c := s.ctx core x
  match c.task, c.save with
  | some t, .stopped reason =>
    if !s.saveReady core x then .next s
    else if (reason = 2 ∨ s.regs.pfActive) ∧ !s.keeps core x then .next (s.killTask core x)
    else match c.area.orElse (fun _ => s.areaFor (coreDie core) t []) with
      | none => .next (s.saveAbandoned core x t c)
      | some a => .next (if backed (a + t.areaRounded - 1) then s.saveInto core x reason a t else s.saveFaulted core x t c)
  | _, _ => .next s

/-! ## The restore (R339, R340) -/

/-- A binding that `bind` could have made (R151). -/
def bindPlaceOk (b : List Byte) : Bool :=
  field b 24 8 == 0 || (field b 24 8 == 1 && field b 8 8 != 0 && field b 8 8 ≤ 2 ^ 40 &&
    rangeOk (wordAt b 0) (wordAt b 8) && field b 16 8 % 8 == 0)

/-- A saved region that `copen` could have opened (R161). -/
def regionPlaceOk (b : List Byte) : Bool := field b 264 8 < 32 && field b 256 8 % 16 == 0

/-- A saved loop that `looph` could have opened (R100, R101). -/
def loopPlaceOk (b : List Byte) : Bool :=
  field b 0x260 8 != 0 && decide (1 ≤ field b 0x278 8 ∧ field b 0x278 8 ≤ 64) && ringOk (field b 0x280 8)

/-- The first failing check of an area against a placement, of a state in which the task stands there with its kept context
(R339). Nothing in a causeway section can fail: its maps and its registers may hold any bits. -/
def State.areaBad (s : State) (core x : Nat) (t : Task) (v : Saved) (b : List Byte) : Option Byte :=
  let loops := field b 0x288 8 / 2 % 2 = 1
  let fq := cut b 0x1040 2176
  let sq := cut b 0x18C0 2176
  let flight := cut b 0x2400 13824
  let strm := cut b 0x1_2200 69632
  let xq := unitPlaces (cut b 0x2240 256)
  let checks : List (Bool × Byte) :=
    [(field b 0 4 == 1 && field b 8 8 == t.areaSize && field b 0x1B 1 == t.tiles.length && field b 0x1C 1 == t.banks &&
        field b 0x1D 1 == t.dirBits, 0x1E),
     (reservedOk b && (List.range t.tiles.length).all (fun k => tileReservedOk (s.homeBytes (accAt v.area k) 64).1), 0x1F),
     ((List.range 24).all (fun k => decide (field flight (576 * k + 3) 1 ≤ 20)), 0x17),
     (logSectionOk (cut b 0x5A00 18432), 0x19),
     (!loops || loopPlaceOk b, 0x1A),
     ((List.range 16).all (fun k => streamPlaceOk (cut strm (4352 * k) 4352)), 0x1B),
     (decide (field b 0x298 8 ≤ field b 0x2A0 8), 0x1C),
     (ferrySectionOk t.banks fq sq, 0x7A),
     (soundSectionOk v.ctx t.banks fq sq, 0x7B),
     ((List.range 16).all (fun k => bindPlaceOk (cut b (0xA00 + 32 * k) 32)), 0x7C),
     (decide (field b 0x63F 1 ≤ 4) && (List.range (field b 0x63F 1)).all (fun k => regionPlaceOk (cut b (0x500 + 320 * k) 320)), 0x7D),
     ((unitPlaces (cut b 0x2140 256)).all (s.matrixPlaceOk core x), 0x7E),
     (xq.all (s.xbarPlaceOk core x), 0x7F),
     ((List.range 16).all (fun k => kvPlaceOk (v.ctx.stream k) (cut strm (4352 * k) 4352)), 0x8E),
     (xq.all (fun p => p.i.all (fun i => (s.array (arrayNo core (arrayOf i))).avail)), 0x9D),
     (randImageOk (cut b 0xC00 1088), 0x6C)]
  (checks.find? (fun c => !c.1)).map (·.2)

/-- The regions of CONT. -/
def contOf (b : List Byte) : List Region :=
  (List.range (field b 0x63F 1)).map (fun k =>
    let at' := 0x500 + 320 * k
    { regs := (List.range 31).map (fun i => (i + 1, wordAt b (at' + 8 * i)))
      fflags := BitVec.ofNat 5 (field b (at' + 248) 8)
      handler := wordAt b (at' + 256)
      d := field b (at' + 264) 8 })

/-- The bindings of BIND. -/
def bindOf (b : List Byte) : List Binding :=
  ((List.range 16).filter (fun k => field b (0xA18 + 32 * k) 8 == 1)).map (fun k =>
    { base := wordAt b (0xA00 + 32 * k), len := wordAt b (0xA08 + 32 * k), obj := wordAt b (0xA10 + 32 * k) })

/-- The results of FLIGHT, those that wait for the return from the handler or the others; the limit of R99 is counted with the
latencies the task had. -/
def flightOf (held : Bool) (old : List InFlight) (b : List Byte) : List InFlight :=
  let l := ((List.range 24).map (fun k => cut b (0x2400 + 576 * k) 576)).filter (fun p =>
    (field p 0 2).testBit 14 && (field p 0 2).testBit 15 == held)
  l.zipIdx.map (fun e =>
    let p := e.1
    let left := field p 3 1
    { left := left
      lat := Nat.max left ((old[e.2]?).elim left (·.lat))
      dest := destOfCode (field p 0 2 % 0x4000)
      latch := if field p 2 1 < 10 then some (field p 2 1) else none
      val := ofVecBytes (cut p 64 512)
      mask := BitVec.ofNat 128 (field p 16 16)
      flags := BitVec.ofNat 5 (field p 4 1) })

/-- The loop state of CTRL. -/
def loopOf (old : Option Loop) (b : List Byte) : Option Loop :=
  if field b 0x288 8 / 2 % 2 = 1 then
    some { rem := wordAt b 0x260, i := wordAt b 0x268, start := wordAt b 0x270, b := field b 0x278 8,
           ring := wordAt b 0x280, pos := old.elim 0 (·.pos) }
  else none

/-- What a restored context waits for: a `waitt` keeps its time, and loads of its last bundle stay under way; after an escalation every
blocking load still to be performed is waited for (assumption 146); any other blocked bundle is issued again (R340). -/
def Ctx.waitAgain (c : Ctx) (reason : Nat) (log : List LogEntry) : Wait :=
  match c.blocked with
  | .time t => .time t
  | .load n => .load n
  | _ => if reason = 1 ∧ log.any (·.blocking) then .load 0 else .no

/-- Replaces the cause and EINFO of the first pending fault of a source. -/
def setFirst (src : Nat) (cause : Byte) (info : Word) : List Pending → List Pending
  | [] => []
  | p :: t => if p.src = src then { p with cause := cause, info := info } :: t else p :: setFirst src cause info t

/-- The pending faults of an area: those its bitmap still names, with the cause and EINFO that CTRL holds for the first of the matrix
and of the crossbar units (R326, R337). -/
def pendingOf (old : List Pending) (b : List Byte) : List Pending :=
  setFirst 7 (b.getD 0x2C8 0) (wordAt b 0x2D0) (setFirst 6 (b.getD 0x2B8 0) (wordAt b 0x2C0)
    (old.filter (fun p => p.bit.all (field b 0x290 8).testBit)))

/-- The restored log of a task. One that escalated goes on outside its handler, so that no `eret` is to come: its faulted entries are
issued again at the restore, where no fault of the log is still to be delivered (R83, R148; assumption 146). -/
def reissued (reason : Nat) (pending : List Pending) (log : List LogEntry) : List LogEntry :=
  if reason = 1 ∧ !pending.any (fun p => p.src == 1) then log.map (fun e => { e with cause := 0 }) else log

/-- The KV outcome of an area, for the bundle that waits for it (R262, R337). -/
def kvOf (old : KvOutcome) (b : List Byte) : KvOutcome :=
  match old with
  | .value pc _ | .cause pc _ _ =>
    if field b 0x2D8 1 = 1 then .value pc (wordAt b 0x2E0)
    else if field b 0x2D8 1 = 2 then .cause pc (b.getD 0x2D9 0) (wordAt b 0x2E0)
    else .none
  | k => k

/-- The context that an area restores (R339, R340): what the area lays out is read from it, the rest is as it was kept.
After an escalation the task goes on at the saved EPC, outside any handler; its faulted log entries are issued again where no fault of
the log is still pending (assumption 146). -/
def Ctx.restored (v : Saved) (t : Task) (b : List Byte) : Ctx :=
  let c := v.ctx
  let st := field b 0x288 8
  let pending := pendingOf c.pending b
  let log := reissued v.reason pending (logOf (cut b 0x5A00 18432))
  { c with
    task := some t
    pc := if v.reason = 1 then wordAt b 0x218 &&& ~~~15 else c.pc
    regs := (List.range 31).map (fun i => (i + 1, wordAt b (0x108 + 8 * i)))
    preds := (List.range 7).map (fun i => (i + 1, BitVec.ofNat 128 (field b (0x410 + 16 * i) 16)))
    vmode := wordAt b 0x200 &&& 0x7FF
    fflags := BitVec.ofNat 5 (field b 0x208 8)
    tvec := wordAt b 0x210 &&& 0x3FFF_FFFF_FFFF_FFF3
    epc := wordAt b 0x218 &&& ~~~15
    ecause := wordAt b 0x220
    einfo := wordAt b 0x228
    emask := wordAt b 0x230
    escr := wordAt b 0x238
    mxsat := wordAt b 0x240
    mxrag := wordAt b 0x248
    xbclip := wordAt b 0x250
    stepCount := field b 0x258 8
    loop := loopOf c.loop b
    hnd := st % 2 == 1
    pending := pending
    kv := kvOf c.kv b
    log := log
    streams := (List.range 16).map (fun k => (k, streamAt (c.stream k) (cut b (0x1_2200 + 4352 * k) 4352)))
    regions := contOf b
    bindings := bindOf b
    rand := Rand.ofImage (cut b 0xC00 1088)
    flight := flightOf false c.flight b
    held := flightOf true c.held b
    clock := field b 0x28 8
    latches := []
    blocked := c.waitAgain v.reason log
    save := .no
    victimOf := none
    esc := none
    area := none }

/-- The queues that an area restores, of a state in which the task stands at its place with the context of its area (R337,
R340). -/
def State.restoreQueues (s : State) (core x : Nat) (old : Ctx) (b : List Byte) : State :=
  let s := s.updCtx core x (fun c => { c with
    mq := (unitPlaces (cut b 0x2140 256)).map (s.matrixPlace core x)
    xq := (unitPlaces (cut b 0x2240 256)).map s.xbarPlace ++ old.xq.drop 8 })
  (List.range 2).foldl (fun s n =>
    let fq := cut b (0x1040 + 1088 * n) 1088
    let sq := cut b (0x18C0 + 1088 * n) 1088
    s.updCtx core x (fun c => (c.setFerryQ n (restoredQ fq (fun k r => .ferry (ferryAt (old.ferryQ n) fq r k)))).setSoundQ n
      (restoredQ sq (fun k r => s.soundAt core x (old.soundQ n) r k)))) s

/-- The banks of saved engine commands enter the reservation table of the new placement (R340). -/
def State.reenterBanks (s : State) (core x : Nat) (t : Task) (old : Ctx) : State :=
  (List.range 2).foldl (fun s q =>
    let s := ((s.ctx core x).soundQ q).entries.foldl (fun s e => match e with
      | .sound k => s.reserve core (bankList t.b0 k.held) true
      | _ => s) s
    let l : List QEntry := ((s.ctx core x).ferryQ q).entries
    l.zipIdx.foldl (fun s e => match e with
      | (.ferry f, k) =>
        if !holdsAt (old.ferryQ q) k then s
        else
          let own := (bankList t.b0 (ownBanks t.banks f.bankset)).map (fun b => (core, b))
          let held := own ++ (if f.started then s.farHolds core x f else [])
          (s.reserveAll held true).updCtx core x (fun c => c.setFerryQ q { c.ferryQ q with
            entries := (c.ferryQ q).entries.set k (.ferry { f with held := held }) })
      | _ => s) s) s

/-- Marks a saved task as the runtime's, or gives it back to the distributor (R330). -/
def State.setEscalated (s : State) (launch task : Nat) (e : Bool) : State :=
  { s with saved := s.saved.map (fun v => if v.launch = launch ∧ v.task.task = task then { v with escalated := e } else v) }

/-- A restore whose checks fail escalates with RESTORE set; the task stays saved, for the runtime (R339). Where a kill or a reset
replaces that delivery the task ends (R345). -/
def State.restoreRefused (s : State) (v : Saved) (core x : Nat) (cause : Byte) (b : List Byte) : State :=
  let e := taskEv cause.toNat 6 core v.task
  let act := s.applied e
  let s := s.offer e
  if 3 ≤ act then s.killSaved v
  else
    (s.setEscalated v.launch v.task.task true).escalated s.now v.task cause.toNat 4 core x (wordAt b 0x218) (wordAt b 0x228)
      (wordAt b 0x230) v.area

/-- A fault while the area is read kills the task, frees the area and escalates as 0x59 (R336), unless a kill or a reset of the
severity matrix replaces that delivery (R345). -/
def State.restoreFaulted (s : State) (v : Saved) (core x : Nat) : State :=
  let e := taskEv 0x59 6 core v.task
  let t := (s.offer e).killSaved v
  if 3 ≤ s.applied e then t else t.escalated s.now v.task 0x59 0 core x v.ctx.epc v.ctx.einfo v.ctx.emask 0

/-- Whether an area can be read: its memory is there, and no word that says what it holds is poisoned. Poison of a vector
register, a scratchpad row or a row of a tile is the task's own and comes back with it (R32, R59, R336). -/
def State.areaReadable (s : State) (base size : Nat) (t : Task) : Bool :=
  let zt := t.tiles.length
  let ok := fun (p : Nat × Nat) => !(s.homeBytes p.1 p.2).2
  backed (base + size - 1) && ok (base, 0xA200) && ok (base + 0x1_2200, 0x1_1000) &&
    ((List.range zt).map (fun k => (accAt base k, 64)) ++ (List.range t.banks).map (fun k => (spadAt base zt k, 128)) ++
      (List.range t.dirCount).flatMap (fun j => (List.range 32).map (fun k => (leaseAt base zt t.banks j + 65664 * k, 128)))).all ok

/-- Restores a saved task on a core (R64, R83, R339, R340). -/
def State.restoreTask (s : State) (v : Saved) (l : Launch) (core : Nat) : State :=
  match s.seatTask (v.demand l) core v.task (some (v.task.leases.map (·.isSome))) with
  | none => s
  | some (r, x, t) =>
    let b := s.homeBytes v.area 143872
    if !s.areaReadable v.area t.areaRounded t then (s.touchBytes v.area 143872).restoreFaulted v core x
    else match (r.updCtx core x (fun _ => { v.ctx with task := some t })).areaBad core x t v b.1 with
      | some cause => (s.touchBytes v.area 143872).restoreRefused v core x cause b.1
      | none =>
        let s := ((r.touchBytes v.area 143872).readStorage core x v.area t).updCtx core x
          (fun _ => { Ctx.restored v t b.1 with randAt := r.cycle })
        let s := (s.restoreQueues core x v.ctx b.1).reenterBanks core x t v.ctx
        let s := (s.dropSaved v.launch v.task.task).applyHeld core x
        let s := { s with holds := s.holds.filter (fun h => !(h.launch == v.launch && h.task == some v.task.task)) }
        s.trace 0 core v.launch v.task.task 1

/-- CONTEXT_RESTORE (R339, R340): the task that the distributor resumes next is restored; for a task saved by an
escalation it is the runtime's order to resume it, which the distributor then carries out (R330). -/
def execContextRestore (launch task : Nat) (s : State) : Out :=
  match s.saved.find? (fun v => v.launch == launch && v.task.task == task), s.launch launch with
  | some v, some l =>
    if v.escalated then .next (s.setEscalated launch task false)
    else match s.nextDecision with
      | some (.resume a b core) => .next (if a = launch ∧ b = task then s.restoreTask v l core else s)
      | _ => .next s
  | _, _ => .next s

/-! ## The runtime and an escalated task -/

/-- RUNTIME_HALT_REQUEST (R330): the task escalates with cause 0x18, unless a save has stopped it already. -/
def execRuntimeHaltRequest (core x : Nat) (s : State) : Out :=
  let c := s.ctx core x
  .next (if c.task.isNone || c.save.halted then s
    else
      let s := s.enterTrap core x { cause := 0x18, late := false, src := 0, snum := 0, info := 0, emask := 0, epc := c.pc } false
      if (s.core core).running = x then s.passCore core else s)

/-- RUNTIME_KILL (R330, R331): an escalated task is killed. -/
def execRuntimeKill (launch task : Nat) (s : State) : Out :=
  .next (match s.saved.find? (fun v => v.launch == launch && v.task.task == task && v.escalated) with
  | some v => s.killSaved v
  | none => s)

/-- ISLAND_RESET_END (R348): the island takes tasks again. -/
def execIslandResetEnd (island : Nat) (s : State) : Out :=
  .next (if (s.island island).resetting then s.updIsland island (fun i => { i with resetting := false }) else s)

end Sys2Proof.Machine
end

