-- ==== Sys2Proof/Machine/Power.lean ====
section
/-! DEFINITION. Fatal device faults and the restart after them (R356), the power-failure sequence with its checkpoint
image (R358-R360), and the loss of power. -/

namespace Sys2Proof.Machine

/-! ## Fatal faults (R356) -/

/-- Every task and everything kept for tasks is gone, without a save: contexts, storage, queues of the distributor, engines
and the Sound engine's collectives. Debug registers, fuses and the ramp registers of the islands stay. -/
def State.stopAll (s : State) : State :=
  { s with
    ctxs := []
    cores := s.cores.map (fun (e : Nat × Core) =>
      (e.1, { Core.reset with bkpt := e.2.bkpt, watch := e.2.watch, fusedOff := e.2.fusedOff }))
    arrays := s.arrays.map (fun (e : Nat × XArray) => (e.1, { e.2 with busy := none, tideEnd := none, free := s.cycle }))
    vregs := [], vpoison := [], spad := [], acc := [], ztag := [], pins := [], linePins := [], holds := [], saved := [], colls := []
    heldResults := [], intake := [] }

/-- The launches that are accepted and not retired, in the order of their acceptance. -/
def State.aliveLaunches (s : State) : List Launch :=
  sortBy (fun l => [s.acceptOrder l]) ((s.launches.filter (fun e => e.2.alive)).map (·.2))

/-- FATAL_DEVICE_FAULT (R356): a distributor check, the Narrows down or an uncorrectable error of the on-die network. -/
def execFatalDeviceFault (cause : BitVec 8) (s : State) : Out :=
  if cause ≠ 0x79 ∧ cause ≠ 0xB2 ∧ cause ≠ 0xBF then .next s
  else
    let s := s.offer (ev cause.toNat (if cause = 0xB2 then 3 else if cause = 0x79 then 6 else 4) 0 0)
    let s := if cause = 0xB2 then s.updLink 18 (fun k => { k with up := false }) else s
    .next (s.stopAll.updRegs (fun r => { r with fatal := true }))

/-- Whether the recovery microcode is to run. -/
def State.recoveryDue (s : State) : Bool := s.regs.fatal && !s.regs.jready

/-- FATAL_RECOVERY (R356): a discarded entry for every launch accepted and not retired, then JREADY; where the journal is
not backed nothing is written and 0xA9 is logged. -/
def execFatalRecovery (s : State) : Out :=
  if !s.recoveryDue then .next s
  else
    let l := s.aliveLaunches
    let s := if backed (s.journalAt s.regs.jnext.toNat) then
        l.foldl (fun s l => (s.offer { ev 0xA5 6 0 0 with launch := l.id }).journal l .discarded) s
      else s.offer (ev 0xA9 6 0 0)
    .next (s.updRegs (fun r => { r with jready := true }))

/-- What an array keeps when the tile side starts anew and when the power fails: its cells and remap table (R240, R356). -/
def XArray.unpowered (a : XArray) : XArray :=
  { XArray.reset with avail := a.avail, cells := a.cells, remap := a.remap, retired := a.retired }

/-- A write of RESTART: the tile side starts anew, the distributor with it, which knows no launch as accepted or started any more; HBM,
the journal, the logs, the cells, the remap tables and the times of the tide checks stay (R241, R356). -/
def State.restart (s : State) : State :=
  if !(s.regs.fatal && s.regs.jready) then s
  else
    let s := s.slotsMapped.foldl (fun s e => s.unmapQueue e.1 e.2) s.stopAll
    let s := { s with
      sched := { Sched.reset with due := s.cycle + 19000 }
      hotRetired := []
      launches := s.launches.map (fun (e : Nat × Launch) => (e.1, if e.2.alive then { e.2 with state := .discarded } else e.2))
      arrays := s.arrays.map (fun (e : Nat × XArray) => (e.1, { e.2.unpowered with free := s.cycle, tideDue := e.2.tideDue }))
      islands := s.islands.map (fun (e : Nat × Island) => (e.1, { e.2 with asked := false, resetting := false, walks := [] }))
      ramps := s.ramps.map (fun (e : Nat × Ramp) => (e.1, { Ramp.reset with step := e.2.step })) }
    let s := s.updLink 18 (fun k => { k with up := true })
    s.updRegs (fun r => { r with fatal := false, jready := false, hotpar := 0 })

/-- RESTART (R356). -/
def execRestart (s : State) : Out := s.ifBooted s.restart

/-! ## The warning (R358) -/

/-- What a power warning does to a placed task: one blocked on `lnch` is killed, any other is awaited at its next save
point. -/
def State.warnTask (s : State) (core x : Nat) : State :=
  let c := s.ctx core x
  if c.task.isNone then s
  else if c.blocked = .intake then s.killTask core x
  else if c.save = .no then s.updCtx core x (fun c => { c with save := .awaited s.cycle, victimOf := none, area := none })
  else s

/-- POWER_WARNING (R358): the sequence starts: records are taken no longer, every task is taken at its next save point, and
saved tasks of launches that are not kept are killed. -/
def execPowerWarning (s : State) : Out :=
  let s := (s.offer (ev 0xA3 7 0 0)).interrupt 3
  let s := s.updRegs (fun r => { r with warning := true })
  if s.regs.failing || s.regs.fatal then .next s
  else
    let s := s.updRegs (fun r => { r with pfActive := true })
    let s := { s with holds := [], sched := { s.sched with taking := ([] : Map Nat) } }
    let s := (s.ctxs.map (·.1)).foldl (fun s k => s.warnTask (k / 4) (k % 4)) s
    .next ((s.saved.filter (fun v => !(s.launch v.launch).elim false (·.rcd.keep))).foldl (fun s v => s.killSaved v) s)

/-- POWER_WARNING_DEASSERT (R358, R368): the sequence goes on all the same. -/
def execPowerWarningDeassert (s : State) : Out := .next (s.updRegs (fun r => { r with warning := false }))

/-! ## The image (R359) -/

/-- Where the checkpoint image lies in the flash (a choice of the model). -/
def imageAt : Nat := 0x4000_0000

/-- Bytes of the flash. -/
def State.flashBytes (s : State) (a n : Nat) : List Byte := (List.range n).map (fun i => Mem.read s.flash (a + i))

/-- Writes bytes into the flash. -/
def State.flashStore (s : State) (a : Nat) (b : List Byte) : State :=
  { s with flash := (List.range b.length).foldl (fun f i => Mem.write f (a + i) (b.getD i 0)) s.flash }

/-- Copies memory that no cache holds newer into the flash. -/
def State.flashCopy (s : State) (a pa n : Nat) : State :=
  let clear := s.flash.filter (fun e => !(decide (a ≤ e.1) && decide (e.1 < a + n)))
  let got := s.mem.filter (fun e => decide (pa ≤ e.1) && decide (e.1 < pa + n))
  { s with flash := got.foldl (fun f e => Mem.write f (a + (e.1 - pa)) e.2) clear }

/-- Copies a part of the flash back into memory. -/
def State.flashRestore (s : State) (a pa n : Nat) : State :=
  let clear := s.mem.filter (fun e => !(decide (pa ≤ e.1) && decide (e.1 < pa + n)))
  let got := s.flash.filter (fun e => decide (a ≤ e.1) && decide (e.1 < a + n))
  { s with
    mem := got.foldl (fun m e => Mem.write m (pa + (e.1 - a)) e.2) clear
    l2 := s.l2.filter (fun e => !(decide (pa ≤ 64 * e.1) && decide (64 * e.1 < pa + n))) }

/-- The checkpoint regions of CKPTTBL, in table order: a length of 0 ends the table (R359). -/
def State.regionsFrom (s : State) : Nat → Nat → List (Nat × Nat)
  | 0, _ => []
  | n + 1, k =>
    let len := (mget 0 s.regs.ckpttbl (2 * k + 1)).toNat / 4096 * 4096
    if len = 0 then [] else ((mget 0 s.regs.ckpttbl (2 * k)).toNat / 4096 * 4096, len) :: s.regionsFrom n (k + 1)

/-- A part of the image: the launch it belongs to, if any, and its memory, as base and length. -/
structure Part where
  launch : Option Nat
  mem : List (Nat × Nat)
  deriving DecidableEq, Repr

/-- The bytes of a part: a launch has a header of 4 KiB. -/
def Part.size (p : Part) : Nat := (if p.launch.isSome then 4096 else 0) + (p.mem.map (·.2)).foldl (· + ·) 0

/-- Whether every task of a launch has ended (R319). -/
def Launch.over (l : Launch) : Bool := l.state == .started && l.ended.length == l.tasks

/-- The parts that are to go into the image, in its order: launches that are kept, then regions. -/
def State.parts (s : State) : List Part :=
  ((s.aliveLaunches.filter (fun l => l.rcd.keep && !l.over)).map (fun l =>
    { launch := some l.id
      mem := (sortBy (fun v => [v.task.task]) (s.saved.filter (fun v => v.launch == l.id))).map
        (fun v => (v.area, v.task.areaRounded)) })) ++
  (s.regionsFrom 64 0).map (fun r => { launch := none, mem := [r] })

/-- The parts that fit, and those left out: the image never exceeds 1 GiB (R359). -/
def fitParts : List Part → Nat → List Part × List Part
  | [], _ => ([], [])
  | p :: t, room =>
    if p.size ≤ room then let r := fitParts t (room - p.size); (p :: r.1, r.2)
    else let r := fitParts t room; (r.1, p :: r.2)

/-- The bytes of a record (R298). -/
def Record.image (r : Record) : List Byte :=
  bytesOf r.entry 8 ++ bytesOf r.args 8 ++ (List.range 4).flatMap (fun k => le 4 (r.ext.getD k 0)) ++ [r.order, r.shape] ++
    le 1 r.stages ++ le 1 r.tpc ++ le 1 r.crews ++ le 1 r.cpc ++ le 2 r.grain ++ le 2 r.spkb ++ le 1 r.zt ++ le 1 r.prio ++
    le 4 r.depend ++ bytesOf r.start 8 ++ bytesOf r.done 8

/-- A launch header of the image, of at most 4 KiB: the record, then the ranges of its saved walkers and its ownerless ranges (R359). -/
def State.launchHeader (s : State) (l : Launch) : List Byte :=
  let range := fun (r : Range) => le 8 r.next ++ le 8 r.fin ++ le 8 r.owner
  (l.rcd.image ++ ((s.saved.filter (fun v => v.launch == l.id)).flatMap (fun v => range v.ctx.walker.range)) ++
    l.ownerless.flatMap (fun o => range o.2)).take 4096

/-- Writes the parts into the flash one after the other; the places of the memory among them are answered. -/
def State.writeParts (s : State) : List Part → Nat → State × List (Nat × Nat × Nat) × Nat
  | [], a => (s, [], a)
  | p :: t, a =>
    let s := match p.launch.bind s.launch with
      | some l => s.flashStore a (s.launchHeader l)
      | none => s
    let a := if p.launch.isSome then a + 4096 else a
    let r := p.mem.foldl (fun (r : State × List (Nat × Nat × Nat) × Nat) m =>
      (r.1.flashCopy r.2.2 m.1 m.2, r.2.1 ++ [(m.1, m.2, r.2.2)], r.2.2 + m.2)) (s, [], a)
    let q := r.1.writeParts t r.2.2
    (q.1, r.2.1 ++ q.2.1, q.2.2)

/-- The newest error-log records, as physical base, length and place in the flash from `a` on (R359). -/
def State.elogParts (s : State) (a : Nat) : List (Nat × Nat × Nat) :=
  (List.range 1024).map (fun i =>
    ((s.regs.elogbase.toNat + 32 * ((s.regs.eloghead.toNat + 65536 - 1024 + i) % 65536)) % 2 ^ 52, 32, a + 32 * i))

/-- Copies parts of memory to their places in the flash. -/
def State.copyParts (s : State) (l : List (Nat × Nat × Nat)) : State := l.foldl (fun s p => s.flashCopy p.2.2 p.1 p.2.1) s

/-- The ports are disabled (R358). -/
def State.closePorts (s : State) : State :=
  let s := (List.range 18).foldl (fun s p => s.enableLink p false) (s.updRegs (fun r => { r with pcieOff := true }))
  (List.range 4).foldl (fun s p => s.updEth p (fun e => { e with ctl := e.ctl &&& ~~~(1 : BitVec 64), up := false })) s

/-- Every Dirty sector goes to its stack (R358, R359). -/
def State.cleanAll (s : State) : State :=
  let s := s.rdc.foldl (fun s e => s.rdcClean (e.1 / 0x2_0000_0000) (e.1 % 0x2_0000_0000)) s
  s.l2use.foldl (fun s l => s.cleanLine l) s

/-- Whether every task has been taken, so that the image can be written. -/
def State.commitReady (s : State) : Bool := s.regs.pfActive && !s.ctxs.any (fun e => e.2.task.isSome)

/-- Each launch accepted and not retired receives its final entry, in order of acceptance (R359). -/
def State.finalEntries (s : State) (kept : List Nat) : State :=
  s.aliveLaunches.foldl (fun s l =>
    if kept.contains l.id then s.journal l .checkpointed
    else (s.offer { ev 0xA4 7 0 0 with launch := l.id }).journal l .discarded) s

/-- CHECKPOINT_COMMIT (R358-R360): ports closed, caches written back, the image with its commit record, DONE. -/
def execCheckpointCommit (s : State) : Out :=
  if !s.commitReady then .next s
  else
    let s := s.closePorts.cleanAll
    let fit := fitParts s.parts (2 ^ 30 - 8192 - 32768 - 16777216)
    let kept := fit.1.filterMap (·.launch)
    let s := fit.2.foldl (fun s _ => s.offer (ev 0xA7 7 0 0)) s
    let before := s.launches
    let s := s.finalEntries kept
    let launches := (before.filter (fun e => kept.contains e.1)).map (·.2)
    let s := { s with saved := s.saved.filter (fun v => kept.contains v.launch) }
    let s := s.flushLogs.cleanAll
    let w := s.writeParts fit.1 (imageAt + 4096)
    let logs := w.1.elogParts w.2.2
    let s := w.1.copyParts logs
    let s := s.flashCopy (w.2.2 + 32768) s.regs.jbase.toNat 16777216
    let total := w.2.2 + 32768 + 16777216 - imageAt
    let s := s.flashStore imageAt (le 8 (total + 4096) ++ bytesOf s.regs.jnext 8 ++ bytesOf (s.nextLaunch.setWidth 64) 8)
    let s := s.flashStore (imageAt + total) (sha3 (s.flashBytes imageAt total))
    let s := { s with
      image := w.2.1 ++ logs ++ [(s.regs.jbase.toNat, 16777216, w.2.2 + 32768)]
      checkpointed := kept
      keptTasks := s.saved
      keptLaunches := launches }
    .next ((s.updRegs (fun r => { r with pfActive := false, pfDone := true })).interrupt 4)

/-! ## After it (R360, R368) -/

/-- A PFCTL write whose condition fails sets REFUSED (R368). -/
def State.refusePf (s : State) : State := s.updRegs (fun r => { r with pfRefused := true, pfRefusedNow := true })

/-- A checkpointed launch goes on: with a started entry where it has saved tasks, else as accepted (R360). -/
def State.goOn (s : State) (l : Launch) : State :=
  if l.state = .started then s.journal l .started
  else { s.updLaunch l.id (fun l => { l with state := .accepted }) with
    intake := mset s.intake l.die (mget [] s.intake l.die ++ [l.id]) }

/-- A write of RESUME (R360, R368). -/
def State.resume (s : State) : State :=
  if !s.regs.pfDone || s.regs.warning then s.refusePf
  else
    let s := { s with intake := [] }
    (s.keptLaunches.foldl (fun s l => s.goOn l) s).updRegs (fun r => { r with pfDone := false, pcieOff := false })

/-- RESUME (R360, R368). -/
def execResume (s : State) : Out := s.ifBooted s.resume

/-- Whether the flash holds an image whose commit record is its digest (R359, R370). -/
def State.imageOk (s : State) : Bool :=
  let n := field (s.flashBytes imageAt 8) 0 8
  decide (8192 ≤ n) && decide (n ≤ 2 ^ 30) && s.flashBytes (imageAt + n - 4096) 32 == sha3 (s.flashBytes imageAt (n - 4096))

/-- A launch of the image as the distributor knows it again: the cycles of the time before the loss of power say nothing any more, so
that it has started, or becomes eligible, anew. -/
def Launch.again (l : Launch) (cycle : Nat) : Launch := { l with eligibleAt := none, startedAt := cycle }

/-- A write of RESTORE: the image goes back to its addresses, SEQ continues, and the checkpointed launches are known to
the distributor again as saved (R360, R368). -/
def State.restoreImage (s : State) : State :=
  if !s.regs.imgvalid || s.regs.taken then s.refusePf
  else
    let h := s.flashBytes imageAt 24
    let s := s.image.foldl (fun s p => s.flashRestore p.2.2 p.1 p.2.1) s
    let s := { s with saved := s.keptTasks
                      nextLaunch := BitVec.ofNat 32 (field h 16 8)
                      launches := s.keptLaunches.foldl (fun m (l : Launch) => mset m l.id (l.again s.cycle)) s.launches }
    let s := s.updRegs (fun r => { r with jnext := BitVec.ofNat 64 (field h 8 8) })
    s.keptLaunches.foldl (fun s l => s.goOn l) s

/-- RESTORE (R360, R368). -/
def execRestore (s : State) : Out := s.ifBooted s.restoreImage

/-- POWER_LOSS (R240, R359-R361): only what is retained stays: the flash and what its image holds, cells and remap tables,
lane spares, fuses and REPLACE. An image that was being written has no valid commit record. -/
def execPowerLoss (s : State) : Out :=
  let half := s.regs.pfActive
  let f := if half then (s.flashStore imageAt (List.replicate 8 0)).flash else s.flash
  .next { State.reset with
    agenda := s.agenda
    chances := s.chances
    free := s.free
    flash := f
    image := if half then [] else s.image
    checkpointed := if half then [] else s.checkpointed
    keptTasks := if half then [] else s.keptTasks
    keptLaunches := if half then [] else s.keptLaunches
    arrays := s.arrays.map (fun (e : Nat × XArray) => (e.1, e.2.unpowered))
    hbm := s.hbm.map (fun (e : Nat × Stack) => (e.1, { Stack.reset with spares := e.2.spares }))
    cores := (s.cores.filter (fun e => e.2.fusedOff)).map (fun (e : Nat × Core) => (e.1, { Core.reset with fusedOff := true }))
    regs := { Regs.reset with replace := s.regs.replace, devinfo := s.regs.devinfo } }

end Sys2Proof.Machine
end

