-- ==== Sys2Proof/Machine/Boot.lean ====
section
/-! DEFINITION. Boot, measurement and attestation (R370-R372). The cryptography of FIPS 204 and the fused secrets are left
uninterpreted; the layout of the flash is a choice of the model. -/

namespace Sys2Proof.Machine

/-! ## Signed images -/

/-- Where the two boot slots, the microcode and the loader lie in the flash (a choice of the model). -/
def slotAt : Nat → Nat
  | 0 => 0
  | 1 => 0x0200_0000
  | 2 => 0x0400_0000
  | _ => 0x0600_0000

/-- Where the identity certificate lies in the flash (R373; a choice of the model). -/
def certificateAt : Nat := 0x0800_0000

/-- The identity certificate: `n` bytes of the flash (R372, R373). -/
def State.certificate (s : State) (n : Nat) : List Byte := s.flashBytes certificateAt n

/-- The header of a signed image: version, length, key and signature, 8, 8, 1,312 and 2,420 bytes. -/
def signedHeader : Nat := 3748

/-- The length field of a signed image. -/
def bodyLength (h : List Byte) : Nat := field h 8 8

/-- The room of a slot in the flash (a choice of the model). -/
def slotRoom : Nat := 0x0200_0000

/-- The version of a signed image. -/
def imageVersion (b : List Byte) : Nat := field b 0 8

/-- The digest of a signed image's body. -/
def bodyDigest (b : List Byte) : List Byte := sha3 (b.drop signedHeader)

/-- Whether an image is accepted: its key is the vendor's, its signature verifies over the header fields and the digest of
its body, and its version is no older than the fused minimum (R370). -/
def imageAccepted (b : List Byte) : Bool :=
  let key := slice b 16 1312
  decide (signedHeader + bodyLength b ≤ b.length) && sha3 key == Config.keyDigest &&
    Config.mldsaVerify key (slice b 0 16 ++ bodyDigest b) (slice b 1328 2420) && decide (Config.leastVersion ≤ imageVersion b)

/-- A signed image in the flash; one whose length says that it does not fit its slot is none. -/
def State.flashImage (s : State) (slot : Nat) : List Byte :=
  let n := signedHeader + bodyLength (s.flashBytes (slotAt slot) 16)
  if slotRoom < n then [] else s.flashBytes (slotAt slot) n

/-! ## Measurements (R371) -/

/-- A measurement register. -/
def State.measure (s : State) (k : Nat) : List Byte := bytesOf (mget 0 s.regs.meas k) 32

/-- Extends a measurement register with a digest (R371). -/
def State.extend (s : State) (k : Nat) (digest : List Byte) : State :=
  let v : BitVec 256 := ofBytes 256 (sha3 (s.measure k ++ digest))
  s.updRegs (fun r => { r with meas := mset r.meas k v })

/-! ## Boot (R370) -/

/-- The hardware brought up by the firmware: HBM is trained, the scrubbers start at the beginning of their pass, the Narrows and the
shoals are up, and the arrays' drift periods are counted from now. Lane spares and remap tables are as they were retained (R31,
R240). -/
def State.bringUp (s : State) : State :=
  let s := (s.updLink 18 (fun k => { k with en := true, up := true })).linkLog 18 4 0xFF 0
  let s := { s with hbm := s.hbm.map (fun (e : Nat × Stack) => (e.1, { e.2 with scrubAt := 0 })),
                    arrays := s.arrays.map (fun (e : Nat × XArray) => (e.1, { e.2 with tideDue := none })) }
  s.updRegs (fun r => { r with hwUp := true, xdriftBase := (List.range 16).map (fun h => (h, s.cycle)) })

/-- The cores fused off are logged and set REPLACE (R361). -/
def State.reportFused (s : State) : State :=
  (s.cores.filter (fun e => e.2.fusedOff)).foldl (fun s e => s.offer { ev 0xAF 7 1 e.1 with forced := true }) s

/-- The firmware's verification of the microcode or the loader: it is measured once it is verified, and a failure logs 0xB9 (R370,
R371). -/
def State.verify (s : State) (slot k : Nat) : State × Bool :=
  let b := s.flashImage slot
  if imageAccepted b then (s.extend k (bodyDigest b), true) else (s.offer (ev 0xB9 7 0 0), false)

/-- BOOT (R370), once after power-good: slot A, else slot B; then microcode and loader; the image's commit record; BOOTED. Where both
slots are refused the device stays halted, with the reason, which the spec does not encode, in BOOTSTAT. -/
def execBoot (s : State) : Out :=
  if s.regs.booted || s.regs.romRun then .next s
  else
    let s := s.updRegs (fun r => { r with romRun := true })
    match ([0, 1] : List Nat).find? (fun k => imageAccepted (s.flashImage k)) with
    | none => .next (s.takeFree.updRegs (fun r => { r with bootstat := Config.freeWord s.free 0 }))
    | some k =>
      let b := s.flashImage k
      let s := s.updRegs (fun r => { r with bootstat := 0, fwver := BitVec.ofNat 64 (imageVersion b), lastBoot := k })
      let m := ((s.extend 0 (bodyDigest b)).bringUp).verify 2 1
      if !m.2 then .next m.1
      else
        let l := m.1.verify 3 2
        if !l.2 then .next l.1
        else .next (l.1.updRegs (fun r => { r with imgvalid := l.1.imageOk, booted := true })).reportFused

/-! ## Attestation (R372) -/

/-- DEVINFO: the revision, and the cores, islands and shoals in service (R367). -/
def State.devinfo (s : State) : Word :=
  let cores := 512 - (s.cores.filter (fun e => e.2.fusedOff && decide (e.1 < 512))).length
  let islands := 32 - (s.islands.filter (fun e => e.2.removed)).length
  let shoals := 16 - ((List.range 16).filter (fun h => s.arrays.any (fun e => coreShoal (e.1 / 16) == h) &&
    (s.arrays.filter (fun e => coreShoal (e.1 / 16) == h)).length == 512 &&
    (s.arrays.filter (fun e => coreShoal (e.1 / 16) == h)).all (fun e => !e.2.avail))).length
  BitVec.ofNat 64 (s.regs.devinfo.toNat % 256 + 256 * cores + 2 ^ 18 * islands + 2 ^ 24 * shoals)

/-- DEVSTAT (R368). -/
def State.devstat (s : State) : Word :=
  BitVec.ofNat 64 (s.regs.replace.toNat + 2 * s.regs.jready.toNat + 4 * s.regs.booted.toNat + 8 * s.regs.fatal.toNat)

/-- Sets or clears ERR. -/
def State.attDone (s : State) (bad : Bool) : State := s.updRegs (fun r => { r with attErr := bad })

/-- Whether `n` bytes at ATTBUF are backed. -/
def State.attRoom (s : State) (n : Nat) : Bool := backed (s.regs.attbuf.toNat + n - 1)

/-- The seed of the identity key (R372). -/
def identitySeed : List Byte := sha3 Config.deviceSecret

/-- ATTCTL OP 0 (R372): ERR is unchanged. -/
def execAttctlNop (s : State) : Out := s.ifBooted s

/-- OP 1: MEAS3-MEAS7 are extended with the 32 bytes at ATTBUF; another index sets ERR (R372). -/
def State.attExtend (s : State) (idx : BitVec 3) : State :=
  if idx.toNat < 3 ∨ !s.attRoom 32 then s.attDone true
  else let r := s.readHome s.regs.attbuf.toNat 32; (r.2.extend idx.toNat r.1.1).attDone false

/-- ATTCTL OP 1 (R372). -/
def execAttctlExtend (idx : BitVec 3) (s : State) : Out := s.ifBooted (s.attExtend idx)

/-- What a quote is over (R372). -/
def State.quoted (s : State) : List Byte :=
  bytesOf s.regs.attnonce 32 ++ (List.range 8).flatMap s.measure ++ bytesOf s.devinfo 8 ++ bytesOf s.devstat 8 ++ bytesOf s.now 8

/-- OP 2: the quote at ATTBUF; one that cannot be written logs 0xB8 (R372). -/
def State.attQuote (s : State) : State :=
  if !s.attRoom 2732 then (s.attDone true).offer (ev 0xB8 7 0 0)
  else (s.homeStore s.regs.attbuf.toNat (s.quoted ++ (List.range 2420).map (Config.mldsaSign identitySeed s.quoted))).attDone false

/-- ATTCTL OP 2 (R372). -/
def execAttctlQuote (s : State) : Out := s.ifBooted s.attQuote

/-- OP 3: the public key at ATTBUF (R372). -/
def State.attKey (s : State) : State :=
  if !s.attRoom 1312 then s.attDone true
  else (s.homeStore s.regs.attbuf.toNat ((List.range 1312).map (Config.mldsaPublic identitySeed))).attDone false

/-- ATTCTL OP 3 (R372). -/
def execAttctlPublicKey (s : State) : Out := s.ifBooted s.attKey

/-- The length of the signed image at ATTBUF, by its header. -/
def State.attLength (s : State) : Nat := signedHeader + bodyLength (s.homeBytes s.regs.attbuf.toNat 16).1

/-- OP 4: a verified image is written to the slot not last booted; one that does not fit it is refused (R372). -/
def State.attUpdate (s : State) : State :=
  let n := s.attLength
  if !s.attRoom n ∨ slotRoom < n then (s.touchBytes s.regs.attbuf.toNat 16).attDone true
  else
    let r := s.readHome s.regs.attbuf.toNat n
    if imageAccepted r.1.1 then (r.2.flashStore (slotAt (1 - s.regs.lastBoot)) r.1.1).attDone false else r.2.attDone true

/-- ATTCTL OP 4 (R372). -/
def execAttctlFirmwareUpdate (s : State) : Out := s.ifBooted s.attUpdate

/-- ATTCTL OP 5-7 (R372). -/
def execAttctlInvalidOp (op : BitVec 3) (s : State) : Out := s.ifBooted (if 5 ≤ op.toNat then s.attDone true else s)

end Sys2Proof.Machine
end

