-- ==== Sys2Proof/Machine/ControlRegs.lean ====
section
/-! DEFINITION. The control registers of a context: `crdr` and `cwr` (R184-R186). -/

namespace Sys2Proof.Machine

/-- Control register `n` as it reads (R185). -/
def Ctx.readCtl (c : Ctx) (n : Nat) : Word :=
  match n with
  | 0x00 => c.vmode
  | 0x01 => c.fflags.setWidth 64
  | 0x02 => c.loop.elim 0 (·.i)
  | 0x03 => c.loop.elim 0 (·.rem)
  | 0x04 => c.loop.elim 0 (·.ring)
  | 0x05 => BitVec.ofNat 64 c.regions.length
  | 0x06 => BitVec.ofNat 64 c.bindings.length
  | 0x08 => c.tvec
  | 0x09 => c.epc
  | 0x0A => c.readEcause
  | 0x0B => c.einfo
  | 0x0C => c.emask
  | 0x0D => c.escr
  | 0x10 => (c.ferryQ 0).ferryStatus
  | 0x11 => (c.ferryQ 1).ferryStatus
  | 0x12 => (c.soundQ 0).soundStatus
  | 0x13 => (c.soundQ 1).soundStatus
  | 0x30 => BitVec.ofNat 64 c.walker.range.next
  | 0x31 => BitVec.ofNat 64 c.walker.range.fin
  | 0x32 => BitVec.ofNat 64 c.walker.range.owner
  | 0x38 => c.mxsat
  | 0x39 => c.mxrag
  | 0x3A => c.xbclip
  | _ => (c.stream (n - 0x20)).status

/-- `crdr` (R184). -/
def execCrdr (d : BitVec 5) (imm : BitVec 7) (p : BitVec 2) (s : State) : Out :=
  issue (viewOf (.crdr d imm p)) noCheck
    (fun _ s => s.deliverS (viewOf (.crdr d imm p)) (s.me.readCtl imm.toNat)) s

/-- What a write to a ferry queue's FQSTAT does in its issue cycle (R53). -/
def State.writeFqstat (s : State) (core x q : Nat) (v : Word) : State :=
  if v.getLsbD 7 ∧ ((s.ctx core x).ferryQ q).halt then s.discardFerry core x q
  else if v.getLsbD 5 then s.resumeFerry core x q else s

/-- What a write to a Sound-engine queue's SNDQ does in its issue cycle (R284). -/
def State.writeSndq (s : State) (core x q : Nat) (v : Word) : State :=
  if v.getLsbD 7 ∧ ((s.ctx core x).soundQ q).halt then s.discardSound core x q
  else if v.getLsbD 5 then s.resumeSound core x q else s

/-- A write to a control register: queue and stream registers act at once, the others at the next schedule time, and a
register that is all RO keeps its value (R184, R186). -/
def State.writeCtlNow (s : State) (core x n : Nat) (v : Word) : State :=
  if n = 0x10 ∨ n = 0x11 then s.writeFqstat core x (n - 0x10) v
  else if n = 0x12 ∨ n = 0x13 then s.writeSndq core x (n - 0x12) v
  else if 0x20 ≤ n ∧ n ≤ 0x2F then (if v.getLsbD 8 then s.resumeStream core x (n - 0x20) else s)
  else s.deliverAs (.ctl n) none 1 (wide v) 0 0

/-- `cwr` (R184, R186). -/
def execCwr (a : Src) (imm : BitVec 7) (p : BitVec 2) (s : State) : Out :=
  issue (viewOf (.cwr a imm p))
    (fun _ x => need (imm != 0 || vmodeOk (lo64 x.a).toNat) 0x00)
    (fun x s => s.writeCtlNow s.cur s.x imm.toNat (lo64 x.a)) s

end Sys2Proof.Machine
end

