-- ==== Sys2Proof/Machine/Vector.lean ====
section
/-! DEFINITION. Vector integer and float arithmetic, compares and selection (R189-R197). -/

namespace Sys2Proof.Machine

/-- A list of fields of `w` bits as one vector, the first lowest. -/
def packList (w : Nat) (l : List Nat) : Vec := BitVec.ofNat 4096 (l.foldr (fun x acc => x % 2 ^ w + 2 ^ w * acc) 0)

/-- Element `e` of `w` bits (R90). -/
def elem (w : Nat) (v : Vec) (e : Nat) : Nat := (v.extractLsb' (w * e) w).toNat

/-- The elements of `w` bits of a vector, the lowest first (R90). -/
def elems (w : Nat) (v : Vec) : List Nat := (List.range (4096 / w)).map (elem w v)

/-- Whether element `e` of `w` bits lies in an active lane (R90). -/
def active (w : Nat) (mask : Pred) (e : Nat) : Bool := mask.getLsbD (w * e / 32)

/-- Computes the active elements, 0 elsewhere, with the flags they raise (R189). -/
def elementwise (w : Nat) (mask : Pred) (f : Nat → Nat × Flags) : Vec × Flags :=
  let l := (List.range (4096 / w)).map (fun e => if active w mask e then f e else (0, 0))
  (packList w (l.map (·.1)), orFlags (l.map (·.2)))

/-- The bits of an element in a float format code of VMODE (R89). -/
def floatWidth (ff : Nat) : Nat := if ff = 0 then 32 else 16

/-- The float format of VMODE (R89). -/
def floatFmt (ff : Nat) : Fmt := if ff = 0 then fp32 else if ff = 1 then bf16 else fp16

/-- Every lane. -/
def allLanes : Pred := BitVec.allOnes 128

/-- An integer vector slot: each active element from those of A, B and D (R189). `f` takes the width and US. -/
def vecInt (v : View) (f : Nat → Bool → Nat → Nat → Nat → Nat) (s : State) : Out :=
  issue v noCheck
    (fun x s =>
      let c := s.me
      let w := c.iw
      let r := elementwise w c.ap (fun e => (f w c.us (elem w x.a e) (elem w x.b e) (elem w x.d e), 0))
      s.deliver v r.1 c.ap 0) s

/-- A float vector slot: each active element with its flags, in FF and under RM (R189, R194). -/
def vecFloat (v : View) (f : Fmt → Mode → Nat → Nat → Nat → Nat × Flags) (s : State) : Out :=
  issue v noCheck
    (fun x s =>
      let c := s.me
      let w := floatWidth c.ff
      let r := elementwise w c.ap (fun e =>
        f (floatFmt c.ff) (modeOf c.rm) (elem w x.a e) (elem w x.b e) (elem w x.d e))
      s.deliver v r.1 c.ap r.2) s

/-- `−1 < x < 2^w` from a signed number: its low `w` bits. -/
def wrap (w : Nat) (i : Int) : Nat := (BitVec.ofInt w i).toNat

/-- The number an element stands for under US (R89). -/
def numberOf (w : Nat) (us : Bool) (v : Nat) : Int := if us then v else signedOf w v

/-- The shift amount of an element (R190). -/
def vamount (w b : Nat) : Nat := b % w

/-- `vadd` (R190). -/
def execVadd (o : VRR) (s : State) : Out := vecInt (viewOf (.vadd o)) (fun _ _ a b _ => a + b) s

/-- `vsub` (R190). -/
def execVsub (o : VRR) (s : State) : Out := vecInt (viewOf (.vsub o)) (fun w _ a b _ => a + (2 ^ w - b)) s

/-- `vmul` (R190). -/
def execVmul (o : VRR) (s : State) : Out := vecInt (viewOf (.vmul o)) (fun _ _ a b _ => a * b) s

/-- `vmulh` (R190). -/
def execVmulh (o : VRR) (s : State) : Out :=
  vecInt (viewOf (.vmulh o)) (fun w us a b _ => wrap w (numberOf w us a * numberOf w us b / 2 ^ w)) s

/-- `vmad` (R190). -/
def execVmad (o : VRR) (s : State) : Out := vecInt (viewOf (.vmad o)) (fun _ _ a b d => a * b + d) s

/-- `vand` (R190). -/
def execVand (o : VRR) (s : State) : Out := vecInt (viewOf (.vand o)) (fun _ _ a b _ => a.land b) s

/-- `vor` (R190). -/
def execVor (o : VRR) (s : State) : Out := vecInt (viewOf (.vor o)) (fun _ _ a b _ => a.lor b) s

/-- `vxor` (R190). -/
def execVxor (o : VRR) (s : State) : Out := vecInt (viewOf (.vxor o)) (fun _ _ a b _ => a.xor b) s

/-- `vshl` (R190). -/
def execVshl (o : VRR) (s : State) : Out := vecInt (viewOf (.vshl o)) (fun w _ a b _ => a * 2 ^ vamount w b) s

/-- `vshr` (R190). -/
def execVshr (o : VRR) (s : State) : Out := vecInt (viewOf (.vshr o)) (fun w _ a b _ => a / 2 ^ vamount w b) s

/-- `vsra` (R190). -/
def execVsra (o : VRR) (s : State) : Out :=
  vecInt (viewOf (.vsra o)) (fun w us a b _ => wrap w (numberOf w us a / 2 ^ vamount w b)) s

/-- `vmin` (R190). -/
def execVmin (o : VRR) (s : State) : Out :=
  vecInt (viewOf (.vmin o)) (fun w us a b _ => if numberOf w us b < numberOf w us a then b else a) s

/-- `vmax` (R190). -/
def execVmax (o : VRR) (s : State) : Out :=
  vecInt (viewOf (.vmax o)) (fun w us a b _ => if numberOf w us a < numberOf w us b then b else a) s

/-- The test of an integer condition (R191). -/
def intTest (w : Nat) (us : Bool) (cond a b : Nat) : Bool :=
  match cond with
  | 0 => a == b
  | 1 => a != b
  | 2 => decide (numberOf w us a < numberOf w us b)
  | 3 => decide (numberOf w us a ≤ numberOf w us b)
  | 4 => decide (numberOf w us b < numberOf w us a)
  | 5 => decide (numberOf w us b ≤ numberOf w us a)
  | _ => a.land b != 0

/-- A compare: each element all ones where the condition holds (R191). -/
def compareAs (v : View) (w : State → Nat) (test : State → Nat → Nat → Bool × Flags) (s : State) : Out :=
  issue v noCheck
    (fun x s =>
      let c := s.me
      let n := w s
      let r := elementwise n c.ap (fun e =>
        let t := test s (elem n x.a e) (elem n x.b e)
        (if t.1 then 2 ^ n - 1 else 0, t.2))
      s.deliver v r.1 c.ap r.2) s

/-- `vcmp` (R191). -/
def execVcmp (o : VCM) (s : State) : Out :=
  compareAs (viewOf (.vcmp o)) (fun s => s.me.iw) (fun s a b => (intTest s.me.iw s.me.us o.c.toNat a b, 0)) s

/-- `vfcmp` (R196). -/
def execVfcmp (o : VCM) (s : State) : Out :=
  compareAs (viewOf (.vfcmp o)) (fun s => floatWidth s.me.ff) (fun s a b => (floatFmt s.me.ff).test o.c.toNat a b) s

/-- `vsel` (R192): every lane is written. -/
def execVsel (o : VRR) (s : State) : Out :=
  let v := viewOf (.vsel o)
  issue v noCheck (fun x s => s.deliver v (mergeLanes s.me.ap x.a x.b) allLanes 0) s

/-- `vabs` (R193). -/
def execVabs (o : VU) (s : State) : Out :=
  vecInt (viewOf (.vabs o))
    (fun w us a _ _ => if us then a else Nat.min (signedOf w a).natAbs (2 ^ (w - 1) - 1)) s

/-- `vclz` (R193). -/
def execVclz (o : VU) (s : State) : Out := vecInt (viewOf (.vclz o)) (fun w _ a _ _ => leadingZeros w a) s

/-- `vpopc` (R193). -/
def execVpopc (o : VU) (s : State) : Out := vecInt (viewOf (.vpopc o)) (fun w _ a _ _ => oneBits w a) s

/-- The width that a `vsat` target code names (R193). -/
def satBits (t : BitVec 2) : Nat := if t = 0 then 8 else if t = 1 then 16 else 4

/-- The operand form of a slot in the state it issues in: a `vsat` target that is no narrower than the element is refused
(R193); every other form is the same in every state. -/
def State.form (s : State) (i : Instr) : View :=
  match i with
  | .vsat o t => { viewOf (.vsat o t) with encOk := t != 3 && decide (satBits t < s.me.iw) }
  | i => viewOf i

/-- A number limited to a range (R128). -/
def clampInt (lo hi i : Int) : Int := if i < lo then lo else if hi < i then hi else i

/-- `vsat` (R193): a target that is no narrower than the element is refused. -/
def execVsat (o : VU) (t : BitVec 2) (s : State) : Out :=
  vecInt (s.form (.vsat o t))
    (fun w us a _ _ =>
      let n := satBits t
      if us then Nat.min a (2 ^ n - 1) else wrap w (clampInt (-(2 ^ (n - 1))) (2 ^ (n - 1) - 1) (signedOf w a))) s

/-- `vfadd` (R194). -/
def execVfadd (o : VRR) (s : State) : Out := vecFloat (viewOf (.vfadd o)) (fun f m a b _ => f.add m a b) s

/-- `vfsub` (R194). -/
def execVfsub (o : VRR) (s : State) : Out := vecFloat (viewOf (.vfsub o)) (fun f m a b _ => f.sub m a b) s

/-- `vfmul` (R194). -/
def execVfmul (o : VRR) (s : State) : Out := vecFloat (viewOf (.vfmul o)) (fun f m a b _ => f.mul m a b) s

/-- `vffma` (R194). -/
def execVffma (o : VRR) (s : State) : Out := vecFloat (viewOf (.vffma o)) (fun f m a b d => f.fma m a b d) s

/-- `vfmin` (R195). -/
def execVfmin (o : VRR) (s : State) : Out := vecFloat (viewOf (.vfmin o)) (fun f _ a b _ => f.pick false a b) s

/-- `vfmax` (R195). -/
def execVfmax (o : VRR) (s : State) : Out := vecFloat (viewOf (.vfmax o)) (fun f _ a b _ => f.pick true a b) s

/-- `vfsgn` (R194): bits are copied and nothing is raised. -/
def execVfsgn (o : VRR) (s : State) : Out :=
  vecFloat (viewOf (.vfsgn o)) (fun f _ a b _ => (a % 2 ^ (f.width - 1) + f.sign (b.testBit (f.width - 1)), 0)) s

/-- `vfclass` (R197). -/
def execVfclass (o : VU) (s : State) : Out := vecFloat (viewOf (.vfclass o)) (fun f _ a _ _ => (f.classMask a, 0)) s

end Sys2Proof.Machine
end

