-- ==== Sys2Proof/Machine/Convert.lean ====
section
/-! DEFINITION. Special functions, conversions and block quantisation (R127, R134, R198-R205). -/

namespace Sys2Proof.Machine

/-! ## Special functions -/

/-- A special-function slot: every active lane as FP32, whatever IW and FF hold (R198). -/
def sfuSlot (v : View) (fn : Nat) (s : State) : Out :=
  issue v noCheck
    (fun x s =>
      let r := elementwise 32 s.me.ap (fun j => sfu fn (elem 32 x.a j))
      s.deliver v r.1 s.me.ap r.2) s

/-- `vrcp` (R198, R199). -/
def execVrcp (o : VU) (s : State) : Out := sfuSlot (viewOf (.vrcp o)) 0 s

/-- `vrsq` (R198). -/
def execVrsq (o : VU) (s : State) : Out := sfuSlot (viewOf (.vrsq o)) 1 s

/-- `vsqrt` (R198). -/
def execVsqrt (o : VU) (s : State) : Out := sfuSlot (viewOf (.vsqrt o)) 2 s

/-- `vexp2` (R130, R198). -/
def execVexp2 (o : VU) (s : State) : Out := sfuSlot (viewOf (.vexp2 o)) 3 s

/-- `vlog2` (R198). -/
def execVlog2 (o : VU) (s : State) : Out := sfuSlot (viewOf (.vlog2 o)) 4 s

/-- `vtanh` (R198). -/
def execVtanh (o : VU) (s : State) : Out := sfuSlot (viewOf (.vtanh o)) 5 s

/-- `vsilu` (R198). -/
def execVsilu (o : VU) (s : State) : Out := sfuSlot (viewOf (.vsilu o)) 6 s

/-! ## Rounding modes of conversions -/

/-- The random bits of an element from lane `j` of source register `k`: A is 0, B or D is 1 (R127). -/
def srBits (word : BitVec 2048) (j k : Nat) : Nat :=
  let r := bits word.toNat (16 * j + 15) (16 * j)
  if k = 0 then r else (r * 256 + r / 256) % 65536

/-- The mode in which a conversion slot rounds an element from lane `j` of source `k` (R127, R202). -/
def State.convMode (s : State) (sr : Bool) (j k : Nat) : Mode :=
  if sr then .sr (srBits (s.me.rand.words.headD 0) j k) else modeOf s.me.rm

/-- A stochastic slot waits for a word of random bits (R134). -/
def randReady (sr : Bool) (s : State) (_ : Vals) : SlotEnd := if sr && s.me.rand.words.isEmpty then .stall else .commit

/-! ## `vcvt` -/

/-- The bits of the narrow side of a pair code (R200). -/
def narrowBits (code : Nat) : Nat :=
  if code = 0 ∨ code = 1 ∨ code = 5 ∨ code = 8 ∨ code = 9 ∨ code = 13 then 16
  else if code = 4 ∨ code = 12 then 32 else 8

/-- The value of an FP32 lane in the target of a narrowing code, or in INT32 for code 4 (R201, R202). -/
def narrowTo (code : Nat) (mode : Mode) (v : Nat) : Nat × Flags :=
  let x := fp32.unpack v
  let int := fun (w : Nat) (lo hi : Int) => let r := toRange lo hi mode x; (wrap w r.1, r.2)
  match code with
  | 0 => bf16.convert mode x
  | 1 => fp16.convert mode x
  | 2 => fpE4m3.convert mode x
  | 3 => fpE5m2.convert mode x
  | 4 => int 32 (-2147483648) 2147483647
  | 5 => int 16 (-32768) 32767
  | 6 => int 8 (-128) 127
  | _ => int 8 0 255

/-- The FP32 value of the source of a widening code, or of INT32 for code 12 (R201). -/
def widenFrom (code : Nat) (mode : Mode) (v : Nat) : Nat × Flags :=
  match code with
  | 8 => fp32.convert .rne (bf16.unpack v)
  | 9 => fp32.convert .rne (fp16.unpack v)
  | 10 => fp32.convert .rne (fpE4m3.unpack v)
  | 11 => fp32.convert .rne (fpE5m2.unpack v)
  | 12 => fp32.ofInt mode (signedOf 32 v)
  | 13 => fp32.ofInt .rne (signedOf 16 v)
  | 14 => fp32.ofInt .rne (signedOf 8 v)
  | _ => fp32.ofInt .rne (v % 256)

/-- One lane of `vcvt` (R201). -/
def cvtLane (code part : Nat) (mode : Mode) (a d : Nat) : Nat × Flags :=
  let n := narrowBits code
  if code = 4 then narrowTo code mode a
  else if cvtNarrow code then
    let r := narrowTo code mode a
    (d % 2 ^ (n * part) + r.1 * 2 ^ (n * part) + d / 2 ^ (n * part + n) * 2 ^ (n * part + n), r.2)
  else widenFrom code mode (a / 2 ^ (n * part) % 2 ^ n)

/-- `vcvt` (R200-R202). -/
def execVcvt (o : VU) (part : BitVec 2) (sr : Bool) (c : BitVec 4) (s : State) : Out :=
  let v := viewOf (.vcvt o part sr c)
  issue v (randReady sr)
    (fun x s =>
      let r := elementwise 32 s.me.ap (fun j =>
        cvtLane c.toNat part.toNat (s.convMode sr j 0) (elem 32 x.a j) (elem 32 x.d j))
      s.deliver v r.1 s.me.ap r.2) s

/-! ## Blocks -/

/-- The FP32 values of a cluster's lanes, inactive lanes as +0 (R203). -/
def clusterValues (mask : Pred) (v : Vec) (c : Nat) : List Num :=
  (List.range 16).map (fun i =>
    if mask.getLsbD (16 * c + i) then fp32.unpack (elem 32 v (16 * c + i)) else .fin false 0 0)

/-- One cluster of `vqnt`: 64 bytes and the block's flags (R203). -/
def State.quantCluster (s : State) (sr : Bool) (code : Nat) (x : Vals) (c : Nat) : List Byte × Flags :=
  let modes := fun (k : Nat) => (List.range 16).map (fun i => s.convMode sr (16 * c + i) k)
  let r :=
    if mxFmt code then
      quantMx code (modes 0 ++ modes 1) (clusterValues s.me.ap x.a c ++ clusterValues s.me.ap x.d c)
    else quantIb code (modes 0) (clusterValues s.me.ap x.a c)
  (r.1 ++ List.replicate (64 - r.1.length) 0, r.2)

/-- `vqnt` (R203): every lane is written. -/
def execVqnt (o : VU) (sr : Bool) (c : BitVec 4) (s : State) : Out :=
  let v := viewOf (.vqnt o sr c)
  issue v (randReady sr)
    (fun x s =>
      let l := (List.range 8).map (s.quantCluster sr c.toNat x)
      s.deliver v (ofVecBytes (l.flatMap (·.1))) allLanes (orFlags (l.map (·.2)))) s

/-- The element that lane `i` of a cluster's 64 bytes receives (R204). -/
def blockElement (code : Nat) (h : Bool) (b : List Byte) (i : Nat) : Num :=
  if mxFmt code then mxValue code (b.getD (16 * h.toNat + i) 0) (b.getD 32 0) else ibValue code b i

/-- `vdqnt` (R204). -/
def execVdqnt (o : VU) (h : Bool) (c : BitVec 4) (s : State) : Out :=
  let v := viewOf (.vdqnt o h c)
  issue v noCheck
    (fun x s =>
      let all := vecBytes x.a
      let r := elementwise 32 s.me.ap (fun j =>
        fp32.convert (modeOf s.me.rm) (blockElement c.toNat h ((all.drop (64 * (j / 16))).take 64) (j % 16)))
      s.deliver v r.1 s.me.ap r.2) s

end Sys2Proof.Machine
end

