-- ==== Sys2Proof/Machine/Ports.lean ====
section
/-! DEFINITION. The PTP clock's registers (R350, R351), the Ethernet ports with their stamps (R352, R373), PCIe (R373) and the
events of the surroundings that are only logged (R343). -/

namespace Sys2Proof.Machine

/-! ## Time -/

/-- A write of PTPSTEP: a signed count of nanoseconds is added to the clock; 0xAB is logged (R350). -/
def State.stepClock (s : State) (v : BitVec 64) : State :=
  let wrap := 2 ^ 48 * 1000000000
  let t := (((s.regs.ptpns : Int) + v.toInt) % (wrap : Int)).toNat
  (s.updRegs (fun r => { r with ptpns := t })).offer (ev 0xAB 7 0 0)

/-- PTPSTEP (R350). -/
def execPtpstep (v : BitVec 64) (s : State) : Out := s.ifBooted (s.stepClock v)

/-- A read of PTPLO: the nanoseconds, and the seconds latched for the same core's next read of PTPHI (R350, R366). -/
def State.readPtplo (s : State) (hart : Nat) : State :=
  { s.updRegs (fun r => { r with ptplatch := mset r.ptplatch hart (BitVec.ofNat 64 s.secs) }) with
    hostData := some (BitVec.ofNat 64 s.nsec) }

/-- PTPLO_READ (R350, R366). -/
def execPtploRead (hart : Nat) (s : State) : Out := s.ifBooted (s.readPtplo hart)

/-- A write of PTPCTL: a LOCKED that falls logs 0xAA (R350). -/
def State.writePtpctl (s : State) (v : BitVec 64) : State :=
  let lost := s.regs.ptpLocked && !v.getLsbD 1
  let s := s.updRegs (fun r => { r with
    ptpRun := v.getLsbD 0, ptpLocked := v.getLsbD 1, tsen := v.extractLsb' 2 4, adj := v.extractLsb' 32 32 })
  if lost then s.offer (ev 0xAA 7 0 0) else s

/-- PTPCTL_WRITE (R350). -/
def execPtpctlWrite (v : BitVec 64) (s : State) : Out := s.ifBooted (s.writePtpctl v)

/-- PTPCTL as it reads (R350). -/
def State.ptpctl (s : State) : Word :=
  BitVec.ofNat 64 (s.regs.ptpRun.toNat + 2 * s.regs.ptpLocked.toNat + 4 * s.regs.tsen.toNat + 2 ^ 32 * s.regs.adj.toNat)

/-- A write of JRDSEQ: it selects the journal entry that JRD0-JRD3 return (R355). -/
def State.selectJrd (s : State) (v : BitVec 64) : State := s.updRegs (fun r => { r with jrdseq := v })

/-- JRDSEQ (R355). -/
def execJrdseq (v : BitVec 64) (s : State) : Out := s.ifBooted (s.selectJrd v)

/-! ## Ethernet -/

/-- Two bytes of a frame, the first one high. -/
def be16 (f : List Byte) (k : Nat) : Nat := 256 * (f.getD k 0).toNat + (f.getD (k + 1) 0).toNat

/-- Whether a frame is a PTP event message: Sync, Delay_Req, Pdelay_Req or Pdelay_Resp over 802.3, or over UDP on IPv4 or
IPv6 (R352; the numbers are those of IEEE 1588-2019). -/
def isPtpEvent (f : List Byte) : Bool :=
  let tagged := be16 f 12 == 0x8100
  let et := be16 f (if tagged then 16 else 12)
  let p := if tagged then 18 else 14
  let msg := fun (k : Nat) => decide (k < f.length) && decide ((f.getD k 0).toNat % 16 < 4)
  let ihl := (f.getD p 0).toNat % 16 * 4
  if et = 0x88F7 then msg p
  else if et = 0x0800 then (f.getD (p + 9) 0).toNat == 17 && be16 f (p + ihl + 2) == 319 && msg (p + ihl + 8)
  else if et = 0x86DD then (f.getD (p + 6) 0).toNat == 17 && be16 f (p + 42) == 319 && msg (p + 48)
  else false

/-- Pushes a stamp into a port's FIFO of 64; one that finds it full is dropped and counted (R352). -/
def State.pushStamp (s : State) (port index : Nat) : State :=
  let v := BitVec.ofNat 64 (s.regs.ptpns % 2 ^ 48 + 2 ^ 48 * (index % 2 ^ 15) + 2 ^ 63)
  s.updEth port (fun e => if 64 ≤ e.stamps.length then { e with dropped := e.dropped + 1 }
    else { e with stamps := e.stamps ++ [v] })

/-- Where a descriptor of a ring lies (R373). -/
def ringAt (base : Word) (k : Nat) : Nat := (base.toNat + 16 * (k % 4096)) % 2 ^ 52

/-- A descriptor of a ring: buffer, length and flags (R373). -/
def State.descriptor (s : State) (base : Word) (k : Nat) : Nat × Nat × Nat :=
  let b := (s.homeBytes (ringAt base k) 16).1
  (field b 0 8 % 2 ^ 52, field b 8 2, field b 10 2)

/-- The frame at a transmit ring's HEAD: its bytes, how many descriptors it takes and whether one asks for a stamp; none
until its end of frame has been given to the port. -/
def State.frameAt (s : State) (base : Word) : Nat → Nat → Nat → Option (List Byte × Nat × Bool)
  | 0, _, _ => none
  | n + 1, k, avail =>
    if avail = 0 then none
    else
      let d := s.descriptor base k
      let b := (s.homeBytes d.1 d.2.1).1
      if d.2.2 % 2 = 1 then some (b, 1, d.2.2 / 2 % 2 == 1)
      else (s.frameAt base n (k + 1) (avail - 1)).map (fun r => (b ++ r.1, r.2.1 + 1, r.2.2 || d.2.2 / 2 % 2 == 1))

/-- The home slices after a port has read descriptors from one on, and, to send, what they point at (R38). -/
def State.touchRing (base : Word) (buffers : Bool) : Nat → Nat → State → State
  | 0, _, s => s
  | n + 1, k, s =>
    let d := s.descriptor base k
    let s := s.touchBytes (ringAt base k) 16
    touchRing base buffers n (k + 1) (if buffers then s.touchBytes d.1 d.2.1 else s)

/-- Whether a port may carry frames. -/
def Eth.runs (e : Eth) : Bool := e.ctl.getLsbD 0 && e.up

/-- The frame a port sends next (R373). -/
def State.nextFrame (s : State) (port : Nat) : Option (List Byte × Nat × Bool) :=
  let e := s.eth port
  if !e.runs || 4 ≤ port then none
  else s.frameAt e.txbase 4096 e.txhead.toNat (Nat.min 4096 (e.txtail - e.txhead).toNat)

/-- ETH_TRANSMIT (R352, R373): the next whole frame is sent, its descriptors are completed, a PTP event message of an
enabled port is stamped, as is a frame that asks for it, and the port interrupts. -/
def execEthTransmit (port : Nat) (s : State) : Out :=
  match s.nextFrame port with
  | none => .next s
  | some (f, n, ask) =>
    let index := (s.eth port).txhead.toNat % 4096
    let s := State.touchRing (s.eth port).txbase true n (s.eth port).txhead.toNat s
    let s := s.updEth port (fun e => { e with sent := e.sent ++ [f], txhead := e.txhead + BitVec.ofNat 64 n })
    let s := if s.regs.tsen.getLsbD port && (isPtpEvent f || ask) then s.pushStamp port index else s
    .next (s.interrupt (5 + port))

/-- Puts a frame into receive buffers from a descriptor on: the length that each took and, at the end, the flag for the end
of frame are written back into it; none where the buffers given do not suffice. -/
def State.putFrame (s : State) (base : Word) : Nat → Nat → Nat → List Byte → Option (State × Nat)
  | 0, _, _, _ => none
  | n + 1, k, avail, f =>
    if avail = 0 then none
    else
      let d := s.descriptor base k
      let here := f.take d.2.1
      let rest := f.drop d.2.1
      let s := (s.touchBytes (ringAt base k) 16).homeStore d.1 here
      let s := s.homeStore (ringAt base k + 8)
        (le 2 here.length ++ le 2 (d.2.2 / 2 * 2 + (rest.isEmpty).toNat))
      if rest.isEmpty then some (s, 1) else (s.putFrame base n (k + 1) (avail - 1) rest).map (fun r => (r.1, r.2 + 1))

/-- ETH_RECEIVE (R352, R373): a PTP event message of an enabled port is stamped at ingress; the frame enters the buffers the port was
given, and without enough of them it is lost, once the port has read those it has. The spec gives no port addresses, so
every frame is taken. -/
def execEthReceive (port : Nat) (frame : List (BitVec 8)) (s : State) : Out :=
  let e := s.eth port
  if !e.runs || 4 ≤ port then .next s
  else
    let s := if s.regs.tsen.getLsbD port && isPtpEvent frame then s.pushStamp port (e.rxhead.toNat % 4096) else s
    let given := Nat.min 4096 (e.rxtail - e.rxhead).toNat
    match s.putFrame e.rxbase 4096 e.rxhead.toNat given frame with
    | none => .next (State.touchRing e.rxbase false given e.rxhead.toNat s)
    | some (t, n) => .next ((t.updEth port (fun e => { e with rxhead := e.rxhead + BitVec.ofNat 64 n })).interrupt (5 + port))

/-- A read of STAMP: the oldest stamp, or 0 where there is none (R373). -/
def State.popStamp (s : State) (port : Nat) : State :=
  match (s.eth port).stamps with
  | v :: rest => { s.updEth port (fun e => { e with stamps := rest }) with hostData := some v }
  | [] => { s with hostData := some 0 }

/-- STAMP_POP (R373). -/
def execStampPop (port : Nat) (s : State) : Out := s.ifBooted (s.popStamp port)

/-- ETHERNET_LINK_DOWN (R342, R373): UP changes, and 0xB5 is logged. -/
def execEthernetLinkDown (port : Nat) (up : Bool) (s : State) : Out :=
  .next (if 4 ≤ port then s else (s.updEth port (fun e => { e with up := up })).offer (ev 0xB5 7 7 port))

/-! ## PCIe and the surroundings -/

/-- PCIE_DMA (R358, R373): a DMA that the IOMMU has translated is performed at the home slices; one to an address that is not
backed, or while PCIe is disabled, is refused. -/
def execPcieDma (pa : Nat) (write : Bool) (data : List (BitVec 8)) (s : State) : Out :=
  if s.regs.pcieOff || !backed (pa + data.length - 1) then .next { s with replies := s.replies ++ [.refused] }
  else if write then .next { s.homeStore pa data with replies := s.replies ++ [.done none] }
  else
    let r := s.readHome pa data.length
    .next { r.2 with replies := s.replies ++ [.bytes (r.1.1, r.1.1.map (fun _ => r.1.2))] }

/-- PCIE_LINK_ERROR (R342). -/
def execPcieLinkError (s : State) : Out := .next (s.offer (ev 0xB6 7 0 0))

/-- THERMAL_LIMIT (R343). -/
def execThermalLimit (s : State) : Out := .next (s.offer (ev 0xAD 7 0 0))

/-- SUPPLY_UNDERVOLTAGE (R343). -/
def execSupplyUndervoltage (s : State) : Out := .next (s.offer (ev 0xAE 7 0 0))

/-- APPLICATION_CORE_MACHINE_CHECK (R343). -/
def execApplicationCoreMachineCheck (hart : Nat) (s : State) : Out :=
  .next (s.offer { ev 0xB7 7 0 0 with info := BitVec.ofNat 64 hart })

/-- RUNTIME_HEARTBEAT_MISSED (R343). -/
def execRuntimeHeartbeatMissed (s : State) : Out := .next (s.offer (ev 0xBA 7 0 0))

end Sys2Proof.Machine
end

