-- ==== Sys2Proof/Machine/Stacks.lean ====
section
/-! DEFINITION. What happens to the stacks and their translations from below: shootdowns (R28, R29), reads and writes with
parity and ECC (R30-R33), the patrol scrub (R34), activation alerts and refresh (R35), evictions of the remote-data caches
(R41) and the windows of the corrected-event thresholds (R368). -/

namespace Sys2Proof.Machine

/-! ## Shootdowns -/

/-- Whether a translation of a range is covered by the shootdown in progress (R29). -/
def Regs.covers (r : Regs) (asn va len : Nat) (gl : Bool) : Bool := (r.sdAll || gl || asn == r.sdAsn) && r.inRange va len

/-- A core without the translations and fetched bytes that a shootdown covers (R29). -/
def Core.dropCovered (c : Core) (r : Regs) : Core :=
  { c with tlb := c.tlb.filter (fun t => !r.covers t.asn t.va (2 ^ (12 + t.k)) t.gl)
           icache := c.icache.filter (fun f => !r.covers f.asn f.va 16 f.gl) }

/-- A walker without the non-leaf entries that a shootdown covers (R29). -/
def Island.dropCovered (i : Island) (r : Regs) : Island :=
  { i with walks := i.walks.filter (fun c => !r.covers c.asn c.va (2 ^ (12 + 9 * c.level)) false) }

/-- Every translation, fetched instruction byte and walker entry that the shootdown registers cover is invalidated on both dies
(R29). -/
def State.dropCovered (s : State) : State :=
  { s with
    cores := s.cores.map (fun (e : Nat × Core) => (e.1, e.2.dropCovered s.regs))
    islands := s.islands.map (fun (e : Nat × Island) => (e.1, e.2.dropCovered s.regs)) }

/-- A write of TLBSD: with GO it invalidates every covered translation of both dies; while a shootdown is in progress it is ignored
(R28, R29). -/
def State.shootdown (s : State) (v : BitVec 64) : State :=
  if s.regs.sdBusy || !v.getLsbD 13 then s
  else (s.updRegs (fun r => { r with sdBusy := true, sdAsn := bits v.toNat 11 0, sdAll := v.getLsbD 12 })).dropCovered

/-- SHOOTDOWN (R28, R29). -/
def execShootdown (v : BitVec 64) (s : State) : Out := s.ifBooted (s.shootdown v)

/-- Whether a shootdown can complete: the last pin in its range has been dropped (R29). -/
def State.shootdownDone (s : State) : Bool := s.regs.sdBusy && !s.pins.any s.regs.coversPin

/-- SHOOTDOWN_COMPLETE (R29): what was translated while it ran is invalidated as well, so that no agent uses an old translation
afterwards and a pin that waited is granted through a fresh walk. -/
def execShootdownComplete (s : State) : Out :=
  .next (if s.shootdownDone then s.dropCovered.updRegs (fun r => { r with sdBusy := false }) else s)

/-! ## Codewords -/

/-- Where a codeword lies: its sector and which half of it (R19, R30). -/
structure Codeword where
  sec : Nat
  half : Nat
  deriving DecidableEq, Repr

/-- The stack of a codeword. -/
def Codeword.stack (c : Codeword) : Nat := stackOf (64 * c.sec)

/-- The die-local offset of a codeword's sector. -/
def Codeword.off (c : Codeword) : Nat := 64 * c.sec % 0x40_0000_0000

/-- The pseudo-channel of a codeword within its stack: channel and half. -/
def Codeword.pseudo (c : Codeword) : Nat := bits c.off 15 11 + 32 * bits c.off 16 16

/-- The record of an event of a codeword (R33). -/
def State.wordRecord (s : State) (c : Codeword) (kind origin tries lane spare : Nat) (synd : BitVec 32) : BitVec 256 :=
  s.memRecord kind origin (bits c.off 15 11) (bits c.off 16 16) (bits c.off 20 17) (bits c.off 37 23) (bits c.off 22 21)
    (bits c.off 8 6) c.half tries lane spare synd

/-- An event of a stack offered to the severity matrix, with the index of its record (R33, R347). -/
def State.stackEvent (s : State) (stack cls cause index : Nat) (forced : Bool) : State :=
  s.offer { ev cause 4 3 stack with cls := cls, info := BitVec.ofNat 64 index, forced := forced }

/-- Logs an array error, corrected or not (R33, R368). -/
def State.arrayEvent (s : State) (c : Codeword) (origin : Nat) (fixed : Bool) (synd : BitVec 32) : State :=
  let k := c.stack
  let index := (s.stack k).ahead.toNat % 256
  let s := s.arrayLog k (s.wordRecord c (if fixed then 1 else 2) origin 0 0xFF 0xFF synd)
  let s := s.stackEvent k (if fixed then 0 else 2) 0xFF index false
  if fixed then s.corrected 2 k (ev 0xFF 4 3 k) else s

/-- Logs a transfer error that was recovered: by retry, or with a lane repair onto a spare (R33). A repair that takes the
last spare of its pseudo-channel sets REPLACE. -/
def State.transferEvent (s : State) (c : Codeword) (origin kind tries lane spare : Nat) (last : Bool) : State :=
  let k := c.stack
  let index := (s.stack k).thead.toNat % 256
  let s := s.transferLog k (s.wordRecord c kind origin tries lane spare 0)
  (s.stackEvent k 1 0xFF index last).corrected 3 k (ev 0xFF 4 3 k)

/-- Logs a transfer that failed for good: 0x54 of a read, 0x55 of a write, and REPLACE (R31, R33, R342). -/
def State.transferLost (s : State) (c : Codeword) (origin lane : Nat) (tries : Nat) : State :=
  let k := c.stack
  let index := (s.stack k).thead.toNat % 256
  let s := s.transferLog k (s.wordRecord c 5 origin tries lane 0xFF 0)
  s.stackEvent k 2 (if origin = 1 then 0x55 else 0x54) index true

/-- A known lane is to be repaired (R31): the next spare of its pseudo-channel takes its place and the codeword is transferred once
more, or, with no spare left, the transfer fails, with 0x56. `again` says whether the last transfer passes; the answer whether the
codeword was delivered. -/
def State.laneRepair (s : State) (c : Codeword) (origin lane : Nat) (again : Bool) : State × Bool :=
  let used := mget 0 (s.stack c.stack).spares c.pseudo
  if 2 ≤ used then
    let index := (s.stack c.stack).thead.toNat % 256
    ((s.transferLost c origin lane 4).stackEvent c.stack 2 0x56 index false, false)
  else
    let s := s.updStack c.stack (fun k => { k with spares := mset k.spares c.pseudo (used + 1) })
    if again then (s.transferEvent c origin 4 5 lane (38 + used) (used == 1), true) else (s.transferLost c origin lane 5, false)

/-- What the transfer of one codeword logs, and whether it passed (R31). -/
def State.transfer (s : State) (c : Codeword) (origin : Nat) : WriteOutcome → State × Bool
  | .clean => (s, true)
  | .retried tries => (s.transferEvent c origin 3 (Nat.max 2 (Nat.min tries 4)) 0xFF 0xFF false, true)
  | .laneRepaired lane => s.laneRepair c origin lane.toNat true
  | .failed lane => if lane = 0xFF then (s.transferLost c origin 0xFF 4, false) else s.laneRepair c origin lane.toNat false

/-- A sector whose value nothing states: free values (R31). -/
def freeSector (draw : Nat) : Sector := BitVec.ofNat 512 (packNat 64 (fun i => (Config.freeWord draw i).toNat) 8)

/-- The stored bytes of a codeword become unknown. -/
def State.unknownWord (s : State) (c : Codeword) : State :=
  let v := mergeBytes (byteRange (32 * c.half) 32) (freeSector s.free) (stackSector s.mem c.sec)
  { s.takeFree with mem := storeStack s.mem c.sec v }

/-- What one codeword's read logs, and whether it is delivered without a mark (R30, R31). A corrected codeword, and one that ECC takes
for correctable and miscorrects, is logged as corrected, and it is to be written back after a demand read with WBCOR = 1 (R32) and
after a scrub (R34); what a miscorrection makes of its bytes is unknown. -/
def State.readWord (s : State) (c : Codeword) (origin : Nat) (o : ReadOutcome) : State × Bool :=
  let t := s.transfer c origin o.transfer
  let fixed := fun (s : State) (synd : BitVec 32) =>
    let s := s.arrayEvent c origin true synd
    if origin = 2 ∨ (s.stack c.stack).wbcor then
      { s with writeBacks := s.writeBacks ++ [{ sec := c.sec, half := c.half, origin := if origin = 2 then 2 else 1 }] }
    else s
  if !t.2 then t
  else match o.ecc with
    | .clean => t
    | .corrected synd => (fixed t.1 synd, true)
    | .uncorrectable synd => (t.1.arrayEvent c origin false synd, false)
    | .miscorrected synd => ((fixed t.1 synd).unknownWord c, true)

/-- HBM_SECTOR_FILL (R30, R31, R32, R38): a sector that its slice does not hold is read; a codeword that cannot be corrected makes
it poisoned, and its bytes are then free. -/
def execHbmSectorFill (sec : Nat) (c0 c1 : ReadOutcome) (s : State) : Out :=
  if (mfind s.l2 sec).isSome || !backed (64 * sec) then .next s
  else
    let r0 := s.readWord { sec := sec, half := 0 } 0 c0
    let r1 := r0.1.readWord { sec := sec, half := 1 } 0 c1
    let s := r1.1.fillHome sec
    let bad := (if r0.2 then [] else [0]) ++ (if r1.2 then [] else [1])
    if bad.isEmpty then .next s
    else
      let data := bad.foldl (fun v h => mergeBytes (byteRange (32 * h) 32) (freeSector s.free) v) (s.homeSector sec).1
      .next { s.takeFree with l2 := mset s.l2 sec { data := data, dirty := false, poison := true } }

/-- The stored value of a codeword becomes unknown, and its line is poisoned at its home slice (R31). -/
def State.spoil (s : State) (c : Codeword) : State :=
  (lineSectors (c.sec / 8)).foldl (fun s k =>
    { s with poison := if s.poison.contains k then s.poison else s.poison ++ [k]
             l2 := match mfind s.l2 k with
               | some e => mset s.l2 k { e with poison := true }
               | none => s.l2 }) (s.unknownWord c)

/-- What one codeword's write logs and leaves behind (R31, R33). -/
def State.writeWord (s : State) (c : Codeword) (origin : Nat) (o : WriteOutcome) : State :=
  let t := s.transfer c origin o
  if t.2 then t.1 else t.1.spoil c

/-- CORRECTED_WRITEBACK (R32, R34): the corrected codewords of a sector that are to be written back are written; what is stored stays
as it was unless the write fails. -/
def execCorrectedWriteback (sec : Nat) (c0 c1 : WriteOutcome) (s : State) : Out :=
  let due := s.writeBacks.filter (fun w => w.sec == sec)
  .next (due.foldl (fun s w => s.writeWord { sec := sec, half := w.half } w.origin (if w.half = 0 then c0 else c1))
    { s with writeBacks := s.writeBacks.filter (fun w => w.sec != sec) })

/-- What the write of a sector to its stack meets in the cycle in which it is made (R31). -/
def State.stackWrite (s : State) (sec : Nat) (c0 c1 : WriteOutcome) : State :=
  if s.stackUse.contains (sec, true) then
    (s.writeWord { sec := sec, half := 0 } 1 c0).writeWord { sec := sec, half := 1 } 1 c1
  else s

/-- Whether a sector lies in a bank whose rows are being refreshed (R35). -/
def State.bankWaits (s : State) (sec : Nat) : Bool :=
  let c : Codeword := { sec := sec, half := 0 }
  (s.stack c.stack).bankWait.contains (16 * c.pseudo + bits c.off 20 17)

/-- The codeword that a scrub reads at a position of its pass; the order of the pass is a choice of the model. -/
def scrubWord (stack n : Nat) : Codeword :=
  let k := n / 2
  { sec := placePa stack (k / 8 % 32) (k / 256 % 2) (k / 512 % 16) (k / 32768 % 32768) (k / 8192 % 4) (k % 8) / 64, half := n % 2 }

/-- PATROL_SCRUB (R34): the scrubber of a stack, once the firmware has started it (R370), reads the next codeword of its pass. -/
def execPatrolScrub (stack : Nat) (c : ReadOutcome) (s : State) : Out :=
  let k := s.stack stack
  if !s.regs.hwUp ∨ k.scrubh = 0 ∨ 8 ≤ stack then .next s
  else
    let r := s.readWord (scrubWord stack k.scrubAt) 2 c
    .next (r.1.updStack stack (fun k => { k with scrubAt := (k.scrubAt + 1) % 2 ^ 31 }))

/-! ## Activations -/

/-- The key of a row of a stack: channel with pseudo-channel, bank and row. -/
def rowOf (chan bank row : Nat) : Nat := 524288 * chan + 32768 * bank + row

/-- ACTIVATION_ALERT (R35): a row reaches ALERTTH within the refresh window; the alert is logged as KIND 6 and accesses to
the bank wait for the refresh-management time. Channel numbers 32 to 63 are the second pseudo-channels. -/
def execActivationAlert (stack chan bank row : Nat) (count : BitVec 32) (s : State) : Out :=
  let k := s.stack stack
  let key := rowOf chan bank row
  if 8 ≤ stack ∨ count.toNat < k.alertth.toNat ∨ k.alertth.toNat ≤ mget 0 k.acts key ∧ (mfind k.acts key).isSome then .next s
  else
    let index := k.ahead.toNat % 256
    let s := s.updStack stack (fun k => { k with
      acts := mset k.acts key count.toNat
      bankWait := if k.bankWait.contains (16 * chan + bank) then k.bankWait else k.bankWait ++ [16 * chan + bank] })
    let s := s.arrayLog stack (s.memRecord 6 3 (chan % 32) (chan / 32 % 2) bank row 0 0 0 0 0xFF 0xFF count)
    .next (s.stackEvent stack 3 0xFF index false)

/-- REFRESH_WINDOW_END (R35): the activation counts of a stack start again. -/
def execRefreshWindowEnd (stack : Nat) (s : State) : Out := .next (s.updStack stack (fun k => { k with acts := [] }))

/-- REFRESH_MANAGEMENT_END (R35): accesses to the bank proceed. -/
def execRefreshManagementEnd (stack bank : Nat) (s : State) : Out :=
  .next (s.updStack stack (fun k => { k with bankWait := k.bankWait.filter (fun b => b != bank) }))

/-! ## Evictions and windows -/

/-- RDC_EVICTION (R41): a remote-data cache may evict any line that is not pinned. -/
def execRdcEviction (die line : Nat) (s : State) : Out :=
  .next (if (s.rdcLines die).contains line && !s.linePinned die line then s.rdcEvict die line else s)

/-- Whether a 1 s window of ERRTH has ended. -/
def State.errWindowOver (s : State) : Bool := decide (1900000000 * (s.errWindow + 1) ≤ s.cycle)

/-- ERROR_THRESHOLD_WINDOW_END (R368): the counts of every location start again. -/
def execErrorThresholdWindowEnd (s : State) : Out :=
  .next (if s.errWindowOver then { s with errCounts := [], errLogged := [], errWindow := s.errWindow + 1 } else s)

end Sys2Proof.Machine
end

