-- ==== Sys2Proof/Machine/HostRegs.lean ====
section
/-! DEFINITION. The device register space as the application cores read and write it (R366-R369, R373), and the application
cores' own accesses to memory (R18, R65). -/

namespace Sys2Proof.Machine

/-! ## Fields -/

/-- A value with its bits below 2^k cleared: an aligned address. -/
def aligned (k : Nat) (v : Word) : Word := BitVec.ofNat 64 (v.toNat / 2 ^ k * 2 ^ k)

/-- A physical address register: 52 bits, aligned. -/
def physical (k : Nat) (v : Word) : Word := aligned k (BitVec.ofNat 64 (v.toNat % 2 ^ 52))

/-- Eight bytes of a log record. -/
def recordWord {w : Nat} (v : BitVec w) (k : Nat) : Word := v.extractLsb' (64 * k) 64

/-- The device number, within `n`, of a register of an array of registers `size` bytes apart that begins at `base`. -/
def indexOf (base size n off : Nat) : Option (Nat × Nat) :=
  if base ≤ off ∧ off < base + size * n then some ((off - base) / size, (off - base) % size) else none

/-! ## Reading -/

/-- DISTCTL (R320). -/
def State.distctl (s : State) : Word :=
  BitVec.ofNat 64 (s.regs.lead.toNat + 2 ^ 16 * s.regs.age.toNat + 2 ^ 32 * s.regs.hotpar.toNat)

/-- TLBSD as it reads: BUSY and PINWAIT (R28). -/
def State.tlbsd (s : State) : Word :=
  BitVec.ofNat 64 (2 ^ 14 * s.regs.sdBusy.toNat + 2 ^ 15 * (s.regs.sdBusy && s.pins.any s.regs.coversPin).toNat)

/-- A word of the journal entry that JRDSEQ selects, or 0 where it is no longer in the ring (R355). -/
def State.jrd (s : State) (k : Nat) : Word :=
  let q := s.regs.jrdseq.toNat
  let n := s.regs.jnext.toNat
  if q = 0 ∨ n ≤ q ∨ q + 524288 < n then 0 else s.homeWord (s.journalAt q + 8 * k)

/-- The address of the word that one of JRD0 to JRD3, at an offset of the map, reads from the ring, if it does (R355). -/
def State.jrdAt (s : State) (off : Nat) : Option Nat :=
  let q := s.regs.jrdseq.toNat
  let n := s.regs.jnext.toNat
  if off < 0x0100 ∨ 0x0120 ≤ off ∨ q = 0 ∨ n ≤ q ∨ q + 524288 < n then none else some (s.journalAt q + (off - 0x0100))

/-- The home slices after a read of a register: JRD0 to JRD3 are read from the journal ring (R38, R355). -/
def State.touchJrd (s : State) (off : Nat) : State := (s.jrdAt off).elim s (fun pa => s.touchBytes pa 8)

/-- PFSTAT (R368). -/
def State.pfstat (s : State) : Word :=
  BitVec.ofNat 64 (s.regs.pfDone.toNat + 2 * s.regs.imgvalid.toNat + 4 * s.regs.pfRefused.toNat + 8 * s.regs.pfActive.toNat)

/-- The single registers below 0x0200 (R367). -/
def State.readLow (s : State) (hart off : Nat) : Word :=
  let r := s.regs
  match off with
  | 0x0000 => s.devinfo
  | 0x0008 => s.devstat
  | 0x0010 => r.fabid
  | 0x0018 => r.qtbase
  | 0x0028 => s.distctl
  | 0x0030 => r.escbase
  | 0x0038 => r.eschead.setWidth 64
  | 0x0040 => r.esctail.setWidth 64
  | 0x0048 => r.esclost
  | 0x0050 => s.tlbsd
  | 0x0058 => r.sdva
  | 0x0060 => r.sdnp
  | 0x0068 => mget 0 r.savebase 0
  | 0x0070 => mget 0 r.savelen 0
  | 0x0078 => mget 0 r.savebase 1
  | 0x0080 => mget 0 r.savelen 1
  | 0x0088 => r.grpbase
  | 0x0090 => r.ftimeout
  | 0x0098 => r.elogbase
  | 0x00A0 => r.eloghead.setWidth 64
  | 0x00A8 => r.eloglost
  | 0x00B0 => s.ptpctl
  | 0x00C0 => mget 0 r.ptplatch hart
  | 0x00D0 => r.jbase
  | 0x00D8 => r.jnext
  | 0x00E0 => r.jack
  | 0x00F0 => r.jlost
  | 0x0100 => s.jrd 0
  | 0x0108 => s.jrd 1
  | 0x0110 => s.jrd 2
  | 0x0118 => s.jrd 3
  | 0x0128 => s.pfstat
  | 0x0130 => r.errth
  | 0x0138 => r.inttgt.setWidth 64
  | 0x0140 => r.trcctl.setWidth 64
  | 0x0148 => r.trcbase
  | 0x0150 => r.trchead.setWidth 64
  | 0x0158 => r.trctail.setWidth 64
  | 0x0160 => r.trclost
  | _ => 0

/-- LINKCTL of a link (R368). -/
def Link.ctl (k : Link) : Word :=
  BitVec.ofNat 64 (k.en.toNat + 2 * k.up.toNat + 2 ^ 8 * k.far.toNat + 2 ^ 16 * k.replays.toNat + 2 ^ 48 * k.retrains.toNat)

/-- RAMPCTL of an island (R316): the counts of the last completed window. -/
def Ramp.ctl (k : Ramp) : Word :=
  BitVec.ofNat 64 (k.step.toNat + 2 ^ 16 * (k.last % 2 ^ 13) + 2 ^ 32 * (k.dummiesLast % 2 ^ 16))

/-- A register of an Ethernet port's block, but for STAMP (R373). -/
def Eth.reg (e : Eth) (off : Nat) : Word :=
  match off with
  | 0x00 => BitVec.ofNat 64 ((e.ctl.getLsbD 0).toNat + 2 * e.up.toNat + 4 * (e.ctl.getLsbD 2).toNat)
  | 0x08 => e.txbase
  | 0x10 => e.rxbase
  | 0x18 => e.txtail
  | 0x20 => e.rxtail
  | 0x28 => e.txhead
  | 0x30 => e.rxhead
  | _ => 0

/-- A register or log word of a link's log block (R280, R367). -/
def Link.reg (k : Link) (off : Nat) : Word :=
  if 0x400 ≤ off then recordWord (mget 0 k.log ((off - 0x400) / 16)) (off / 8 % 2)
  else match off with
    | 0x00 => k.head.setWidth 64
    | 0x08 => k.tail.setWidth 64
    | 0x10 => k.ovf
    | _ => 0

/-- STKREL (R34). -/
def Stack.rel (k : Stack) : Word :=
  BitVec.ofNat 64 (k.scrubh.toNat + 2 ^ 8 * k.wbcor.toNat + 2 ^ 9 * 3 + 2 ^ 12 * 2 + 2 ^ 14 * k.alertth.toNat)

/-- A register or log word of a stack's block (R34, R367). -/
def Stack.reg (k : Stack) (off : Nat) : Word :=
  if 0x1000 ≤ off ∧ off < 0x3000 then recordWord (mget 0 k.alog ((off - 0x1000) / 32)) (off / 8 % 4)
  else if 0x3000 ≤ off ∧ off < 0x5000 then recordWord (mget 0 k.tlog ((off - 0x3000) / 32)) (off / 8 % 4)
  else match off with
    | 0x00 => k.rel
    | 0x08 => k.ahead.setWidth 64
    | 0x10 => k.atail.setWidth 64
    | 0x18 => k.aovf
    | 0x20 => k.thead.setWidth 64
    | 0x28 => k.ttail.setWidth 64
    | 0x30 => k.tovf
    | _ => 0

/-- A register of the security block (R364, R367, R372). -/
def State.readSec (s : State) (off : Nat) : Word :=
  let r := s.regs
  if off = 0 then r.bootstat
  else if off = 8 then r.fwver
  else if 0x40 ≤ off ∧ off < 0x140 then recordWord (mget 0 r.meas ((off - 0x40) / 32)) (off / 8 % 4)
  else if off = 0x140 then BitVec.ofNat 64 (16 * r.attErr.toNat)
  else if 0x148 ≤ off ∧ off < 0x168 then recordWord r.attnonce ((off - 0x148) / 8)
  else if off = 0x168 then r.attbuf
  else 0

/-- What a load of a device register returns where the load has no effect of its own; an offset that the map does not
assign reads as 0 (R366, R367). -/
def State.readReg (s : State) (hart off : Nat) : Word :=
  let r := s.regs
  if off < 0x0200 then s.readLow hart off
  else match indexOf 0x0200 8 16 off with
  | some (k, _) => s.sevc k
  | none => match indexOf 0x0400 8 128 off with
  | some (k, _) => mget 0 r.ckpttbl k
  | none => match indexOf 0x1000 8 256 off with
  | some (k, _) => mget 0 r.route k
  | none => match indexOf 0x2000 16 256 off with
  | some (k, b) => recordWord (mget 0 r.fwin k) (b / 8)
  | none => match indexOf 0x3000 8 32 off with
  | some (k, _) => (s.rampNow k).ctl
  | none => match indexOf 0x3100 8 19 off with
  | some (k, _) => (s.link k).ctl
  | none => match indexOf 0x3200 8 16 off with
  | some (k, _) => (mget 1000000#32 r.xdriftp k).setWidth 64
  | none => match indexOf 0x3300 0x40 4 off with
  | some (k, b) => (s.eth k).reg b
  | none => match indexOf 0x4000 64 32 off with
  | some (k, b) => mget 0 r.pmc (8 * k + b / 8)
  | none => match indexOf 0x5000 0x800 19 off with
  | some (k, b) => (s.link k).reg b
  | none => match indexOf 0x1_0000 0x40 512 off with
  | some (k, b) =>
    if b < 0x20 then mget 0 (s.core k).bkpt (b / 8) else if b < 0x30 then mget 0 (s.core k).watch (b / 8 - 4) else 0
  | none => match indexOf 0x2_0000 0x8000 8 off with
  | some (k, b) => (s.stack k).reg b
  | none => match indexOf 0x1000_0000 0x1000_0000 1 off with
  | some (_, b) => ofBytes 64 ((List.range 8).map (fun i => mget 0 r.ecam (b + i)))
  | none => match indexOf 0x8000_0000 0x170 1 off with
  | some (_, b) => s.readSec b
  | none => 0

/-! ## Writing -/

/-- The new value of a severity register: an ACT of 5-7 leaves that field unchanged (R344). -/
def sevcWritten (old v : Word) : Word :=
  BitVec.ofNat 64 (packNat 8 (fun k =>
    let a := bits v.toNat (8 * k + 2) (8 * k)
    8 * (v.getLsbD (8 * k + 3)).toNat + (if a < 5 then a else bits old.toNat (8 * k + 2) (8 * k))) 8)

/-- A write of PFCTL: RESUME, RESTORE, both, which is refused, or neither (R368). -/
def State.writePfctl (s : State) (v : Word) : State :=
  if v.getLsbD 0 && v.getLsbD 1 then s.refusePf
  else if v.getLsbD 0 then s.resume
  else if v.getLsbD 1 then s.restoreImage
  else s

/-- A write of ATTCTL: the operation in its OP field (R372). An operation is one step of the model, so BUSY always reads 0. -/
def State.writeAttctl (s : State) (v : Word) : State :=
  match bits v.toNat 2 0 with
  | 0 => s
  | 1 => s.attExtend (v.extractLsb' 5 3)
  | 2 => s.attQuote
  | 3 => s.attKey
  | 4 => s.attUpdate
  | _ => s.attDone true

/-- A write of XDRIFTP: PERIOD; the count of every array of the shoal restarts from the write (R241, R368). -/
def State.driftPeriod (s : State) (shoal : Nat) (v : BitVec 64) : State :=
  if 16 ≤ shoal then s
  else
    let s := s.updRegs (fun r => { r with
      xdriftp := mset r.xdriftp shoal (v.setWidth 32), xdriftBase := mset r.xdriftBase shoal s.cycle })
    { s with arrays := s.arrays.map (fun (e : Nat × XArray) =>
      (e.1, if coreShoal (e.1 / 16) = shoal then { e.2 with tideDue := none } else e.2)) }

/-- XDRIFTP_WRITE (R241, R368). -/
def execXdriftpWrite (shoal : Nat) (v : BitVec 64) (s : State) : Out := s.ifBooted (s.driftPeriod shoal v)

/-- Writes of the single registers below 0x0200 (R367, R368). -/
def State.writeLow (s : State) (off : Nat) (v : Word) : Out :=
  match off with
  | 0x0010 => .next (if (List.range 18).any (fun p => (s.link p).en) then s
      else (s.updRegs (fun r => { r with fabid := BitVec.ofNat 64 (v.toNat % 2 ^ 24) })).forwardTransit)
  | 0x0018 => .next (s.updRegs (fun r => { r with qtbase := physical 6 v }))
  | 0x0020 => .next (s.notifyQueue (v.setWidth 12))
  | 0x0028 => .next (s.updRegs (fun r => { r with
      lead := v.setWidth 16, age := if v.extractLsb' 16 16 = (0 : BitVec 16) then r.age else v.extractLsb' 16 16 }))
  | 0x0030 => .next (s.updRegs (fun r => { r with escbase := physical 16 v }))
  | 0x0040 => .next (s.updRegs (fun r => { r with esctail := v.setWidth 32 }))
  | 0x0050 => .next (s.shootdown v)
  | 0x0058 => .next (s.updRegs (fun r => { r with sdva := BitVec.ofNat 64 (bits v.toNat 56 12 * 4096) }))
  | 0x0060 => .next (s.updRegs (fun r => { r with sdnp := v }))
  | 0x0068 => .next (s.updRegs (fun r => { r with savebase := mset r.savebase 0 (physical 12 v) }))
  | 0x0070 => .next (s.updRegs (fun r => { r with savelen := mset r.savelen 0 (aligned 12 v) }))
  | 0x0078 => .next (s.updRegs (fun r => { r with savebase := mset r.savebase 1 (physical 12 v) }))
  | 0x0080 => .next (s.updRegs (fun r => { r with savelen := mset r.savelen 1 (aligned 12 v) }))
  | 0x0088 => .next (s.updRegs (fun r => { r with grpbase := v }))
  | 0x0090 => .next (s.updRegs (fun r => { r with ftimeout := if v = 0 then r.ftimeout else v }))
  | 0x0098 => .next (s.updRegs (fun r => { r with elogbase := physical 21 v }))
  | 0x00B0 => .next (s.writePtpctl v)
  | 0x00C8 => .next (s.stepClock v)
  | 0x00D0 => .next (s.updRegs (fun r => { r with jbase := physical 24 v }))
  | 0x00E0 => .next (s.updRegs (fun r => { r with jack := v }))
  | 0x00E8 => .next (s.selectJrd v)
  | 0x0120 => .next (s.writePfctl v)
  | 0x0128 => .next (s.updRegs (fun r => { r with pfRefused := r.pfRefused && (!v.getLsbD 2 || r.pfRefusedNow) }))
  | 0x0130 => .next (s.updRegs (fun r => { r with errth := v }))
  | 0x0138 => .next (s.updRegs (fun r => { r with inttgt := v.setWidth 4 }))
  | 0x0140 => .next (s.updRegs (fun r => { r with trcctl := v.setWidth 8 }))
  | 0x0148 => .next (s.updRegs (fun r => { r with trcbase := physical 21 v }))
  | 0x0158 => .next (s.updRegs (fun r => { r with trctail := v.setWidth 32 }))
  | 0x0168 => .next (if v.getLsbD 0 then s.restart else s)
  | _ => .next s

/-- A write of a word of the fabric window table: reserved bits stay 0 (R282). -/
def windowWritten (old : BitVec 128) (half : Nat) (v : Word) : BitVec 128 :=
  let lo := if half = 0 then bits v.toNat 56 12 * 4096 else bits old.toNat 63 0
  let hi := if half = 1 then v.toNat % 2 ^ 55 else bits old.toNat 127 64
  BitVec.ofNat 128 (lo + 2 ^ 64 * hi)

/-- A write into an Ethernet port's block (R373). -/
def Eth.written (e : Eth) (off : Nat) (v : Word) : Eth :=
  match off with
  | 0x00 => { e with ctl := v &&& 5 }
  | 0x08 => { e with txbase := physical 16 v }
  | 0x10 => { e with rxbase := physical 16 v }
  | 0x18 => { e with txtail := v }
  | 0x20 => { e with rxtail := v }
  | _ => e

/-- A write into a stack's block (R34, R369). -/
def Stack.written (k : Stack) (off : Nat) (v : Word) : Stack :=
  match off with
  | 0x00 => { k with scrubh := v.setWidth 8, wbcor := v.getLsbD 8, alertth := v.extractLsb' 14 18 }
  | 0x10 => { k with atail := v.setWidth 32 }
  | 0x28 => { k with ttail := v.setWidth 32 }
  | _ => k

/-- A write into the security block: of its registers application cores may write ATTCTL, ATTNONCE and ATTBUF (R364). -/
def State.writeSec (s : State) (off : Nat) (v : Word) : Out :=
  if off = 0x140 then .next (s.writeAttctl v)
  else if 0x148 ≤ off ∧ off < 0x168 then
    let k := (off - 0x148) / 8
    .next (s.updRegs (fun r => { r with
      attnonce := BitVec.ofNat 256 (packNat 64 (fun i => if i = k then v.toNat else (recordWord r.attnonce i).toNat) 4) }))
  else if off = 0x168 then .next (s.updRegs (fun r => { r with attbuf := BitVec.ofNat 64 (v.toNat % 2 ^ 52) }))
  else .next s

/-- What a store to a device register does (R366-R368): read-only and reserved bits keep their values, an offset that the map
does not assign ignores the store, and a register with behaviour of its own acts. -/
def State.writeReg (s : State) (off : Nat) (v : Word) : Out :=
  if off < 0x0200 then s.writeLow off v
  else match indexOf 0x0200 8 16 off with
  | some (k, _) => .next (s.updRegs (fun r => { r with sevc := mset r.sevc k (sevcWritten (s.sevc k) v) }))
  | none => match indexOf 0x0400 8 128 off with
  | some (k, _) => .next (s.updRegs (fun r => { r with ckpttbl := mset r.ckpttbl k v }))
  | none => match indexOf 0x1000 8 256 off with
  | some (k, _) =>
    .next (s.updRegs (fun r => { r with route := mset r.route k (BitVec.ofNat 64 (v.toNat % 2 ^ 19)) })).forwardTransit
  | none => match indexOf 0x2000 16 256 off with
  | some (k, b) => .next (s.updRegs (fun r => { r with fwin := mset r.fwin k (windowWritten (mget 0 r.fwin k) (b / 8) v) }))
  | none => match indexOf 0x3000 8 32 off with
  | some (k, _) =>
    let n := v.toNat % 2 ^ 13
    .next (if n = 0 ∨ 7600 < n then s else s.updRamp k (fun q => { q with step := BitVec.ofNat 13 n }))
  | none => match indexOf 0x3100 8 19 off with
  | some (k, _) => .next (s.enableLink k (v.getLsbD 0))
  | none => match indexOf 0x3200 8 16 off with
  | some (k, _) => .next (s.driftPeriod k v)
  | none => match indexOf 0x3300 0x40 4 off with
  | some (k, b) => .next (s.updEth k (fun e => e.written b v))
  | none => match indexOf 0x4000 64 32 off with
  | some (k, b) => .next (s.updRegs (fun r => { r with pmc := mset r.pmc (8 * k + b / 8) v }))
  | none => match indexOf 0x5000 0x800 19 off with
  | some (k, b) => .next (if b = 8 then s.updLink k (fun q => { q with tail := v.setWidth 32 }) else s)
  | none => match indexOf 0x1_0000 0x40 512 off with
  | some (k, b) =>
    .next (if b < 0x20 then s.updCore k (fun c => { c with bkpt := mset c.bkpt (b / 8) (v &&& 0x01FF_FFFF_FFFF_FFF1) })
      else if b < 0x30 then s.updCore k (fun c => { c with watch := mset c.watch (b / 8 - 4) (v &&& 0x01FF_FFFF_FFFF_FFFB) })
      else s)
  | none => match indexOf 0x2_0000 0x8000 8 off with
  | some (k, b) => .next (s.updStack k (fun q => q.written b v))
  | none => match indexOf 0x1000_0000 0x1000_0000 1 off with
  | some (_, b) =>
    .next (s.updRegs (fun r => { r with ecam := (List.range 8).foldl (fun m i => mset m (b + i) (byteOf v i)) r.ecam }))
  | none => match indexOf 0x8000_0000 0x170 1 off with
  | some (_, b) => s.writeSec b v
  | none => .next s

/-- REGISTER_WRITE (R366): a store of an application core to a device register; the device registers are aligned words. -/
def execRegisterWrite (off : Nat) (v : BitVec 64) (s : State) : Out :=
  if s.regs.booted then s.writeReg (off / 8 * 8) v else .next s

/-! ## Application-core accesses -/

/-- The device register space (R18). -/
def inRegisters (pa : Nat) : Bool := decide (0xF_0000_0000_0000 ≤ pa ∧ pa < 0x10_0000_0000_0000)

/-- A load of a device register (R366, R367): PTPLO latches the seconds and STAMP pops its FIFO. -/
def State.loadReg (s : State) (hart off : Nat) : Out :=
  if off = 0x00B8 then .next (s.readPtplo hart)
  else match indexOf 0x3300 0x40 4 off with
    | some (k, 0x38) => .next (s.popStamp k)
    | _ => .next { s.touchJrd off with hostData := some (s.readReg hart off) }

/-- What an atomic of an application core stores, its operands as signed or unsigned numbers of `8 n` bits. -/
def hostAmo (op : HostAccess) (n : Nat) (w b : Word) : Word :=
  let lt := if n = 4 then (w.setWidth 32).slt (b.setWidth 32) else w.slt b
  let ltu := if n = 4 then (w.setWidth 32).ult (b.setWidth 32) else w.ult b
  match op with
  | .amoAdd => w + b
  | .amoAnd => w &&& b
  | .amoOr => w ||| b
  | .amoXor => w ^^^ b
  | .amoMin => if lt then w else b
  | .amoMax => if lt then b else w
  | .amoMinu => if ltu then w else b
  | .amoMaxu => if ltu then b else w
  | _ => b

/-- What an atomic of `n` bytes leaves at its address: the value itself, but in the STATE word of a queue's descriptor what its access
codes make of it (R300, R301). -/
def State.amoStored (s : State) (pa n : Nat) (old new : Word) : Word :=
  let base := s.regs.qtbase.toNat
  let off := (pa - base) % 64
  if pa < base ∨ base + 262144 ≤ pa then new
  else if n = 4 ∧ off = 0x14 then (stateWritten (old.setWidth 32) (new.setWidth 32)).setWidth 64
  else if n = 8 ∧ off = 0x10 then stateWritten (old.extractLsb' 32 32) (new.extractLsb' 32 32) ++ new.setWidth 32
  else new

/-! ## The cache of the application cores (R363) -/

/-- A sector as the application cores see it: what their cache holds, or what it would fill from the home slice. -/
def State.appSector (s : State) (k : Nat) : AppSector := (mfind s.appCache k).getD { data := (s.homeSector k).1, dirty := 0 }

/-- A sector leaves the cache; the bytes written in it are written back to the home slice. -/
def State.appEvict (s : State) (k : Nat) : State :=
  match mfind s.appCache k with
  | none => s
  | some e => { s.homeWrite k e.dirty e.data false with appCache := merase s.appCache k }

/-- A sector that the cache does not hold is filled; a full cache of 32 MiB gives up its lowest sector first. -/
def State.appFill (s : State) (k : Nat) : State :=
  if (mfind s.appCache k).isSome then s
  else
    let s := if s.appCache.length < 524288 then s else (s.appCache.head?).elim s (fun e => s.appEvict e.1)
    { s.fillHome k with appCache := mset s.appCache k (s.appSector k) }

/-- Bytes as the application cores see them. -/
def State.appBytes (s : State) (pa n : Nat) : List Byte :=
  ((sectorsOf pa n).flatMap (fun k => bytesOf (s.appSector k).data 64)).drop (pa % 64) |>.take n

/-- Bytes written into the cache. -/
def State.appStore (s : State) (pa : Nat) (b : List Byte) : State :=
  (sectorsOf pa b.length).foldl (fun s k =>
    let s := s.appFill k
    let p := pieceOf pa b [] k
    let e := s.appSector k
    { s with appCache := mset s.appCache k { data := mergeBytes p.1 p.2 e.data, dirty := e.dirty ||| p.1 } }) s

/-- `cbo.clean`: the written bytes of a sector are written back, and the sector stays. -/
def State.appClean (s : State) (k : Nat) : State :=
  match mfind s.appCache k with
  | none => s
  | some e => { s.homeWrite k e.dirty e.data false with appCache := mset s.appCache k { e with dirty := 0 } }

/-- An access of an application core to memory (R65, R81, R363): the bytes loaded, or the old value of an atomic. Loads and stores,
of 1, 2, 4 or 8 bytes at any address (RVA23), go through the cache; atomics, of 4 or 8 bytes, aligned, are performed at the home
slice, once their sector has left the cache; `cbo.clean` and `cbo.inval` act on the sector of their address. -/
def State.hostMemory (s : State) (op : HostAccess) (pa n : Nat) (data : Word) : Out :=
  match op with
  | .cboClean => .next { s.appClean (pa / 64) with hostData := some 0 }
  | .cboInval => .next { s with appCache := merase s.appCache (pa / 64), hostData := some 0 }
  | .load =>
    .next (if (n = 1 ∨ n = 2 ∨ n = 4 ∨ n = 8) ∧ backed (pa + n - 1) then
        { (sectorsOf pa n).foldl State.appFill s with hostData := some (ofBytes 64 (s.appBytes pa n)) }
      else { s with hostData := none })
  | .store =>
    .next (if (n = 1 ∨ n = 2 ∨ n = 4 ∨ n = 8) ∧ backed (pa + n - 1) then { s.appStore pa (bytesOf data n) with hostData := some 0 }
      else { s with hostData := none })
  | .amoSwap | .amoAdd | .amoAnd | .amoOr | .amoXor | .amoMin | .amoMax | .amoMinu | .amoMaxu =>
    let t := s.appEvict (pa / 64)
    let word : Word := ofBytes 64 (t.homeBytes pa n).1
    .next (if (n = 4 ∨ n = 8) ∧ pa % n = 0 then
        { t.homeStore pa (bytesOf (t.amoStored pa n word (hostAmo op n word data)) n) with hostData := some word }
      else { s with hostData := none })
  | .claim => .next s

/-- An access of a security core to memory, which the cache of the application cores does not serve: it is performed at the home slices.
Atomics and cache-block operations are as those of an application core. -/
def State.secureMemory (s : State) (op : HostAccess) (pa n : Nat) (data : Word) : Out :=
  let ok := (n = 1 ∨ n = 2 ∨ n = 4 ∨ n = 8) ∧ backed (pa + n - 1)
  match op with
  | .load =>
    let r := s.readHome pa n
    .next (if ok then { r.2 with hostData := some (ofBytes 64 r.1.1) } else { s with hostData := none })
  | .store => .next (if ok then { s.homeStore pa (bytesOf data n) with hostData := some 0 } else { s with hostData := none })
  | op => s.hostMemory op pa n data

/-- Whether a core of the control complex runs: security core 0 from power-good, the others once they are released (R370). Cores 0 to
15 are the application cores, 16 and 17 the security cores. -/
def State.hartRuns (s : State) (hart : Nat) : Bool := hart == 16 || s.regs.booted

/-- Takes the pending interrupt of the lowest identity from a core's IMSIC; 0 where none is pending (R365; the claim is that of the
RISC-V Advanced Interrupt Architecture). -/
def State.claimInterrupt (s : State) (hart : Nat) : State :=
  let l := mget [] s.imsic hart
  match l with
  | [] => { s with hostData := some 0 }
  | a :: t =>
    let id := t.foldl Nat.min a
    { s with imsic := mset s.imsic hart (l.filter (fun k => k != id)), hostData := some (BitVec.ofNat 64 id) }

/-- A store of a security core to the security block, which it owns: BOOTSTAT and FWVER besides what application cores may write
(R364). -/
def State.secureReg (s : State) (off : Nat) (v : Word) : Out :=
  if off = 0x8000_0000 then .next (s.updRegs (fun r => { r with bootstat := v }))
  else if off = 0x8000_0008 then .next (s.updRegs (fun r => { r with fwver := v }))
  else s.writeReg off v

/-- A device register by an aligned 8-byte load or store; every other access takes the core's access-fault exception (R366). -/
def State.registerAccess (s : State) (hart : Nat) (op : HostAccess) (off size : Nat) (data : Word) : Out :=
  if size ≠ 8 ∨ off % 8 ≠ 0 then .next { s with hostData := none }
  else match op with
    | .load => s.loadReg hart off
    | .store =>
      let s := { s with hostData := some 0 }
      if hart < 16 then s.writeReg off data else s.secureReg off data
    | _ => .next { s with hostData := none }

/-- APPLICATION_CORE_ACCESS (R18, R65, R363-R366): what a running core of the control complex does. Memory, for an application core
through the cache they share; a device register; its IMSIC. Every other access takes the core's access-fault exception, which leaves
nothing in the host's data. -/
def execApplicationCoreAccess (hart : Nat) (op : HostAccess) (pa size : Nat) (data : BitVec 64) (s : State) : Out :=
  if !s.hartRuns hart then .next s
  else if op = .claim then .next (s.claimInterrupt hart)
  else if backed pa then (if hart < 16 then s.hostMemory op pa size data else s.secureMemory op pa size data)
  else if inRegisters pa then s.registerAccess hart op (pa - 0xF_0000_0000_0000) size data
  else .next { s with hostData := none }

end Sys2Proof.Machine
end

