-- ==== Sys2Proof/Machine/Permute.lean ====
section
/-! DEFINITION. Class P: permutes, extraction and insertion, reductions and scans, transposition and predicates
(R206-R214). -/

namespace Sys2Proof.Machine

/-! ## Lanes -/

/-- A permute: each active lane takes the lane of A that `f` names, or 0 (R206). -/
def permute (v : View) (f : Vals → Nat → Option Nat) (s : State) : Out :=
  issue v noCheck
    (fun x s =>
      let r := elementwise 32 s.me.ap (fun j => ((f x j).elim 0 (elem 32 x.a), 0))
      s.deliver v r.1 s.me.ap 0) s

/-- `vperm` (R206). -/
def execVperm (o : PRR) (s : State) : Out :=
  permute (viewOf (.vperm o)) (fun x j => some (16 * (j / 16) + elem 32 x.b j % 16)) s

/-- `vxcl` (R206). -/
def execVxcl (o : PRR) (s : State) : Out :=
  permute (viewOf (.vxcl o)) (fun x j =>
    let k := (lo64 x.b).toNat % 8
    some (16 * (if (lo64 x.b).getLsbD 3 then (j / 16).xor k else (j / 16 + k) % 8) + j % 16)) s

/-- `vshf` (R206). -/
def execVshf (o : PRR) (s : State) : Out :=
  permute (viewOf (.vshf o)) (fun x j =>
    let i := j % 16 + (lo64 x.b).toNat % 16
    if (lo64 x.b).getLsbD 4 ∧ 16 ≤ i then none else some (16 * (j / 16) + i % 16)) s

/-- `vext` (R207). -/
def execVext (o : SR3) (s : State) : Out :=
  let v := viewOf (.vext o)
  issue v noCheck
    (fun x s =>
      let w := s.me.iw
      s.deliverS v (wordOf (numberOf w s.me.us (elem w x.a ((lo64 x.b).toNat % (4096 / w)))))) s

/-- `vins` (R207): every lane is written, whatever the active predicate. -/
def execVins (o : PRR) (s : State) : Out :=
  let v := viewOf (.vins o)
  issue v noCheck
    (fun x s =>
      let w := s.me.iw
      let e := (lo64 x.b).toNat % (4096 / w)
      s.deliver v (packList w ((elems w x.d).set e (lo64 x.a).toNat)) allLanes 0) s

/-- `vbcast` (R208). -/
def execVbcast (d : BitVec 6) (n : Bool) (a : Src) (p : BitVec 2) (s : State) : Out :=
  let v := viewOf (.vbcast d n a p)
  issue v noCheck
    (fun x s => s.deliver v (elementwise s.me.iw s.me.ap (fun _ => ((lo64 x.a).toNat, 0))).1 s.me.ap 0) s

/-- `viota` (R208): an index is held at the element's width. -/
def execViota (d : BitVec 6) (n c : Bool) (p : BitVec 2) (s : State) : Out :=
  let v := viewOf (.viota d n c p)
  issue v noCheck
    (fun _ s =>
      let w := s.me.iw
      s.deliver v (elementwise w s.me.ap (fun e => (if c then e % (512 / w) else e, 0))).1 s.me.ap 0) s

/-- Row `r` of the transposition of eight registers (R209). -/
def transposed (w : Nat) (rows : List Vec) (r : Nat) : Vec :=
  packList w ((List.range (4096 / w)).map (fun e => elem w (rows.getD (e % 8) 0) (8 * (e / 8) + r)))

/-- `vtrn` (R209): eight results, of which `l7` receives the first. -/
def execVtrn (d : BitVec 6) (p : BitVec 2) (s : State) : Out :=
  let v := viewOf (.vtrn d p)
  issue v noCheck
    (fun _ s =>
      let w := s.me.iw
      let rows := (List.range 8).map (fun k => s.readV s.cur s.x (s.me.vname (d.toNat + k)))
      (List.range 8).foldl (fun t r =>
        t.deliverAs (s.me.destOf (.v (d.toNat + r))) (if r = 0 then some 7 else none) v.lat (transposed w rows r) allLanes 0) s) s

/-! ## Reductions -/

/-- The combination of two elements by a reduction: its value and flags (R210). -/
abbrev Combine := Nat → Nat → Nat × Flags

/-- The width and the operation of `vred` and `vscan` (R208, R210). -/
def Ctx.combine (c : Ctx) (float : Bool) (op : Nat) : Nat × Combine :=
  if float then
    let f := floatFmt c.ff
    (floatWidth c.ff, fun a b =>
      match op with
      | 0 => f.add (modeOf c.rm) a b
      | 1 => f.pick true a b
      | _ => f.pick false a b)
  else
    let w := c.iw
    let gt := fun a b => decide (numberOf w c.us b < numberOf w c.us a)
    (w, fun a b =>
      (match op with
        | 0 => (a + b) % 2 ^ w
        | 1 => if gt b a then b else a
        | _ => if gt a b then b else a, 0))

/-- One level of the tree: neighbours are paired, and an absent member passes the other on (R210). -/
def pairUp (f : Combine) : List (Option Nat) → List (Option Nat) × Flags
  | a :: b :: t =>
    let r := pairUp f t
    match a, b with
    | some x, some y => (some (f x y).1 :: r.1, (f x y).2 ||| r.2)
    | some x, none => (some x :: r.1, r.2)
    | none, y => (y :: r.1, r.2)
  | l => (l, 0)

/-- The value of a tree of `2^n` leaves (R210). -/
def treeFold (f : Combine) : Nat → List (Option Nat) → Option Nat × Flags
  | 0, l => (l.headD none, 0)
  | n + 1, l =>
    let r := pairUp f l
    let t := treeFold f n r.1
    (t.1, r.2 ||| t.2)

/-- The left-to-right fold of the active elements so far, one result for each element (R211). -/
def scanFold (f : Combine) : Option Nat → List (Option Nat) → List Nat × Flags
  | _, [] => ([], 0)
  | acc, none :: t =>
    let r := scanFold f acc t
    (0 :: r.1, r.2)
  | none, some x :: t =>
    let r := scanFold f (some x) t
    (x :: r.1, r.2)
  | some a, some x :: t =>
    let r := scanFold f (some (f a x).1) t
    ((f a x).1 :: r.1, (f a x).2 ||| r.2)

/-- The elements of a cluster, absent where inactive (R210). -/
def clusterElements (w : Nat) (mask : Pred) (v : Vec) (c : Nat) : List (Option Nat) :=
  (List.range (512 / w)).map (fun i =>
    let e := 512 / w * c + i
    if active w mask e then some (elem w v e) else none)

/-- `vred` (R210). -/
def execVred (d : BitVec 6) (n : Bool) (a : Src) (op : BitVec 2) (h : Bool) (p : BitVec 2) (s : State) : Out :=
  let v := viewOf (.vred d n a op h p)
  issue v noCheck
    (fun x s =>
      let (w, f) := s.me.combine h op.toNat
      let l := (List.range 8).map (fun c => treeFold f (512 / w).log2 (clusterElements w s.me.ap x.a c))
      let r := elementwise w s.me.ap (fun e => ((l.getD (e / (512 / w)) (none, 0)).1.getD 0, 0))
      s.deliver v r.1 s.me.ap (orFlags (l.map (·.2)))) s

/-- `vscan` (R211). -/
def execVscan (d : BitVec 6) (n : Bool) (a : Src) (op : BitVec 2) (h : Bool) (p : BitVec 2) (s : State) : Out :=
  let v := viewOf (.vscan d n a op h p)
  issue v noCheck
    (fun x s =>
      let (w, f) := s.me.combine h op.toNat
      let l := (List.range 8).map (fun c => scanFold f none (clusterElements w s.me.ap x.a c))
      s.deliver v (packList w (l.flatMap (·.1))) s.me.ap (orFlags (l.map (·.2)))) s

/-! ## Predicates -/

/-- A predicate as lanes, all ones or 0 (R212). -/
def predLanes (p : Pred) : Vec := packList 32 ((List.range 128).map (fun j => if p.getLsbD j then 2 ^ 32 - 1 else 0))

/-- A predicate operation: all 128 bits are written (R212). -/
def predOp (v : View) (f : Ctx → Pred) (s : State) : Out :=
  issue v noCheck (fun _ s => s.deliver v (predLanes (f s.me)) allLanes 0) s

/-- `pand` (R212). -/
def execPand (d : BitVec 3) (n : Bool) (a b : BitVec 3) (p : BitVec 2) (s : State) : Out :=
  predOp (viewOf (.pand d n a b p)) (fun c => c.readP a.toNat &&& c.readP b.toNat) s

/-- `por` (R212). -/
def execPor (d : BitVec 3) (n : Bool) (a b : BitVec 3) (p : BitVec 2) (s : State) : Out :=
  predOp (viewOf (.por d n a b p)) (fun c => c.readP a.toNat ||| c.readP b.toNat) s

/-- `pxor` (R212). -/
def execPxor (d : BitVec 3) (n : Bool) (a b : BitVec 3) (p : BitVec 2) (s : State) : Out :=
  predOp (viewOf (.pxor d n a b p)) (fun c => c.readP a.toNat ^^^ c.readP b.toNat) s

/-- `pnot` (R212). -/
def execPnot (d : BitVec 3) (n : Bool) (a : BitVec 3) (p : BitVec 2) (s : State) : Out :=
  predOp (viewOf (.pnot d n a p)) (fun c => ~~~c.readP a.toNat) s

/-- `ppop` (R213). -/
def execPpop (d : BitVec 5) (n : Bool) (a : BitVec 3) (p : BitVec 2) (s : State) : Out :=
  let v := viewOf (.ppop d n a p)
  issue v noCheck (fun _ s => s.deliverS v (BitVec.ofNat 64 (oneBits 128 (s.me.readP a.toNat).toNat))) s

/-- `pfirst` (R213): −1 where no bit is set. -/
def execPfirst (d : BitVec 5) (n : Bool) (a : BitVec 3) (p : BitVec 2) (s : State) : Out :=
  let v := viewOf (.pfirst d n a p)
  issue v noCheck (fun _ s =>
    s.deliverS v (if s.me.readP a.toNat = 0 then BitVec.allOnes 64
                  else BitVec.ofNat 64 (trailingZeros 128 (s.me.readP a.toNat).toNat))) s

/-- `pset` (R214): the new VMODE governs from the next bundle. -/
def execPset (imm : BitVec 11) (s : State) : Out :=
  let v := viewOf (.pset imm)
  issue v noCheck (fun _ s => s.deliverAs (.ctl 0) none v.lat (imm.setWidth 4096) allLanes 0) s

end Sys2Proof.Machine
end

