-- ==== Sys2Proof/Machine/Dispatch.lean ====
section
/-! DEFINITION. The one dispatcher: each row of the table to its meaning. -/

namespace Sys2Proof.Machine

/-- Executes one instruction or event: the meaning of its row of the table. -/
def exec (i : Instr) (s : State) : Host.Outcome State Fault Refusal :=
  match i with
  | .add o => Sys2Proof.Machine.execAdd o s
  | .sub o => Sys2Proof.Machine.execSub o s
  | .and o => Sys2Proof.Machine.execAnd o s
  | .andn o => Sys2Proof.Machine.execAndn o s
  | .or o => Sys2Proof.Machine.execOr o s
  | .xor o => Sys2Proof.Machine.execXor o s
  | .sll o => Sys2Proof.Machine.execSll o s
  | .srl o => Sys2Proof.Machine.execSrl o s
  | .sra o => Sys2Proof.Machine.execSra o s
  | .rol o => Sys2Proof.Machine.execRol o s
  | .ror o => Sys2Proof.Machine.execRor o s
  | .lea o => Sys2Proof.Machine.execLea o s
  | .slt o => Sys2Proof.Machine.execSlt o s
  | .sltu o => Sys2Proof.Machine.execSltu o s
  | .min o => Sys2Proof.Machine.execMin o s
  | .max o => Sys2Proof.Machine.execMax o s
  | .minu o => Sys2Proof.Machine.execMinu o s
  | .maxu o => Sys2Proof.Machine.execMaxu o s
  | .mul o => Sys2Proof.Machine.execMul o s
  | .mulh o => Sys2Proof.Machine.execMulh o s
  | .mulhu o => Sys2Proof.Machine.execMulhu o s
  | .div o => Sys2Proof.Machine.execDiv o s
  | .divu o => Sys2Proof.Machine.execDivu o s
  | .rem o => Sys2Proof.Machine.execRem o s
  | .remu o => Sys2Proof.Machine.execRemu o s
  | .sel o => Sys2Proof.Machine.execSel o s
  | .addi o => Sys2Proof.Machine.execAddi o s
  | .andi o => Sys2Proof.Machine.execAndi o s
  | .ori o => Sys2Proof.Machine.execOri o s
  | .xori o => Sys2Proof.Machine.execXori o s
  | .slli o => Sys2Proof.Machine.execSlli o s
  | .srli o => Sys2Proof.Machine.execSrli o s
  | .srai o => Sys2Proof.Machine.execSrai o s
  | .nop => Sys2Proof.Machine.execNop s
  | .bcc c a off => Sys2Proof.Machine.execBcc c a off s
  | .jal d imm => Sys2Proof.Machine.execJal d imm s
  | .jr d a p => Sys2Proof.Machine.execJr d a p s
  | .jrGd d a l p => Sys2Proof.Machine.execJrGd d a l p s
  | .looph o => Sys2Proof.Machine.execLooph o s
  | .trap a imm p => Sys2Proof.Machine.execTrap a imm p s
  | .lnch d a p => Sys2Proof.Machine.execLnch d a p s
  | .cwr a imm p => Sys2Proof.Machine.execCwr a imm p s
  | .crdr d imm p => Sys2Proof.Machine.execCrdr d imm p s
  | .done => Sys2Proof.Machine.execDone s
  | .yield => Sys2Proof.Machine.execYield s
  | .waitt a p => Sys2Proof.Machine.execWaitt a p s
  | .rdtime d => Sys2Proof.Machine.execRdtime d s
  | .wnext d => Sys2Proof.Machine.execWnext d s
  | .wpos d k => Sys2Proof.Machine.execWpos d k s
  | .ifence => Sys2Proof.Machine.execIfence s
  | .eret => Sys2Proof.Machine.execEret s
  | .clz o => Sys2Proof.Machine.execClz o s
  | .ctz o => Sys2Proof.Machine.execCtz o s
  | .popc o => Sys2Proof.Machine.execPopc o s
  | .sext o w => Sys2Proof.Machine.execSext o w s
  | .zext o w => Sys2Proof.Machine.execZext o w s
  | .crd g d n k p => Sys2Proof.Machine.execCrd g d n k p s
  | .li g d imm => Sys2Proof.Machine.execLi g d imm s
  | .lih g d imm => Sys2Proof.Machine.execLih g d imm s
  | .pset imm => Sys2Proof.Machine.execPset imm s
  | .vadd o => Sys2Proof.Machine.execVadd o s
  | .vsub o => Sys2Proof.Machine.execVsub o s
  | .vmul o => Sys2Proof.Machine.execVmul o s
  | .vmulh o => Sys2Proof.Machine.execVmulh o s
  | .vmad o => Sys2Proof.Machine.execVmad o s
  | .vand o => Sys2Proof.Machine.execVand o s
  | .vor o => Sys2Proof.Machine.execVor o s
  | .vxor o => Sys2Proof.Machine.execVxor o s
  | .vshl o => Sys2Proof.Machine.execVshl o s
  | .vshr o => Sys2Proof.Machine.execVshr o s
  | .vsra o => Sys2Proof.Machine.execVsra o s
  | .vmin o => Sys2Proof.Machine.execVmin o s
  | .vmax o => Sys2Proof.Machine.execVmax o s
  | .vcmp o => Sys2Proof.Machine.execVcmp o s
  | .vsel o => Sys2Proof.Machine.execVsel o s
  | .vabs o => Sys2Proof.Machine.execVabs o s
  | .vclz o => Sys2Proof.Machine.execVclz o s
  | .vpopc o => Sys2Proof.Machine.execVpopc o s
  | .vsat o t => Sys2Proof.Machine.execVsat o t s
  | .vfadd o => Sys2Proof.Machine.execVfadd o s
  | .vfsub o => Sys2Proof.Machine.execVfsub o s
  | .vfmul o => Sys2Proof.Machine.execVfmul o s
  | .vffma o => Sys2Proof.Machine.execVffma o s
  | .vfmin o => Sys2Proof.Machine.execVfmin o s
  | .vfmax o => Sys2Proof.Machine.execVfmax o s
  | .vfsgn o => Sys2Proof.Machine.execVfsgn o s
  | .vfcmp o => Sys2Proof.Machine.execVfcmp o s
  | .vfclass o => Sys2Proof.Machine.execVfclass o s
  | .vrcp o => Sys2Proof.Machine.execVrcp o s
  | .vrsq o => Sys2Proof.Machine.execVrsq o s
  | .vsqrt o => Sys2Proof.Machine.execVsqrt o s
  | .vexp2 o => Sys2Proof.Machine.execVexp2 o s
  | .vlog2 o => Sys2Proof.Machine.execVlog2 o s
  | .vtanh o => Sys2Proof.Machine.execVtanh o s
  | .vsilu o => Sys2Proof.Machine.execVsilu o s
  | .vcvt o part sr c => Sys2Proof.Machine.execVcvt o part sr c s
  | .vqnt o sr c => Sys2Proof.Machine.execVqnt o sr c s
  | .vdqnt o h c => Sys2Proof.Machine.execVdqnt o h c s
  | .vperm o => Sys2Proof.Machine.execVperm o s
  | .vxcl o => Sys2Proof.Machine.execVxcl o s
  | .vshf o => Sys2Proof.Machine.execVshf o s
  | .ld o => Sys2Proof.Machine.execLd o s
  | .st o => Sys2Proof.Machine.execSt o s
  | .stGd o => Sys2Proof.Machine.execStGd o s
  | .ldg o => Sys2Proof.Machine.execLdg o s
  | .stg o => Sys2Proof.Machine.execStg o s
  | .stgGd o => Sys2Proof.Machine.execStgGd o s
  | .vld d n a imm p => Sys2Proof.Machine.execVld d n a imm p s
  | .vst d a imm p => Sys2Proof.Machine.execVst d a imm p s
  | .vstGd o => Sys2Proof.Machine.execVstGd o s
  | .vldg o => Sys2Proof.Machine.execVldg o s
  | .vstg o => Sys2Proof.Machine.execVstg o s
  | .vstgGd l a b p => Sys2Proof.Machine.execVstgGd l a b p s
  | .vstgPush d k p => Sys2Proof.Machine.execVstgPush d k p s
  | .vgath o => Sys2Proof.Machine.execVgath o s
  | .vscat o => Sys2Proof.Machine.execVscat o s
  | .amo o => Sys2Proof.Machine.execAmo o s
  | .amog o => Sys2Proof.Machine.execAmog o s
  | .vamo o => Sys2Proof.Machine.execVamo o s
  | .fence scope q r => Sys2Proof.Machine.execFence scope q r s
  | .qfence m => Sys2Proof.Machine.execQfence m s
  | .cinv d a p => Sys2Proof.Machine.execCinv d a p s
  | .cwb d a p => Sys2Proof.Machine.execCwb d a p s
  | .acq d n a scope p => Sys2Proof.Machine.execAcq d n a scope p s
  | .rel d n a scope p => Sys2Proof.Machine.execRel d n a scope p s
  | .unbind n a p => Sys2Proof.Machine.execUnbind n a p s
  | .bind o => Sys2Proof.Machine.execBind o s
  | .fcopy o => Sys2Proof.Machine.execFcopy o s
  | .fgath o => Sys2Proof.Machine.execFgath o s
  | .fput o => Sys2Proof.Machine.execFput o s
  | .fget o => Sys2Proof.Machine.execFget o s
  | .fcoll o => Sys2Proof.Machine.execFcoll o s
  | .fa2a o => Sys2Proof.Machine.execFa2a o s
  | .fwait m p => Sys2Proof.Machine.execFwait m p s
  | .binit n a b p => Sys2Proof.Machine.execBinit n a b p s
  | .barv n a y p => Sys2Proof.Machine.execBarv n a y p s
  | .barvRel scope n a y p => Sys2Proof.Machine.execBarvRel scope n a y p s
  | .bwait scope n a b p => Sys2Proof.Machine.execBwait scope n a b p s
  | .bxpect o => Sys2Proof.Machine.execBxpect o s
  | .copen d n a p => Sys2Proof.Machine.execCopen d n a p s
  | .cclose p => Sys2Proof.Machine.execCclose p s
  | .tchk l k p => Sys2Proof.Machine.execTchk l k p s
  | .sdesc o => Sys2Proof.Machine.execSdesc o s
  | .sbind k p => Sys2Proof.Machine.execSbind k p s
  | .sclose k p => Sys2Proof.Machine.execSclose k p s
  | .tmma o => Sys2Proof.Machine.execTmma o s
  | .tmmaZ o => Sys2Proof.Machine.execTmmaZ o s
  | .tmmg o => Sys2Proof.Machine.execTmmg o s
  | .tmmgZ o => Sys2Proof.Machine.execTmmgZ o s
  | .zzero e t p => Sys2Proof.Machine.execZzero e t p s
  | .zld e t a p => Sys2Proof.Machine.execZld e t a p s
  | .zst t a f p => Sys2Proof.Machine.execZst t a f p s
  | .zstR t a f p => Sys2Proof.Machine.execZstR t a f p s
  | .zcvt t u b p => Sys2Proof.Machine.execZcvt t u b p s
  | .zacc t u p => Sys2Proof.Machine.execZacc t u p s
  | .xmv z o => Sys2Proof.Machine.execXmv z o s
  | .xload o => Sys2Proof.Machine.execXload o s
  | .xprog o => Sys2Proof.Machine.execXprog o s
  | .xver o => Sys2Proof.Machine.execXver o s
  | .xremap o => Sys2Proof.Machine.execXremap o s
  | .xdrift o => Sys2Proof.Machine.execXdrift o s
  | .xcalMeas k p => Sys2Proof.Machine.execXcalMeas k p s
  | .xcalLdsc o => Sys2Proof.Machine.execXcalLdsc o s
  | .xcalLdog o => Sys2Proof.Machine.execXcalLdog o s
  | .xcalStog o => Sys2Proof.Machine.execXcalStog o s
  | .xstat d k p => Sys2Proof.Machine.execXstat d k p s
  | .xfb o => Sys2Proof.Machine.execXfb o s
  | .kvnew a b p => Sys2Proof.Machine.execKvnew a b p s
  | .kvapp d a b p => Sys2Proof.Machine.execKvapp d a b p s
  | .kvrefInc a b p => Sys2Proof.Machine.execKvrefInc a b p s
  | .kvrefDec a b p => Sys2Proof.Machine.execKvrefDec a b p s
  | .kvtrunc a b p => Sys2Proof.Machine.execKvtrunc a b p s
  | .kvfind d a b p => Sys2Proof.Machine.execKvfind d a b p s
  | .kvpub d a b p => Sys2Proof.Machine.execKvpub d a b p s
  | .kvcow a p => Sys2Proof.Machine.execKvcow a p s
  | .kvstrm o => Sys2Proof.Machine.execKvstrm o s
  | .rseed n a b p => Sys2Proof.Machine.execRseed n a b p s
  | .rsave n a p => Sys2Proof.Machine.execRsave n a p s
  | .rload n a p => Sys2Proof.Machine.execRload n a p s
  | .vext o => Sys2Proof.Machine.execVext o s
  | .vins o => Sys2Proof.Machine.execVins o s
  | .vbcast d n a p => Sys2Proof.Machine.execVbcast d n a p s
  | .vtrn d p => Sys2Proof.Machine.execVtrn d p s
  | .vred d n a op h p => Sys2Proof.Machine.execVred d n a op h p s
  | .vscan d n a op h p => Sys2Proof.Machine.execVscan d n a op h p s
  | .viota d n c p => Sys2Proof.Machine.execViota d n c p s
  | .pand d n a b p => Sys2Proof.Machine.execPand d n a b p s
  | .por d n a b p => Sys2Proof.Machine.execPor d n a b p s
  | .pxor d n a b p => Sys2Proof.Machine.execPxor d n a b p s
  | .pnot d n a p => Sys2Proof.Machine.execPnot d n a p s
  | .ppop d n a p => Sys2Proof.Machine.execPpop d n a p s
  | .pfirst d n a p => Sys2Proof.Machine.execPfirst d n a p s
  | .resultWrite core x => Sys2Proof.Machine.execResultWrite core x s
  | .contextReady core x => Sys2Proof.Machine.execContextReady core x s
  | .generatorAppend core x => Sys2Proof.Machine.execGeneratorAppend core x s
  | .operandLogPerform core x idx => Sys2Proof.Machine.execOperandLogPerform core x idx s
  | .lateFaultDelivery core x => Sys2Proof.Machine.execLateFaultDelivery core x s
  | .shootdownComplete => Sys2Proof.Machine.execShootdownComplete s
  | .tileFetchEntryFill core x k => Sys2Proof.Machine.execTileFetchEntryFill core x k s
  | .streamGeneratorRow core x k => Sys2Proof.Machine.execStreamGeneratorRow core x k s
  | .writeStreamDrain core x k => Sys2Proof.Machine.execWriteStreamDrain core x k s
  | .ferryTransfer core q => Sys2Proof.Machine.execFerryTransfer core q s
  | .followOnHandoff core q => Sys2Proof.Machine.execFollowOnHandoff core q s
  | .matrixInstructionStart core => Sys2Proof.Machine.execMatrixInstructionStart core s
  | .matrixStep core => Sys2Proof.Machine.execMatrixStep core s
  | .matrixInstructionComplete core => Sys2Proof.Machine.execMatrixInstructionComplete core s
  | .dummyStep core => Sys2Proof.Machine.execDummyStep core s
  | .rampWindowEnd island => Sys2Proof.Machine.execRampWindowEnd island s
  | .crossbarInstructionStart core => Sys2Proof.Machine.execCrossbarInstructionStart core s
  | .crossbarInstructionComplete core arr => Sys2Proof.Machine.execCrossbarInstructionComplete core arr s
  | .digitalFallback core arr => Sys2Proof.Machine.execDigitalFallback core arr s
  | .tideCheck core arr => Sys2Proof.Machine.execTideCheck core arr s
  | .kvOperation core x => Sys2Proof.Machine.execKvOperation core x s
  | .kvStreamEntryFill core x k => Sys2Proof.Machine.execKvStreamEntryFill core x k s
  | .soundTransfer core x q reply => Sys2Proof.Machine.execSoundTransfer core x q reply s
  | .soundAcknowledgement core x q => Sys2Proof.Machine.execSoundAcknowledgement core x q s
  | .collectiveJoin core x q => Sys2Proof.Machine.execCollectiveJoin core x q s
  | .collectiveRun group tag remote => Sys2Proof.Machine.execCollectiveRun group tag remote s
  | .collectiveResultWrite die group tag => Sys2Proof.Machine.execCollectiveResultWrite die group tag s
  | .allToAllExchange group tag src dst remote poison => Sys2Proof.Machine.execAllToAllExchange group tag src dst remote poison s
  | .fabricTimeout core x q => Sys2Proof.Machine.execFabricTimeout core x q s
  | .queueSlotConsume slot => Sys2Proof.Machine.execQueueSlotConsume slot s
  | .schedulerPass => Sys2Proof.Machine.execSchedulerPass s
  | .launchAccept die => Sys2Proof.Machine.execLaunchAccept die s
  | .distributorDecision => Sys2Proof.Machine.execDistributorDecision s
  | .ageExpiry launch => Sys2Proof.Machine.execAgeExpiry launch s
  | .timedLaunchLead launch => Sys2Proof.Machine.execTimedLaunchLead launch s
  | .steal core x => Sys2Proof.Machine.execSteal core x s
  | .taskEnd core x => Sys2Proof.Machine.execTaskEnd core x s
  | .savePoint core x => Sys2Proof.Machine.execSavePoint core x s
  | .savePointTimeout core x => Sys2Proof.Machine.execSavePointTimeout core x s
  | .contextSave core x => Sys2Proof.Machine.execContextSave core x s
  | .contextRestore launch task => Sys2Proof.Machine.execContextRestore launch task s
  | .islandResetEnd island => Sys2Proof.Machine.execIslandResetEnd island s
  | .waittExpiry core x => Sys2Proof.Machine.execWaittExpiry core x s
  | .fatalRecovery => Sys2Proof.Machine.execFatalRecovery s
  | .checkpointCommit => Sys2Proof.Machine.execCheckpointCommit s
  | .ethTransmit port => Sys2Proof.Machine.execEthTransmit port s
  | .errorThresholdWindowEnd => Sys2Proof.Machine.execErrorThresholdWindowEnd s
  | .refreshWindowEnd stack => Sys2Proof.Machine.execRefreshWindowEnd stack s
  | .refreshManagementEnd stack bank => Sys2Proof.Machine.execRefreshManagementEnd stack bank s
  | .pageWalk core x va acc => Sys2Proof.Machine.execPageWalk core x va acc s
  | .shootdown v => Sys2Proof.Machine.execShootdown v s
  | .hbmSectorFill sec c0 c1 => Sys2Proof.Machine.execHbmSectorFill sec c0 c1 s
  | .correctedWriteback sec c0 c1 => Sys2Proof.Machine.execCorrectedWriteback sec c0 c1 s
  | .patrolScrub stack c => Sys2Proof.Machine.execPatrolScrub stack c s
  | .activationAlert stack chan bank row count => Sys2Proof.Machine.execActivationAlert stack chan bank row count s
  | .rdcEviction die line => Sys2Proof.Machine.execRdcEviction die line s
  | .sqstatHalt core x k => Sys2Proof.Machine.execSqstatHalt core x k s
  | .fqstatHalt core x q => Sys2Proof.Machine.execFqstatHalt core x q s
  | .fqstatDiscard core x q => Sys2Proof.Machine.execFqstatDiscard core x q s
  | .narrowsSectorReceive tries ok => Sys2Proof.Machine.execNarrowsSectorReceive tries ok s
  | .straitFlitReceive port dest tries => Sys2Proof.Machine.execStraitFlitReceive port dest tries s
  | .linkRetrain port lane => Sys2Proof.Machine.execLinkRetrain port lane s
  | .linkTrained port far fleet => Sys2Proof.Machine.execLinkTrained port far fleet s
  | .portTrainTimeout port lane => Sys2Proof.Machine.execPortTrainTimeout port lane s
  | .windowAccess addr kind len data poison => Sys2Proof.Machine.execWindowAccess addr kind len data poison s
  | .sndqHalt core x q => Sys2Proof.Machine.execSndqHalt core x q s
  | .sndqDiscard core x q => Sys2Proof.Machine.execSndqDiscard core x q s
  | .qnotify n => Sys2Proof.Machine.execQnotify n s
  | .ptpstep v => Sys2Proof.Machine.execPtpstep v s
  | .ptploRead hart => Sys2Proof.Machine.execPtploRead hart s
  | .ptpctlWrite v => Sys2Proof.Machine.execPtpctlWrite v s
  | .jrdseq v => Sys2Proof.Machine.execJrdseq v s
  | .fatalDeviceFault cause => Sys2Proof.Machine.execFatalDeviceFault cause s
  | .restart => Sys2Proof.Machine.execRestart s
  | .powerWarning => Sys2Proof.Machine.execPowerWarning s
  | .resume => Sys2Proof.Machine.execResume s
  | .restore => Sys2Proof.Machine.execRestore s
  | .boot => Sys2Proof.Machine.execBoot s
  | .attctlNop => Sys2Proof.Machine.execAttctlNop s
  | .attctlExtend idx => Sys2Proof.Machine.execAttctlExtend idx s
  | .attctlQuote => Sys2Proof.Machine.execAttctlQuote s
  | .attctlPublicKey => Sys2Proof.Machine.execAttctlPublicKey s
  | .attctlFirmwareUpdate => Sys2Proof.Machine.execAttctlFirmwareUpdate s
  | .attctlInvalidOp op => Sys2Proof.Machine.execAttctlInvalidOp op s
  | .xdriftpWrite shoal v => Sys2Proof.Machine.execXdriftpWrite shoal v s
  | .linkEnable port en => Sys2Proof.Machine.execLinkEnable port en s
  | .ethReceive port frame => Sys2Proof.Machine.execEthReceive port frame s
  | .stampPop port => Sys2Proof.Machine.execStampPop port s
  | .pcieDma pa write data => Sys2Proof.Machine.execPcieDma pa write data s
  | .registerWrite off v => Sys2Proof.Machine.execRegisterWrite off v s
  | .applicationCoreAccess hart op pa size data => Sys2Proof.Machine.execApplicationCoreAccess hart op pa size data s
  | .runtimeHaltRequest core x => Sys2Proof.Machine.execRuntimeHaltRequest core x s
  | .runtimeKill launch task => Sys2Proof.Machine.execRuntimeKill launch task s
  | .powerWarningDeassert => Sys2Proof.Machine.execPowerWarningDeassert s
  | .powerLoss => Sys2Proof.Machine.execPowerLoss s
  | .ethernetLinkDown port up => Sys2Proof.Machine.execEthernetLinkDown port up s
  | .pcieLinkError => Sys2Proof.Machine.execPcieLinkError s
  | .thermalLimit => Sys2Proof.Machine.execThermalLimit s
  | .supplyUndervoltage => Sys2Proof.Machine.execSupplyUndervoltage s
  | .applicationCoreMachineCheck hart => Sys2Proof.Machine.execApplicationCoreMachineCheck hart s
  | .runtimeHeartbeatMissed => Sys2Proof.Machine.execRuntimeHeartbeatMissed s

end Sys2Proof.Machine
end

