-- ==== Sys2Proof/Machine/Bundle.lean ====
section
/-! DEFINITION. Issuing a bundle: its fetch and framing (R102), the checks of R109 over all its slots, the slots in
turn, and what ends it: a trap, a block, a stall or the commit (R85-R87, R92, R97, R100, R176). -/

namespace Sys2Proof.Machine

/-! ## Fetch -/

/-- Sixteen instruction bytes as four slot words, through the core's instruction cache (R16, R182); a cause with its
address where the fetch faults (R23), and cause 0x47 where the bytes are poisoned. -/
def State.fetch16 (s : State) (pc : Word) : Except (Byte × Word) (List (BitVec 32)) × State :=
  let asn := s.asnOf s.cur s.x
  let words := fun (b : BitVec 128) => (List.range 4).map (fun k => b.extractLsb' (32 * k) 32)
  match s.translate s.cur asn (s.rootOf s.cur s.x) pc .fetch with
  | (.fault c, s) => (.error (c, pc), s)
  | (.ok pa, s) =>
    match (s.core s.cur).icache.find? (fun e => e.asn == asn && e.va == pc.toNat) with
    | some e => (.ok (words e.bytes), s)
    | none =>
      let gl := (s.tlbHit (.core s.cur) asn (pc.toNat % 2 ^ 57) (some .fetch)).any (·.gl)
      let v := s.viewSector (coreDie s.cur) (pa / 64)
      let s := s.touchSector (coreDie s.cur) (pa / 64)
      if v.2 then (.error (0x47, 0), s)
      else
        let b : BitVec 128 := v.1.extractLsb' (8 * (pa % 64)) 128
        (.ok (words b), s.updCore s.cur (fun c => { c with
          icache := ({ asn := asn, gl := gl, va := pc.toNat, bytes := b } :: c.icache).take 4096 }))

/-- The words of the bundle at an address: four, or eight where the fourth has no stop bit (R102). -/
def State.fetchBundle (s : State) (pc : Word) : Except (Byte × Word) (List (BitVec 32)) × State :=
  match s.fetch16 pc with
  | (.error e, s) => (.error e, s)
  | (.ok a, s) =>
    if (a.getD 3 0).getLsbD 31 then (.ok a, s)
    else match s.fetch16 (pc + 16) with
      | (.error e, s) => (.error e, s)
      | (.ok b, s) => (.ok (a ++ b), s)

/-- The slots whose stop bit is not as R102 gives it. -/
def badStops (ws : List (BitVec 32)) : Nat :=
  packNat 1 (fun i => if (ws.getD i 0).getLsbD 31 == decide (i + 1 = ws.length) then 0 else 1) ws.length

/-! ## The slots of a bundle -/

/-- A decoded slot: its place, its instruction and operand form, the unit it runs on, the class and unit of the
nearest earlier slot with G = 0, and whether that slot already has a twin (R106). -/
structure Slot where
  k : Nat
  instr : Instr
  form : View
  unit : Nat
  last : Option (Cls × Nat)
  twinned : Bool
  deriving DecidableEq, Repr

/-- Decodes a slot word, or answers the rank and cause it fails with: a twin bit on a class that has none is check 5,
every other unassigned word check 2 (R106, R108, R109): a word with G = 1
that is legal with G = 0 only is a twin of a class that has none, and its fields are checked before that. -/
def readSlot (w : BitVec 32) : Except (Nat × Byte) Instr :=
  match decodeWord w.toNat with
  | .ok i => .ok i
  | .error _ =>
    if w.getLsbD 30 then
      match decodeWord (w &&& 0xBFFF_FFFF).toNat with
      | .ok i => .error ((viewOf i).fields.getD (5, 0x05))
      | .error _ => .error (2, 0x00)
    else .error (2, 0x00)

/-- Gives each slot its unit and the slot it would twin (R106): non-twin slots of a class take units in slot order. `none` stands
for a twin of a class that has none, which is the twin of its slot all the same (R110). -/
def assignUnits : List (Nat × Option Instr) → List Cls → Option (Cls × Nat) → Bool → List Slot
  | [], _, _, _ => []
  | (_, none) :: t, used, last, _ => assignUnits t used last true
  | (k, some i) :: t, used, last, twinned =>
    let v := viewOf i
    if v.g then
      { k := k, instr := i, form := v, unit := 1, last := last, twinned := twinned } :: assignUnits t used last true
    else
      let u := used.count v.cls
      { k := k, instr := i, form := v, unit := u, last := last, twinned := twinned } ::
        assignUnits t (v.cls :: used) (some (v.cls, u)) false

/-- A mask of the slots named. -/
def maskOf (ks : List Nat) : Nat := ks.dedup.foldl (fun m k => m + 2 ^ k) 0

/-- The registers a slot writes with N = 0, after renaming, the control register of a `cwr` among them; a discarded write is none
(R88, R101, R109, R186, R209). -/
def Ctx.writes (c : Ctx) (x : Slot) : List Dest :=
  match x.instr with
  | .vtrn d _ => (List.range 8).map (fun r => .v (c.vname (d.toNat + r)))
  | .cwr _ imm _ => [.ctl imm.toNat]
  | _ => if x.form.n then [] else match c.destOf x.form.dWrite with
    | .none => []
    | .s 0 => []
    | .p 0 => []
    | d => [d]

/-- The ports a slot reads: the file, the port and the register, after renaming (R95). -/
def Ctx.ports (c : Ctx) (v : View) : List ((Bool × Nat) × Nat) :=
  let one := fun (o : Option Operand) (p : Nat) => match o with
    | some o => if o.m || (!o.vec && o.f % 32 == 0) then [] else [((o.vec, p), if o.vec then c.vname o.f else o.f % 32)]
    | none => []
  let d := match v.dRead with
    | some (true, r) => [((true, v.dPort), c.vname r)]
    | some (false, r) => if r = 0 then [] else [((false, v.dPort), r)]
    | none => []
  one v.a v.aPort ++ one v.b v.bPort ++ d

/-- The slots over a unit-class limit (R109, check 6). -/
def overClass (l : List Slot) : List Nat :=
  let limit := fun (cls : Cls) (twins : Bool) (n : Nat) =>
    let m := l.filter (fun x => x.form.cls == cls && (twins || !x.form.g))
    if n < m.length then m.map (·.k) else []
  limit .a true 2 ++ limit .v true 2 ++ limit .m false 1 ++ limit .c false 1 ++ limit .p false 1 ++ limit .l false 1 ++
    limit .k false 1

/-- The slots that write one register twice (R109, check 7). -/
def Ctx.doubleWrites (c : Ctx) (l : List Slot) : List Nat :=
  let w := l.flatMap (fun x => (c.writes x).map (fun d => (x.k, d)))
  (w.filter (fun p => 1 < (w.filter (fun q => q.2 == p.2)).length)).map (·.1)

/-- The slots that read one port for two registers (R109, check 8). -/
def Ctx.portClashes (c : Ctx) (l : List Slot) : List Nat :=
  let r := l.flatMap (fun x => (c.ports x.form).map (fun p => (x.k, p)))
  (r.filter (fun p => r.any (fun q => q.2.1 == p.2.1 && q.2.2 != p.2.2))).map (·.1)

/-- How many results a slot adds to those the limit of R99 counts. A local load or atomic has one, a global one none. -/
def State.slotCount (s : State) (x : Slot) : Nat :=
  match x.instr with
  | .ld o => if inAperture (lo64 (s.vals x.form).a + wordOf (o.imm.toInt * 8)) then 1 else 0
  | .amo _ => if inAperture (lo64 (s.vals x.form).a) then 1 else 0
  | .vld _ _ _ _ _ => 1
  | _ => if 1 < x.form.lat then x.form.count else 0

/-- The checks over the whole bundle: rank, cause and mask of each that fails (R109, checks 6, 7, 8 and 10). -/
def State.bundleChecks (s : State) (l : List Slot) : List (Nat × Byte × Nat) :=
  let c := s.me
  let counted := l.filter (fun x => 0 < s.slotCount x)
  let one := fun (rank : Nat) (cause : Byte) (ks : List Nat) => if ks.isEmpty then [] else [(rank, cause, maskOf ks)]
  one 6 0x04 (overClass l) ++ one 7 0x03 (c.doubleWrites l) ++ one 8 0x02 (c.portClashes l) ++
    one 10 0x09 (if 24 < c.inFlight + counted.foldl (fun n x => n + s.slotCount x) 0 then counted.map (·.k) else [])

/-! ## Running the slots -/

/-- Whether a slot reads a command record, which is served after the memory slot of its bundle (R160, R286). -/
def readsRecord (i : Instr) : Bool :=
  match i with
  | .fcopy _ | .fgath _ | .fput _ | .fget _ | .fcoll _ | .fa2a _ => true
  | _ => false

/-- The order in which slots act within their cycle: computation, then random words are popped, then control, memory, the reading of
command records (R160) and the closing of streams. -/
def phaseOf (x : Slot) : Nat :=
  match x.instr with
  | .sclose _ _ => 4
  | i => if readsRecord i then 3 else match x.form.cls with
    | .l => 2
    | .k => 1
    | _ => 0

/-- The slots in the order in which they act. -/
def actOrder (l : List Slot) : List Slot :=
  (List.range 5).flatMap (fun p => l.filter (fun x => phaseOf x == p))

/-- Pops the random word that a bundle's stochastic roundings used, before its other slots act (R134, R163). -/
def State.popRandom (s : State) : State :=
  if s.iss.sr then
    (s.upd (fun c => { c with rand := { c.rand with words := c.rand.words.drop 1 } })).updIss (fun i => { i with sr := false })
  else s

/-- The state in which a slot is issued. -/
def State.atSlot (s : State) (x : Slot) : State :=
  s.updIss (fun i => { i with slot := x.k, unit := x.unit, last := x.last, twinned := x.twinned })

/-- The state in which a command record is read: the memory slot of its bundle has acted, where it passes its checks (R160). The
streams are those of the bundle's beginning. -/
def State.besideMemory (s : State) (l : List Slot) : State :=
  match l.find? (fun x => x.form.cls == .l) with
  | none => s
  | some x => match exec x.instr (s.atSlot x) with
    | .next t => if t.slotEnd = .commit then { t.upd (fun c => { c with streams := s.me.streams }) with iss := s.iss } else s
    | _ => s

/-- The ends of a bundle's slots with a `done` that is not alone: each other slot is what raises 0x12 (R110, R179). -/
def notAlone (l : List Slot) (ends : List (Nat × SlotEnd)) : List (Nat × SlotEnd) :=
  if !ends.any (fun e => e.2 == stopWith 13 0x12) then ends
  else ends.map (fun e => match e.2 with
    | .trap _ cause _ _ _ => if cause = 0x12 then (e.1, .commit) else e
    | _ => if l.any (fun x => x.k == e.1 && x.form.cls != .none) then (e.1, stopWith 13 0x12) else e)

/-- How the checks of every slot end, on the state before any slot acts (R87). -/
def checkSlots (s beside : State) : List Slot → Host.Outcome (List (Nat × SlotEnd)) Fault Refusal
  | [] => .next []
  | x :: t =>
    match exec x.instr ((if readsRecord x.instr then beside else s).atSlot x) with
    | .fault f => .fault f
    | .refused r => .refused r
    | .next s' => match checkSlots s beside t with
      | .next l => .next ((x.k, s'.slotEnd) :: l)
      | e => e

/-- The effects of slots whose checks have passed, one after another. -/
def actSlots : List Slot → State → Out
  | [], s => .next s
  | x :: t, s =>
    match exec x.instr ((if phaseOf x = 0 then s else s.popRandom).atSlot x) with
    | .next s' => actSlots t s'
    | e => e

/-- Runs the slots of a bundle: every check first, then, where each passes, every effect (R87, R109). -/
def runSlots (l : List Slot) (s : State) : Host.Outcome (State × List (Nat × SlotEnd)) Fault Refusal :=
  match checkSlots s (s.besideMemory l) l with
  | .fault f => .fault f
  | .refused r => .refused r
  | .next ends =>
    let ends := notAlone l ends
    if ends.all (fun e => e.2 == .commit) then
      match actSlots (actOrder l) (s.updIss (fun i => { i with checked := true })) with
      | .next t => .next (t.updIss (fun i => { i with checked := false }), ends)
      | .fault f => .fault f
      | .refused r => .refused r
    else .next (s, ends)

/-! ## How a bundle ends -/

/-- The trap of a bundle stopped at issue (R109, R110, R323). -/
def State.stopBundle (s : State) (cause : Byte) (info : Option Word) (extra src mask : Nat) : State :=
  let low := ((List.range 8).find? (fun k => mask / 2 ^ k % 2 = 1)).getD 0
  (s.updIss (fun i => { i with slot := low })).enterTrap s.cur s.x
    (issueTrap (s.updIss (fun i => { i with slot := low })) cause info extra src mask) false

/-- The first slot, by rank and then by place, that stops the bundle, with every slot that stops it for the same
reason (R109, R110). -/
def worst (bad : List (Nat × Nat × Byte × Option Word × Nat × Nat)) : Option (Byte × Option Word × Nat × Nat × Nat) :=
  let rank := bad.foldl (fun m b => Nat.min m b.1) 99
  match bad.find? (fun b => b.1 == rank) with
  | some (_, _, cause, info, extra, src) =>
    some (cause, info, extra, src,
      maskOf (((bad.filter (fun b => b.1 == rank && b.2.2.1 == cause)).map (·.2.1))))
  | none => none

/-- The rank and place of each slot that stopped, in slot order. -/
def stops (ends : List (Nat × SlotEnd)) : List (Nat × Nat × Byte × Option Word × Nat × Nat) :=
  (List.range 8).flatMap (fun k => ends.filterMap (fun e => match e.2 with
    | .trap rank cause info extra src => if e.1 = k then some (rank, k, cause, info, extra, src) else none
    | _ => none))

/-- The loop after a bundle of its body (R100). -/
def Loop.advance (l : Loop) : Option Loop × Bool :=
  if l.pos + 1 < l.b then (some { l with pos := l.pos + 1 }, false)
  else if 1 < l.rem.toNat then (some { l with pos := 0, i := l.i + 1, rem := l.rem - 1 }, true)
  else (none, false)

/-- The fault of reading the bundles that a `looph` with a count of 0 skips: its cause and address. Poisoned bytes are
left to the fetch of their own bundle (R177). -/
def State.skipFault : Nat → State → Word → Option (Byte × Word)
  | 0, _, _ => none
  | n + 1, s, pc =>
    match s.fetch16 pc with
    | (.ok a, s) => s.skipFault n (pc + (if (a.getD 3 0).getLsbD 31 then 16 else 32))
    | (.error (cause, va), _) => if cause = 0x47 then none else some (cause, va)

/-- The fetch fault that keeps a bundle from committing: that of the body which its `looph` skips (R177). -/
def State.bodyFault (s : State) : Option (Byte × Word) :=
  match s.iss.target, s.iss.opened with
  | none, some l => if l.rem = 0 then s.skipFault l.b (s.iss.pc + BitVec.ofNat 64 s.iss.len) else none
  | _, _ => none

/-- The address after `n` bundles that are skipped (R177). -/
def State.skipBundles : Nat → State → Word → Word × State
  | 0, s, pc => (pc, s)
  | n + 1, s, pc =>
    match s.fetch16 pc with
    | (.ok a, s) => s.skipBundles n (pc + (if (a.getD 3 0).getLsbD 31 then 16 else 32))
    | (.error _, s) => (pc, s)

/-- Where the next bundle is, the loop state and the stall of a transfer of control (R100, R176, R177). -/
def State.follow (s : State) : State :=
  let c := s.me
  let i := s.iss
  let next := i.pc + BitVec.ofNat 64 i.len
  match i.target with
  | some t =>
    (s.upd (fun c => { c with pc := t, loop := if c.hnd then c.loop else none })).updCore s.cur
      (fun k => { k with stall := k.stall + 2 })
  | none =>
    match i.opened with
    | some l =>
      if l.rem = 0 then
        let r := s.skipBundles l.b next
        (r.2.upd (fun c => { c with pc := r.1 })).updCore s.cur (fun k => { k with stall := k.stall + 2 })
      else s.upd (fun c => { c with pc := next, loop := some { l with start := next } })
    | none =>
      match c.loop with
      | some l =>
        if c.hnd then s.upd (fun c => { c with pc := next })
        else s.upd (fun c => { c with loop := l.advance.1, pc := if l.advance.2 then l.start else next })
      | none => s.upd (fun c => { c with pc := next })

/-- The results of a handler's own bundles are written before `eret` returns (R329). -/
def State.drainFlight (s : State) (core x : Nat) : State :=
  let f := (s.ctx core x).flight
  let s := s.updCtx core x (fun c => { c with flight := [] })
  (List.range 21).foldl (fun s k => (f.filter (fun e => e.left == k)).foldl (fun s e => s.writeResult core x e) s) s

/-- The commit of a bundle: streams popped, schedule clock, pc and loop, poison consumed, and the traps and switches
that follow it (R85, R86, R92, R97, R187, R321, R329). -/
def State.commitBundle (s : State) (step : Bool) : State :=
  let i := s.iss
  let core := s.cur
  let x := s.x
  let handler := s.me.hnd
  if i.ends then (s.endTask core x false).passCore core else
  let s := i.pops.dedup.foldl (fun s k => s.popHead core x k) s.popRandom
  let s := s.upd (fun c => { c with
    clock := c.clock + 1, handlerStart := false, syncRead := none, flight := c.flight.map (fun f => { f with left := f.left - 1 }) })
  let s := s.follow
  let s := s.updCore core (fun k => { k with stall := k.stall + i.stall })
  let s := if i.poisoned then s.poisoned core x 0 0 0 0 else s
  let s := if i.loads then s.updCtx core x (fun c => { c with blocked := .load (c.logNext - 1), latches := [] }) else s
  let s := if i.returns then
      let n := (s.ctx core x).flight.foldl (fun m f => Nat.max m f.left) 0
      ((s.drainFlight core x).updCtx core x Ctx.returned).updCore core (fun k => { k with stall := k.stall + n })
    else s
  let trap := fun (s : State) (cause : Byte) (info mask : Word) => s.enterTrap core x
    { cause := cause, late := false, src := 0, snum := 0, info := info, emask := mask, epc := (s.ctx core x).pc } false
  let s := match i.after with
    | some (cause, info, mask) => trap s cause info mask
    | none => if step ∧ !handler then trap s 0x13 0 0 else s
  if (s.ctx core x).blocked != .no || (s.ctx core x).save.halted then s.passCore core
  else if i.yields && s.nextReady core != some x then
    (s.updCtx core x (fun c => { c with latches := [] })).passCore core
  else s

/-- Ends a bundle: the trap of its worst failed check, a stall, a block, or its commit. `s0` is the state before any
slot acted. -/
def State.endBundle (s0 : State) (whole : List (Nat × Byte × Nat)) (r : State × List (Nat × SlotEnd)) : State :=
  let slotStops := stops r.2
  let rank := slotStops.foldl (fun m b => Nat.min m b.1) 99
  match whole.find? (fun w => w.1 ≤ rank) with
  | some (10, cause, mask) => s0.stopBundle cause none 0 0
      (if rank = 10 then mask.lor ((worst slotStops).elim 0 (·.2.2.2.2)) else mask)
  | some (_, cause, mask) => s0.stopBundle cause none 0 0 mask
  | none =>
    match worst slotStops with
    | some (cause, info, extra, src, mask) => s0.stopBundle cause info extra src mask
    | none =>
      if r.2.any (fun e => e.2 == .stall) then s0
      else match r.2.findSome? (fun e => match e.2 with
          | .block w => some w
          | _ => none) with
        | some w => (s0.upd (fun c => c.waitFor w)).passCore s0.cur
        | none =>
          match r.1.bodyFault with
          | some (cause, info) => s0.enterTrap s0.cur s0.x
              { cause := cause, late := false, src := 0, snum := 0, info := info, emask := 0, epc := s0.iss.pc } false
          | none => r.1.commitBundle (s0.me.tvec.getLsbD 1)

/-- The record of a bundle as its issue begins. -/
def Issue.start (pc : Word) (ws : List (BitVec 32)) (slots : Nat) : Issue :=
  { Issue.reset with pc := pc, len := 4 * ws.length, words := ws, slots := slots }

/-- A breakpoint that an address meets (R367). -/
def State.atBreakpoint (s : State) (pc : Word) : Bool :=
  (List.range 4).any (fun k =>
    let b := mget 0 (s.core s.cur).bkpt k
    b.getLsbD 0 && b.extractLsb' 4 53 == pc.extractLsb' 4 53)

/-- Issues the words of a bundle: framing, decoding, the checks and the slots (R102, R108, R109). -/
def State.issueWords (s : State) (ws : List (BitVec 32)) : Out :=
  let read := (List.range ws.length).map (fun k => (k, readSlot (ws.getD k 0)))
  let bad := read.filterMap (fun e => match e.2 with
    | .error (rank, cause) => some (rank, e.1, cause, (none : Option Word), 0, 0)
    | .ok _ => none)
  let good := read.filterMap (fun e => match e.2 with
    | .ok i => some (e.1, some i)
    | .error (rank, _) => if rank = 5 then some (e.1, none) else none)
  let l := assignUnits good [] none false
  let s := { s with iss := Issue.start s.me.pc ws (l.filter (fun x => x.form.cls != .none)).length }
  if badStops ws ≠ 0 then .next (s.stopBundle 0x06 none 0 0 (badStops ws))
  else if bad.isEmpty then
    match runSlots l s with
    | .fault f => .fault f
    | .refused r => .refused r
    | .next r => .next (s.endBundle (s.bundleChecks l) r)
  else
    let failed := bad ++ stops (l.map (fun x => (x.k, (s.atSlot x).slotCheck (s.form x.instr))))
    match worst failed with
    | some (cause, info, extra, src, mask) => .next (s.stopBundle cause info extra src mask)
    | none => .next s

/-- Issues the bundle at the running context's pc: breakpoint, fetch, then its words (R102, R182, R328). -/
def State.issueBundle (s : State) : Out :=
  let pc := s.me.pc
  let s := { s with iss := Issue.start pc [] 0 }
  let trap := fun (s : State) (cause : Byte) (info : Word) => s.enterTrap s.cur s.x
    { cause := cause, late := false, src := 0, snum := 0, info := info, emask := 0, epc := pc } false
  if s.atBreakpoint pc then .next (trap s 0x0F 0)
  else match s.fetchBundle pc with
    | (.error (cause, info), s) =>
      if cause = 0x47 then .next (s.poisoned s.cur s.x 0 0 0 0)
      else if s.me.handlerStart then .next (trap s 0x15 0)
      else .next (trap s cause info)
    | (.ok ws, s) => s.issueWords ws

end Sys2Proof.Machine
end

