-- ==== Sys2Proof/Machine/Chances.lean ====
section
/-! DEFINITION. What happens by chance inside the device: SEC-DED errors (R59, R240), corrected errors of an L2 slice (R368), failed
checks of results, units and engines (R327), failures that are only reported (R342), the evictions of the cache of the
application cores (R363), and what writes to the stacks meet (R31). -/

namespace Sys2Proof.Machine

/-- A single-bit error of a core's storage is corrected and counted (R59, R343). -/
def State.coreCorrected (s : State) (core : Nat) : State :=
  let e := { ev 0xFF 0 1 core with cls := 4, island := some (coreIsland core) }
  (s.offer e).corrected 1 core e

/-- A correctable error of an array's shadow store is corrected and counted; an array lies outside every island (R240, R345). -/
def State.shadowCorrected (s : State) (n : Nat) : State :=
  let e := { ev 0xFF 1 6 n with cls := 4 }
  (s.offer e).corrected 1 (512 + n) e

/-- A double-bit error marks the row that encloses it poisoned (R59); a row whose written bit is clear reads as zero whatever it
holds (R58). An uncorrectable shadow word makes the committed codes of its column unusable (R240). -/
def State.spoilStored (s : State) (p : Stored) : State :=
  match p with
  | .spad core bank row => { s with spad := match mfind s.spad (rowKey core bank row) with
      | some e => mset s.spad (rowKey core bank row) { e with poison := true }
      | none => s.spad }
  | .acc core tile row => { s with acc := match mfind s.acc (accKey core tile row) with
      | some e => mset s.acc (accKey core tile row) { e with poison := true }
      | none => s.acc }
  | .vreg core x r piece => s.markV (8 * vkey core x r + piece) true
  | .shadow core arr col => s.updArray (arrayNo core arr) (fun a => { a with
      shadowBad := if a.shadowBad.contains col then a.shadowBad else a.shadowBad ++ [col] })

/-- Whether a stored word is one that the device has. -/
def Stored.valid (p : Stored) : Bool :=
  match p with
  | .spad core bank row => decide (core < 512) && decide (bank < 32) && decide (row < 1024)
  | .acc core tile row => decide (core < 512) && decide (tile < 16) && decide (row < 64)
  | .vreg core x r piece => decide (core < 512) && decide (x < 4) && decide (r < 64) && decide (piece < 8)
  | .shadow core arr col => decide (core < 512) && decide (arr < 16) && decide (col < 256)

/-- The core of a stored word. -/
def Stored.core (p : Stored) : Nat :=
  match p with
  | .spad core _ _ => core
  | .acc core _ _ => core
  | .vreg core _ _ _ => core
  | .shadow core _ _ => core

/-- Whether a check can fail on a result: the check of the unit that delivers it, or one of the context's own register state
(R91, R327, R342). -/
def checkFits (cause : Nat) (f : InFlight) : Bool :=
  (0x3B ≤ cause && cause ≤ 0x3F) ||
    match f.latch with
    | some 0 => cause == 0x26
    | some 1 => cause == 0x27
    | some 2 => cause == 0x29
    | some 3 => cause == 0x2A
    | some 4 => cause == 0x28 || cause == 0x2B
    | some 8 => cause == 0x28 || cause == 0x2C
    | some 6 => cause == 0x2D
    | some 9 => cause == 0x2E
    | some 7 => cause == 0x2F
    | _ => false

/-- A check fails on the `i`-th result in flight, which is due (R327): its register and latch stay unwritten, the other results
due are written, and the cause, once the severity matrix has had it, is a trap at a result write. An enabled flag that those
results raise is delivered after it. -/
def State.resultCheck (s : State) (core x i : Nat) (cause : Byte) : State :=
  let c := s.ctx core x
  match c.flight[i]? with
  | none => s
  | some f =>
    if f.left ≠ 0 ∨ c.save.halted ∨ !checkFits cause.toNat f then s
    else
      let info := BitVec.ofNat 64 (destCode f.dest)
      let r := (s.updCtx core x (fun c => { c with flight := c.flight.eraseIdx i })).report core x cause.toNat 0 info
      if !r.2 then r.1
      else
        let due := (r.1.ctx core x).due
        let s := r.1.writeAll core x
        let on := (s.ctx core x).raisedOn due
        let s := if on = 0 ∨ (s.ctx core x).hnd then s
          else s.updCtx core x (fun c => { c with
            pending := c.pending ++ [{ cause := flagCause on, src := 10, snum := 0, info := on.setWidth 64, seen := s.cycle }] })
        s.enterTrap core x { cause := cause, late := true, src := 10, snum := 0, info := info, emask := 0,
                             epc := (s.ctx core x).pc } true

/-- A stream of a tile fetch unit (0x39) or of a generator (0x3A) halts on a failed check (R159, R327). -/
def State.streamCheck (s : State) (core x k : Nat) : State :=
  let q := (s.ctx core x).stream k
  if q.cfg && q.started && !q.halt && q.kind != 3 then
    s.haltStream core x k (if q.kind = 2 then 0x39 else 0x3A) (BitVec.ofNat 64 k)
  else s

/-- A ferry queue whose head command has begun halts with 0x77 (R52, R327). -/
def State.ferryCheck (s : State) (core x q : Nat) : State :=
  if ((s.ctx core x).ferryHead q).any (·.started) && !((s.ctx core x).ferryQ q).halt then s.haltFerry core x q 0x77 0 else s

/-- A Sound-engine queue whose head command has begun halts with 0x78; the other ranks of a collective halt with 0x76 (R294,
R327). -/
def State.soundCheck (s : State) (core x q : Nat) : State :=
  if ((s.ctx core x).soundHead q).any (·.started) && !((s.ctx core x).soundQ q).halt then
    let k := s.collOf core x q
    let s := s.haltSound core x q 0x78 0
    match k with
    | some (i, c, r) => s.abortColl i c [r] 0x76
    | none => s
  else s

/-- Where a failure that is only reported is detected: its source, its kind of location and, within an island, the island (R344,
R345, R347). -/
def noteAt (cause loc : Nat) : Option (Nat × Nat × Option Nat) :=
  if cause = 0x4F then some (0, 1, some (coreIsland loc))
  else if cause = 0x4E ∨ (0x50 ≤ cause ∧ cause ≤ 0x53) then some (4, 2, some loc)
  else if 0x98 ≤ cause ∧ cause ≤ 0x9B then some (5, 6, none)
  else if cause = 0x9C then some (5, 5, none)
  else if cause = 0xA6 then some (7, 0, none)
  else none

/-- A failure that the spec only has reported: no effect on any stored value is stated (R342). -/
def State.note (s : State) (cause : Byte) (loc : Nat) : State :=
  match noteAt cause.toNat loc with
  | some (src, lkind, n) => s.offer { ev cause.toNat src lkind (if lkind = 0 then 0 else loc) with island := n }
  | none => s

/-- What happens by chance; what names nothing the device has, or finds nothing to act on, does nothing. -/
def State.chance (s : State) (u : Chance) : State :=
  match u with
  | .bits p double =>
    if !p.valid then s
    else if double then s.spoilStored p
    else match p with
      | .shadow core arr _ => s.shadowCorrected (arrayNo core arr)
      | p => s.coreCorrected p.core
  | .l2Bit n => if n < 32 then s.corrected 0 n { ev 0xFF 4 2 n with island := some n } else s
  | .result core x i cause => if x < 4 then s.resultCheck core x i cause else s
  | .matrix core cause => match (s.core core).matrix with
    | some m => if (cause = 0x30 ∨ cause = 0x31) ∧ (unitRows m.entry.instr = 0 ∨ m.step = 0) then s.matrixFault core m.x m.entry cause else s
    | none => s
  | .crossbar core arr cause => match (s.array (arrayNo core arr)).busy with
    | some b => if arr < 16 ∧ (cause = 0x32 ∨ cause = 0x97) then s.xbarFault core b.x arr b.entry cause else s
    | none => s
  | .stream core x k => if x < 4 then s.streamCheck core x k else s
  | .ferry core x q => if x < 4 then s.ferryCheck core x q else s
  | .sound core x q => if x < 4 then s.soundCheck core x q else s
  | .kv core x => match s.kvSent core x with
    | some (p, _, _, _) => if x < 4 then s.updCtx core x (fun c => { c with kv := .cause p 0x8A 0 }) else s
    | none => s
  | .note cause loc => s.note cause loc
  | .evict sec => s.appEvict sec
  | .stackWrite sec c0 c1 => s.stackWrite sec c0 c1
  | .msi hart id => if hart < 16 then s.signal hart id else s

end Sys2Proof.Machine
end

