-- ==== Sys2Proof/Machine/Agents.lean ====
section
/-! DEFINITION. Who takes the next step: the core whose turn it is, or the other agents of the device. In each cycle each core
issues at most one bundle (R84); then the agents act one step at a time, in a fixed order, until none of them can, so that a
bundle's own access of a bank comes before every other user's (R60, R61), and the cycle ends. -/

namespace Sys2Proof.Machine

/-- The event, if a condition holds. -/
def eventIf (b : Bool) (e : Instr) : Option Instr := if b then some e else none

/-! ## What the agents can do -/

/-- The contexts that hold a task, by core and number. -/
def State.tasks (s : State) : List (Nat × Nat) :=
  (s.ctxs.filter (fun e => e.2.task.isSome)).map (fun e => (e.1 / 4, e.1 % 4))

/-- The cores that hold a task. -/
def State.busyCores (s : State) : List Nat := (s.tasks.map (·.1)).dedup

/-- Stream generators, tile fetches and drains (R42, R155, R158, R274). -/
def State.streamEvent (s : State) (core x k : Nat) : Option Instr :=
  if s.generatorReady core x k then some (.streamGeneratorRow core x k)
  else if s.tileReady core x k then some (.tileFetchEntryFill core x k)
  else if s.drainReady core x k then some (.writeStreamDrain core x k)
  else eventIf (s.kvFillReady core x k) (.kvStreamEntryFill core x k)

/-- The Sound engine (R287, R289, R294), in the class of its transfers or in that of its counts (R60); a transfer to another device
waits for what that device answers. -/
def State.soundEvent (s : State) (counts : Bool) (core x q : Nat) : Option Instr :=
  let owes := ((s.ctx core x).soundHead q).any (fun k => k.owed != 0)
  if !counts && (s.joinNext core x q).isSome then some (.collectiveJoin core x q)
  else if counts && s.ackReady core x q then some (.soundAcknowledgement core x q)
  else if owes == counts && (s.soundNext core x q .none).isSome then some (.soundTransfer core x q .none)
  else eventIf (counts && s.timeoutDue core x q) (.fabricTimeout core x q)

/-- What can happen to a context and its accesses, its streams and engine queues apart. -/
def State.ctxEvent (s : State) (core x : Nat) : Option Instr :=
  let c := s.ctx core x
  if s.pointReached core x || s.runsOn core x then some (.savePoint core x)
  else if s.pointOverdue core x then some (.savePointTimeout core x)
  else if s.saveReady core x then some (.contextSave core x)
  else if c.blocked != .no && s.lateReady core x then some (.lateFaultDelivery core x)
  else if s.endReady core x then some (.taskEnd core x)
  else if !c.save.halted && s.timeOver core x then some (.waittExpiry core x)
  else if s.stealAsked core x then some (.steal core x)
  else if s.kvReady core x then some (.kvOperation core x)
  else match (List.range c.log.length).find? (s.entryReady core x) with
    | some i => some (.operandLogPerform core x i)
    | none =>
      if !c.save.halted && s.readyNow core x then some (.contextReady core x)
      else eventIf (s.wantsRandom core x) (.generatorAppend core x)

/-- What the streams of a context do next. -/
def State.streamsEvent (s : State) (core x : Nat) : Option Instr :=
  ((s.ctx core x).streams.map (·.1)).findSome? (s.streamEvent core x)

/-- What the Sound-engine queues of a context do next. -/
def State.soundsEvent (s : State) (counts : Bool) (core x : Nat) : Option Instr :=
  ([0, 1] : List Nat).findSome? (s.soundEvent counts core x)

/-- The units of a core that read operands: matrix unit and crossbar sequencer. -/
def State.unitEvent (s : State) (core : Nat) : Option Instr :=
  if s.matrixDone core then some (.matrixInstructionComplete core)
  else if s.matrixStepReady core then some (.matrixStep core)
  else if s.matrixCanStart core then some (.matrixInstructionStart core)
  else if (s.nextXbar core).isSome then some (.crossbarInstructionStart core)
  else match (List.range 16).find? (fun a => s.xbarDone core a || s.fallbackReady core a) with
    | some a => some (if s.xbarDone core a then .crossbarInstructionComplete core a else .digitalFallback core a)
    | none => none

/-- The ferry transfers of a core, or the counts of its commands and the follow-ons they hand (R51, R60). -/
def State.ferryEvent (s : State) (counts : Bool) (core : Nat) : Option Instr :=
  match s.nextFerry core counts with
  | some q => some (.ferryTransfer core q)
  | none => if counts then ((List.range 8).find? (s.followReady core)).map (fun q => .followOnHandoff core q) else none

/-- The ramp limiter of an island and the end of its reset (R316, R317, R348). -/
def State.islandEvent (s : State) (n : Nat) : Option Instr :=
  if s.windowOver n then some (.rampWindowEnd n)
  else if (s.island n).resetting then some (.islandResetEnd n)
  else if s.dummyWanted n then ((List.range 16).find? (fun i => s.dummyUnit (islandCore n i))).map (fun i => .dummyStep (islandCore n i))
  else none

/-- Automatic tide checks (R241): of every array that is due. -/
def State.tideEvent (s : State) : Option Instr :=
  let due := (List.range 16).filter (fun h => s.tidePeriod h != 0 && decide (mget 0 s.regs.xdriftBase h + s.tidePeriod h ≤ s.cycle))
  let all := if due.isEmpty then s.arrays.map (·.1) else List.range 8192
  (all.find? (fun n => s.tideReady n || s.tideOver n)).map (fun n => .tideCheck (n / 16) (n % 16))

/-- The queue scheduler, the slots, the intakes and the distributor (R301-R318). -/
def State.distributorEvent (s : State) : Option Instr :=
  if s.passReady then some .schedulerPass
  else match s.slotsMapped.find? (fun e => s.slotReady e.1) with
    | some e => some (.queueSlotConsume e.1)
    | none => match ([0, 1] : List Nat).find? (fun d => (s.takingSlot d).isSome) with
      | some d => some (.launchAccept d)
      | none => match s.launches.find? (fun e => s.ageDue e.2 || s.leadDue e.2) with
        | some e => some (if s.leadDue e.2 then .timedLaunchLead e.1 else .ageExpiry e.1)
        | none => match s.nextDecision with
          | some (.resume launch task _) => some (.contextRestore launch task)
          | some _ => some .distributorDecision
          | none => none

/-- A block of an all-to-all that can move now without another device: the source is here. -/
def State.exchangeOf (s : State) (c : Coll) : Option Instr :=
  if c.failed || c.result.isNone || !c.members.any (fun m => m.cmd.kind == 3) then none
  else
    let n := c.ranks.length
    ((c.members.flatMap (fun m => (List.range n).map (fun d => (m.rank, d)))).find? (fun p =>
        !c.blocks.contains p && (s.exchangeNext c.group c.tag p.1 p.2 .none []).isSome)).map
      (fun p => .allToAllExchange c.group c.tag p.1 p.2 .none [])

/-- Collectives that can run, deliver a result or exchange a block, or else count what has landed (R60, R289-R294). -/
def State.collEvent (s : State) (counts : Bool) : Option Instr :=
  s.colls.findSome? (fun c =>
    if !counts && (((s.waitingColl c.group c.tag).bind (fun i => s.colls[i]?)).any s.runReady || !(s.overdueSaved c).isEmpty) then
      some (.collectiveRun c.group c.tag [])
    else match ([0, 1] : List Nat).find? (fun d =>
        (s.dueAt d c.group c.tag true).isSome == counts && (s.resultNext d c.group c.tag).isSome) with
      | some d => some (.collectiveResultWrite d c.group c.tag)
      | none => if counts then none else s.exchangeOf c)

/-- The stacks, the ports, the power sequence and the shootdown. The refresh-management time of a bank ends before any agent makes an
access of it (R35). -/
def State.deviceEvent (s : State) : Option Instr :=
  if s.recoveryDue then some .fatalRecovery
  else if s.commitReady then some .checkpointCommit
  else if s.shootdownDone then some .shootdownComplete
  else if s.errWindowOver then some .errorThresholdWindowEnd
  else if !s.writeBacks.isEmpty then s.writeBacks.head?.map (fun w => .correctedWriteback w.sec .clean .clean)
  else match s.hbm.findSome? (fun e => e.2.bankWait.head?.map (fun b => (e.1, b))) with
    | some (stack, b) => some (.refreshManagementEnd stack b)
    | none => ((List.range 4).find? (fun p => (s.nextFrame p).isSome)).map (fun p => .ethTransmit p)

/-- The first event of the device's own agents that can happen now, in a fixed order. A bank serves operand reads before transfers, and
those before the counts of the engines (R60), so that all that read operands on the device come first, then all transfers. -/
def State.autoEvent (s : State) : Option Instr :=
  let within := fun (a : Option Instr) (b : Unit → Option Instr) => a.orElse b
  within s.deviceEvent fun _ =>
  within ((s.ramps.map (·.1) ++ s.islands.map (·.1)).findSome? s.islandEvent) fun _ =>
  within s.tideEvent fun _ =>
  within (s.tasks.findSome? (fun p => s.ctxEvent p.1 p.2)) fun _ =>
  within (s.tasks.findSome? (fun p => s.streamsEvent p.1 p.2)) fun _ =>
  within (s.busyCores.findSome? s.unitEvent) fun _ =>
  within (s.busyCores.findSome? (s.ferryEvent false)) fun _ =>
  within (s.tasks.findSome? (fun p => s.soundsEvent false p.1 p.2)) fun _ =>
  within (s.collEvent false) fun _ =>
  within (s.busyCores.findSome? (s.ferryEvent true)) fun _ =>
  within (s.tasks.findSome? (fun p => s.soundsEvent true p.1 p.2)) fun _ =>
  within (s.collEvent true) fun _ => s.distributorEvent

/-! ## The clock -/

/-- Whether a translation or line pin of a stream has to wait (R29, R43). -/
def State.streamPinWaits (s : State) (core x k : Nat) : Bool :=
  let q := (s.ctx core x).stream k
  s.streamRuns core x k [2] && (s.ctx core x).boundDone q && (q.canPack || q.wantsRow) && !s.tileReady core x k

/-- The holders whose pins have to wait now: tile fetches, ferry commands and transfers of the Sound engine (R27, R43). -/
def State.pinWaiters (s : State) : List (Nat × Nat × Holder) :=
  s.tasks.flatMap (fun (p : Nat × Nat) =>
    let c := s.ctx p.1 p.2
    let own := fun (l : List Holder) => l.map (fun h => ((p.1, p.2, h) : Nat × Nat × Holder))
    own (((c.streams.map (·.1)).filter (s.streamPinWaits p.1 p.2)).map Holder.stream) ++
    own ((([0, 1] : List Nat).filter (fun q =>
      (c.ferryHead q).any (s.ferryMay p.1 p.2 q) && !s.ferryReady p.1 (2 * p.2 + q))).map Holder.ferry) ++
    own ((([0, 1] : List Nat).filter (fun q => s.soundReady p.1 p.2 q && (c.soundHead q).any s.soundHere &&
      (s.soundNext p.1 p.2 q .none).isNone)).map Holder.sound))

/-- The cores whose step is held, island by island: those that waited keep their places and the others follow in rising
number (R317). -/
def State.islandsHold (s : State) (held : List (Nat × Nat)) : State :=
  (List.range 32).foldl (fun s n =>
    let here := held.filter (fun w => coreIsland w.1 == n)
    let old := (s.ramp n).waiting
    let next := old.filter here.contains ++ here.filter (fun w => !old.contains w)
    if next == old then s else s.updRamp n (fun _ => { s.rampNow n with waiting := next })) s

/-- The performance counters that a cycle adds to: a cycle of step delay at each core whose step the ramp limiter holds, and
the pins that have begun to wait (R368). -/
def State.countCycle (s : State) : State :=
  let held := s.cores.filterMap (fun e => (s.stepHeld e.1).map (fun u => (e.1, u)))
  let s := s.islandsHold held
  let s := held.foldl (fun s w => s.count (coreIsland w.1) 2 1) s
  let now := s.pinWaiters
  let s := (now.filter (fun w => !s.pinWaits.contains w)).foldl (fun s w => s.count (coreIsland w.1) 6 1) s
  { s with pinWaits := now }

/-- The clock's advance in one cycle of 10/19 ns, times its rate, while it runs (R350). -/
def State.runClock (s : State) : State :=
  let rate : Int := (65536000000000 : Int) + s.regs.adj.toInt
  if s.regs.ptpRun then
    let unit := 19 * 65536000000000
    let acc := s.regs.ptpfrac + 10 * rate.toNat
    s.updRegs (fun r => { r with ptpns := (r.ptpns + acc / unit) % (2 ^ 48 * 1000000000), ptpfrac := acc % unit })
  else s

/-- The first of the cores that hold a task. -/
def State.firstCore (s : State) : Nat :=
  match s.busyCores with
  | c :: t => t.foldl Nat.min c
  | [] => 0

/-- The end of a cycle of the 1.9 GHz clock: the first core takes its turn in the next one. -/
def State.tick (s : State) : State :=
  let s := s.countCycle.flushLogs.runClock
  { s with
    cycle := s.cycle + 1, evTurn := false, cur := s.firstCore, stackUse := [], freedBanks := []
    sched := { s.sched with heard := [] }, regs := { s.regs with pfRefusedNow := false } }

/-! ## Turns -/

/-- The next core takes its turn; after the last of the cycle the agents act. -/
def State.advance (s : State) : State :=
  match s.busyCores.filter (fun c => s.cur < c) with
  | c :: t => { s with cur := t.foldl Nat.min c }
  | [] => { s with evTurn := true }

/-- The running context, or the context chosen when the core idles or its context cannot issue (R86). -/
def State.chosen (s : State) : State :=
  let c := s.me
  if !(s.core s.cur).idle && c.task.isSome && c.blocked == .no && !c.save.halted then s else s.passCore s.cur

/-- The turn of a core: a stall passes; results due are written; a pending late fault is delivered; otherwise the running
context issues its bundle (R84, R86, R97, R326). A bundle that needs a bank whose rows are being refreshed waits (R35). -/
def State.coreTurn (s : State) : Out :=
  let core := s.cur
  if 0 < (s.core core).stall then .next (s.updCore core (fun k => { k with stall := k.stall - 1 })).advance
  else
    let s := s.chosen
    if (s.core core).idle then .next s.advance
    else if s.me.flight.any (fun f => f.left == 0) then exec (.resultWrite core s.x) s
    else if !s.me.pending.isEmpty && !s.me.hnd then exec (.lateFaultDelivery core s.x) s
    else match s.issueBundle with
      | .next t => .next (if (t.stackUse.drop s.stackUse.length).any (fun u => s.bankWaits u.1) then s else t).advance
      | r => r

/-- The next step when no event from outside is due: a core's turn, or, after the last of them, the reset of an island that was asked
for, what happens by chance, an event of the agents, or the end of the cycle. -/
def State.turn (s : State) : Out :=
  if s.evTurn then
    match s.resetDue with
    | some n => .next (s.islandReset n)
    | none => match s.chances with
      | u :: rest => .next { ({ s with chances := rest } : State).chance u with chances := rest }
      | [] => match s.autoEvent with
        | some e => exec e s
        | none => .next s.tick
  else s.coreTurn

end Sys2Proof.Machine
end

