-- ==== Sys2Proof/WellFormed.lean ====
section
/-! DEFINITION. Which instructions are well formed: a slot instruction whose fields hold assigned values, whose scalar register
fields are in range and whose source modes are legal (R104, R105, R108 and each instruction's own rule); an event that names
parts the device has (R12, R84). -/

namespace Sys2Proof

open Machine

/-- A tile core and a context of it (R12, R84). -/
def coreCtx (core x : Nat) : Bool := decide (core < 512) && decide (x < 4)

/-- A launch or task number of 32 bits (R132, R298). -/
def isWord32 (n : Nat) : Bool := decide (n < 2 ^ 32)

/-- A physical address of 52 bits (R18). -/
def isPhysical (pa : Nat) : Bool := decide (pa < 2 ^ 52)

/-- A Strait port, or the Narrows as number 18 (R367). -/
def isLink (port : Nat) : Bool := decide (port < 19)

/-- Tries of a transfer that was retried: a first attempt and up to four more (R31). -/
def triesOk (n : Nat) : Bool := decide (1 < n) && decide (n < 6)

/-- A transfer within R31's limits. -/
def WriteOutcome.wf : WriteOutcome → Bool
  | .retried n => triesOk n
  | _ => true

/-- A read outcome within R31's limits. -/
def ReadOutcome.wf (r : ReadOutcome) : Bool := r.transfer.wf

/-- Whether an event names parts that the device has. -/
def eventOk (i : Instr) : Bool :=
  match i with
  | .resultWrite c x | .contextReady c x | .generatorAppend c x | .lateFaultDelivery c x | .kvOperation c x | .steal c x
  | .taskEnd c x | .savePoint c x | .savePointTimeout c x | .contextSave c x | .waittExpiry c x | .pageWalk c x _ _
  | .runtimeHaltRequest c x => coreCtx c x
  | .operandLogPerform c x k => coreCtx c x && decide (k < 16)
  | .tileFetchEntryFill c x k | .streamGeneratorRow c x k | .writeStreamDrain c x k | .kvStreamEntryFill c x k
  | .sqstatHalt c x k => coreCtx c x && decide (k < 16)
  | .fqstatHalt c x q | .fqstatDiscard c x q | .sndqHalt c x q | .sndqDiscard c x q | .soundTransfer c x q _
  | .soundAcknowledgement c x q | .collectiveJoin c x q | .fabricTimeout c x q => coreCtx c x && decide (q < 2)
  | .ferryTransfer c q | .followOnHandoff c q => decide (c < 512) && decide (q < 8)
  | .matrixInstructionStart c | .matrixStep c | .matrixInstructionComplete c | .dummyStep c
  | .crossbarInstructionStart c => decide (c < 512)
  | .crossbarInstructionComplete c a | .digitalFallback c a | .tideCheck c a => decide (c < 512) && decide (a < 16)
  | .rampWindowEnd n | .islandResetEnd n => decide (n < 32)
  | .collectiveRun g t _ => isWord32 g && isWord32 t
  | .collectiveResultWrite d g t => decide (d < 2) && isWord32 g && isWord32 t
  | .allToAllExchange g t a b _ _ => isWord32 g && isWord32 t && decide (a < 512) && decide (b < 512)
  | .queueSlotConsume n => decide (n < 64)
  | .launchAccept d => decide (d < 2)
  | .ageExpiry l | .timedLaunchLead l => isWord32 l
  | .contextRestore l t | .runtimeKill l t => isWord32 l && isWord32 t
  | .ethTransmit p | .ethReceive p _ | .stampPop p | .ethernetLinkDown p _ => decide (p < 4)
  | .refreshWindowEnd k => decide (k < 8)
  | .refreshManagementEnd k b => decide (k < 8) && decide (b < 1024)
  | .hbmSectorFill sec a b => backed (64 * sec) && a.wf && b.wf
  | .correctedWriteback sec a b => backed (64 * sec) && a.wf && b.wf
  | .patrolScrub k c => decide (k < 8) && c.wf
  | .activationAlert k c b r _ => decide (k < 8) && decide (c < 64) && decide (b < 16) && decide (r < 32768)
  | .rdcEviction d l => decide (d < 2) && backed (512 * l)
  | .straitFlitReceive p _ _ | .linkRetrain p _ | .linkTrained p _ _ | .portTrainTimeout p _ | .linkEnable p _ => isLink p
  | .windowAccess _ _ n d _ => decide (n ≤ 512) && decide (d.length ≤ 512)
  | .xdriftpWrite h _ => decide (h < 16)
  | .pcieDma pa _ d => isPhysical pa && decide (d.length ≤ 4096)
  | .registerWrite off _ => decide (off % 8 = 0)
  | .applicationCoreAccess h _ pa _ _ => decide (h < 18) && isPhysical pa
  | .ptploRead h => decide (h < 18)
  | .applicationCoreMachineCheck h => decide (h < 16)
  | _ => true

/-- The checks of a slot instruction's fields: assigned codes, scalar registers in range, legal source modes (R104, R105,
R108). -/
def slotOk (i : Instr) : Bool :=
  let v := viewOf i
  v.encOk && (v.a.toList ++ v.b.toList).all Operand.regOk && (v.a.toList ++ v.b.toList).all Operand.modeOk

/-- Well-formed instructions and events. -/
def Instr.wf (i : Instr) : Bool := if (encode i).isSome then slotOk i else eventOk i

end Sys2Proof
end

