-- ==== Sys2Proof/Machine/Step.lean ====
section
/-! DEFINITION. The step function, and the placing of one instruction where the next step fetches it. -/

namespace Sys2Proof.Machine

/-- What is left to happen after a step: an event takes itself from the agenda and nothing else touches it. -/
def thenAgenda (rest : List Instr) (o : Host.Outcome State Fault Refusal) : Host.Outcome State Fault Refusal :=
  match o with
  | .next t => .next { t with agenda := rest }
  | .fault f => .fault f
  | .refused r => .refused r

/-- One step of the device: the next event that the surroundings ask for, or the turn of the device's own agents and
cores. An agenda whose head is no event, or an event of a part the device does not have, describes nothing. -/
def step (s : State) : Host.Outcome State Fault Refusal :=
  match s.agenda with
  | e :: rest =>
    if (encode e).isNone && eventOk e then thenAgenda rest (exec e { s with agenda := rest }) else .fault .agendaMalformed
  | [] => thenAgenda [] s.turn

/-- The launch of a task that is placed by hand: one hot task with its whole core. -/
def probeLaunch : Launch :=
  { id := 1,
    rcd := { entry := 0x10000, args := 0, ext := [1, 1, 1, 1], order := 0, shape := 0x20, stages := 1, tpc := 1,
             crews := 1, cpc := 1, grain := 1, spkb := 256, zt := 2, prio := 0, depend := 0, start := 0, done := 0 },
    state := .started, die := 0, asn := 1, ptroot := 0, pooldir := 0, poolcnt := 0, queue := 0, qidx := 0,
    fromLnch := false, prev := none, depWait := false, eligibleAt := none, aged := false, lead := false,
    acceptedAt := 0, crews := 1, tasks := 1, ended := [], killed := false, ownerless := [], startedAt := 0, dies := [0] }

/-- The task of that launch: four banks and two tiles of core 0. -/
def probeTask : Task :=
  { launch := 1, task := 0, crew := 0, rank := 0, ctxr := 0, stage := 0, line := 0, b0 := 0, banks := 4,
    tiles := [0, 1], leases := [none, none, none, none] }

/-- The translation of the page that holds the placed bundle. -/
def probePage : TlbEntry :=
  { asn := 1, gl := false, va := 0x10000, k := 0, pa := 0x10000, rd := true, wr := true, ex := true, dy := true }

/-- The four slot words of a bundle that holds one instruction and nothing else (R102, R107). -/
def probeBundle (w : Nat) : List Byte :=
  slotBytes (w % 2 ^ 31) ++ slotBytes 0x0800_0000 ++ slotBytes 0x0800_0000 ++ slotBytes 0x8800_0000

/-- The state in which the next step fetches and issues a given slot word: a task on context 0 of core 0 whose next
bundle, at virtual and physical address 0x1_0000, holds the word in slot 0 and `nop` in slots 1 to 3. -/
def State.withFetchWord (s : State) (_nbits w : Nat) : State :=
  let s := { s with agenda := [], cur := 0, evTurn := false, launches := mset s.launches 1 probeLaunch }
  let s := s.homeStore 0x10000 (probeBundle w)
  let s := s.updCore 0 (fun c => { c with
    running := 0, idle := false, stall := 0, tlb := [probePage], icache := [], bkpt := [] })
  s.updCtx 0 0 (fun c => { c with
    task := some probeTask, pc := 0x10000, flight := [], pending := [], blocked := .no, save := .no })

end Sys2Proof.Machine
end

