-- ==== Sys2Proof/Safety.lean ====
section
/-! DEFINITION. The terms claims are stated in: answers of a step, runs, an agenda the surroundings can ask for, a slot that
passes its checks, and the state that a slot with a result leaves. -/

namespace Sys2Proof.Machine

/-- An answer that goes on. -/
def Answers (o : Out) : Prop := ∃ t, o = .next t

/-- An event of the device's agents or surroundings that names parts the device has. -/
def isEvent (i : Instr) : Bool := (encode i).isNone && eventOk i

/-- An agenda that the surroundings can ask for. -/
def State.agendaOk (s : State) : Bool := s.agenda.all isEvent

/-- Runs of the device: steps that each answer a next state. -/
inductive Reaches : State → State → Prop where
  | refl (s : State) : Reaches s s
  | tail {s t u : State} : Reaches s t → step t = .next u → Reaches s u

/-- A run is safe when no state it reaches stops. -/
def SafeFrom (s : State) : Prop := ∀ t, Reaches s t → Answers (step t)

/-- The sources of a slot. -/
def View.sources (v : View) : List Operand := v.a.toList ++ v.b.toList

/-- A slot that may execute: it passes the checks of R109 that it makes by itself, every stream it reads holds an entry, and no
operand is poisoned (R32, R92, R109). -/
def State.Clear (s : State) (v : View) : Prop :=
  s.slotCheck v = .commit ∧ v.sources.any s.operandBad = false ∧ s.dataBad v = false

/-- The state in which a committing slot has noted the streams it pops and its use of random bits, and nothing else. -/
def State.noted (s : State) (v : View) : State :=
  { s with slotEnd := .commit, iss := { s.iss with pops := s.iss.pops ++ v.pops, sr := s.iss.sr || v.sr } }

/-- The state in which a committing slot has, besides, put results in flight: nothing but the flight record of the running
context changes. -/
def State.flying (s : State) (v : View) (f : List InFlight) : State :=
  { s.noted v with ctxs := mset s.ctxs (cid s.cur s.x) { s.me with flight := s.me.flight ++ f } }

/-- A result of a slot on its way to a register and the latch of the slot's unit: the register is none with N = 1, and a twin
raises no flag (R91, R96, R106, R189). -/
def resultOf (s : State) (v : View) (val : Vec) (mask : Pred) (flags : Flags) : InFlight :=
  { left := v.lat, lat := v.lat, dest := if v.n then .none else s.me.destOf v.dWrite, latch := latchOf v.cls v.g s.iss.unit,
    val := val, mask := mask, flags := if v.g then 0 else flags }

/-- A scalar result, which raises no flag. -/
def scalarOf (s : State) (v : View) (w : Word) : InFlight := resultOf s v (wide w) (BitVec.allOnes 128) 0

end Sys2Proof.Machine
end

