-- ==== Sys2Proof/Certificates/Slice0/Obligations.lean ====
section
/-! DEFINITION. The statements for the provers, and the plain words they are written with. -/

namespace Sys2Proof.Spec

open Sys2Proof.Machine

/-! ## Words of the statements -/

/-- The scalar value of a source (R165). -/
def srcS (s : State) (a : Src) : Word := lo64 (s.operand (sSrc a))

/-- The vector value of a source (R189). -/
def srcV (s : State) (a : Src) : Vec := s.operand (vSrc a)

/-- A clear slot answers the given state. -/
def Gives (i : Instr) (s t : State) : Prop := s.Clear (viewOf i) → exec i s = .next t

/-- A clear slot puts one result in flight and changes nothing else. -/
def Flies (i : Instr) (s : State) (r : InFlight) : Prop := Gives i s (s.flying (viewOf i) [r])

/-- The latch of a class-A slot: `l0` or `l1` in slot order, `l1` for a twin (R91, R106). -/
def aluLatch (s : State) (g : Bool) : Nat := if g then 1 else s.iss.unit % 2

/-- The latch of a class-V slot: `l2` or `l3` in slot order, `l3` for a twin (R91, R106). -/
def vecLatch (s : State) (g : Bool) : Nat := if g then 3 else 2 + s.iss.unit % 2

/-- A scalar result on its way to `d`, unless N = 1, and to a latch, after `lat` cycles (R96, R165). It raises no flag. -/
def scalarResult (latch : Option Nat) (n : Bool) (d : Nat) (lat : Nat) (w : Word) : InFlight :=
  { left := lat, lat := lat, dest := if n then .none else .s d, latch := latch, val := wide w, mask := BitVec.allOnes 128,
    flags := 0 }

/-- A register-register operation of class A (R166). -/
def Alu (i : SRR → Instr) (o : SRR) (s : State) (w : Word) : Prop :=
  Flies (i o) s (scalarResult (some (aluLatch s o.g)) o.n o.d.toNat 1 w)

/-- A register-register operation of class M (R166, R167). -/
def Mul (i : SRR → Instr) (o : SRR) (s : State) (lat : Nat) (w : Word) : Prop :=
  Flies (i o) s (scalarResult (some (if o.g then 8 else 4)) o.n o.d.toNat lat w)

/-- A result of a vector slot: the elements of `w` bits of its active lanes are those of `f`, the others are 0 (R90, R189). -/
def Carries (s : State) (w : Nat) (r : InFlight) (f : Nat → Nat) : Prop :=
  r.mask = s.me.ap ∧ ∀ e < 4096 / w, elem w r.val e = if s.me.ap.getLsbD (w * e / 32) then f e % 2 ^ w else 0

/-- Where a vector result goes: its register, as the loop renames it, unless N = 1, and its latch, after `lat` cycles (R96,
R101). -/
def Bound (s : State) (r : InFlight) (n : Bool) (d : Nat) (latch lat : Nat) : Prop :=
  r.dest = (if n then .none else .v (s.me.vname d)) ∧ r.latch = some latch ∧ r.lat = lat ∧ r.left = lat

/-- An integer operation of class V on the elements of A, B and D (R189). -/
def VecInt (i : VRR → Instr) (o : VRR) (s : State) (f : Nat → Nat → Nat → Nat) : Prop :=
  s.Clear (viewOf (i o)) → ∃ r, exec (i o) s = .next (s.flying (viewOf (i o)) [r]) ∧ r.flags = 0 ∧
    Bound s r o.n o.d.toNat (vecLatch s o.g) 2 ∧
    Carries s s.me.iw r (fun e => f (elem s.me.iw (srcV s o.a) e) (elem s.me.iw (srcV s o.b) e)
      (elem s.me.iw (s.readV s.cur s.x (s.me.vname o.d.toNat)) e))

/-- An integer operation of class V on the elements of A (R189). -/
def VecUnary (i : VU → Instr) (o : VU) (s : State) (lat latch : Nat) (f : Nat → Nat) : Prop :=
  s.Clear (viewOf (i o)) → ∃ r, exec (i o) s = .next (s.flying (viewOf (i o)) [r]) ∧ r.flags = 0 ∧
    Bound s r o.n o.d.toNat latch lat ∧ Carries s s.me.iw r (fun e => f (elem s.me.iw (srcV s o.a) e))

/-- The flags of the active elements (R189): a twin raises none. -/
def flagsOf (s : State) (g : Bool) (w : Nat) (f : Nat → Flags) : Flags :=
  if g then 0 else orFlags ((List.range (4096 / w)).map (fun e => if s.me.ap.getLsbD (w * e / 32) then f e else 0))

/-- A float operation on elements of `w` bits (R189, R194). -/
def VecFloat (i : Instr) (s : State) (g n : Bool) (d latch lat w : Nat) (f : Nat → Nat × Flags) : Prop :=
  s.Clear (viewOf i) → ∃ r, exec i s = .next (s.flying (viewOf i) [r]) ∧ r.flags = flagsOf s g w (fun e => (f e).2) ∧
    Bound s r n d latch lat ∧ Carries s w r (fun e => (f e).1)

/-- The number an element stands for: signed, or unsigned with US = 1 (R89). -/
def num (s : State) (a : Nat) : Int := if s.me.us then a else (BitVec.ofNat s.me.iw a).toInt

/-- A number modulo 2^w. -/
def modW (s : State) (i : Int) : Nat := (i % 2 ^ s.me.iw).toNat

/-- The format and the element width that VMODE.FF selects (R89). -/
def ffBits (s : State) : Nat := floatWidth s.me.ff

/-- Element `e` of a vector source in the float width. -/
def felem (s : State) (a : Src) (e : Nat) : Nat := elem (ffBits s) (srcV s a) e

/-- A slot of the permute unit: one result of 32-bit lanes, each active lane `f` of it, for D and `l7` (R206). -/
def Moves (i : Instr) (s : State) (n : Bool) (d lat w : Nat) (f : Nat → Nat) : Prop :=
  s.Clear (viewOf i) → ∃ r, exec i s = .next (s.flying (viewOf i) [r]) ∧ r.flags = 0 ∧ Bound s r n d 7 lat ∧ Carries s w r f

/-- A slot of the permute unit that writes every lane, whatever the active predicate. -/
def MovesAll (i : Instr) (s : State) (n : Bool) (d lat w : Nat) (f : Nat → Nat) : Prop :=
  s.Clear (viewOf i) → ∃ r, exec i s = .next (s.flying (viewOf i) [r]) ∧ r.flags = 0 ∧ Bound s r n d 7 lat ∧
    r.mask = BitVec.allOnes 128 ∧ ∀ e < 4096 / w, elem w r.val e = f e % 2 ^ w

/-- A predicate operation: its 128 bits go to the predicate, unless N = 1, and as lanes to `l7` (R212). -/
def PredOp (i : Instr) (s : State) (n : Bool) (d : Nat) (q : Pred) : Prop :=
  s.Clear (viewOf i) → ∃ r, exec i s = .next (s.flying (viewOf i) [r]) ∧ r.flags = 0 ∧
    r.dest = (if n then .none else .p d) ∧ r.latch = some 7 ∧ r.lat = 1 ∧ r.left = 1 ∧ r.mask = BitVec.allOnes 128 ∧
    ∀ j < 128, elem 32 r.val j = if q.getLsbD j then 2 ^ 32 - 1 else 0

/-- A state in which a jump is taken at the end of the bundle (R176). -/
def jumping (s : State) (target : Word) : State := { s with iss := { s.iss with target := some target } }

/-- The address of the bundle after the one being issued (R174). -/
def nextBundle (s : State) : Word := .ofNat 64 (s.iss.pc.toNat + s.iss.len)

/-- What a latch holds (R91). -/
def latchValue (s : State) (l : Nat) : Vec := mget 0 s.me.latches l

/-- The partner of a guarded latch: `l1`, `l3`, `l4.tw` or `l6.tw`, with the codes of R145. -/
def twinLatch (l : Nat) : Nat := match l with
  | 0 => 1
  | 2 => 3
  | 4 => 8
  | _ => 9

/-- A slot whose bundle is making the checks, and which passes those of R109 that it makes by itself (R87, R109). -/
def Passes (i : Instr) (s : State) : Prop := s.iss.checked = false ∧ s.slotCheck (viewOf i) = .commit

/-- A state in which the sequencer of a core has taken the head entry of a context's crossbar queue (R242). -/
def xbarTaken (s : State) (core x : Nat) (rest : List UnitEntry) : State :=
  (s.updCtx core x (fun c => { c with xq := rest })).updCore core (fun c => { c with xbarLast := x, xbarAt := some s.cycle })

/-- A slot stops its bundle with a cause: the state is that of the trap, whatever the handler's address holds. -/
def stopsWith (i : Instr) (s : State) (cause : Byte) : Prop :=
  ∃ rank info extra src, exec i s = .next (s.stop (.trap rank cause info extra src))

/-- A slot blocks its bundle. -/
def waitsFor (i : Instr) (s : State) (w : Wait) : Prop := exec i s = .next (s.stop (.block w))

/-- A committing slot that takes an entry of the operand log, which a load, an atomic or a synchronising write blocks on after
its bundle; nothing else changes (R147). -/
def logging (s : State) (v : View) (e : LogEntry) : State :=
  { s.noted v with
    ctxs := mset s.ctxs (cid s.cur s.x) { s.me with log := s.me.log ++ [{ e with num := s.me.logNext }], logNext := s.me.logNext + 1 }
    iss := { (s.noted v).iss with loads := s.iss.loads || e.blocking } }

/-- An entry of the operand log, before it has its number. -/
def entry (s : State) (op : LogOp) (a : Word) (blocking : Bool) : LogEntry :=
  { num := 0, op := op, addr := a, data := 0, offs := 0, cmp := 0, mask := 0, d := .none, blocking := blocking, cause := 0,
    word := s.iss.words.getD s.iss.slot 0 }

/-- A clear slot whose log has room takes an entry. -/
def Logs (i : Instr) (s : State) (e : LogEntry) : Prop :=
  s.me.log.length < 16 → Gives i s (logging s (viewOf i) e)

/-- The entry of a scalar atomic: the operation is A[2:0], the operand is B and the compare value is D (R143). -/
def amoEntry (s : State) (o : SR3) (a : Word) : LogEntry :=
  { entry s (.amo ((srcS s o.a).setWidth 3)) a true with
    data := s.operand (sSrc o.b), cmp := s.me.readS o.d.toNat, d := if o.n then .none else .s o.d.toNat }

/-- The entry of a `bxpect` (R153). -/
def expectEntry (s : State) (o : PRR) : LogEntry :=
  { entry s .bxpect (srcS s o.a) true with
    data := wide (srcS s o.b), cmp := s.me.readS (o.d.toNat % 32) }

/-- `n` bytes at a generic address lie in the task's allocation, at local address `l`, and neither an engine's hold of their banks nor
a push of the context that is still to write one of them holds the access back (R57, R61, R68, R137). -/
def localAt (s : State) (a : Word) (n l : Nat) : Prop :=
  inAperture a = true ∧ l = a.toNat % 2 ^ 32 ∧ s.localFault s.cur s.x l n = none ∧ s.heldBack l n = false

/-- `n` bytes at a global address keep R20. -/
def globalAt (a : Word) (n : Nat) : Prop := canonical a = true ∧ canonical (a + .ofNat 64 (n - 1)) = true

/-- The address of an I form: A plus the immediate times the size (R139, R140). -/
def ea (s : State) (a : Src) (imm : BitVec 7) (n : Nat) : Word := .ofInt 64 ((srcS s a).toNat + n * imm.toInt)

/-- Where byte `i` of a local vector access at `l` lies: byte `i` mod 64 of the same row of eight consecutive banks, or byte `i` of a
register window (R140). -/
def vecByte (l i : Nat) : Nat := if 5 ≤ windowOf l ∧ windowOf l < 9 then l + i else l + 0x1_0000 * (i / 64) + i % 64

/-- A register a load writes, unless N = 1. -/
def regD (n : Bool) (d : Nat) : Dest := if n then .none else .s d

/-- A vector register a load writes, unless N = 1. -/
def vecD (s : State) (n : Bool) (d : Nat) : Dest := if n then .none else .v (s.me.vname d)

/-- The bytes of a local load on their way to D and `l5`: 5 cycles from the own window, 11 from another (R57, R96). -/
def loaded (l : Nat) (d : Dest) (val : Vec) (mask : Pred) : InFlight :=
  { left := if windowOf l = 0 then 5 else 11, lat := if windowOf l = 0 then 5 else 11, dest := d, latch := some 5, val := val,
    mask := mask, flags := 0 }

/-- The little-endian value of eight bytes (R3). -/
def le64 (b : List Byte) : Word := .ofNat 64 (natOfBytes b)

/-- A sync object of the task's own scratchpad: `n` bytes, aligned, at local address `l`, in a row that is poisoned or not (R59,
R62, R70). -/
def localObj (s : State) (a : Word) (n l : Nat) (bad : Bool) : Prop :=
  a.toNat % n = 0 ∧ windowOf l = 0 ∧ localAt s a n l ∧ (s.localBytes s.cur s.x l n).2 = bad

/-- A committing slot that took poisoned bytes and does nothing else: 0x47 follows its bundle (R32). -/
def consuming (s : State) (v : View) : State :=
  { s.noted v with iss := { (s.noted v).iss with poisoned := true } }

/-- A sync object in global memory. -/
def globalObj (a : Word) (n : Nat) : Prop := a.toNat % n = 0 ∧ inAperture a = false ∧ globalAt a n

/-- The barrier object at a local address of the running task (R62). -/
def barAt (s : State) (l : Nat) : BarObj := .ofNat 128 (natOfBytes (s.localBytes s.cur s.x l 16).1)

/-- `n` readable bytes at a local operand of the own window, which nothing holds back (R57, R61, R68, R137). -/
def ownAt (s : State) (a : Word) (n l : Nat) : Prop :=
  localOf a = some l ∧ windowOf l = 0 ∧ s.localFault s.cur s.x l n = none ∧ s.heldBack l n = false ∧
    (s.localBytes s.cur s.x l n).2 = false

/-- Queue `q` of the running task's ferry queues, or of its Sound-engine queues, has room (R44, R284). -/
def room (s : State) (sound : Bool) (q : Nat) : Prop := (s.me.anyQ sound q).entries.length < 16

/-- A tile instruction that passes the checks of its operands joins the matrix queue, which has room: the steps it will take are
counted, a `zst.r` sets the count back and is a save point of an awaited victim, and nothing else changes (R216, R225, R332). -/
def JoinsMatrix (i : Instr) (s : State) (a b : Word) (table : List Word) (retires : Bool) (stall : Nat) : Prop :=
  s.matrixBad s.cur s.x i a b table true = none → s.me.mq.length < 8 → Gives i s
    (((s.noted (viewOf i)).updIss (fun j => { j with stall := j.stall + stall })).upd (fun c => { c with
      mq := c.mq ++ [s.matrixEntry s.cur s.x (s.wordFor i) i a b table false]
      stepCount := if retires then 0 else c.stepCount + (s.matrixEntry s.cur s.x (s.wordFor i) i a b table false).steps
      save := match c.save with
        | .awaited t => if retires then .stopped s.saveReason else .awaited t
        | q => q }))

/-- An array instruction that passes the checks of its operands joins the crossbar queue, which has room (R242). -/
def JoinsCrossbar (i : Instr) (s : State) (a b : Word) : Prop :=
  s.xbarBad s.cur s.x i a b = none → s.me.xq.length < 8 → Gives i s
    ((s.noted (viewOf i)).upd (fun c => { c with xq := c.xq ++ [s.xbarEntry i a b] }))

/-- A KV instruction with its operands and D (R262, R379): it blocks until the KV unit has its outcome, one that is held for another
bundle among them, and takes the outcome when its bundle issues again. A value is on its way to D; a cause stops the bundle with the
EINFO that is held; 0x47 leaves D and follows the bundle (assumption 55). -/
def SendsKv (i : Instr) (d : Option Nat) (s : State) (a b : Word) : Prop :=
  (let t := (s.noted (viewOf i)).upd (fun c => { c with kv := .none })
   (Passes i s → (∀ v, s.me.kv ≠ .value s.me.pc v) → (∀ c info, s.me.kv ≠ .cause s.me.pc c info) → s.kvEnd i b = .commit →
     waitsFor i s (.kv i a b)) ∧
   (∀ v : Word, s.me.kv = .value s.me.pc v → Gives i s
     (match d with
      | none => t
      | some r => t.deliverAs (.s r) none 1 (wide v) (BitVec.allOnes 128) 0)) ∧
   (∀ c info, s.me.kv = .cause s.me.pc c info → c ≠ 0x47 → Passes i s →
     exec i s = .next (s.stop (.trap 13 c (some info) 0 0))) ∧
   (∀ info, s.me.kv = .cause s.me.pc 0x47 info → Gives i s (t.updIss (fun j => { j with poisoned := true }))))

/-- The head of an operand log that may be performed: it is not faulted, no earlier push of its context is still to write one of its
sectors, and its core has no watchpoint (R68, R148, R367). -/
def HeadReady (core x : Nat) (s : State) (e : LogEntry) (rest : List LogEntry) : Prop :=
  (s.ctx core x).log = e :: rest ∧ e.cause = 0 ∧ s.behindPush core x e = false ∧ (s.core core).watch = []

/-- Whether `len` bytes from a virtual address overlap the range that TLBSDVA and TLBSDNP name (R28). -/
def inShootdown (s : State) (va len : Nat) : Bool :=
  decide (s.regs.sdva.toNat / 4096 * 4096 % 2 ^ 57 < va + len) &&
    decide (va < s.regs.sdva.toNat / 4096 * 4096 % 2 ^ 57 + 4096 * s.regs.sdnp.toNat)

/-- Every translation, instruction byte and walker entry that a shootdown of an address space, or of all, covers is gone, and no other
(R29). -/
def Dropped (s t : State) (asn : Nat) (all : Bool) : Prop :=
  (∀ core, (t.core core).tlb = (s.core core).tlb.filter (fun e =>
      !((all || e.gl || e.asn == asn) && inShootdown s e.va (2 ^ (12 + e.k)))) ∧
    (t.core core).icache = (s.core core).icache.filter (fun f => !((all || f.gl || f.asn == asn) && inShootdown s f.va 16))) ∧
  ∀ n, (t.island n).walks = (s.island n).walks.filter (fun c =>
    !((all || c.asn == asn) && inShootdown s c.va (2 ^ (12 + 9 * c.level))))

/-- An operation of the KV unit answers a value with a new state. -/
def Gets {α : Type} (m : KvM α) (s : State) (v : α) (t : State) : Prop := m s = .ok (v, t)

/-- An operation of the KV unit raises a cause, with EINFO, and changes nothing. -/
def Refuses {α : Type} (m : KvM α) (s : State) (c : Byte) (info : Nat) : Prop := m s = .error (c, .ofNat 64 info)

/-- A sequence descriptor of 64 bytes that a KV instruction other than `kvnew` takes, and its pool (R264). -/
def Sequence (e : KvEnv) (a : Word) (s : State) (d : SeqD) (p : PoolD) (u : State) : Prop := Gets (readSeq e a) s (d, p) u

/-- The token that `kvapp` appends in a slot of a page: both halves are written to its frame, the page's entry takes the slot and
the exponents, and the descriptor counts one token more, and a page with the first slot of one (R266). -/
def appendAt (e : KvEnv) (a : Word) (d : SeqD) (p : PoolD) (slot g : Nat) (c : CptE) (xs : List Lane) : KvM Word := do
  let k ← kvWriteHalf e (p.frame + .ofNat 64 (4096 * c.frame)) slot c.ek (xs.take 128)
  let v ← kvWriteHalf e (p.frame + .ofNat 64 (4096 * c.frame) + 0x800) slot c.ev (xs.drop 128)
  writeCpt e p g { c with fill := slot + 1, ek := k.1, ev := v.1, rescales := min (c.rescales + k.2.toNat + v.2.toNat) 65535 }
  kvWrite e a { d with length := (d.length + 1) % 2 ^ 32, npg := if slot = 0 then d.npg + 1 else d.npg }.bytes
  pure (.ofNat 64 d.length)

/-- The descriptor that `kvtrunc` leaves: its length and its pages, and, where a published page is cut, BROKEN and the pages that stay
chained (R269). -/
def shortened (e : KvEnv) (a : Word) (d : SeqD) (len pages : Nat) : KvM Word := do
  let flags := if len / 16 < d.chained then d.withChained true (len / 16) else d.sflags
  kvWrite e a { d with length := len, npg := pages, sflags := flags }.bytes
  pure 0

/-- The bits of a source that a tile, array or KV instruction reads: a stream is not read at issue (R221, R245, R262). -/
def unitWord (s : State) (a : Src) : Word := if streamed a then 0 else srcS s a

/-- The turn of a core reaches the issue of a bundle: nothing else is to happen first, no breakpoint stands at the pc of its running context, and
fetching there gives these words (R84, R86, R97, R102, R367). -/
def Fetches (s u : State) (words : List (BitVec 32)) : Prop :=
  s.evTurn = false ∧ (s.core s.cur).stall = 0 ∧ (s.core s.cur).idle = false ∧ s.me.task.isSome = true ∧ s.me.blocked = .no ∧
    s.me.save.halted = false ∧ (∀ f ∈ s.me.flight, f.left ≠ 0) ∧ (s.me.pending = [] ∨ s.me.hnd = true) ∧
    s.atBreakpoint s.me.pc = false ∧
    ({ s with iss := Issue.start s.me.pc [] 0 } : State).fetchBundle s.me.pc = (.ok words, u)

/-- The slots of a bundle that holds one instruction and then three `nop`s. -/
def soleSlots (i : Instr) : List Slot :=
  assignUnits [(0, some i), (1, some .nop), (2, some .nop), (3, some .nop)] [] none false

/-! ## Rounding and formats -/

/-- The five floating-point formats (R117). -/
def formats : List Fmt := [fp32, bf16, fp16, fpE4m3, fpE5m2]

/-- `n` is the magnitude `m / d` rounded to an integer in a mode, under the sign of its number (R124, R127). -/
def Nearest (mode : Mode) (neg : Bool) (m d n : Nat) : Prop :=
  let down := n * d ≤ m ∧ m < n * d + d
  let up := m ≤ n * d ∧ n * d < m + d
  match mode with
  | .rne => 2 * (n * d) ≤ 2 * m + d ∧ 2 * m ≤ 2 * (n * d) + d ∧
      (2 * (n * d) = 2 * m + d ∨ 2 * m = 2 * (n * d) + d → n % 2 = 0)
  | .rtz => down
  | .rdn => if neg then up else down
  | .rup => if neg then down else up
  | .rna => 2 * (n * d) ≤ 2 * m + d ∧ 2 * m < 2 * (n * d) + d
  | .sr r => n = m / d + if m % d ≠ 0 ∧ 65536 ≤ m % d * 65536 / d + r then 1 else 0

/-- `m × 2^e` rounded to a multiple of `2^q` is `n × 2^q` (R124). -/
def RoundsTo (mode : Mode) (neg : Bool) (m : Nat) (e q : Int) (n : Nat) : Prop :=
  (q ≤ e → n = m * 2 ^ (e - q).toNat) ∧ (e < q → Nearest mode neg m (2 ^ (q - e).toNat) n)

/-- `m × 2^e` is no multiple of `2^q`. -/
def Between (m : Nat) (e q : Int) : Prop := e < q ∧ m % 2 ^ (q - e).toNat ≠ 0

/-- `m × 2^e` exceeds `n × 2^k`. -/
def Exceeds (m : Nat) (e : Int) (n : Nat) (k : Int) : Prop := n * 2 ^ (k - min e k).toNat < m * 2 ^ (e - min e k).toNat

/-- The largest finite magnitude of a format, in units of its smallest subnormal (R117). -/
def largest (f : Fmt) : Nat := if f.e4m3 then 14 * 2 ^ 14 else (2 ^ (f.fb + 1) - 1) * 2 ^ (2 ^ f.eb - 3)

/-- The magnitude that an overflow gives (R125). -/
def overflowed (f : Fmt) (mode : Mode) (neg : Bool) : Nat :=
  let inf := (2 ^ f.eb - 1) * 2 ^ f.fb
  if f.e4m3 then 126 else match mode with
    | .rtz => inf - 1
    | .rdn => if neg then inf else inf - 1
    | .rup => if neg then inf - 1 else inf
    | _ => inf

/-- R117, R118: the value that the fields of an encoding stand for, and the NaN that a unit produces. -/
def ReadsFields (f : Fmt) : Prop :=
  (∀ (s : Bool) (x fr : Nat), x < 2 ^ f.eb → fr < 2 ^ f.fb →
    f.unpack (s.toNat * 2 ^ (f.eb + f.fb) + x * 2 ^ f.fb + fr) =
      if f.e4m3 = false ∧ x = 2 ^ f.eb - 1 then (if fr = 0 then .inf s else .nan (decide (fr < 2 ^ (f.fb - 1))))
      else if f.e4m3 = true ∧ x = 15 ∧ fr = 7 then .nan false
      else if x = 0 then .fin s fr (1 - (2 ^ (f.eb - 1) - 1) - f.fb)
      else .fin s (2 ^ f.fb + fr) (x - (2 ^ (f.eb - 1) - 1) - f.fb)) ∧
  f.unpack f.nan = .nan false ∧ f.nan < 2 ^ (f.eb + f.fb) ∧
  ∀ s : Bool, f.sign s = s.toNat * 2 ^ (f.eb + f.fb) ∧ (f.e4m3 = false → f.unpack (f.infinity s) = .inf s) ∧
    (f.e4m3 = true → f.infinity s = f.sign s + 126)

/-- R124, R125, R127: a nonzero value `(-1)^neg × m × 2^e` rounded once to a format, with its flags. `n` is the value on the format's
grid, and `nu` the one that an unbounded exponent range gives. -/
def RoundsOnce (f : Fmt) : Prop :=
  ∀ (mode : Mode) (neg : Bool) (m n nu : Nat) (e qu q low : Int) (r : Nat × Flags), m ≠ 0 → r = f.rnd mode neg m e →
    qu = m.log2 + e - f.fb → low = 1 - (2 ^ (f.eb - 1) - 1) - f.fb → q = max qu low →
    RoundsTo mode neg m e q n → RoundsTo mode neg m e qu nu →
    (let tooBig : Prop := match mode with
      | .sr _ => Exceeds m e (largest f) low
      | _ => Exceeds nu qu (largest f) low
     (tooBig → r = (f.sign neg + overflowed f mode neg, fOF ||| fNX)) ∧
     (¬tooBig → r.1 < 2 ^ f.width ∧
       (∃ n' e', f.unpack r.1 = .fin neg n' e' ∧ low ≤ e' ∧ n' * 2 ^ (e' - low).toNat = n * 2 ^ (q - low).toNat) ∧
       (¬Between m e q → r.2 = 0) ∧
       (Between m e q → Exceeds (2 ^ f.fb) low nu qu → r.2 = fUF ||| fNX) ∧
       (Between m e q → ¬Exceeds (2 ^ f.fb) low nu qu → r.2 = fNX)))

/-- A finite value in units of `2^k`. -/
def inUnits (neg : Bool) (m : Nat) (e k : Int) : Int := (if neg then -1 else 1) * (m * 2 ^ (e - k).toNat : Nat)

/-- A sum rounded once: one that is zero has the sign of two equal zeros, and else is negative under RDN alone (R194). -/
def roundedSum (f : Fmt) (mode : Mode) (v k : Int) (same : Option Bool) : Nat × Flags :=
  if v = 0 then (f.sign (same.getD (decide (mode = .rdn))), 0) else f.rnd mode (decide (v < 0)) v.natAbs k

/-- R118, R125, R194: the exact sum, difference, product or fused sum of finite operands is rounded once; a NaN operand gives the
NaN of the format, with NV where one is signalling; operations on infinities. -/
def Arithmetic (f : Fmt) (mode : Mode) (a b d : Nat) : Prop :=
  let bad : Nat × Flags := (f.nan, fNV)
  (∀ n1 m1 e1 n2 m2 e2 k x y, f.unpack a = .fin n1 m1 e1 → f.unpack b = .fin n2 m2 e2 → k = min e1 e2 →
    x = inUnits n1 m1 e1 k → y = inUnits n2 m2 e2 k →
    f.add mode a b = roundedSum f mode (x + y) k (if m1 = 0 ∧ m2 = 0 ∧ n1 = n2 then some n1 else none) ∧
    f.sub mode a b = roundedSum f mode (x - y) k (if m1 = 0 ∧ m2 = 0 ∧ n1 ≠ n2 then some n1 else none) ∧
    f.mul mode a b = f.rnd mode (n1 != n2) (m1 * m2) (e1 + e2) ∧
    ∀ n3 m3 e3 j v w, f.unpack d = .fin n3 m3 e3 → j = min (e1 + e2) e3 → v = inUnits (n1 != n2) (m1 * m2) (e1 + e2) j →
      w = inUnits n3 m3 e3 j → f.fma mode a b d =
        roundedSum f mode (v + w) j (if m1 * m2 = 0 ∧ m3 = 0 ∧ (n1 != n2) = n3 then some n3 else none)) ∧
  (∀ s : Bool, (∃ u, f.unpack a = .nan u ∨ f.unpack b = .nan u) →
    (s = true ↔ f.unpack a = .nan true ∨ f.unpack b = .nan true) →
    f.add mode a b = (f.nan, if s then fNV else 0) ∧ f.sub mode a b = (f.nan, if s then fNV else 0) ∧
    f.mul mode a b = (f.nan, if s then fNV else 0) ∧
    ∀ n m e, f.unpack d = .fin n m e → f.fma mode a b d = (f.nan, if s then fNV else 0)) ∧
  (∀ s n m e, f.unpack a = .inf s → f.unpack b = .fin n m e →
    f.add mode a b = (f.infinity s, 0) ∧ f.add mode b a = (f.infinity s, 0) ∧ f.sub mode a b = (f.infinity s, 0) ∧
    f.sub mode b a = (f.infinity (!s), 0) ∧
    (m = 0 → f.mul mode a b = bad ∧ f.mul mode b a = bad ∧ f.fma mode a b d = bad ∧ f.fma mode b a d = bad) ∧
    (m ≠ 0 → f.mul mode a b = (f.infinity (s != n), 0) ∧ f.mul mode b a = (f.infinity (s != n), 0))) ∧
  (∀ s t, f.unpack a = .inf s → f.unpack b = .inf t → f.mul mode a b = (f.infinity (s != t), 0) ∧
    (s = t → f.add mode a b = (f.infinity s, 0) ∧ f.sub mode a b = bad) ∧
    (s ≠ t → f.add mode a b = bad ∧ f.sub mode a b = (f.infinity s, 0)))

/-- One value is less than another; −0 and +0 are equal. -/
def Less (x y : Machine.Num) : Prop :=
  match x, y with
  | .inf a, .inf b => a = true ∧ b = false
  | .inf a, .fin _ _ _ => a = true
  | .fin _ _ _, .inf b => b = false
  | .fin a m e, .fin b n k => inUnits a m e (min e k) < inUnits b n k (min e k)
  | _, _ => False

/-- Whether an encoding stands for a NaN. -/
def IsNan (f : Fmt) (a : Nat) : Prop := ∃ s, f.unpack a = .nan s

/-- R195, R196 and R197: minimum and maximum, with −0 below +0 and a NaN only where both operands are; the conditions of a compare; and
the ten classes. -/
def Compares (f : Fmt) (a b : Nat) : Prop :=
  let x := f.unpack a
  let y := f.unpack b
  let flag : Flags := if x = .nan true ∨ y = .nan true then fNV else 0
  (¬IsNan f a → ¬IsNan f b →
    (Less x y → f.pick false a b = (a, 0) ∧ f.pick true a b = (b, 0)) ∧
    (Less y x → f.pick false a b = (b, 0) ∧ f.pick true a b = (a, 0)) ∧
    (∀ e k, x = .fin true 0 e → y = .fin false 0 k → f.pick false a b = (a, 0) ∧ f.pick true a b = (b, 0) ∧
      f.pick false b a = (a, 0) ∧ f.pick true b a = (b, 0)) ∧
    (∀ c < 7, (f.test c a b).2 = 0 ∧ ((f.test c a b).1 = true ↔ match c with
      | 0 => ¬Less x y ∧ ¬Less y x
      | 1 => Less x y ∨ Less y x
      | 2 => Less x y
      | 3 => ¬Less y x
      | 4 => Less y x
      | 5 => ¬Less x y
      | _ => False))) ∧
  (IsNan f a → IsNan f b → ∀ g, f.pick g a b = (f.nan, flag)) ∧
  (IsNan f a → ¬IsNan f b → ∀ g, f.pick g a b = (b, flag)) ∧
  (¬IsNan f a → IsNan f b → ∀ g, f.pick g a b = (a, flag)) ∧
  (IsNan f a ∨ IsNan f b → ∀ c < 7, ((f.test c a b).1 = true ↔ c = 1 ∨ c = 6) ∧
    (f.test c a b).2 = if 2 ≤ c ∧ c ≤ 5 then fNV else flag) ∧
  f.classMask a = match x with
    | .inf s => if s then 1 else 128
    | .nan s => if s then 256 else 512
    | .fin s m _ => if m = 0 then (if s then 8 else 16) else if m < 2 ^ f.fb then (if s then 4 else 32) else if s then 2 else 64

/-- R125, R126 and R202: a value converted to a float format or to an integer of a range. -/
def Converts (f : Fmt) (mode : Mode) : Prop :=
  (∀ s, f.convert mode (.nan s) = (f.nan, if s then fNV else 0) ∧ f.convert mode (.inf s) = (f.infinity s, if f.e4m3 then fNV else 0)) ∧
  (∀ neg m e, f.convert mode (.fin neg m e) = f.rnd mode neg m e) ∧ (∀ neg e, f.rnd mode neg 0 e = (f.sign neg, 0)) ∧
  (∀ i : Int, f.ofInt mode i = f.rnd mode (decide (i < 0)) i.natAbs 0) ∧
  ∀ lo hi : Int, (∀ s, toRange lo hi mode (.nan s) = (0, fNV)) ∧ toRange lo hi mode (.inf true) = (lo, fNV) ∧
    toRange lo hi mode (.inf false) = (hi, fNV) ∧
    ∀ neg m e n (i : Int), RoundsTo mode neg m e 0 n → i = inUnits neg n 0 0 →
      (i < lo → toRange lo hi mode (.fin neg m e) = (lo, fNV)) ∧ (lo ≤ i → hi < i → toRange lo hi mode (.fin neg m e) = (hi, fNV)) ∧
      (lo ≤ i → i ≤ hi → (toRange lo hi mode (.fin neg m e)).1 = i ∧
        (Between m e 0 → (toRange lo hi mode (.fin neg m e)).2 = fNX) ∧ (¬Between m e 0 → (toRange lo hi mode (.fin neg m e)).2 = 0))

/-- R129, R130, R198, R199: the special operands of the seven functions, the operands that have an exact or a fixed result, and the low
12 fraction bits of every finite normal result. -/
def SpecialFunctions : Prop :=
  (∀ fn < 7, (∀ v s, fp32.unpack v = .nan s → sfu fn v = (0x7FC0_0000, if s then fNV else 0)) ∧
    (∀ v x, x = (sfu fn v).1 / 2 ^ 23 % 256 → x ≠ 0 → x ≠ 255 → (sfu fn v).1 % 2 ^ 12 = 0)) ∧
  [0, 1, 2, 3, 4, 5, 6].map (fun fn => sfu fn 0) = [(0x7F80_0000, fDZ), (0x7F80_0000, fDZ), (0, 0), (0x3F80_0000, 0),
    (0xFF80_0000, fDZ), (0, 0), (0, 0)] ∧
  [0, 1, 2, 3, 4, 5, 6].map (fun fn => sfu fn 0x8000_0000) = [(0xFF80_0000, fDZ), (0xFF80_0000, fDZ), (0x8000_0000, 0),
    (0x3F80_0000, 0), (0xFF80_0000, fDZ), (0x8000_0000, 0), (0x8000_0000, 0)] ∧
  [0, 1, 2, 3, 4, 5, 6].map (fun fn => sfu fn 0x7F80_0000) = [(0, 0), (0, 0), (0x7F80_0000, 0), (0x7F80_0000, 0),
    (0x7F80_0000, 0), (0x3F80_0000, 0), (0x7F80_0000, 0)] ∧
  [0, 1, 2, 3, 4, 5, 6].map (fun fn => sfu fn 0xFF80_0000) = [(0x8000_0000, 0), (0x7FC0_0000, fNV), (0x7FC0_0000, fNV), (0, 0),
    (0x7FC0_0000, fNV), (0xBF80_0000, 0), (0x8000_0000, 0)] ∧
  ∀ v m e, m ≠ 0 →
    (fp32.unpack v = .fin true m e → (∀ fn ∈ [1, 2, 4], sfu fn v = (0x7FC0_0000, fNV)) ∧
      (Exceeds m e 126 0 → sfu 3 v = (0, fUF ||| fNX))) ∧
    (fp32.unpack v = .fin false m e → (¬Exceeds 128 0 m e → sfu 3 v = (0x7F80_0000, fOF ||| fNX)) ∧
      (m = 2 ^ m.log2 → sfu 4 v = fp32.rnd .rne (decide (m.log2 + e < 0)) (m.log2 + e).natAbs 0)) ∧
    (∀ s, fp32.unpack v = .fin s m e → Exceeds m e 1 126 → sfu 0 v = (fp32.sign s, fUF ||| fNX))

/-- The exponent of the leading one of the largest magnitude of a block. -/
def IsTop (xs : List Machine.Num) (t : Int) : Prop :=
  (∃ s m e, .fin s m e ∈ xs ∧ m ≠ 0 ∧ t = m.log2 + e) ∧ ∀ s m e, .fin s m e ∈ xs → m ≠ 0 → m.log2 + e ≤ t

/-- R119 to R123, R203: blocks quantised. One that holds a NaN or an infinity is a NaN block with NV, and one of zeros is all zeros. Any
other has the scale of its largest magnitude, and its elements are rounded at that scale, and saturated. -/
def Quantises : Prop :=
  (∀ code modes xs, (∃ x ∈ xs, ¬∃ s m e, x = .fin s m e) →
    quantMx code modes xs = (List.replicate 32 0 ++ [0xFF], fNV) ∧
    quantIb code modes xs = (0xFF :: List.replicate (ibBytes code - 1) 0, fNV)) ∧
  (∀ code modes xs, (∀ x ∈ xs, ∃ s e, x = .fin s 0 e) →
    quantMx code modes xs = (List.replicate 33 0, 0) ∧ quantIb code modes xs = (List.replicate (ibBytes code) 0, 0)) ∧
  (∀ (code sc : Nat) (modes : List Mode) (xs : List Machine.Num) (t c : Int), (∀ x ∈ xs, ∃ s m e, x = .fin s m e) → IsTop xs t →
    modes.length = 32 → xs.length = 32 → c = t + 127 - (if code = 7 then 8 else if code = 8 then 15 else 0) →
    sc = (max 0 (min 254 c)).toNat →
    ∃ els : List (Byte × Flags), els.length = 32 ∧ quantMx code modes xs = (els.map (·.1) ++ [.ofNat 8 sc], orFlags (els.map (·.2))) ∧
      ∀ i < 32, ∃ mode s m e y, modes[i]? = some mode ∧ xs[i]? = some (.fin s m e) ∧ els[i]? = some y ∧
        (code = 9 → ∀ n, RoundsTo mode s m (e + 133 - sc) 0 n → y.1.toInt = inUnits s (min n 127) 0 0 ∧
          (127 < n ∨ Between m (e + 133 - sc) 0 → y.2 = fNX) ∧ (n ≤ 127 → ¬Between m (e + 133 - sc) 0 → y.2 = 0)) ∧
        ∀ f, f = fpE4m3 ∧ code = 7 ∨ f = fpE5m2 ∧ code = 8 →
          (m = 0 → y = (0, 0)) ∧
          (∀ r, m ≠ 0 → r = f.rnd mode s m (e + 127 - sc) →
            (r.2 &&& fOF ≠ 0 → y = (.ofNat 8 (f.sign s + if code = 7 then 126 else 123), fNX)) ∧
            (r.2 &&& fOF = 0 → y = (.ofNat 8 r.1, if r.1 % 128 = 0 then r.2 &&& fNX else r.2)))) ∧
  (∀ (code b v : Nat) (modes : List Mode) (xs : List Machine.Num) (t ex : Int), (code = 10 ∧ b = 7 ∨ code = 11 ∧ b = 4 ∨ code = 12 ∧ b = 2) →
    (∀ x ∈ xs, ∃ s m e, x = .fin s m e) → IsTop xs t → modes.length = 16 → xs.length = 16 → ex = max 0 (t + 127) → ex < 255 →
    v = natOfBytes (quantIb code modes xs).1 →
    v % 256 = ex ∧
    (∀ p < 8, v.testBit (8 + p) = true ↔ ∀ k ∈ [2 * p, 2 * p + 1], ∀ s m e, xs[k]? = some (.fin s m e) → m = 0 ∨ m.log2 + e < ex - 127) ∧
    (∀ k < 16, ∃ mode s m e, modes[k]? = some mode ∧ xs[k]? = some (.fin s m e) ∧
      ∀ n sc, sc = e + b - 1 + 127 - ex + (v.testBit (8 + k / 2)).toNat → RoundsTo mode s m sc 0 n →
        bits v (16 + (b + 1) * k + b - 1) (16 + (b + 1) * k) = min n (2 ^ b - 1) ∧
        (v.testBit (16 + (b + 1) * k + b) = true ↔ s = true ∧ n ≠ 0) ∧
        (Between m sc 0 ∨ 2 ^ b ≤ n → (quantIb code modes xs).2 = fNX)) ∧
    ((quantIb code modes xs).2 = 0 ∨ (quantIb code modes xs).2 = fNX))

/-- R119 to R122, R204: the value of an element of a block, from its byte or its fields and the scale of the block. -/
def Decodes : Prop :=
  (∀ (h : Bool) (b : List Byte) (i : Nat) (p s : Byte), i < 16 → p = b.getD (16 * h.toNat + i) 0 → s = b.getD 32 0 →
    (s = 0xFF → ∀ code ∈ [7, 8, 9], blockElement code h b i = .nan false) ∧
    (s ≠ 0xFF → blockElement 9 h b i = .fin (decide (p.toInt < 0)) p.toInt.natAbs (s.toNat - 133) ∧
      ∀ f code, f = fpE4m3 ∧ code = 7 ∨ f = fpE5m2 ∧ code = 8 → blockElement code h b i = match f.unpack p.toNat with
        | .fin n m e => .fin n m (e + s.toNat - 127)
        | x => x)) ∧
  ∀ (code w v m : Nat) (b : List Byte) (k : Nat), code = 10 ∧ w = 7 ∨ code = 11 ∧ w = 4 ∨ code = 12 ∧ w = 2 → k < 16 →
    v = natOfBytes (b.take (ibBytes code)) → m = bits v (16 + (w + 1) * k + w - 1) (16 + (w + 1) * k) →
    (v % 256 = 255 → ibValue code b k = .nan false) ∧
    (v % 256 ≠ 255 → m = 0 → ibValue code b k = .fin false 0 0) ∧
    (v % 256 ≠ 255 → m ≠ 0 → ibValue code b k =
      .fin (v.testBit (16 + (w + 1) * k + w)) m (v % 256 - 127 - (v.testBit (8 + k / 2)).toNat - (w - 1)))

/-- The rounding mode of an element from lane `j` of A, or of D where `second` is set: RM, or the 16 bits of the lane in the random
word, whose bytes change places for D (R127). -/
def elementMode (s : State) (sr second : Bool) (j : Nat) : Mode :=
  let byte := fun k => bits (s.me.rand.words.headD 0).toNat (16 * j + 8 * k + 7) (16 * j + 8 * k)
  if sr then .sr (if second then 256 * byte 0 + byte 1 else 256 * byte 1 + byte 0) else modeOf s.me.rm

/-- The sixteen values of a cluster of lanes, an inactive lane being +0 (R203). -/
def clusterOf (s : State) (v : Vec) (c : Nat) : List Machine.Num :=
  (List.range 16).map (fun i => if s.me.ap.getLsbD (16 * c + i) then fp32.unpack (elem 32 v (16 * c + i)) else .fin false 0 0)

end Sys2Proof.Spec

open Sys2Proof Sys2Proof.Machine Sys2Proof.Spec

/-! ## Scalar instructions -/

/-- R166, R167 and R168: the register-register operations; `sel` reads D on port (PT+2) mod 4. -/
def Obligations.RegisterArithmetic : Prop :=
  ∀ (o : SRR) (s : State) (a b : Word), a = srcS s o.a → b = srcS s o.b →
    Alu .add o s (.ofNat 64 (a.toNat + b.toNat)) ∧ Alu .sub o s (.ofInt 64 (a.toInt - b.toInt)) ∧
    Alu .and o s (a &&& b) ∧ Alu .andn o s (a &&& ~~~b) ∧ Alu .or o s (a ||| b) ∧ Alu .xor o s (a ^^^ b) ∧
    Alu .sll o s (.ofNat 64 (a.toNat * 2 ^ (b.toNat % 64))) ∧ Alu .srl o s (.ofNat 64 (a.toNat / 2 ^ (b.toNat % 64))) ∧
    Alu .sra o s (.ofInt 64 (a.toInt / 2 ^ (b.toNat % 64))) ∧
    Alu .rol o s (a <<< (b.toNat % 64) ||| a >>> (64 - b.toNat % 64)) ∧
    Alu .ror o s (a >>> (b.toNat % 64) ||| a <<< (64 - b.toNat % 64)) ∧
    Alu .lea o s (0xFFFF_FFFF_0000_0000 ||| .ofNat 64 ((a.toNat + b.toNat) % 2 ^ 32)) ∧
    Alu .slt o s (if a.toInt < b.toInt then 1 else 0) ∧ Alu .sltu o s (if a.toNat < b.toNat then 1 else 0) ∧
    Alu .min o s (if a.toInt ≤ b.toInt then a else b) ∧ Alu .max o s (if a.toInt ≤ b.toInt then b else a) ∧
    Alu .minu o s (if a.toNat ≤ b.toNat then a else b) ∧ Alu .maxu o s (if a.toNat ≤ b.toNat then b else a) ∧
    Mul .mul o s 3 (.ofNat 64 (a.toNat * b.toNat)) ∧ Mul .mulh o s 3 (.ofInt 64 (a.toInt * b.toInt / 2 ^ 64)) ∧
    Mul .mulhu o s 3 (.ofNat 64 (a.toNat * b.toNat / 2 ^ 64)) ∧
    Mul .div o s 20 (if b = 0 then BitVec.allOnes 64 else .ofInt 64 (a.toInt.tdiv b.toInt)) ∧
    Mul .divu o s 20 (if b = 0 then BitVec.allOnes 64 else .ofNat 64 (a.toNat / b.toNat)) ∧
    Mul .rem o s 20 (if b = 0 then a else .ofInt 64 (a.toInt.tmod b.toInt)) ∧
    Mul .remu o s 20 (if b = 0 then a else .ofNat 64 (a.toNat % b.toNat)) ∧
    Alu .sel o s (if s.me.readS o.d.toNat ≠ 0 then a else b) ∧
    (viewOf (.sel o)).dRead = some (false, o.d.toNat) ∧ (viewOf (.sel o)).dPort = (o.p.toNat + 2) % 4

/-- R169, R170, R171 and R172: immediates, shifts, constants, unary forms and coordinates. -/
def Obligations.ImmediateAndUnary : Prop :=
  (∀ (o : SRI) (s : State) (a : Word), a = srcS s o.a →
    let r := fun w => scalarResult (some (aluLatch s o.g)) o.n o.d.toNat 1 w
    Flies (.addi o) s (r (.ofInt 64 (a.toInt + o.imm.toInt))) ∧ Flies (.andi o) s (r (a &&& .ofInt 64 o.imm.toInt)) ∧
    Flies (.ori o) s (r (a ||| .ofInt 64 o.imm.toInt)) ∧ Flies (.xori o) s (r (a ^^^ .ofInt 64 o.imm.toInt))) ∧
  (∀ (o : SSH) (s : State) (a : Word), a = srcS s o.a →
    let r := fun w => scalarResult (some (aluLatch s o.g)) o.n o.d.toNat 1 w
    Flies (.slli o) s (r (.ofNat 64 (a.toNat * 2 ^ o.sh.toNat))) ∧ Flies (.srli o) s (r (.ofNat 64 (a.toNat / 2 ^ o.sh.toNat))) ∧
    Flies (.srai o) s (r (.ofInt 64 (a.toInt / 2 ^ o.sh.toNat)))) ∧
  (∀ (o : SU) (s : State) (a : Word), a = srcS s o.a →
    let r := fun w => scalarResult (some (aluLatch s o.g)) o.n o.d.toNat 1 w
    (∃ n : Nat, n ≤ 64 ∧ (∀ j < n, a.getLsbD (63 - j) = false) ∧ (n < 64 → a.getLsbD (63 - n) = true) ∧
      Flies (.clz o) s (r (.ofNat 64 n))) ∧
    (∃ n : Nat, n ≤ 64 ∧ (∀ j < n, a.getLsbD j = false) ∧ (n < 64 → a.getLsbD n = true) ∧ Flies (.ctz o) s (r (.ofNat 64 n))) ∧
    Flies (.popc o) s (r (.ofNat 64 ((List.range 64).countP (fun j => a.getLsbD j)))) ∧
    ∀ w : BitVec 2, Flies (.sext o w) s (r ((a.setWidth (8 * 2 ^ w.toNat)).signExtend 64)) ∧
      Flies (.zext o w) s (r ((a.setWidth (8 * 2 ^ w.toNat)).setWidth 64))) ∧
  (∀ (g n : Bool) (d : BitVec 5) (k : BitVec 4) (p : BitVec 2) (s : State) (t : Task) (l : Launch),
    s.me.task = some t → s.launch t.launch = some l →
    Flies (.crd g d n k p) s (scalarResult (some (aluLatch s g)) n d.toNat 1 (.ofNat 64
      (match k.toNat with
        | 0 => t.crew
        | 1 => t.rank
        | 2 => t.ctxr
        | 3 => t.stage
        | 4 => t.line
        | 5 => l.crews
        | 6 => l.rcd.cpc
        | 7 => l.rcd.tpc
        | 8 => l.rcd.stages
        | 9 => t.task
        | 10 => s.cur
        | 11 => s.x
        | _ => l.rcd.heat)))) ∧
  (∀ (g : Bool) (d : BitVec 5) (imm : BitVec 17) (s : State),
    Flies (.li g d imm) s (scalarResult (some (aluLatch s g)) false d.toNat 1 (.ofInt 64 imm.toInt))) ∧
  (∀ (g : Bool) (d : BitVec 5) (imm : BitVec 16) (s : State),
    Flies (.lih g d imm) s (scalarResult (some (aluLatch s g)) false d.toNat 1
      (.ofNat 64 ((s.me.readS d.toNat).toNat * 65536 + imm.toNat))))

/-! ## Vector instructions -/

/-- R190 and R193: the integer operations on elements of 32, 16 or 8 bits, modulo 2^w. -/
def Obligations.VectorIntegers : Prop :=
  (∀ (o : VRR) (s : State),
    VecInt .vadd o s (fun a b _ => a + b) ∧ VecInt .vsub o s (fun a b _ => modW s (a - b)) ∧
    VecInt .vmul o s (fun a b _ => a * b) ∧ VecInt .vmulh o s (fun a b _ => modW s (num s a * num s b / 2 ^ s.me.iw)) ∧
    VecInt .vmad o s (fun a b d => a * b + d) ∧ VecInt .vand o s (fun a b _ => a &&& b) ∧
    VecInt .vor o s (fun a b _ => a ||| b) ∧ VecInt .vxor o s (fun a b _ => a ^^^ b) ∧
    VecInt .vshl o s (fun a b _ => a * 2 ^ (b % s.me.iw)) ∧ VecInt .vshr o s (fun a b _ => a / 2 ^ (b % s.me.iw)) ∧
    VecInt .vsra o s (fun a b _ => modW s (num s a / 2 ^ (b % s.me.iw))) ∧
    VecInt .vmin o s (fun a b _ => if num s a ≤ num s b then a else b) ∧
    VecInt .vmax o s (fun a b _ => if num s a ≤ num s b then b else a)) ∧
  (∀ (o : VU) (s : State) (w : Nat), w = s.me.iw →
    VecUnary .vabs o s 2 (vecLatch s o.g) (fun a => if num s a < 0 then min (num s a).natAbs (2 ^ (w - 1) - 1) else a) ∧
    VecUnary .vclz o s 2 (vecLatch s o.g) (fun a => w - (Nat.log2 (2 * a + 1))) ∧
    VecUnary .vpopc o s 2 (vecLatch s o.g) (fun a => (List.range w).countP (fun j => a.testBit j)) ∧
    ∀ (t : BitVec 2) (n : Nat), n = (if t = 0 then 8 else if t = 1 then 16 else 4) → n < w →
      VecUnary (fun o => .vsat o t) o s 2 (vecLatch s o.g) (fun a => modW s
        (if s.me.us then min (num s a) (2 ^ n - 1) else max (-2 ^ (n - 1)) (min (num s a) (2 ^ (n - 1) - 1)))))

/-- R191 and R196: a compare sends each element all ones or 0 to its latch and, unless N = 1, to its predicate. -/
def Obligations.VectorCompares : Prop :=
  ∀ (o : VCM) (s : State),
    (s.Clear (viewOf (.vcmp o)) → ∃ r, exec (.vcmp o) s = .next (s.flying (viewOf (.vcmp o)) [r]) ∧ r.flags = 0 ∧
      r.dest = (if o.n then .none else .p o.k.toNat) ∧ r.latch = some (vecLatch s o.g) ∧ r.lat = 2 ∧ r.left = 2 ∧
      Carries s s.me.iw r (fun e =>
        let a := elem s.me.iw (srcV s o.a) e
        let b := elem s.me.iw (srcV s o.b) e
        let holds : Bool := match o.c.toNat with
          | 0 => a = b
          | 1 => a ≠ b
          | 2 => num s a < num s b
          | 3 => num s a ≤ num s b
          | 4 => num s b < num s a
          | 5 => num s b ≤ num s a
          | _ => a &&& b ≠ 0
        if holds then 2 ^ s.me.iw - 1 else 0)) ∧
    (s.Clear (viewOf (.vfcmp o)) → ∃ r, exec (.vfcmp o) s = .next (s.flying (viewOf (.vfcmp o)) [r]) ∧
      r.dest = (if o.n then .none else .p o.k.toNat) ∧ r.latch = some (vecLatch s o.g) ∧ r.lat = 2 ∧ r.left = 2 ∧
      r.flags = flagsOf s o.g (floatWidth s.me.ff) (fun e => ((floatFmt s.me.ff).test o.c.toNat
        (elem (floatWidth s.me.ff) (srcV s o.a) e) (elem (floatWidth s.me.ff) (srcV s o.b) e)).2) ∧
      Carries s (floatWidth s.me.ff) r (fun e =>
        if ((floatFmt s.me.ff).test o.c.toNat (elem (floatWidth s.me.ff) (srcV s o.a) e)
            (elem (floatWidth s.me.ff) (srcV s o.b) e)).1 then 2 ^ floatWidth s.me.ff - 1 else 0))

/-- R189, R194, R195 and R197: float arithmetic in the format of FF and under the rounding mode of RM; only active elements
raise flags.
R117, R118, R124, R125, R127, R194 to R197: what the operations on a format give. A sum, difference, product or fused sum of finite operands is
the exact value rounded once, with the flags of that rounding; the largest finite value bounds it, and an overflow gives what R125 says. -/
def Obligations.VectorFloats : Prop :=
  (∀ (mode : Mode) (neg : Bool) (m : Nat) (e q : Int), RoundsTo mode neg m e q (roundTo mode neg m e q).1 ∧
    ((roundTo mode neg m e q).2 = true ↔ Between m e q)) ∧
  (∀ f ∈ formats, ReadsFields f ∧ RoundsOnce f ∧ ∀ mode a b d, Arithmetic f mode a b d ∧ Compares f a b) ∧
  ∀ (o : VRR) (s : State) (f : Fmt) (m : Mode), f = floatFmt s.me.ff → m = modeOf s.me.rm →
    let op := fun (i : VRR → Instr) (lat : Nat) (g : Nat → Nat → Nat → Nat × Flags) =>
      VecFloat (i o) s o.g o.n o.d.toNat (vecLatch s o.g) lat (ffBits s) (fun e =>
        g (felem s o.a e) (felem s o.b e) (elem (ffBits s) (s.readV s.cur s.x (s.me.vname o.d.toNat)) e))
    op .vfadd 4 (fun a b _ => f.add m a b) ∧ op .vfsub 4 (fun a b _ => f.sub m a b) ∧
    op .vfmul 4 (fun a b _ => f.mul m a b) ∧ op .vffma 4 (fun a b d => f.fma m a b d) ∧
    op .vfmin 2 (fun a b _ => f.pick false a b) ∧ op .vfmax 2 (fun a b _ => f.pick true a b) ∧
    op .vfsgn 2 (fun a b _ => (a % 2 ^ (f.width - 1) + if b.testBit (f.width - 1) then 2 ^ (f.width - 1) else 0, 0)) ∧
    ∀ u : VU, VecFloat (.vfclass u) s u.g u.n u.d.toNat (vecLatch s u.g) 2 (ffBits s) (fun e => (f.classMask (felem s u.a e), 0))

/-- R198, R201, R203 and R204: special functions, conversions, and blocks encoded and decoded, on 32-bit lanes, whatever IW and FF hold.
R119 to R123, R125, R126, R129, R130, R199 and R202: what they give. An inexact MXFP8 element that is tiny raises UF though it rounds to
the smallest normal value, and a −0 gives the byte of +0: that is the model's choice (assumption 149). -/
def Obligations.SpecialAndConvert : Prop :=
  (∀ f ∈ formats, ∀ mode, Converts f mode) ∧ SpecialFunctions ∧ Quantises ∧ Decodes ∧
  (∀ (s : State) (sr : Bool) (code c : Nat) (x : Vals) (modes : List Mode) (r : List Byte × Flags),
    modes = (List.range 16).map (fun i => elementMode s sr false (16 * c + i)) →
    r = (if code < 10 then quantMx code (modes ++ (List.range 16).map (fun i => elementMode s sr true (16 * c + i)))
          (clusterOf s x.a c ++ clusterOf s x.d c) else quantIb code modes (clusterOf s x.a c)) →
    7 ≤ code → code < 13 → s.quantCluster sr code x c = (r.1 ++ List.replicate (64 - r.1.length) 0, r.2)) ∧
  (∀ (code part : Nat) (mode : Mode) (a d n : Nat) (r : Nat × Flags), code < 16 → part < 4 →
    n = (if code ∈ [0, 1, 5, 8, 9, 13] then 16 else if code ∈ [4, 12] then 32 else 8) → n * (part + 1) ≤ 32 → a < 2 ^ 32 → d < 2 ^ 32 →
    r = cvtLane code part mode a d →
    (let x := fp32.unpack a
     let piece := a / 2 ^ (n * part) % 2 ^ n
     let int := fun (lo hi : Int) => (((toRange lo hi mode x).1 % 2 ^ n).toNat, (toRange lo hi mode x).2)
     (code < 8 → ∀ v : Nat × Flags, v = (match code with
         | 0 => bf16.convert mode x
         | 1 => fp16.convert mode x
         | 2 => fpE4m3.convert mode x
         | 3 => fpE5m2.convert mode x
         | 4 => int (-2 ^ 31) (2 ^ 31 - 1)
         | 5 => int (-2 ^ 15) (2 ^ 15 - 1)
         | 6 => int (-2 ^ 7) (2 ^ 7 - 1)
         | _ => int 0 255) → r.2 = v.2 ∧
       ∀ i < 32, r.1.testBit i = if n * part ≤ i ∧ i < n * part + n then v.1.testBit (i - n * part) else d.testBit i) ∧
     (8 ≤ code → r = match code with
       | 8 => fp32.convert mode (bf16.unpack piece)
       | 9 => fp32.convert mode (fp16.unpack piece)
       | 10 => fp32.convert mode (fpE4m3.unpack piece)
       | 11 => fp32.convert mode (fpE5m2.unpack piece)
       | 15 => fp32.ofInt mode piece
       | _ => fp32.ofInt mode (BitVec.ofNat n piece).toInt) ∧
     (8 ≤ code → code ≠ 12 → r.2 &&& (fNX ||| fUF ||| fOF) = 0))) ∧
  ∀ (o : VU) (s : State),
    (let fn := fun (i : VU → Instr) (k : Nat) =>
      VecFloat (i o) s o.g o.n o.d.toNat (if o.g then 8 else 4) 6 32 (fun e => sfu k (elem 32 (srcV s o.a) e))
     fn .vrcp 0 ∧ fn .vrsq 1 ∧ fn .vsqrt 2 ∧ fn .vexp2 3 ∧ fn .vlog2 4 ∧ fn .vtanh 5 ∧ fn .vsilu 6) ∧
    (∀ (part : BitVec 2) (sr : Bool) (c : BitVec 4), (sr = true → s.me.rand.words ≠ []) →
      VecFloat (.vcvt o part sr c) s o.g o.n o.d.toNat (if o.g then 9 else 6) 3 32 (fun j =>
        cvtLane c.toNat part.toNat
          (if sr then .sr (bits (s.me.rand.words.headD 0).toNat (16 * j + 15) (16 * j)) else modeOf s.me.rm)
          (elem 32 (srcV s o.a) j)
          (if cvtNarrow c.toNat then elem 32 (s.readV s.cur s.x (s.me.vname o.d.toNat)) j else 0))) ∧
    (∀ (sr : Bool) (c : BitVec 4), (sr = true → s.me.rand.words ≠ []) → s.Clear (viewOf (.vqnt o sr c)) →
      ∃ r, exec (.vqnt o sr c) s = .next (s.flying (viewOf (.vqnt o sr c)) [r]) ∧ r.mask = BitVec.allOnes 128 ∧
        Bound s r o.n o.d.toNat (if o.g then 9 else 6) 3 ∧
        (let q := fun k => s.quantCluster sr c.toNat (s.vals (viewOf (.vqnt o sr c))) k
         r.val = ofVecBytes ((List.range 8).flatMap (fun k => (q k).1)) ∧
         r.flags = if o.g then 0 else orFlags ((List.range 8).map (fun k => (q k).2)))) ∧
    (∀ (h : Bool) (c : BitVec 4),
      VecFloat (.vdqnt o h c) s o.g o.n o.d.toNat (if o.g then 9 else 6) 3 32 (fun j =>
        fp32.convert (modeOf s.me.rm)
          (blockElement c.toNat h (((vecBytes (srcV s o.a)).drop (64 * (j / 16))).take 64) (j % 16))))

/-- R192, R206, R207 and R208: selection, permutes, extraction, insertion, broadcast and indices. -/
def Obligations.VectorMoves : Prop :=
  (∀ (o : VRR) (s : State), s.Clear (viewOf (.vsel o)) →
    ∃ r, exec (.vsel o) s = .next (s.flying (viewOf (.vsel o)) [r]) ∧ r.flags = 0 ∧ r.mask = BitVec.allOnes 128 ∧
      Bound s r o.n o.d.toNat (vecLatch s o.g) 2 ∧
      ∀ j < 128, lane r.val j = if s.me.ap.getLsbD j then lane (srcV s o.a) j else lane (srcV s o.b) j) ∧
  (∀ (o : PRR) (s : State) (b : Nat), b = (srcS s o.b).toNat →
    Moves (.vperm o) s o.n o.d.toNat 2 32 (fun j => elem 32 (srcV s o.a) (16 * (j / 16) + elem 32 (srcV s o.b) j % 16)) ∧
    Moves (.vshf o) s o.n o.d.toNat 2 32 (fun j =>
      if b / 16 % 2 = 1 ∧ 16 ≤ j % 16 + b % 16 then 0 else elem 32 (srcV s o.a) (16 * (j / 16) + (j % 16 + b % 16) % 16)) ∧
    Moves (.vxcl o) s o.n o.d.toNat 4 32 (fun j =>
      elem 32 (srcV s o.a) (16 * (if b / 8 % 2 = 1 then (j / 16) ^^^ (b % 8) else (j / 16 + b % 8) % 8) + j % 16)) ∧
    MovesAll (.vins o) s o.n o.d.toNat 2 s.me.iw (fun e =>
      if e = b % (4096 / s.me.iw) then (srcS s o.a).toNat
      else elem s.me.iw (s.readV s.cur s.x (s.me.vname o.d.toNat)) e)) ∧
  (∀ (o : SR3) (s : State),
    Flies (.vext o) s (scalarResult (some 7) o.n o.d.toNat 2
      (.ofInt 64 (num s (elem s.me.iw (srcV s o.a) ((srcS s o.b).toNat % (4096 / s.me.iw))))))) ∧
  (∀ (d : BitVec 6) (n c : Bool) (a : Src) (p : BitVec 2) (s : State),
    Moves (.vbcast d n a p) s n d.toNat 2 s.me.iw (fun _ => (srcS s a).toNat) ∧
    Moves (.viota d n c p) s n d.toNat 2 s.me.iw (fun e => if c then e % (512 / s.me.iw) else e)) ∧
  (∀ (d : BitVec 6) (p : BitVec 2) (s : State), s.Clear (viewOf (.vtrn d p)) →
    ∃ l : List InFlight, exec (.vtrn d p) s = .next (s.flying (viewOf (.vtrn d p)) l) ∧ l.length = 8 ∧
      ∀ r < 8, ∃ f, l[r]? = some f ∧ f.dest = .v (s.me.vname (d.toNat + r)) ∧ f.lat = 2 ∧ f.left = 2 ∧ f.flags = 0 ∧
        f.latch = (if r = 0 then some 7 else none) ∧ f.mask = BitVec.allOnes 128 ∧
        ∀ m k : Nat, k < 8 → 8 * m + k < 4096 / s.me.iw →
          elem s.me.iw f.val (8 * m + k) = elem s.me.iw (s.readV s.cur s.x (s.me.vname (d.toNat + k))) (8 * m + r))

/-- R208, R210 and R211: integer and float reductions by the fixed tree, and scans from left to right, cluster by cluster. -/
def Obligations.Reductions : Prop :=
  ∀ (d : BitVec 6) (n h : Bool) (a : Src) (op p : BitVec 2) (s : State) (w : Nat) (f : Nat → Nat → Nat × Flags),
    w = (if h then ffBits s else s.me.iw) → (∀ x y, (s.me.combine h op.toNat).2 x y = f x y) →
    (s.Clear (viewOf (.vred d n a op h p)) →
      ∃ r, exec (.vred d n a op h p) s = .next (s.flying (viewOf (.vred d n a op h p)) [r]) ∧ Bound s r n d.toNat 7 4 ∧
        Carries s w r (fun e => ((treeFold f (512 / w).log2 (clusterElements w s.me.ap (srcV s a) (e / (512 / w)))).1.getD 0)) ∧
        r.flags = orFlags ((List.range 8).map (fun c => (treeFold f (512 / w).log2 (clusterElements w s.me.ap (srcV s a) c)).2))) ∧
    (s.Clear (viewOf (.vscan d n a op h p)) →
      ∃ r, exec (.vscan d n a op h p) s = .next (s.flying (viewOf (.vscan d n a op h p)) [r]) ∧ Bound s r n d.toNat 7 4 ∧
        r.mask = s.me.ap ∧
        (∀ c < 8, ∀ i < 512 / w, elem w r.val (512 / w * c + i) =
          (scanFold f none (clusterElements w s.me.ap (srcV s a) c)).1.getD i 0 % 2 ^ w) ∧
        r.flags = orFlags ((List.range 8).map (fun c => (scanFold f none (clusterElements w s.me.ap (srcV s a) c)).2)))

/-- R212, R213 and R214: predicates, their counts, and VMODE written for the next bundle. -/
def Obligations.Predicates : Prop :=
  (∀ (d a b : BitVec 3) (n : Bool) (p : BitVec 2) (s : State),
    PredOp (.pand d n a b p) s n d.toNat (s.me.readP a.toNat &&& s.me.readP b.toNat) ∧
    PredOp (.por d n a b p) s n d.toNat (s.me.readP a.toNat ||| s.me.readP b.toNat) ∧
    PredOp (.pxor d n a b p) s n d.toNat (s.me.readP a.toNat ^^^ s.me.readP b.toNat) ∧
    PredOp (.pnot d n a p) s n d.toNat (~~~s.me.readP a.toNat)) ∧
  (∀ (d : BitVec 5) (a : BitVec 3) (n : Bool) (p : BitVec 2) (s : State),
    Flies (.ppop d n a p) s (scalarResult (some 7) n d.toNat 1
      (.ofNat 64 ((List.range 128).countP (fun j => (s.me.readP a.toNat).getLsbD j)))) ∧
    (s.me.readP a.toNat = 0 → Flies (.pfirst d n a p) s (scalarResult (some 7) n d.toNat 1 (BitVec.allOnes 64))) ∧
    ∀ k < 128, (s.me.readP a.toNat).getLsbD k = true → (∀ j < k, (s.me.readP a.toNat).getLsbD j = false) →
      Flies (.pfirst d n a p) s (scalarResult (some 7) n d.toNat 1 (.ofNat 64 k))) ∧
  (∀ (imm : BitVec 11) (s : State), s.Clear (viewOf (.pset imm)) →
    ∃ r, exec (.pset imm) s = .next (s.flying (viewOf (.pset imm)) [r]) ∧ r.dest = .ctl 0 ∧ r.latch = none ∧ r.lat = 1 ∧
      r.left = 1 ∧ r.flags = 0 ∧ ∀ c : Ctx, (c.writeCtl 0 (lo64 r.val)).vmode = imm.setWidth 64)

/-! ## Control -/

/-- R107, R173, R174 and R175: `nop`, branches, jumps and guarded branches. The target is taken at the end of the bundle. -/
def Obligations.BranchesAndJumps : Prop :=
  (∀ s : State, Gives .nop s (s.noted (viewOf .nop))) ∧
  (∀ (c : BitVec 3) (a : Src) (off : BitVec 13) (s : State) (v : Int), v = (srcS s a).toInt →
    let taken : Bool := match c.toNat with
      | 0 => v = 0
      | 1 => v ≠ 0
      | 2 => v < 0
      | 3 => 0 ≤ v
      | 4 => 0 < v
      | 5 => v ≤ 0
      | 6 => v % 2 = 1
      | _ => v % 2 = 0
    (taken = true → Gives (.bcc c a off) s
      (jumping (s.noted (viewOf (.bcc c a off))) (.ofInt 64 (s.iss.pc.toNat + 16 * off.toInt)))) ∧
    (taken = false → Gives (.bcc c a off) s (s.noted (viewOf (.bcc c a off))))) ∧
  (∀ (d : BitVec 5) (imm : BitVec 17) (s : State),
    Gives (.jal d imm) s (jumping (s.flying (viewOf (.jal d imm)) [scalarResult none false d.toNat 1 (nextBundle s)])
      (.ofInt 64 (s.iss.pc.toNat + 16 * imm.toInt)))) ∧
  (∀ (d : BitVec 5) (a : Src) (p : BitVec 2) (s : State), (srcS s a).toNat % 16 = 0 →
    Gives (.jr d a p) s
      (jumping (s.flying (viewOf (.jr d a p)) [scalarResult none false d.toNat 1 (nextBundle s)]) (srcS s a))) ∧
  (∀ (d : BitVec 5) (a : Src) (l : BitVec 4) (p : BitVec 2) (s : State), (srcS s a).toNat % 16 = 0 →
    latchValue s l.toNat = latchValue s (twinLatch l.toNat) →
    Gives (.jrGd d a l p) s
      (jumping (s.flying (viewOf (.jrGd d a l p)) [scalarResult none false d.toNat 1 (nextBundle s)]) (srcS s a)))

/-- R86, R100, R177 to R182, R187: loops, software traps, the end of a task, waits, the clock, the walker, instruction fences
and the return from a handler. -/
def Obligations.TaskControl : Prop :=
  (∀ (o : DAB6) (s : State), s.me.loop = none → s.me.hnd = false → ringOk (srcS s o.b).toNat = true →
    Gives (.looph o) s ((s.noted (viewOf (.looph o))).updIss (fun i => { i with
      opened := some { rem := srcS s o.a, i := 0, start := 0, b := o.d.toNat + 1, ring := srcS s o.b, pos := 0 } }))) ∧
  (∀ (a : Src) (imm : BitVec 7) (p : BitVec 2) (s : State), s.iss.after = none →
    Gives (.trap a imm p) s ((s.noted (viewOf (.trap a imm p))).updIss (fun i => { i with
      after := some (0x10, srcS s a, .ofNat 64 imm.toNat) }))) ∧
  (∀ s : State, s.iss.slots = 1 → s.drained s.cur s.x = true →
    Gives .done s ((s.noted (viewOf .done)).updIss (fun i => { i with ends := true }))) ∧
  (∀ s : State, Gives .yield s ((s.noted (viewOf .yield)).updIss (fun i => { i with yields := true }))) ∧
  (∀ (a : Src) (p : BitVec 2) (s : State), (srcS s a).toNat ≤ s.regs.ptpns % 2 ^ 64 →
    Gives (.waitt a p) s (s.noted (viewOf (.waitt a p)))) ∧
  (∀ (d : BitVec 5) (s : State), Flies (.rdtime d) s (scalarResult none false d.toNat 1 (.ofNat 64 s.regs.ptpns))) ∧
  (∀ (d : BitVec 5) (s : State) (w : Walker), w = s.me.walker →
    (w.range.next < w.range.fin → Gives (.wnext d) s
      (((s.noted (viewOf (.wnext d))).upd (fun c => { c with walker := { w with
          range := { w.range with next := w.range.next + 1 }, cur := some w.range.next, outcome := .none } })).deliverS
        (viewOf (.wnext d)) (.ofNat 64 w.range.next))) ∧
    (w.range.fin ≤ w.range.next → w.finished = true ∨ w.outcome = .refused ∨ (∃ t, s.me.task = some t ∧ t.stage ≠ 0) →
      Gives (.wnext d) s
        (((s.noted (viewOf (.wnext d))).upd (fun c => { c with walker := { w with
          cur := none, outcome := .none, finished := true } })).deliverS (viewOf (.wnext d)) (BitVec.allOnes 64)))) ∧
  (∀ (d : BitVec 5) (k : BitVec 2) (s : State),
    (s.me.walker.cur = none → Flies (.wpos d k) s (scalarResult none false d.toNat 1 (BitVec.allOnes 64))) ∧
    (∀ (i : Nat) (l : Launch), s.me.walker.cur = some i → s.launchOf s.cur s.x = some l →
      Flies (.wpos d k) s (scalarResult none false d.toNat 1 (.ofNat 64 (l.rcd.coord i k.toNat))))) ∧
  (∀ s : State, s.me.writesOut = false →
    Gives .ifence s ((s.noted (viewOf .ifence)).updCore s.cur (fun c => { c with
      icache := c.icache.filter (fun e => e.asn != s.asnOf s.cur s.x) }))) ∧
  (∀ s : State, s.me.hnd = true →
    Gives .eret s ((s.noted (viewOf .eret)).updIss (fun i => { i with returns := true })))

/-- R87, R100, R179, R181 and R187: where control instructions stop or wait: a loop within a loop, a bad ring register, a `done`
that is not alone, `eret` outside a handler, work still to drain, a time to come, and an empty walker.
R102, R145 and R175: a jump to an address that is no multiple of 16 stops with 0x07, and latches that differ stop a guarded
branch with 0xA0, whatever the target. -/
def Obligations.ControlStops : Prop :=
  (∀ (o : DAB6) (s : State), Passes (.looph o) s →
    (s.me.loop ≠ none → stopsWith (.looph o) s 0x0C) ∧
    (s.me.loop = none → s.me.hnd = false → ringOk (srcS s o.b).toNat = false → stopsWith (.looph o) s 0x0B)) ∧
  (∀ s : State, Passes .done s →
    (s.iss.slots ≠ 1 → stopsWith .done s 0x12) ∧
    (s.iss.slots = 1 → s.drained s.cur s.x = false → waitsFor .done s .drains)) ∧
  (∀ s : State, Passes .eret s → s.me.hnd = false → stopsWith .eret s 0x11) ∧
  (∀ (a : Src) (p : BitVec 2) (s : State), Passes (.waitt a p) s →
    s.regs.ptpns % 2 ^ 64 < (srcS s a).toNat → waitsFor (.waitt a p) s (.time (srcS s a))) ∧
  (∀ (d : BitVec 5) (s : State), Passes (.wnext d) s →
    s.me.walker.range.fin ≤ s.me.walker.range.next → s.me.walker.finished = false → s.me.walker.outcome ≠ .refused →
    (∃ t, s.me.task = some t ∧ t.stage = 0) → waitsFor (.wnext d) s .steal) ∧
  (∀ (d : BitVec 5) (a : Src) (p : BitVec 2) (s : State), Passes (.jr d a p) s →
    (srcS s a).toNat % 16 ≠ 0 → stopsWith (.jr d a p) s 0x07) ∧
  (∀ (d : BitVec 5) (a : Src) (l : BitVec 4) (p : BitVec 2) (s : State), Passes (.jrGd d a l p) s →
    (latchValue s l.toNat ≠ latchValue s (twinLatch l.toNat) → stopsWith (.jrGd d a l p) s 0xA0) ∧
    (latchValue s l.toNat = latchValue s (twinLatch l.toNat) → (srcS s a).toNat % 16 ≠ 0 → stopsWith (.jrGd d a l p) s 0x07))

/-- R184 to R186: control registers read and written. A write to a plain register goes in flight for the next bundle, one to a
queue or stream register acts at once, and one to a register that is all RO leaves every control register as it was. R89 and R321:
what was written reads back, with the reserved bits of VMODE and TVEC 0. -/
def Obligations.ControlRegisters : Prop :=
  (∀ (d : BitVec 5) (imm : BitVec 7) (p : BitVec 2) (s : State),
    Flies (.crdr d imm p) s (scalarResult none false d.toNat 1 (s.me.readCtl imm.toNat))) ∧
  (∀ (a : Src) (imm : BitVec 7) (p : BitVec 2) (s : State) (n : Nat), n = imm.toNat →
    (n = 0 → vmodeOk (srcS s a).toNat = true) → s.Clear (viewOf (.cwr a imm p)) →
    let t := s.noted (viewOf (.cwr a imm p))
    (n < 0x10 ∨ 0x30 ≤ n → exec (.cwr a imm p) s = .next (s.flying (viewOf (.cwr a imm p))
      [{ left := 1, lat := 1, dest := .ctl n, latch := none, val := wide (srcS s a), mask := 0, flags := 0 }])) ∧
    (n = 0x10 ∨ n = 0x11 → exec (.cwr a imm p) s = .next (
      if (srcS s a).getLsbD 7 ∧ (s.me.ferryQ (n - 0x10)).halt then t.discardFerry s.cur s.x (n - 0x10)
      else if (srcS s a).getLsbD 5 then t.resumeFerry s.cur s.x (n - 0x10) else t)) ∧
    (n = 0x12 ∨ n = 0x13 → exec (.cwr a imm p) s = .next (
      if (srcS s a).getLsbD 7 ∧ (s.me.soundQ (n - 0x12)).halt then t.discardSound s.cur s.x (n - 0x12)
      else if (srcS s a).getLsbD 5 then t.resumeSound s.cur s.x (n - 0x12) else t)) ∧
    (0x20 ≤ n ∧ n < 0x30 → exec (.cwr a imm p) s = .next (
      if (srcS s a).getLsbD 8 then t.resumeStream s.cur s.x (n - 0x20) else t))) ∧
  (∀ (a : Src) (imm : BitVec 7) (p : BitVec 2) (s : State), Passes (.cwr a imm p) s → imm = 0 →
    vmodeOk (srcS s a).toNat = false → stopsWith (.cwr a imm p) s 0x00) ∧
  (∀ (c : Ctx) (n : Nat) (v : Word), n ∈ [0x02, 0x03, 0x04, 0x05, 0x06, 0x0A, 0x0B, 0x0C, 0x30, 0x31, 0x32] → c.writeCtl n v = c) ∧
  (∀ (c : Ctx) (v : Word), (c.writeCtl 0x01 v).readCtl 0x01 = v &&& 31 ∧ (c.writeCtl 0x09 v).readCtl 0x09 = v &&& ~~~15 ∧
    (c.writeCtl 0x0D v).readCtl 0x0D = v ∧ (c.writeCtl 0x38 v).readCtl 0x38 = v ∧ (c.writeCtl 0x39 v).readCtl 0x39 = v ∧
    (c.writeCtl 0x3A v).readCtl 0x3A = v ∧ (c.writeCtl 0x00 v).readCtl 0x00 = v &&& 0x7FF ∧
    (c.writeCtl 0x08 v).readCtl 0x08 = v &&& 0x3FFF_FFFF_FFFF_FFF3)

/-! ## Memory instructions -/

/-- R57, R61, R139, R140, R143 and R145: loads, stores and atomics on the task's own scratchpad and its windows act in the issue
cycle: a load's bytes arrive after 5 or 11 cycles, and a store changes memory and nothing else. A vector access reads and writes byte
`i` of the register at `vecByte l i`, and a store writes the bytes of active lanes alone. -/
def Obligations.LocalAccesses : Prop :=
  (∀ (o : LDI) (s : State) (l : Nat), localAt s (ea s o.a o.imm 8) 8 l → (ea s o.a o.imm 8).toNat % 8 = 0 →
    s.me.inFlight < 24 → (s.localBytes s.cur s.x l 8).2 = false →
    Flies (.ld o) s (loaded l (regD o.n o.d.toNat) (wide (le64 (s.localBytes s.cur s.x l 8).1)) (BitVec.allOnes 128))) ∧
  (∀ (o : STI) (s : State) (l : Nat), localAt s (ea s o.a o.imm 8) 8 l → (ea s o.a o.imm 8).toNat % 8 = 0 →
    Gives (.st o) s ((s.noted (viewOf (.st o))).localStore s.cur s.x l (bytesOf (s.me.readS o.d.toNat) 8) [] false)) ∧
  (∀ (o : GSI) (s : State) (l : Nat), localAt s (ea s o.a o.imm 8) 8 l → (ea s o.a o.imm 8).toNat % 8 = 0 →
    latchValue s o.l.toNat = latchValue s (twinLatch o.l.toNat) →
    Gives (.stGd o) s
      ((s.noted (viewOf (.stGd o))).localStore s.cur s.x l (bytesOf (lo64 (latchValue s o.l.toNat)) 8) [] false)) ∧
  (∀ (d : BitVec 6) (n : Bool) (a : Src) (imm : BitVec 7) (p : BitVec 2) (s : State) (l : Nat),
    s.vecEnd (ea s a imm 64) = .commit → l = (ea s a imm 64).toNat % 2 ^ 32 → s.me.inFlight < 24 → s.vecBad l s.me.ap = false →
    Flies (.vld d n a imm p) s (loaded l (vecD s n d.toNat) (maskLanes s.me.ap (s.vecRead l)) s.me.ap)) ∧
  (∀ (d : BitVec 6) (a : Src) (imm : BitVec 7) (p : BitVec 2) (s : State) (l : Nat),
    s.vecEnd (ea s a imm 64) = .commit → l = (ea s a imm 64).toNat % 2 ^ 32 →
    Gives (.vst d a imm p) s
      ((s.noted (viewOf (.vst d a imm p))).vecWrite l (s.readV s.cur s.x (s.me.vname d.toNat)) s.me.ap)) ∧
  (∀ (o : GSI) (s : State) (l : Nat), s.vecEnd (ea s o.a o.imm 64) = .commit → l = (ea s o.a o.imm 64).toNat % 2 ^ 32 →
    latchValue s o.l.toNat = latchValue s (twinLatch o.l.toNat) →
    Gives (.vstGd o) s ((s.noted (viewOf (.vstGd o))).vecWrite l (s.guardData o.l true) s.me.ap)) ∧
  (∀ (o : SR3) (s : State) (a : Word) (l : Nat), a = srcS s o.a &&& ~~~7 → localAt s a 8 l → windowOf l < 5 →
    s.me.inFlight < 24 → (s.localBytes s.cur s.x l 8).2 = false →
    (let w := le64 (s.localBytes s.cur s.x l 8).1
     Gives (.amo o) s
      (((s.noted (viewOf (.amo o))).localStore s.cur s.x l
          (bytesOf (amoWord ((srcS s o.a).setWidth 3) w (srcS s o.b) (s.me.readS o.d.toNat)) 8) [] false).deliverAs
        (regD o.n o.d.toNat) (some 5) (loadLatency l) (wide w) (BitVec.allOnes 128) 0))) ∧
  (∀ (s : State) (v : Word) (l : Nat) (data : Vec) (mask : Pred), s.vecEnd v = .commit → l = v.toNat % 2 ^ 32 →
    (let byte := fun (t : State) (c : Nat) => ((t.localBytes s.cur s.x c 1).1).getD 0 0
     (∀ i < 512, byteOf (s.vecRead l) i = byte s (vecByte l i)) ∧
     (∀ i < 512, byte (s.vecWrite l data mask) (vecByte l i) =
       if mask.getLsbD (i / 4) then byteOf data i else byte s (vecByte l i)) ∧
     (∀ c, windowOf c = windowOf l → s.localFault s.cur s.x c 1 = none → (∀ i < 512, vecByte l i ≠ c) →
       byte (s.vecWrite l data mask) c = byte s c) ∧
     (windowOf l < 5 → ∃ m, s.vecWrite l data mask = { s with spad := m }) ∧
     (5 ≤ windowOf l → ∃ m q, s.vecWrite l data mask = { s with vregs := m, vpoison := q })))

/-- R139, R141, R142, R143, R144, R145 and R147: global loads, stores, gathers, scatters and atomics take one entry of the
operand log with the address, the data and the lane mask of their issue cycle; memory does not change until it is performed.
R150: `cinv` and `cwb` of no bytes do nothing, and a range too long, or not below the aperture, stops them with 0x4C. -/
def Obligations.GlobalAccesses : Prop :=
  (∀ (o : LDI) (s : State) (a : Word), a = ea s o.a o.imm 8 → a.toNat % 8 = 0 → globalAt a 8 →
    Logs (.ldg o) s { entry s .load a true with d := regD o.n o.d.toNat } ∧
    (inAperture a = false → Logs (.ld o) s { entry s .load a true with d := regD o.n o.d.toNat })) ∧
  (∀ (o : STI) (s : State) (a : Word), a = ea s o.a o.imm 8 → a.toNat % 8 = 0 → globalAt a 8 →
    Logs (.stg o) s { entry s .store a false with data := wide (s.me.readS o.d.toNat) } ∧
    (inAperture a = false → Logs (.st o) s { entry s .store a false with data := wide (s.me.readS o.d.toNat) })) ∧
  (∀ (o : GSI) (s : State) (a : Word), a = ea s o.a o.imm 8 → a.toNat % 8 = 0 → globalAt a 8 →
    latchValue s o.l.toNat = latchValue s (twinLatch o.l.toNat) →
    Logs (.stgGd o) s { entry s .store a false with data := wide (lo64 (latchValue s o.l.toNat)) } ∧
    (inAperture a = false → Logs (.stGd o) s { entry s .store a false with data := wide (lo64 (latchValue s o.l.toNat)) })) ∧
  (∀ (o : PRR) (s : State) (a : Word), a = srcS s o.a + srcS s o.b → a.toNat % 64 = 0 → globalAt a 512 →
    Logs (.vldg o) s { entry s .vload a true with d := vecD s o.n o.d.toNat, mask := s.me.ap }) ∧
  (∀ (o : DAB6) (s : State) (a : Word), a = srcS s o.a + srcS s o.b → a.toNat % 64 = 0 → globalAt a 512 →
    Logs (.vstg o) s { entry s .vstore a false with
                        data := s.readV s.cur s.x (s.me.vname o.d.toNat), mask := s.me.ap }) ∧
  (∀ (l : BitVec 4) (x y : Src) (p : BitVec 2) (s : State) (a : Word), a = srcS s x + srcS s y → popped x = false →
    a.toNat % 64 = 0 → globalAt a 512 → latchValue s l.toNat = latchValue s (twinLatch l.toNat) →
    Logs (.vstgGd l x y p) s { entry s .vstore a false with data := s.guardData l true, mask := s.me.ap }) ∧
  (∀ (o : PRR) (s : State) (a : Word) (b : Vec), b = srcV s o.b →
    (a = srcS s o.a → (∀ j < 128, s.me.ap.getLsbD j = true → (laneAddr a b j).toNat % 4 = 0 ∧ canonical (laneAddr a b j) = true) →
      Logs (.vgath o) s { entry s .gather a true with offs := b, d := vecD s o.n o.d.toNat, mask := s.me.ap } ∧
      Logs (.vscat o) s { entry s .scatter a false with
                            offs := b, data := s.readV s.cur s.x (s.me.vname o.d.toNat), mask := s.me.ap }) ∧
    (a = srcS s o.a &&& ~~~3 →
      (∀ j < 128, s.me.ap.getLsbD j = true → (laneAddr a b j).toNat % 4 = 0 ∧ canonical (laneAddr a b j) = true) →
      Logs (.vamo o) s { entry s (.vamo ((srcS s o.a).setWidth 2)) a true with
                          offs := b, data := s.readV s.cur s.x (s.me.vname o.d.toNat), d := vecD s o.n o.d.toNat, mask := s.me.ap })) ∧
  (∀ (o : SR3) (s : State) (a : Word), a = srcS s o.a &&& ~~~7 → globalAt a 8 →
    Logs (.amog o) s (amoEntry s o a) ∧ (inAperture a = false → Logs (.amo o) s (amoEntry s o a))) ∧
  (∀ (d : BitVec 6) (a : Src) (p : BitVec 2) (s : State) (n : Word), n = s.me.readS (d.toNat % 32) → n ≠ 0 →
    n.toNat ≤ 2 ^ 32 → (srcS s a).toNat + n.toNat ≤ 0xFFFF_FFFF_0000_0000 → globalAt (srcS s a) n.toNat →
    Logs (.cinv d a p) s { entry s .cinv (srcS s a) false with cmp := n } ∧
    Logs (.cwb d a p) s { entry s .cwb (srcS s a) false with cmp := n }) ∧
  (∀ (d : BitVec 6) (a : Src) (p : BitVec 2) (s : State) (n : Word) (i : Instr), n = s.me.readS (d.toNat % 32) →
    i = .cinv d a p ∨ i = .cwb d a p →
    (n = 0 → Gives i s (s.noted (viewOf i))) ∧
    (Passes i s → 2 ^ 32 < n.toNat ∨ n ≠ 0 ∧ 0xFFFF_FFFF_0000_0000 < (srcS s a).toNat + n.toNat → stopsWith i s 0x4C))

/-! ## Ordering and synchronisation -/

/-- R78, R80, R146, R149, R161, R163 and R288: fences and waits that find nothing outstanding, joins of queues, twin checks,
containment regions and the random state. -/
def Obligations.FencesAndRegions : Prop :=
  (∀ (scope : BitVec 3) (q r : BitVec 8) (s : State), q = 0 ∨ r = 0 ∨ s.outstanding s.cur s.x &&& r = 0 →
    Gives (.fence scope q r) s (s.noted (viewOf (.fence scope q r)))) ∧
  (∀ (m : BitVec 4) (s : State),
    ((joinQueues m).length ≤ 1 → Gives (.qfence m) s (s.noted (viewOf (.qfence m)))) ∧
    (2 ≤ (joinQueues m).length → (∀ k ∈ joinQueues m, room s k.1 k.2) → Gives (.qfence m) s
      { (s.noted (viewOf (.qfence m))).upd (fun c =>
          ((joinQueues m).foldl (fun c k => c.enqueue k.1 k.2 (.join m s.joins)) c).settleJoins) with joins := s.joins + 1 })) ∧
  (∀ (m p : BitVec 2) (s : State), s.me.fwaitNames m = [] → Gives (.fwait m p) s (s.noted (viewOf (.fwait m p)))) ∧
  (∀ (l k : BitVec 4) (p : BitVec 2) (s : State), latchValue s l.toNat = latchValue s k.toNat →
    Gives (.tchk l k p) s (s.noted (viewOf (.tchk l k p)))) ∧
  (∀ (d : BitVec 5) (n : Bool) (a : Src) (p : BitVec 2) (s : State), (srcS s a).toNat % 16 = 0 → s.me.regions.length < 4 →
    Gives (.copen d n a p) s ((s.noted (viewOf (.copen d n a p))).upd (fun c => { c with
      regions := { regs := c.regs, fflags := c.fflags, handler := srcS s a, d := d.toNat } :: c.regions }))) ∧
  (∀ (p : BitVec 2) (s : State), s.me.regions ≠ [] →
    Gives (.cclose p) s ((s.noted (viewOf (.cclose p))).upd (fun c => { c with regions := c.regions.tail }))) ∧
  (∀ (n : Bool) (a b : Src) (p : BitVec 2) (s : State),
    Gives (.rseed n a b p) s ((s.noted (viewOf (.rseed n a b p))).upd (fun c => { c with
      rand := { key := srcS s a, ctr := srcS s b, words := [] }, randAt := s.cycle }))) ∧
  (∀ (n : Bool) (a : Src) (p : BitVec 2) (s : State) (l : Nat), (srcS s a).toNat % 64 = 0 → ownAt s (srcS s a) 1088 l →
    Gives (.rsave n a p) s (((s.noted (viewOf (.rsave n a p))).localStore s.cur s.x l s.me.rand.image [] false).updIss
      (fun i => { i with stall := i.stall + 16 })) ∧
    (randImageOk (s.localBytes s.cur s.x l 1088).1 = true → Gives (.rload n a p) s
      (((s.noted (viewOf (.rload n a p))).upd (fun c => { c with rand := Rand.ofImage (s.localBytes s.cur s.x l 1088).1, randAt := s.cycle })).updIss
        (fun i => { i with stall := i.stall + 16 }))))

/-- R62, R63, R70 to R73, R151, R152 and R153: bindings, releases, acquires and barrier updates. A local object is reached in
the issue cycle, and one that is not usable stops the bundle with 0x67; an update or a release of a global one takes an entry of the
operand log, and a wait on one takes the value read. That a local object in a poisoned row is left as it is and consumed is the model's
choice (assumption 128). -/
def Obligations.Synchronisation : Prop :=
  (∀ (o : DAB6) (s : State) (b : Binding), b = ⟨srcS s o.a, srcS s o.b, s.me.readS (o.d.toNat % 32)⟩ → b.len ≠ 0 →
    b.len.toNat ≤ 2 ^ 40 → b.base.toNat + b.len.toNat ≤ 0xFFFF_FFFF_0000_0000 →
    globalObj b.obj 8 ∨ (b.obj.toNat % 8 = 0 ∧ inAperture b.obj = true ∧ windowOf (b.obj.toNat % 2 ^ 32) = 0 ∧
      s.localFault s.cur s.x (b.obj.toNat % 2 ^ 32) 8 = none) →
    (b ∈ s.me.bindings → Gives (.bind o) s ((s.noted (viewOf (.bind o))).upd id)) ∧
    (b ∉ s.me.bindings → s.me.bindings.length < 16 →
      Gives (.bind o) s ((s.noted (viewOf (.bind o))).upd (fun c => { c with bindings := c.bindings ++ [b] })))) ∧
  (∀ (n : Bool) (a : Src) (p : BitVec 2) (s : State), Gives (.unbind n a p) s ((s.noted (viewOf (.unbind n a p))).upd (fun c => { c with
    bindings := if srcS s a = 0 then [] else c.bindings.filter (fun b => b.obj ≠ srcS s a) }))) ∧
  (∀ (d : BitVec 6) (n : Bool) (a : Src) (scope : BitVec 3) (p : BitVec 2) (s : State) (v : Word),
    v = s.me.readS (d.toNat % 32) →
    (∀ l, localObj s (srcS s a) 8 l true → Gives (.acq d n a scope p) s (consuming s (viewOf (.acq d n a scope p)))) ∧
    (∀ l, localObj s (srcS s a) 8 l false →
      (v.toNat ≤ (le64 (s.localBytes s.cur s.x l 8).1).toNat → Gives (.acq d n a scope p) s
        (((s.noted (viewOf (.acq d n a scope p))).upd (fun c => { c with syncRead := none })).acquireRegions s.cur s.x (srcS s a))) ∧
      (s.me.regionsDone (srcS s a) s.me.logNext = true → Gives (.rel d n a scope p) s
        (((s.noted (viewOf (.rel d n a scope p))).releaseRegions s.cur s.x (srcS s a)).localStore s.cur s.x l (bytesOf v 8) []
          false))) ∧
    (globalObj (srcS s a) 8 →
      (∀ r, s.me.syncRead = some (srcS s a, r) → v.toNat ≤ (lo64 r).toNat → Gives (.acq d n a scope p) s
        (((s.noted (viewOf (.acq d n a scope p))).upd (fun c => { c with syncRead := none })).acquireRegions s.cur s.x (srcS s a))) ∧
      Logs (.rel d n a scope p) s { entry s (.rel scope.toNat) (srcS s a) true with data := wide v })) ∧
  (∀ (n y : Bool) (a b : Src) (scope : BitVec 3) (p : BitVec 2) (s : State) (l : Nat), localObj s (srcS s a) 16 l true →
    Gives (.barv n a y p) s (consuming s (viewOf (.barv n a y p))) ∧
    Gives (.barvRel scope n a y p) s (consuming s (viewOf (.barvRel scope n a y p))) ∧
    Gives (.bwait scope n a b p) s (consuming s (viewOf (.bwait scope n a b p)))) ∧
  (∀ (n y : Bool) (a b : Src) (scope : BitVec 3) (p : BitVec 2) (s : State) (l : Nat), localObj s (srcS s a) 16 l false →
    (bits (srcS s b).toNat 13 4 ≠ 0 → bits (srcS s b).toNat 63 15 = 0 → Gives (.binit n a b p) s
      ((s.noted (viewOf (.binit n a b p))).localStore s.cur s.x l (bytesOf (BarObj.ofInit (srcS s b)) 16) [] false)) ∧
    (∀ u, (barAt s l).apply .arrive = (u, none) →
      Gives (.barv n a y p) s ((s.noted (viewOf (.barv n a y p))).localStore s.cur s.x l (bytesOf u 16) [] false)) ∧
    ((srcS s b).toNat % 16 ≠ (barAt s l).gen → Gives (.bwait scope n a b p) s
      (((s.noted (viewOf (.bwait scope n a b p))).upd (fun c => { c with syncRead := none })).acquireRegions s.cur s.x (srcS s a))) ∧
    (s.me.regionsDone (srcS s a) s.me.logNext = true → ∀ t u, t = (s.noted (viewOf (.barvRel scope n a y p))).releaseRegions s.cur s.x (srcS s a) →
      (barAt s l).usable = true → (t.localBar s.cur s.x l).apply .arrive = (u, none) →
      Gives (.barvRel scope n a y p) s (t.localStore s.cur s.x l (bytesOf u 16) [] false)) ∧
    ((barAt s l).usable = false → (Passes (.barv n a y p) s → stopsWith (.barv n a y p) s 0x67) ∧
      (Passes (.barvRel scope n a y p) s → stopsWith (.barvRel scope n a y p) s 0x67))) ∧
  (∀ (n y : Bool) (a b : Src) (scope : BitVec 3) (p : BitVec 2) (s : State), globalObj (srcS s a) 16 →
    (bits (srcS s b).toNat 13 4 ≠ 0 → bits (srcS s b).toNat 63 15 = 0 → Logs (.binit n a b p) s { entry s .binit (srcS s a) true with
                                                                        data := (BarObj.ofInit (srcS s b)).setWidth 4096 }) ∧
    Logs (.barv n a y p) s (entry s (.barrive false) (srcS s a) false) ∧
    Logs (.barvRel scope n a y p) s (entry s (.barrive true) (srcS s a) true) ∧
    (∀ r, s.me.syncRead = some (srcS s a, r) → (srcS s b).toNat % 16 ≠ BarObj.gen (r.setWidth 128) → Gives (.bwait scope n a b p) s
      (((s.noted (viewOf (.bwait scope n a b p))).upd (fun c => { c with syncRead := none })).acquireRegions s.cur s.x (srcS s a)))) ∧
  (∀ (o : PRR) (s : State) (i k : Nat), i = (srcS s o.b).toNat → k = (s.me.readS (o.d.toNat % 32)).toNat → i < 2 ^ 56 → k < 2 ^ 32 →
    (∀ l, localObj s (srcS s o.a) 16 l true → Gives (.bxpect o) s (consuming s (viewOf (.bxpect o)))) ∧
    (∀ l u, localObj s (srcS s o.a) 16 l false → (barAt s l).apply (.expect i k) = (u, none) →
      Gives (.bxpect o) s ((s.noted (viewOf (.bxpect o))).localStore s.cur s.x l (bytesOf u 16) [] false)) ∧
    (∀ l, localObj s (srcS s o.a) 16 l false → (barAt s l).usable = false → Passes (.bxpect o) s → stopsWith (.bxpect o) s 0x67) ∧
    (globalObj (srcS s o.a) 16 → Logs (.bxpect o) s (expectEntry s o)))

/-- R63: what the four updates do to the fields of a barrier object: the counts, the end of a phase, which adds 1 to the generation
modulo 16 and reloads the arrivals, and the counts that would leave their range.
R62: an object that is not usable raises 0x67 and stays as it is. -/
def Obligations.BarrierUpdates : Prop :=
  (∀ (o : BarObj) (u : BarOp), o.usable = false → o.apply u = (o, some 0x67)) ∧
  ∀ o : BarObj, o.usable = true →
    (∀ u : BarOp, (let after := fun (arrv inb outb : Nat) (ufl : Bool) (r : BarObj) =>
        r.usable = true ∧ r.quota = o.quota ∧ r.relw = o.relw ∧ r.ufl = ufl ∧
        (if arrv = 0 ∧ inb = 0 ∧ (o.relw = false ∨ outb = 0)
          then r.gen = (o.gen + 1) % 16 ∧ r.arrv = o.quota ∧ r.inb = 0 ∧ r.outb = 0
          else r.gen = o.gen ∧ r.arrv = arrv ∧ r.inb = inb ∧ r.outb = outb)
      match u with
      | .arrive => after (o.arrv - 1) o.inb o.outb (o.ufl || decide (o.arrv = 0)) (o.apply u).1 ∧
          (o.apply u).2 = if o.arrv = 0 then some 0x66 else none
      | .expect i n => i < 2 ^ 56 → n < 2 ^ 32 →
          after o.arrv (min (o.inb + i) (2 ^ 56 - 1)) (min (o.outb + n) (2 ^ 32 - 1)) o.ufl (o.apply u).1 ∧
          (o.apply u).2 = if 2 ^ 56 ≤ o.inb + i ∨ 2 ^ 32 ≤ o.outb + n then some 0x68 else none
      | .land n => after o.arrv (o.inb - n) o.outb (o.ufl || decide (o.inb < n)) (o.apply u).1 ∧
          (o.apply u).2 = if o.inb < n then some 0x66 else none
      | .outdone => after o.arrv o.inb (o.outb - 1) (o.ufl || decide (o.outb = 0)) (o.apply u).1 ∧
          (o.apply u).2 = if o.outb = 0 then some 0x66 else none))

/-! ## Streams, engines and units -/

/-- R145, R156, R157 and R158: streams described, started, closed and pushed to, by a guarded store too.
R44, R49, R160, R284 and R286: an engine instruction whose record passes its checks puts its command at the tail of its queue
and the command's banks into the reservation table. A command keeps its BANKSET without the banks that the task does not have, which is the
model's choice (assumption 29). -/
def Obligations.StreamsAndEngines : Prop :=
  (∀ (o : KA) (s : State) (l : Nat) (b : List Byte), localOf (srcS s o.a) = some l → s.localFault s.cur s.x l 32 = none →
    s.heldBack l 32 = false → s.localBytes s.cur s.x l 32 = (b, false) →
    (srcS s o.a).toNat % 32 = 0 → descOk b = true → (s.me.stream o.k.toNat).cfg = false →
    Gives (.sdesc o) s ((s.noted (viewOf (.sdesc o))).upd (fun c => c.setStream o.k.toNat (streamOf b)))) ∧
  (∀ (k : BitVec 4) (p : BitVec 2) (s : State), (s.me.stream k.toNat).cfg = true →
    ((s.me.stream k.toNat).started = false → Gives (.sbind k p) s ((s.noted (viewOf (.sbind k p))).upd (fun c =>
      c.setStream k.toNat { c.stream k.toNat with started := true, after := c.logNext }))) ∧
    (¬((s.me.stream k.toNat).kind = 3 ∧ s.me.ferryBound k.toNat = true) →
      ((s.me.stream k.toNat).kind = 5 → (s.me.stream k.toNat).halt = false ∧ (s.me.stream k.toNat).entries = []) →
      Gives (.sclose k p) s ((s.noted (viewOf (.sclose k p))).closeStream s.cur s.x k.toNat))) ∧
  (∀ (k : BitVec 4) (p : BitVec 2) (s : State), (s.me.stream k.toNat).cfg = false →
    Gives (.sclose k p) s (s.noted (viewOf (.sclose k p)))) ∧
  (∀ (k : BitVec 4) (p : BitVec 2) (s : State) (q : Stream), q = s.me.stream k.toNat → q.cfg = true →
    q.kind = 5 → q.started = true → q.entries.length < 8 →
    (let pushed := fun (v : View) (data : Vec) => (s.noted v).upd (fun c => { c.setStream k.toNat { q with
        entries := q.entries ++ [⟨maskLanes c.ap data, 0, 0, [], c.logNext⟩] } with logNext := c.logNext + 1 })
     (∀ d : BitVec 6, Gives (.vstgPush d k p) s
       (pushed (viewOf (.vstgPush d k p)) (s.readV s.cur s.x (s.me.vname d.toNat)))) ∧
     ∀ (l : BitVec 4) (x y : Src), popped x = true → k = x.f.setWidth 4 → latchValue s l.toNat = latchValue s (twinLatch l.toNat) →
       Gives (.vstgGd l x y p) s (pushed (viewOf (.vstgGd l x y p)) (s.guardData l true)))) ∧
  (∀ (o : QA) (s : State) (l : Nat) (b : List Byte) (t : Task), s.me.task = some t → ownAt s (srcS s o.a) 64 l →
    (srcS s o.a).toNat % 64 = 0 → b = (s.localBytes s.cur s.x l 64).1 → room s false o.q.toNat →
    (let set := (ferryOf b).bankset &&& .ofNat 32 (2 ^ t.banks - 1)
     let held := (bankList t.b0 set).map (fun k => (s.cur, k))
     let joined := fun (v : View) => ((s.noted v).reserveAll held true).upd (fun c =>
        c.enqueue false o.q.toNat (.ferry { ferryOf b with bankset := set, held := held }))
     (s.ferryBad (ferryOf b) false (field b 0x3C 4) = none → Gives (.fcopy o) s (joined (viewOf (.fcopy o)))) ∧
     (s.ferryBad (ferryOf b) true (field b 0x3C 4) = none → Gives (.fgath o) s (joined (viewOf (.fgath o)))))) ∧
  (∀ (o : QA) (s : State) (l : Nat) (b : List Byte) (t : Task), s.me.task = some t → ownAt s (srcS s o.a) 64 l →
    (srcS s o.a).toNat % 64 = 0 → b = (s.localBytes s.cur s.x l 64).1 → room s true o.q.toNat →
    (let sends := fun (i : QA → Instr) (kind : Nat) => s.soundEnd (soundOf kind b) o.q.toNat = .commit →
      (let r := (s.noted (viewOf (i o))).withGroup (soundOf kind b)
       let set := r.1.nearBanks ||| r.1.farBanks
       Gives (i o) s { (r.2.reserve s.cur (bankList t.b0 set) true).upd (fun k =>
         k.enqueue true o.q.toNat (.sound { r.1 with held := set, seq := s.soundSeq })) with soundSeq := s.soundSeq + 1 })
     sends .fput 0 ∧ sends .fget 1 ∧ sends .fcoll 2 ∧ sends .fa2a 3))

/-- R216, R225 to R230: the tile instructions join the matrix queue; a group table is read at issue, with a stall of one cycle.
R242, R245 to R254: the array instructions join the crossbar queue; `xstat` reads the array's status at issue. -/
def Obligations.UnitQueues : Prop :=
  (∀ (o : KAB) (s : State) (a b : Word), a = unitWord s o.a → b = unitWord s o.b →
    JoinsMatrix (.tmma o) s a b [] false 0 ∧ JoinsMatrix (.tmmaZ o) s a b [] false 0 ∧
    (∀ l, localOf b = some l → s.localFault s.cur s.x l 128 = none → (s.localBytes s.cur s.x l 128).2 = false →
      s.heldBack l 128 = false →
      JoinsMatrix (.tmmg o) s a b (s.groupTable s.cur s.x b) false 1 ∧
      JoinsMatrix (.tmmgZ o) s a b (s.groupTable s.cur s.x b) false 1)) ∧
  (∀ (e : Bool) (t u f : BitVec 4) (a : Src) (p : BitVec 2) (s : State),
    JoinsMatrix (.zzero e t p) s 0 0 [] false 0 ∧ JoinsMatrix (.zld e t a p) s (srcS s a) 0 [] false 0 ∧
    JoinsMatrix (.zst t a f p) s (srcS s a) 0 [] false 0 ∧ JoinsMatrix (.zstR t a f p) s (srcS s a) 0 [] true 0 ∧
    JoinsMatrix (.zcvt t u a p) s 0 (srcS s a) [] false 0 ∧ JoinsMatrix (.zacc t u p) s 0 0 [] false 0) ∧
  (∀ (z : BitVec 2) (o : KAB) (s : State) (a b : Word), a = unitWord s o.a → b = unitWord s o.b →
    JoinsCrossbar (.xmv z o) s a b ∧ JoinsCrossbar (.xload o) s a b ∧ JoinsCrossbar (.xver o) s a b) ∧
  (∀ (o : KA) (s : State) (a : Word), a = unitWord s o.a →
    JoinsCrossbar (.xprog o) s a 0 ∧ JoinsCrossbar (.xremap o) s a 0 ∧ JoinsCrossbar (.xdrift o) s a 0 ∧
    JoinsCrossbar (.xcalLdsc o) s a 0 ∧ JoinsCrossbar (.xcalLdog o) s a 0 ∧ JoinsCrossbar (.xcalStog o) s a 0 ∧
    JoinsCrossbar (.xfb o) s a 0) ∧
  (∀ (k : BitVec 4) (p : BitVec 2) (s : State), JoinsCrossbar (.xcalMeas k p) s 0 0) ∧
  (∀ (d : BitVec 5) (k : BitVec 4) (p : BitVec 2) (s : State),
    Flies (.xstat d k p) s (scalarResult none false d.toNat 1 (s.array (16 * s.cur + k.toNat)).status))

/-- R262 and R379: the KV instructions are sent to the KV unit of the die, block, and take the outcome when they issue again: a value
goes to D, and a cause stops the bundle with the EINFO that is held. What 0x47 does, and an outcome that is held for another bundle, are
the model's choice (assumptions 55 and 153). -/
def Obligations.KvInstructions : Prop :=
  ∀ (a b : Src) (d : BitVec 5) (o : KAB) (p : BitVec 2) (s : State),
    SendsKv (.kvnew a b p) none s (unitWord s a) (unitWord s b) ∧
    SendsKv (.kvapp d a b p) (some d.toNat) s (unitWord s a) (unitWord s b) ∧
    SendsKv (.kvrefInc a b p) none s (unitWord s a) (unitWord s b) ∧
    SendsKv (.kvrefDec a b p) none s (unitWord s a) (unitWord s b) ∧
    SendsKv (.kvtrunc a b p) none s (unitWord s a) (unitWord s b) ∧
    SendsKv (.kvfind d a b p) (some d.toNat) s (unitWord s a) (unitWord s b) ∧
    SendsKv (.kvpub d a b p) (some d.toNat) s (unitWord s a) (unitWord s b) ∧
    SendsKv (.kvcow a p) none s (unitWord s a) 0 ∧ SendsKv (.kvstrm o) none s (unitWord s o.a) (unitWord s o.b)

/-- R183, R298, R303: `lnch` of a record that passes its checks, with room in the intake and no power failure in progress, takes the
next launch id: the launch inherits the address space and pools of its parent and at most its priority, and its id is on its way to D. -/
def Obligations.LaunchFromTask : Prop :=
  ∀ (d : BitVec 5) (a : Src) (p : BitVec 2) (s : State) (l : Nat) (k : Launch) (r : Record), s.Clear (viewOf (.lnch d a p)) →
    (srcS s a).toNat % 64 = 0 → ownAt s (srcS s a) 64 l → r = recordOf (s.localBytes s.cur s.x l 64).1 → s.recordBad r = none →
    s.launchOf s.cur s.x = some k → (mget [] s.intake (coreDie s.cur)).length < 256 → s.regs.failing = false →
    ∃ t n, exec (.lnch d a p) s = .next t ∧ t.launch s.nextLaunch.toNat = some n ∧ n.id = s.nextLaunch.toNat ∧ n.state = .accepted ∧
      n.rcd = { r with prio := min r.prio k.rcd.prio } ∧ n.asn = k.asn ∧ n.ptroot = k.ptroot ∧ n.pooldir = k.pooldir ∧
      n.poolcnt = k.poolcnt ∧ n.fromLnch = true ∧ n.acceptedAt = s.now ∧
      mget [] t.intake (coreDie s.cur) = mget [] s.intake (coreDie s.cur) ++ [s.nextLaunch.toNat] ∧
      t.nextLaunch = (if s.nextLaunch + 1 = 0 then 1 else s.nextLaunch + 1) ∧
      t.me.flight = s.me.flight ++ [scalarResult none false d.toNat 1 (.ofNat 64 s.nextLaunch.toNat)]

/-! ## What contexts undergo between their bundles -/

/-- R91, R94, R96, R98, R186: every result that is due is written, at its scalar register, vector register in its active lanes,
predicate or control register and at its latch, and leaves the flight record; the registers, predicates, control registers and latches
that no due result names stay as they were, and so do the other contexts and memory. Its flags are raised. No flag that is raised
is enabled to trap, or the context is in its handler. The results of a context that has stopped wait in its flight record (R324, R330). -/
def Obligations.ResultsWritten : Prop :=
  ∀ (core x : Nat) (s : State) (c : Ctx) (due : List InFlight), c = s.ctx core x → due = c.flight.filter (fun f => f.left == 0) →
    due ≠ [] → c.save.halted = false →
    c.hnd = true ∨ (∀ f ∈ due, f.flags &&& c.tvec.extractLsb' 57 5 = 0 ∧
      ∀ g ∈ due, g.dest = .ctl 8 → f.flags &&& (lo64 g.val).extractLsb' 57 5 = 0) →
    ∃ t d, exec (.resultWrite core x) s = .next t ∧ d = t.ctx core x ∧
      d.flight = c.flight.filter (fun f => f.left != 0) ∧ d.pc = c.pc ∧ d.hnd = c.hnd ∧
      (∀ r ≠ 0, (∀ f ∈ due, f.dest ≠ .s r) → d.readS r = c.readS r) ∧
      (∀ f ∈ due, ∀ r ≠ 0, f.dest = .s r → (∀ g ∈ due, g.dest = .s r → g = f) → d.readS r = lo64 f.val) ∧
      (∀ r, (∀ f ∈ due, f.dest ≠ .v r) → t.readV core x r = s.readV core x r) ∧
      (∀ f ∈ due, ∀ r, f.dest = .v r → (∀ g ∈ due, g.dest = .v r → g = f) → ∀ j < 128,
        lane (t.readV core x r) j = if f.mask.getLsbD j then lane f.val j else lane (s.readV core x r) j) ∧
      (∀ r ≠ 0, (∀ f ∈ due, f.dest ≠ .p r) → d.readP r = c.readP r) ∧
      (∀ f ∈ due, ∀ r ≠ 0, f.dest = .p r → (∀ g ∈ due, g.dest = .p r → g = f) → ∀ j < 128,
        (d.readP r).getLsbD j =
          if f.mask.getLsbD j then decide (lane f.val j = BitVec.allOnes 32) else (c.readP r).getLsbD j) ∧
      (∀ n, n ≠ 1 → (∀ f ∈ due, f.dest ≠ .ctl n) → d.readCtl n = c.readCtl n) ∧
      (∀ f ∈ due, ∀ n, n ≠ 1 → f.dest = .ctl n → (∀ g ∈ due, g.dest = .ctl n → g = f) →
        d.readCtl n = (c.writeCtl n (lo64 f.val)).readCtl n) ∧
      (∀ l, (∀ f ∈ due, f.latch ≠ some l) → mfind d.latches l = mfind c.latches l) ∧
      (∀ f ∈ due, ∀ l, f.latch = some l → (∀ g ∈ due, g.latch = some l → g = f) → mfind d.latches l = some f.val) ∧
      ((∀ f ∈ due, f.dest ≠ .ctl 1) → d.fflags = due.foldl (fun m f => m ||| f.flags) c.fflags) ∧
      (∀ f ∈ due, f.dest = .ctl 1 → (∀ g ∈ due, g.dest = .ctl 1 → g = f) → (∀ g ∈ due, ∀ n, g.dest = .ctl n → g.flags = 0) →
        d.fflags = due.foldl (fun m f => m ||| f.flags) ((lo64 f.val).setWidth 5)) ∧
      (∀ k y, cid k y ≠ cid core x → t.ctx k y = s.ctx k y) ∧ t.mem = s.mem ∧ t.spad = s.spad ∧ t.regs = s.regs

/-- R86, R134, R180, R311: a context whose condition has come about is ready again, a generator with room makes its next word, a wait
for a time ends, and a thief receives the range its scan finds, or -1 is held for it.
R311: on one island a thief takes the first ownerless range; where there is none it splits the first walker that holds at least
twice the grain, which keeps the lower half, rounded up, and gives the rest.
R133: the words of the generator, 128 draws of 16 bits each. -/
def Obligations.ContextEvents : Prop :=
  (∀ (core x : Nat) (s : State), (s.ctx core x).task.isSome = true →
    (s.waitOver core x = true → exec (.contextReady core x) s = .next (s.updCtx core x (fun c => { c with blocked := .no }))) ∧
    ((s.ctx core x).rand.words.length < 4 → (s.ctx core x).randAt < s.cycle →
      exec (.generatorAppend core x) s = .next (s.updCtx core x (fun c => { c with
        rand := { key := c.rand.key, ctr := c.rand.ctr + 1, words := c.rand.words ++ [randWord c.rand.key c.rand.ctr] }
        randAt := s.cycle }))) ∧
    (s.cycle ≤ (s.ctx core x).randAt ∨ 4 ≤ (s.ctx core x).rand.words.length → exec (.generatorAppend core x) s = .next s) ∧
    (∀ w : Word, (s.ctx core x).blocked = .time w → w.toNat ≤ s.regs.ptpns % 2 ^ 64 →
      exec (.waittExpiry core x) s = .next (s.updCtx core x (fun c => { c with blocked := .no })))) ∧
  (∀ (core x : Nat) (s : State) (t : Task) (l : Launch), (s.ctx core x).task = some t → s.launch t.launch = some l →
    (s.ctx core x).blocked = .steal → (s.ctx core x).walker.outcome = .asked →
    (∀ r u, s.scan l t.line (scanOrder (coreIsland core)) = some (r, u) → exec (.steal core x) s = .next
      ((u.updCtx core x (fun c => { c with walker := { c.walker with range := r, outcome := .got } })).trace 2 core t.launch t.task
        (.ofNat 64 r.next))) ∧
    (s.scan l t.line (scanOrder (coreIsland core)) = none → exec (.steal core x) s = .next
      ((s.updCtx core x (fun c => { c with walker := { c.walker with outcome := .refused } })).trace 3 core t.launch t.task 0))) ∧
  (∀ (s : State) (l : Launch) (line island : Nat),
     (∀ o, l.ownerless.find? (fun q => q.1 == island) = some o → s.scanIsland l line island =
       some (o.2, s.updLaunch l.id (fun k => { k with ownerless := k.ownerless.erase o }))) ∧
     ((∀ o ∈ l.ownerless, o.1 ≠ island) → (∀ v ∈ s.victims l.id line island, v.2.fin < v.2.next + 2 * l.rcd.grain) →
       s.scanIsland l line island = none) ∧
     ((∀ o ∈ l.ownerless, o.1 ≠ island) → ∀ c x r rest, s.victims l.id line island = (.live c x, r) :: rest →
       r.next + 2 * l.rcd.grain ≤ r.fin → (s.ctx c x).walker.range = r →
       ∃ t give, s.scanIsland l line island = some (give, t) ∧ give.fin = r.fin ∧ (t.ctx c x).walker.range.next = r.next ∧
         (t.ctx c x).walker.range.fin = give.next ∧ give.next = r.next + (r.fin - r.next + 1) / 2)) ∧
  (∀ (key n : Word) (mix : Word → Word),
     (∀ z z1 z2 : Word, z1 = (z ^^^ (z >>> 31)) * 0x8f3a_61c7_d24b_9e0b → z2 = (z1 ^^^ (z1 >>> 29)) * 0x6b91_e3d5_0f27_4a8d →
       mix z = z2 ^^^ (z2 >>> 32)) →
     ∀ j < 128, (randWord key n).extractLsb' (16 * j) 16 =
       ((mix (mix (key ^^^ (n * 0xc2b7_4e93_5a1d_f6e5)) + .ofNat 64 j * 0x3d4a_9c61_b7e2_58f3)) >>> 48).setWidth 16)

/-- R326: the fault detected first is delivered first, and of those detected in one cycle the one whose source comes first in the order of
the rule; it traps with its cause as a late fault, EPC at the bundle that would issue next, and the others stay pending. That a fault of
the context itself comes before those of its units is the model's choice (assumption 147).
R326, R327: a result that raises an enabled flag outside the handler traps, in the order NV, DZ, OF, UF, NX, as a late fault with
the enabled flags in EINFO and EPC at the bundle that would issue next. -/
def Obligations.LateFaults : Prop :=
  (∀ (core x : Nat) (s : State) (p : Pending) (rest : List Pending), (s.ctx core x).task.isSome = true →
     (s.ctx core x).pending = p :: rest → (∀ q ∈ rest, p.seen < q.seen ∨ p.seen = q.seen ∧ p.rank < q.rank) → (s.ctx core x).hnd = false → (s.ctx core x).save = .no →
     (s.ctx core x).tvec.getLsbD 0 = true → alwaysEscalates p.cause.toNat = false →
     ∃ t, exec (.lateFaultDelivery core x) s = .next t ∧ (t.ctx core x).hnd = true ∧
       (t.ctx core x).pc = tvecAddr (s.ctx core x).tvec ∧ (t.ctx core x).epc = (s.ctx core x).pc &&& ~~~15 ∧
       (t.ctx core x).ecause = ecauseOf p.cause true p.src p.snum ∧ (t.ctx core x).einfo = p.info ∧ (t.ctx core x).emask = 0 ∧
       (t.ctx core x).pending = rest) ∧
  (∀ p q : Pending, (p.src < 8 ∧ (p.src < q.src ∧ q.src < 8 ∨ q.src = 8 ∨ q.src = 9)) ∨ (p.src = 9 ∧ q.src = 8) ∨
      (p.src = 8 ∧ q.src = 8 ∧ p.snum < q.snum) ∨ (p.src = 10 ∧ 0 < q.src ∧ q.src < 10) → p.rank < q.rank) ∧
  (∀ (core x : Nat) (s : State) (f : InFlight) (on : BitVec 5), (s.ctx core x).flight = [f] → f.left = 0 → f.dest = .none →
     on = f.flags &&& (s.ctx core x).tvec.extractLsb' 57 5 → on ≠ 0 → (s.ctx core x).save.halted = false → (s.ctx core x).hnd = false → (s.ctx core x).tvec.getLsbD 0 = true →
     (∀ a ∈ [0x34, 0x35, 0x36, 0x37, 0x38], (s.action (classOf a) 0) < 3) →
     ∃ t c, exec (.resultWrite core x) s = .next t ∧
       c = (if on.getLsbD 4 then 0x38 else if on.getLsbD 3 then 0x37 else if on.getLsbD 2 then 0x36 else if on.getLsbD 1 then 0x35 else 0x34) ∧
       (t.ctx core x).hnd = true ∧ (t.ctx core x).pc = tvecAddr (s.ctx core x).tvec ∧ (t.ctx core x).ecause = ecauseOf c true 10 0 ∧
       (t.ctx core x).einfo = on.setWidth 64 ∧ (t.ctx core x).emask = 0 ∧ (t.ctx core x).epc = (s.ctx core x).pc &&& ~~~15 ∧
       (t.ctx core x).fflags = (s.ctx core x).fflags ||| f.flags)

/-- R148: the head of an operand log is performed and released: a load, a vector load or a gather takes its bytes, a store, a
vector store or a scatter leaves them, an atomic does both at the home slice, a release writes back its regions first, a barrier update
is made at the home slice and its cause delivered, a maintenance operation goes over its lines, and the read of an `acq` or a `bwait`
reaches the bundle that waits for it. Poisoned bytes raise 0x47 in place of the result. One whose translation faults keeps its
entry with the cause. No watchpoint is set. The model's choices: an atomic on poisoned bytes still stores (assumption 10), a barrier object in
poison is not updated (128), every lane is translated before one is performed (16), which causes keep the entry (15), and 0x67 of a global
object comes late (124).
R143 and R144: the eight updates of an atomic, and the four of a vector atomic.
R150: what `cwb` and `cinv` do to a line at its home. -/
def Obligations.LogPerformed : Prop :=
  (∀ (core x : Nat) (s u : State) (e : LogEntry) (rest : List LogEntry), HeadReady core x s e rest →
     let after := fun (t : State) => exec (.operandLogPerform core x 0) s = .next t
     let done := fun (t : State) => t.releaseEntry core x e.num
     let spoilt := fun (t : State) => after ((done t).poisoned core x 1 0 0 0)
     let lanes : List Nat := activeLanes e.mask
     (∀ b p lines, e.op = .load → s.globalBytes core x e.addr 8 = (.ok (b, p, lines), u) →
       ((∀ q ∈ p, q = false) → after ((done u).writeDest core x e.d (wide (le64 b)) e.mask)) ∧
       (true ∈ p → spoilt u)) ∧
     (∀ b p lines, e.op = .vload → s.globalBytes core x e.addr 512 = (.ok (b, p, lines), u) →
       ((∀ i < 512, e.mask.getLsbD (i / 4) = true → p.getD i false = false) →
         ∃ v, after ((done u).writeDest core x e.d v e.mask) ∧ ∀ i < 512, byteOf v i = b.getD i 0) ∧
       ((∃ i < 512, e.mask.getLsbD (i / 4) = true ∧ p.getD i false = true) → spoilt u)) ∧
     (∀ l : List Nat, e.op = .gather → s.laneTr core x e .read = (.ok l, u) →
       let t := l.foldl (fun w pa => w.touchSector (coreDie core) (pa / 64)) u
       let seen := fun (pa : Nat) => u.viewSector (coreDie core) (pa / 64)
       ((∀ pa ∈ l, (seen pa).2 = false) → ∃ v, after ((done t).writeDest core x e.d v e.mask) ∧
         ∀ i j pa : Nat, lanes[i]? = some j → l[i]? = some pa → lane v j = (seen pa).1.extractLsb' (8 * (pa % 64)) 32) ∧
       ((∃ pa ∈ l, (seen pa).2 = true) → spoilt t)) ∧
     (e.op = .store → s.globalStore core x e.addr (bytesOf (lo64 e.data) 8) [] = (.ok (), u) → after (done u)) ∧
     (∀ ks l, e.op = .vstore → ks = (List.range 8).filter (fun k => decide (e.mask.extractLsb' (16 * k) 16 ≠ 0)) →
       s.translateAll core (s.asnOf core x) (s.rootOf core x) .write (ks.map (fun k => e.addr + .ofNat 64 (64 * k))) = (.ok l, u) →
       ∃ m : Nat → BitVec 64, (∀ k < 8, ∀ i < 64, (m k).getLsbD i = e.mask.getLsbD (16 * k + i / 4)) ∧
         after (done ((ks.zip l).foldl (fun w p =>
           w.coreWrite (coreDie core) (p.2 / 64) (m p.1) (e.data.extractLsb' (512 * p.1) 512)) u))) ∧
     (∀ l : List Nat, e.op = .scatter → s.laneTr core x e .write = (.ok l, u) →
       after (done ((lanes.zip l).foldl (fun w p =>
         let q := pieceOf p.2 (bytesOf (lane e.data p.1) 4) [] (p.2 / 64)
         w.coreWrite (coreDie core) (p.2 / 64) q.1 q.2) u))) ∧
     (∀ op pa, e.op = .amo op → s.entryTr core x e.addr .atomic = (.ok pa, u) →
       let t := u.homeStore pa (bytesOf (amoWord op (u.homeWord pa) (lo64 e.data) e.cmp) 8)
       ((u.homeBytes pa 8).2 = false → after ((done t).writeDest core x e.d (wide (u.homeWord pa)) e.mask)) ∧
       ((u.homeBytes pa 8).2 = true → spoilt t)) ∧
     (∀ (op : BitVec 2) (l : List Nat), e.op = .vamo op → s.laneTr core x e .atomic = (.ok l, u) →
       let at_ := fun (n : Nat) => ((lanes.zip l).take n).foldl
         (fun w p => w.homeStore p.2 (bytesOf (vamoLane op (w.homeLane p.2).1 (lane e.data p.1)) 4)) u
       ((∀ i pa : Nat, l[i]? = some pa → ((at_ i).homeLane pa).2 = false) → ∃ v, after ((done (at_ lanes.length)).writeDest core x e.d v e.mask) ∧
         ∀ i j pa : Nat, lanes[i]? = some j → l[i]? = some pa → lane v j = ((at_ i).homeLane pa).1) ∧
       ((∃ i pa : Nat, l[i]? = some pa ∧ ((at_ i).homeLane pa).2 = true) → spoilt (at_ lanes.length))) ∧
     (∀ k pa, e.op = .rel k → (s.ctx core x).regionsDone e.addr e.num = true → s.entryTr core x e.addr .atomic = (.ok pa, u) →
       after (done ((u.releaseRegions core x e.addr).homeStore pa (bytesOf (lo64 e.data) 8)))) ∧
     (∀ pa, e.op = .binit → s.entryTr core x e.addr .atomic = (.ok pa, u) → after (done (u.setGlobalBar pa (e.data.setWidth 128)))) ∧
     (∀ w up pa, (w = u ∧ e.op = .barrive false ∧ up = .arrive) ∨
         (w = u.releaseRegions core x e.addr ∧ e.op = .barrive true ∧ up = .arrive ∧ (s.ctx core x).regionsDone e.addr e.num = true) ∨
         (w = u ∧ e.op = .bxpect ∧ up = .expect (lo64 e.data).toNat e.cmp.toNat) →
       s.entryTr core x e.addr .atomic = (.ok pa, u) →
       ((w.homeBytes pa 16).2 = true → spoilt (w.touchBytes pa 16)) ∧
       ((w.homeBytes pa 16).2 = false →
         ((w.updGlobalBar pa up).2 = none → after (done (w.updGlobalBar pa up).1)) ∧
         ∀ c, (w.updGlobalBar pa up).2 = some c → after ((done (w.updGlobalBar pa up).1).lateFault core x c 1 0 0 0))) ∧
     (∀ inval : Bool, e.op = (if inval then .cinv else .cwb) → after (done (s.maintain core x inval e.addr e.cmp.toNat))) ∧
     (∀ n pa f, (n = 8 ∧ e.op = .acqRead) ∨ (n = 16 ∧ e.op = .bwaitRead) → s.entryTr core x e.addr .atomic = (.ok pa, u) →
       (u.ctx core x).blocked = .syncLoad f → f.addr = e.addr →
       ((u.homeBytes pa n).2 = false → ∃ v, after ((done (u.touchBytes pa n)).updCtx core x (fun c => { c with
          syncRead := some (e.addr, v) })) ∧ ∀ i < n, byteOf v i = (u.homeBytes pa n).1.getD i 0) ∧
       ((u.homeBytes pa n).2 = true → spoilt (u.touchBytes pa n))) ∧
     (∀ f, (e.op = .load ∧ s.globalBytes core x e.addr 8 = (.error f, u)) ∨
         (e.op = .vload ∧ s.globalBytes core x e.addr 512 = (.error f, u)) ∨
         (e.op = .store ∧ s.globalStore core x e.addr (bytesOf (lo64 e.data) 8) [] = (.error f, u)) ∨
         (e.op = .gather ∧ s.laneTr core x e .read = (.error f, u)) ∨ (e.op = .scatter ∧ s.laneTr core x e .write = (.error f, u)) ∨
         ((∃ op, e.op = .vamo op) ∧ s.laneTr core x e .atomic = (.error f, u)) ∨
         (((∃ op, e.op = .amo op) ∨ e.op = .binit ∨ e.op = .bxpect ∨ e.op = .barrive false) ∧
           s.entryTr core x e.addr .atomic = (.error f, u)) ∨
         (((∃ k, e.op = .rel k) ∨ e.op = .barrive true) ∧ (s.ctx core x).regionsDone e.addr e.num = true ∧
           s.entryTr core x e.addr .atomic = (.error f, u)) ∨
         (e.op = .vstore ∧ s.translateAll core (s.asnOf core x) (s.rootOf core x) .write
           (((List.range 8).filter (fun k => decide (e.mask.extractLsb' (16 * k) 16 ≠ 0))).map (fun k => e.addr + .ofNat 64 (64 * k))) =
             (.error f, u)) ∨
         ((e.op = .acqRead ∨ e.op = .bwaitRead) ∧ s.entryTr core x e.addr .atomic = (.error f, u)) →
       after (u.entryFault core x e f))) ∧
  (∀ w b c : Word, amoWord 0 w b c = b ∧ amoWord 1 w b c = .ofNat 64 (w.toNat + b.toNat) ∧ amoWord 2 w b c = w &&& b ∧
     amoWord 3 w b c = w ||| b ∧ amoWord 4 w b c = w ^^^ b ∧ amoWord 5 w b c = (if w.toInt ≤ b.toInt then b else w) ∧
     amoWord 6 w b c = (if w.toNat ≤ b.toNat then b else w) ∧ amoWord 7 w b c = (if w = c then b else w)) ∧
  (∀ w b : Lane, vamoLane 0 w b = .ofNat 32 (w.toNat + b.toNat) ∧ vamoLane 1 w b = (if w.toInt < b.toInt then b else w) ∧
     vamoLane 2 w b = .ofNat 32 (fp32.add .rne w.toNat b.toNat).1 ∧ vamoLane 3 w b = b) ∧
  (∀ (s : State) (line sec : Nat) (e : L2Sector), sec ∈ lineSectors line →
     (mfind (s.maintHome false line).l2 sec = some e → e.dirty = false) ∧
     (s.linePinned (homeDie (512 * line)) line = false → mfind (s.maintHome true line).l2 sec = none) ∧
     ∀ d : L2Sector, mfind s.l2 sec = some { d with dirty := true } → stackSector (s.maintHome false line).mem sec = d.data)

/-- R179: once everything has drained, a task ends: its context is free, and its banks and tiles read as zero. That a free context holds what
Ctx.reset does, and vector registers that read as zero, is the model's choice (assumption 6). -/
def Obligations.TaskEnds : Prop :=
  ∀ (core x : Nat) (s : State) (t : Task), (s.ctx core x).task = some t → (s.ctx core x).blocked = .drains →
    (s.ctx core x).pending = [] → s.drained core x = true →
    ∃ u, exec (.taskEnd core x) s = .next u ∧ u.ctx core x = Ctx.reset ∧
      (∀ b r, t.b0 ≤ b → b < t.b0 + t.banks → r < 1024 → (u.row core b r).data = 0) ∧
      (∀ z ∈ t.tiles, ∀ r < 64, mfind u.acc (accKey core z r) = none) ∧ ∀ r < 64, u.readV core x r = 0

/-! ## Memory from below -/

/-- R30 to R35, R38, R41 and R368: reads and writes of the stacks and what is logged of them, write-backs of corrected codewords, the
patrol scrub, activation alerts and refresh, evictions from the remote-data caches, and the end of a window of ERRTH.
R31 and R32: a codeword that is not corrected, or whose transfer fails for good, makes its sector poisoned; one that ECC miscorrects
is delivered without a mark; a write that fails for good leaves its line poisoned.
R38 and R40: a write at the home slice reads back, byte by byte: the bytes of the mask are the new ones and the others are kept.
The model's choices: the order of the patrol scrub (assumption 91), that it waits for the firmware (100), and the outcomes of transfers and of
ECC as operands (136). -/
def Obligations.StackEvents : Prop :=
  (∀ (sec : Nat) (s : State), 64 * sec < 2 ^ 39 → mfind s.l2 sec = none →
    let ok : ReadOutcome := { transfer := .clean, ecc := .clean }
    let kept : L2Sector := { data := stackSector s.mem sec, dirty := false, poison := s.poison.contains sec }
    let stack := stackOf (64 * sec)
    (∃ t, exec (.hbmSectorFill sec ok ok) s = .next t ∧ mfind t.l2 sec = some kept) ∧
    (∀ w, ∃ t, exec (.hbmSectorFill sec ok { ok with ecc := .corrected w }) s = .next t ∧ mfind t.l2 sec = some kept ∧
      (t.stack stack).ahead = (s.stack stack).ahead + 1 ∧
      ((s.stack stack).wbcor = true → { sec := sec, half := 1, origin := 1 } ∈ t.writeBacks)) ∧
    (∀ n, ∃ t, exec (.hbmSectorFill sec ok { ok with transfer := .retried n }) s = .next t ∧ mfind t.l2 sec = some kept ∧
      (t.stack stack).thead = (s.stack stack).thead + 1) ∧
    (∀ w, ∃ t e, exec (.hbmSectorFill sec ok { ok with ecc := .miscorrected w }) s = .next t ∧ mfind t.l2 sec = some e ∧
      e.dirty = false ∧ e.poison = s.poison.contains sec ∧ ∀ j < 32, byteOf e.data j = byteOf kept.data j) ∧
    (∀ c d, (∃ w, d = { ok with ecc := .uncorrectable w }) ∨ (∃ e, d = { transfer := .failed 0xFF, ecc := e }) →
      ∃ t e, exec (.hbmSectorFill sec c d) s = .next t ∧ mfind t.l2 sec = some e ∧ e.dirty = false ∧ e.poison = true)) ∧
  (∀ (sec k : Nat) (s : State),
    exec (.correctedWriteback sec .clean .clean) s = .next { s with writeBacks := s.writeBacks.filter (fun w => w.sec != sec) } ∧
    (k ∈ lineSectors (sec / 8) →
      ((∃ w ∈ s.writeBacks, w.sec = sec ∧ w.half = 0) →
        ∃ t, exec (.correctedWriteback sec (.failed 0xFF) .clean) s = .next t ∧ k ∈ t.poison) ∧
      ((sec, true) ∈ s.stackUse → k ∈ (s.stackWrite sec (.failed 0xFF) .clean).poison))) ∧
  (∀ (k : Nat) (s : State) (w : BitVec 32), k < 8 → (s.stack k).scrubh ≠ 0 → s.regs.hwUp = true →
    (let at_ := scrubWord k (s.stack k).scrubAt
     let onward := fun (t : State) => t.updStack k (fun q => { q with scrubAt := (q.scrubAt + 1) % 2 ^ 31 })
     exec (.patrolScrub k { transfer := .clean, ecc := .clean }) s = .next (onward s) ∧
     exec (.patrolScrub k { transfer := .clean, ecc := .uncorrectable w }) s = .next (onward (s.arrayEvent at_ 2 false w)) ∧
     ∃ t, exec (.patrolScrub k { transfer := .clean, ecc := .corrected w }) s = .next t ∧
       { sec := at_.sec, half := at_.half, origin := 2 } ∈ t.writeBacks)) ∧
  (∀ (k chan bank row : Nat) (n : BitVec 32) (s : State), k < 8 → (s.stack k).alertth.toNat ≤ n.toNat →
    mfind (s.stack k).acts (rowOf chan bank row) = none →
    ∃ t, exec (.activationAlert k chan bank row n) s = .next t ∧ 16 * chan + bank ∈ (t.stack k).bankWait ∧
      mget 0 (t.stack k).acts (rowOf chan bank row) = n.toNat ∧ (t.stack k).ahead = (s.stack k).ahead + 1) ∧
  (∀ (die line : Nat) (s : State), line ∈ s.rdcLines die → s.linePinned die line = false →
    ∃ t, exec (.rdcEviction die line) s = .next t ∧ ∀ k ∈ lineSectors line, mfind t.rdc (rdcKey die k) = none) ∧
  (∀ (k b : Nat) (s : State),
    exec (.refreshWindowEnd k) s = .next (s.updStack k (fun q => { q with acts := [] })) ∧
    ∃ t, exec (.refreshManagementEnd k b) s = .next t ∧ b ∉ (t.stack k).bankWait) ∧
  (∀ s : State, 1900000000 * (s.errWindow + 1) ≤ s.cycle →
    exec .errorThresholdWindowEnd s = .next { s with errCounts := [], errLogged := [], errWindow := s.errWindow + 1 }) ∧
  (∀ (s : State) (sec : Nat) (mask : BitVec 64) (v : Sector) (bad : Bool) (j : Nat), 64 * sec < 2 ^ 39 → j < 64 →
     byteOf ((s.homeWrite sec mask v bad).homeSector sec).1 j = if mask.getLsbD j then byteOf v j else byteOf (s.homeSector sec).1 j)

/-- R22 to R25: a walk that finds a valid leaf which allows the access enters it in the core's TLB and sets AC, and DY for a write, in
the leaf's entry at its home slice.
R28 and R29: a shootdown drops every covered translation and instruction byte of every core; BUSY stays while a pin is on a page that
overlaps its range, whatever address space the page belongs to, and goes when none is, with what was translated meanwhile. That the
pins are held to TLBSDVA and TLBSDNP as they stand then, and what the walkers of the islands keep, are the model's choices (assumptions
118 and 53). -/
def Obligations.Translation : Prop :=
  (∀ (core x : Nat) (va : Word) (k : AccessKind) (s w : State) (e : TlbEntry) (pte : Nat), canonical va = true →
     (s.core core).tlb.find? (fun f => f.covers (s.asnOf core x) (va.toNat % 2 ^ 57) && (f.dy || !accWrites k)) = none →
     s.walk (some (coreIsland core)) (s.asnOf core x) (va.toNat % 2 ^ 57) (s.rootOf core x / 4096 * 4096) 4 = (.leaf e pte, w) →
     permFault e k = none → pte % 8 = 0 → 64 * (pte / 64) < 2 ^ 39 →
     ∃ t, exec (.pageWalk core x va k) s = .next t ∧ (t.core core).tlb.head? = some { e with dy := e.dy || accWrites k } ∧
       t.homeWord pte = w.homeWord pte ||| (if accWrites k then 0xC0 else 0x40)) ∧
  (∀ (v : BitVec 64) (s : State), s.regs.booted = true → s.regs.sdBusy = false → v.getLsbD 13 = true →
    ∃ t, exec (.shootdown v) s = .next t ∧ t.regs.sdBusy = true ∧ t.regs.sdAsn = v.toNat % 4096 ∧ t.regs.sdAll = v.getLsbD 12 ∧
      Dropped s t (v.toNat % 4096) (v.getLsbD 12)) ∧
  (∀ s : State, s.regs.sdBusy = true →
    ((∀ p ∈ s.pins, inShootdown s p.page.va (2 ^ (12 + p.page.k)) = false) →
      ∃ t, exec .shootdownComplete s = .next t ∧ t.regs.sdBusy = false ∧ Dropped s t s.regs.sdAsn s.regs.sdAll) ∧
    ((∃ p ∈ s.pins, inShootdown s p.page.va (2 ^ (12 + p.page.k)) = true) → exec .shootdownComplete s = .next s))

/-! ## Streams at work -/

/-- R42, R55, R155, R158 and R159: a generator packs the entry whose bytes it has, or else reads the next piece of its row, or waits;
a write stream drains its head entry row by row; a halted stream is resumed.
R159: the fault of a row halts its stream, which keeps its place, and is delivered late with the stream's number.
R42: every line that a tile fetch reads is pinned when it is read.
R154: an entry's bytes, the poison of its eight clusters, and a local stream's scales, block by block.
That a row is read in pieces that fill one entry, and only while an entry is free, is the model's choice (assumption 129), and so is when a
command bound to a stream starts (33). -/
def Obligations.StreamsAtWork : Prop :=
  (∀ (core x k : Nat) (s : State) (q : Stream) (kinds : List Nat) (e : Instr), q = (s.ctx core x).stream k →
    (kinds = [0, 1, 3] ∧ e = .streamGeneratorRow core x k) ∨ (kinds = [2] ∧ e = .tileFetchEntryFill core x k) →
    s.streamRuns core x k kinds = true → (s.ctx core x).boundDone q = true →
    (q.canPack = true →
      (∀ u, s.packEntry core x k = some u → exec e s = .next u) ∧ (s.packEntry core x k = none → exec e s = .next s)) ∧
    (q.canPack = false → q.wantsRow = true →
      (∀ u b bad lines, s.streamGet core x k (q.rowAt q.row + .ofNat 64 q.off) (min (512 - q.pend.length) (q.rowlen - q.off)) =
          (.ok b bad lines, u) →
        exec e s = .next (u.updCtx core x (fun c => c.setStream k ((c.stream k).taken b bad lines)))) ∧
      (∀ u, s.streamGet core x k q.piece.1 q.piece.2 = (.wait, u) → exec e s = .next s) ∧
      (∀ u c a, s.streamGet core x k q.piece.1 q.piece.2 = (.fault c a, u) → c ≠ 0x47 → (u.ctx core x).stream k = q →
        u.action (classOf c.toNat) 2 < 3 →
        ∃ t, exec e s = .next t ∧ (t.ctx core x).stream k = { q with halt := true, cause := c } ∧
          (t.ctx core x).pending = (u.ctx core x).pending ++ [{ cause := c, src := 8, snum := k, info := a, seen := u.cycle }]))) ∧
  (∀ (core x k n : Nat) (va : Word) (s : State) (q : Stream), q = (s.ctx core x).stream k →
    (∀ a, q.loc = true → localOf va = some a → windowOf a = 0 → s.localFault core x a n = none →
      s.streamGet core x k va n =
        (if s.reserved core (s.banksOf core x a n) then .wait else .ok (s.localBytes core x a n).1 (s.localPoison core x a n) [], s)) ∧
    (∀ u b bad lines, q.loc = false → q.kind ≠ 2 → s.globalBytes core x va n = (.ok (b, bad, lines), u) →
      s.streamGet core x k va n = (.ok b bad [], u)) ∧
    (∀ u b bad lines, q.loc = false → q.kind = 2 → s.streamGet core x k va n = (.ok b bad lines, u) →
      ∀ l ∈ lines, { core := core, x := x, k := k, line := l } ∈ u.linePins)) ∧
  (∀ (core x k : Nat) (s : State) (q : Stream) (e : Entry) (rest : List Entry) (b : List Byte), q = (s.ctx core x).stream k →
    s.drainReady core x k = true → q.entries = e :: rest → q.row < q.count → b = ((vecBytes e.data).drop q.pend.length).take q.drainLen →
    (let at_ := q.rowAt q.row + .ofNat 64 q.off
     (∀ l, q.loc = true → localOf at_ = some l → windowOf l = 0 → s.localFault core x l b.length = none →
      exec (.writeStreamDrain core x k) s = .next
        ((s.localStore core x l b [] false).updCtx core x (fun c => c.setStream k (q.drained b.length)))) ∧
     (∀ u, q.loc = false → s.globalStore core x at_ b [] = (.ok (), u) →
      exec (.writeStreamDrain core x k) s = .next (u.updCtx core x (fun c => c.setStream k (q.drained b.length)))) ∧
     (∀ u c a, q.loc = false → s.globalStore core x at_ b [] = (.error (c, a), u) →
      exec (.writeStreamDrain core x k) s = .next (u.haltStream core x k c a)))) ∧
  (∀ (core x k : Nat) (s : State) (q : Stream), q = (s.ctx core x).stream k →
    (q.halt = true → exec (.sqstatHalt core x k) s = .next
      (s.updCtx core x (fun c => c.setStream k { q with halt := false, cause := 0 }))) ∧
    (q.halt = false → exec (.sqstatHalt core x k) s = .next s) ∧
    (∀ u, s.streamRuns core x k [4] = true → q.entries.length < 8 → q.row < q.count → s.kvFill core x k = some u →
      exec (.kvStreamEntryFill core x k) s = .next u)) ∧
  (∀ (core x k : Nat) (s v : State) (q : Stream) (d : List Byte) (p : List Bool) (l : List Nat), q = (s.ctx core x).stream k →
    s.entryBytes core x k = (.ok d p l, v) → (v.ctx core x).stream k = q → q.scl = false →
    ∃ u e, s.packEntry core x k = some u ∧ (u.ctx core x).stream k = { q with
        entries := q.entries ++ [e], blk := q.blk + 16, pend := q.pend.drop 512, pendPoison := q.pendPoison.drop 512,
        pendLines := [], row := if q.kind = 3 then q.row + 1 else q.row } ∧
      e.scales = 0 ∧ (∀ j < 512, byteOf e.data j = d.getD j 0) ∧ (∀ n ∈ q.pendLines ++ l, n ∈ e.lines) ∧
      ∀ i < 8, e.poison.getLsbD i = (List.range 64).any (fun b => p.getD (64 * i + b) false)) ∧
  (∀ (core x k : Nat) (s : State) (q : Stream) (sc : Nat → Byte), q = (s.ctx core x).stream k → q.loc = true → q.kind ≠ 2 → q.scl = true →
    (∀ i < 16, q.blk + i < q.blocks → s.localGet core x (q.scaleAt (q.blk + i)) 1 = .ok [sc i] [false] []) →
    s.entryBytes core x k = (.ok q.pend q.pendPoison [], s) ∧
    ∃ u e, s.packEntry core x k = some u ∧ ((u.ctx core x).stream k).entries = q.entries ++ [e] ∧
      ∀ i < 16, byteOf e.scales i = if q.blk + i < q.blocks then sc i else 0)

/-- R262 and R263: the KV unit performs an operation whole once every earlier access of its context has been performed, pushes to write
streams among them, and holds its
value for the context; an operation that raises a cause changes nothing else.
R264: allocation takes the head of the free list, with one reference; a release lowers REFS, and the last one frees an unpinned page, which
becomes the head of the free list, and defers the freeing of a pinned one.
R265 to R270, R272 and R273: what each instruction writes to the descriptor, the page list and the entries of its pages, and where it is
refused. -/
def Obligations.KvUnit : Prop :=
  (∀ (core x : Nat) (s : State) (p : Word) (i j : Instr) (a b a' b' : Word), (s.ctx core x).task.isSome = true →
    (s.ctx core x).blocked = .kv j a' b' → (s.ctx core x).kv = .sent p i a b → (s.ctx core x).log = [] →
    (s.ctx core x).writesOut = false →
    s.reserved core (s.banksOf core x ((localOf b).getD 0) (kvLocal i).1) = false →
    (∀ v t, s.kvRun core x i a b = some (.ok (v, t)) →
      exec (.kvOperation core x) s = .next (t.updCtx core x (fun c => { c with kv := .value p v }))) ∧
    (∀ c info, s.kvRun core x i a b = some (.error (c, info)) →
      exec (.kvOperation core x) s = .next (s.updCtx core x (fun k => { k with kv := .cause p c info }))) ∧
    (s.kvRun core x i a b = none → exec (.kvOperation core x) s = .next s)) ∧
  (∀ (core x : Nat) (s : State) (sa sb : Src) (d : BitVec 5) (p : BitVec 2) (o : KAB) (a b : Word) (e : KvEnv)
      (rcd : Nat → List Byte) (bad : Nat → Bool), e = s.kvEnv core x →
    (∀ n, rcd n = (s.localBytes core x ((localOf b).getD 0) n).1 ∧ bad n = (s.localBytes core x ((localOf b).getD 0) n).2) →
    s.kvRun core x (.kvnew sa sb p) a b = some (kvNew e a b s) ∧
    s.kvRun core x (.kvapp d sa sb p) a b = some (kvApp e a (rcd 1024) (bad 1024) s) ∧
    s.kvRun core x (.kvrefInc sa sb p) a b = some (kvRef e a b true s) ∧
    s.kvRun core x (.kvrefDec sa sb p) a b = some (kvRef e a b false s) ∧
    s.kvRun core x (.kvtrunc sa sb p) a b = some (kvTrunc e a b s) ∧
    s.kvRun core x (.kvfind d sa sb p) a b = some (kvFind e a (rcd 64) (bad 64) s) ∧
    s.kvRun core x (.kvpub d sa sb p) a b = some (kvPub e a (rcd 64) (bad 64) s) ∧
    s.kvRun core x (.kvcow sa p) a b = some (kvCow e a s) ∧
    (∀ c info, kvStream e a (rcd 16) (bad 16) s = .error (c, info) → s.kvRun core x (.kvstrm o) a b = some (.error (c, info))) ∧
    (∀ v u q fr w l t, Gets (kvStream e a (rcd 16) (bad 16)) s v u → Gets (readPool e v.pool) u q w → (∃ y, Gets (framesOf e q v.pages) w fr y ∧
        y.pinFrames core x o.k.toNat fr = (.ok l, t)) →
      s.kvRun core x (.kvstrm o) a b = some (.ok (0, t.updCtx core x (fun c => c.setStream o.k.toNat (kvStreamOf v)))))) ∧
  (∀ (e : KvEnv) (p : PoolD) (g : Nat) (c : CptE) (s u : State), Gets (readCpt e p g) s c u → g < p.npages →
    (c.alloc = false → Refuses (livePage e p g) s 0x84 g) ∧
    (c.alloc = true → Gets (livePage e p g) s c u ∧
      (c.refs = 0 → Refuses (kvRelease e p g) s 0x84 g) ∧
      (2 ≤ c.refs → kvRelease e p g s = (do writeCpt e p g { c with refs := c.refs - 1 }; pure p : KvM PoolD) u) ∧
      (c.refs = 1 → c.pins = 0 → c.pub = false → c.defer = false → kvRelease e p g s =
        (do writeCpt e p g { c with refs := 0, cflags := 0, chainp := 0, flink := p.freehead }
            PoolD.store e { p with freehead := g, nfree := (p.nfree + 1) % 2 ^ 32 }
            pure { p with freehead := g, nfree := (p.nfree + 1) % 2 ^ 32 } : KvM PoolD) u) ∧
      (c.refs = 1 → c.pins ≠ 0 → p.ndefer = 0xFFFF_FFFF → Refuses (kvRelease e p g) s 0x8C g) ∧
      (c.refs = 1 → c.pins ≠ 0 → p.ndefer ≠ 0xFFFF_FFFF → kvRelease e p g s =
        (do writeCpt e p g { c with refs := 0, cflags := c.cflags ||| 4 }
            PoolD.store e { p with ndefer := p.ndefer + 1 }
            pure { p with ndefer := p.ndefer + 1 } : KvM PoolD) u) ∧
      (c.refs = 65535 → Refuses (kvAddRef e p g) s 0x83 g) ∧
      (c.refs ≠ 65535 → c.defer = true → p.ndefer = 0 → Refuses (kvAddRef e p g) s 0x8C g) ∧
      (∀ q : PoolD, c.refs ≠ 65535 → (c.defer = true → p.ndefer ≠ 0) → q = (if c.defer then { p with ndefer := p.ndefer - 1 } else p) →
        kvAddRef e p g s =
          (do writeCpt e p g { c with refs := c.refs + 1, cflags := c.cflags &&& 3 }; PoolD.store e q; pure q : KvM PoolD) u) ∧
      (∀ l, (c.pins = 65535 → Refuses (pinPages e p (g :: l)) s 0x83 g) ∧
        (c.pins ≠ 65535 → pinPages e p (g :: l) s =
          (do writeCpt e p g { c with pins := c.pins + 1 }; pinPages e p l : KvM Unit) u)))) ∧
  (∀ (e : KvEnv) (p : PoolD) (s u : State) (c : CptE),
    (∀ g, p.npages ≤ g → Refuses (livePage e p g) s 0x84 g) ∧
    (p.nfree = 0 → Refuses (kvAlloc e p) s 0x82 0) ∧
    (p.nfree ≠ 0 → p.npages ≤ p.freehead → Refuses (kvAlloc e p) s 0x8B p.freehead) ∧
    (p.nfree ≠ 0 → p.freehead < p.npages → Gets (readCpt e p p.freehead) s c u →
      (c.alloc = true ∨ c.defer = true → Refuses (kvAlloc e p) s 0x8B p.freehead) ∧
      (∀ (n : CptE) (q : PoolD), c.alloc = false → c.defer = false →
        n = { frame := c.frame, refs := 1, fill := 0, cflags := 1, ek := 0, ev := 0, rescales := 0, pins := 0, chainp := 0, flink := 0 } →
        q = { p with freehead := c.flink, nfree := p.nfree - 1, nalloc := (p.nalloc + 1) % 2 ^ 64 } →
        kvAlloc e p s = (do writeCpt e p p.freehead n; PoolD.store e q; pure (p.freehead, n, q) : KvM (Nat × CptE × PoolD)) u))) ∧
  (∀ (e : KvEnv) (a b : Word) (s u v : State) (raw : List Byte) (d : SeqD) (p : PoolD), a.toNat % 64 = 0 → Gets (kvRead e a 64) s raw u →
    d = seqOf raw → d.plist.toNat % 4 = 0 → b.toNat % 2 ^ 32 < e.cnt → d.flagsOk = true → b.toNat < 2 ^ 37 → b.toNat / 2 ^ 32 ≤ 24 →
    field raw 56 8 = 0 → Gets (readPool e (b.toNat % 2 ^ 32)) u p v →
    (d.sflags % 2 = 1 → d.npg ≠ 0 → Refuses (kvNew e a b) s 0x85 (kvInfo 4 0 0)) ∧
    (d.sflags % 2 = 0 ∨ d.npg = 0 → kvNew e a b s =
      (do kvWrite e a (le 4 0 ++ le 4 0 ++ bytesOf d.plist 8 ++ le 4 (b.toNat % 2 ^ 32) ++ le 4 (1 + 256 * (b.toNat / 2 ^ 32)) ++
            List.replicate 32 0)
          pure 0 : KvM Word) v)) ∧
  (∀ (e : KvEnv) (a b : Word) (s u : State) (p : PoolD), a.toNat < e.cnt → Gets (readPool e a.toNat) s p u → b.toNat < p.npages →
    kvRef e a b true s = (do let _ ← kvAddRef e p b.toNat; pure 0 : KvM Word) u ∧
    kvRef e a b false s = (do let _ ← kvRelease e p b.toNat; pure 0 : KvM Word) u) ∧
  (∀ (e : KvEnv) (a : Word) (s u : State) (d : SeqD) (p : PoolD) (slot : Nat), Sequence e a s d p u → slot = d.length % 16 →
    (∀ (rcd : List Byte) (xs : List Lane), xs = (List.range 256).map (fun i => .ofNat 32 (field rcd (4 * i) 4)) →
      (slot = 0 → 2 ^ d.lcap ≤ d.npg → Refuses (kvApp e a rcd false) s 0x87 (kvInfo 4 0 0)) ∧
      (∀ g c v w, slot ≠ 0 → Gets (listPage e d (d.length / 16)) u g v → Gets (livePage e p g) v c w →
        (2 ≤ c.refs ∨ c.pins ≠ 0 → Refuses (kvApp e a rcd false) s 0x80 g) ∧
        (c.refs ≤ 1 → c.pins = 0 → (∀ x ∈ xs, bits x.toNat 30 23 ≠ 255) →
          kvApp e a rcd false s = (appendAt e a d p slot g c xs : KvM Word) w)) ∧
      (∀ g c q v, slot = 0 → d.npg < 2 ^ d.lcap → (∀ x ∈ xs, bits x.toNat 30 23 ≠ 255) → Gets (kvAlloc e p) u (g, c, q) v →
        kvApp e a rcd false s = (do setListPage e d (d.length / 16) g; appendAt e a d p 0 g c xs : KvM Word) v) ∧
      (∀ i < 256, slot = 0 → d.npg < 2 ^ d.lcap → bits (xs.getD i 0).toNat 30 23 = 255 → (∀ j < i, bits (xs.getD j 0).toNat 30 23 ≠ 255) →
        Refuses (kvApp e a rcd false) s 0x86 (kvInfo (4 * i) 5 0))) ∧
    (slot = 0 → Gets (kvCow e a) s 0 u) ∧
    (∀ g c v w, slot ≠ 0 → Gets (listPage e d (d.length / 16)) u g v → Gets (livePage e p g) v c w →
      (c.refs = 1 → c.pins = 0 → Gets (kvCow e a) s 0 w) ∧
      (∀ n m q y k z vb y', ¬(c.refs = 1 ∧ c.pins = 0) → Gets (kvAlloc e p) w (n, m, q) y →
        Gets (kvRead e (p.frame + .ofNat 64 (4096 * c.frame)) (128 * slot)) y k z →
        Gets (kvRead e (p.frame + .ofNat 64 (4096 * c.frame) + 0x800) (128 * slot)) z vb y' →
        kvCow e a s =
          (do kvWrite e (p.frame + .ofNat 64 (4096 * m.frame)) (k.map (fun x => if x = 0x80 then 0x81 else x))
              kvWrite e (p.frame + .ofNat 64 (4096 * m.frame) + 0x800) (vb.map (fun x => if x = 0x80 then 0x81 else x))
              writeCpt e q n { m with ek := c.ek, ev := c.ev, fill := slot }
              setListPage e d (d.length / 16) n
              let _ ← kvRelease e q g
              pure 0 : KvM Word) y')) ∧
    (∀ b : Word, (d.length < b.toNat → Refuses (kvTrunc e a b) s 0x85 (kvInfo 0 0 0)) ∧
      (∀ n q v, b.toNat ≤ d.length → n = (b.toNat + 15) / 16 → Gets (dropPages e d n (d.npg - n) p) u q v →
        (let last := fun (t : State) => shortened e a d b.toNat n t
         (b.toNat % 16 = 0 → kvTrunc e a b s = last v) ∧
         (∀ g c w y, b.toNat % 16 ≠ 0 → Gets (listPage e d (b.toNat / 16)) v g w → Gets (livePage e q g) w c y →
           (¬(c.refs = 1 ∧ c.pins = 0) → kvTrunc e a b s = last y) ∧
           (∀ z, c.refs = 1 → c.pins = 0 → Gets (writeCpt e q g { c with fill := b.toNat % 16 }) y () z → kvTrunc e a b s = last z))))) ∧
    (∀ (ids h : List Byte), h = sha3 (d.chain ++ ids) →
      (d.broken = true ∨ d.chained ≠ d.npg ∨ d.length ≠ 16 * d.npg → ∃ off, Refuses (kvFind e a ids false) s 0x85 (kvInfo off 0 0)) ∧
      (d.broken = false → d.chained = d.npg → d.length = 16 * d.npg →
        (2 ^ d.lcap ≤ d.npg → Refuses (kvFind e a ids false) s 0x87 (kvInfo 4 0 0)) ∧
        (d.npg < 2 ^ d.lcap →
          (p.hash = 0 → Gets (kvFind e a ids false) s (BitVec.allOnes 64) u) ∧
          (∀ v, p.hash ≠ 0 → Gets (probe e p (field h 0 8) (fun b => b.take 32 == h) 16 0) u none v →
            Gets (kvFind e a ids false) s (BitVec.allOnes 64) v) ∧
          (∀ i b v q w, p.hash ≠ 0 → Gets (probe e p (field h 0 8) (fun b => b.take 32 == h) 16 0) u (some (i, b)) v →
            Gets (kvAddRef e p (field b 0x20 4)) v q w →
            kvFind e a ids false s =
              (do setListPage e d d.npg (field b 0x20 4)
                  kvWrite e a { d with length := (d.length + 16) % 2 ^ 32, npg := d.npg + 1, chain := h,
                                       sflags := d.withChained false (d.chained + 1) }.bytes
                  pure (.ofNat 64 (field b 0x20 4)) : KvM Word) w))) ∧
      (d.broken = true ∨ 65535 ≤ d.chained ∨ d.length < 16 * (d.chained + 1) → ∃ off, Refuses (kvPub e a ids false) s 0x85 (kvInfo off 0 0)) ∧
      (∀ g c v w y, d.broken = false → d.chained < 65535 → 16 * (d.chained + 1) ≤ d.length → Gets (listPage e d d.chained) u g v →
        Gets (livePage e p g) v c w →
        Gets (kvWrite e a { d with chain := h, sflags := d.withChained false (d.chained + 1) }.bytes) w () y →
        (c.pub = true → Gets (kvPub e a ids false) s (.ofNat 64 g) y) ∧
        (c.pub = false → p.hash = 0 → Gets (kvPub e a ids false) s (BitVec.allOnes 64) y) ∧
        (∀ f z, c.pub = false → p.hash ≠ 0 → Gets (probe e p (field h 0 8) (fun b => b.take 32 == h) 16 0) y f z →
          (∀ r, f = some r → field r.2 0x20 4 ≠ g → Gets (kvPub e a ids false) s (.ofNat 64 (field r.2 0x20 4)) z) ∧
          ((∀ r, f = some r → field r.2 0x20 4 = g) →
            (∀ y', Gets (freeBucket e p (field h 0 8) 16 0) z none y' → Gets (kvPub e a ids false) s (BitVec.allOnes 64) y') ∧
            (∀ i y', Gets (freeBucket e p (field h 0 8) 16 0) z (some i) y' → kvPub e a ids false s =
              (do kvWrite e (p.hash + .ofNat 64 (64 * i)) (h ++ le 4 g ++ le 1 1)
                  writeCpt e p g { c with cflags := c.cflags ||| 2, chainp := field h 0 8 }
                  pure (.ofNat 64 g) : KvM Word) y'))))) ∧
    (∀ (rcd : List Byte) (first ntok : Nat), first = field rcd 0 4 → ntok = field rcd 4 4 → first % 16 = 0 → 1 ≤ ntok → field rcd 8 1 ≤ 1 →
      field rcd 9 7 = 0 →
      (d.length < first + ntok → Refuses (kvStream e a rcd false) s 0x88 (kvInfo 0 5 0)) ∧
      (∀ l v, first + ntok ≤ d.length → Gets (pageRange e d (first / 16) ((ntok + 15) / 16)) u l v → kvStream e a rcd false s =
        (do pinPages e p l
            pure { mode := field rcd 8 1 == 1, first := first, ntok := ntok, pool := d.pool, pages := l, lo := 0, npin := l.length } :
          KvM KvStream) v)))

/-! ## Ferries, the matrix unit and the crossbars at work -/

/-- R44, R47 to R53: the head command of a queue that may transfer starts if it has not, and makes its next transfer, or waits for a
pin; a follow-on joins the matrix queue, or its checks fail and a late fault of the unit follows; HALT lets a halted queue go on, and
DISCARD drops its head command with its banks and pins.
R47, R48, R50: one transfer of a local copy moves up to 512 bytes of its row: they stand at the destination afterwards, and the command is
that much further, or at its next row. A row that overlaps its destination is read whole first. The last transfer of the last row gives up
the queue's pins, and hands on the command's word or ends it. -/
def Obligations.FerryWork : Prop :=
  (∀ (core q x n : Nat) (s u v : State) (f g : FerryCmd), x = q / 2 → n = q % 2 → (s.ctx core x).ferryHead n = some f →
    u = (if f.owed = [] then s.updCore core (fun k => { k with ferryLast := q }) else s) → v = (if f.started then u else u.startFerry core x n f) →
    g = (if f.started then f else { f with started := true, held := f.held ++ s.farHolds core x f }) →
    (s.ferryMay core x n f = false → exec (.ferryTransfer core q) s = .next s) ∧
    (s.ferryMay core x n f = true →
      (∀ t, v.ferryStep core x n g = some t → exec (.ferryTransfer core q) s = .next t) ∧
      (v.ferryStep core x n g = none → exec (.ferryTransfer core q) s = .next s))) ∧
  (∀ (core q x n : Nat) (s : State) (f : FerryCmd) (i : Instr) (va vb : Word) (table : List Word) (e : UnitEntry), x = q / 2 → n = q % 2 →
    s.followReady core q = true → (s.ctx core x).ferryHead n = some f → decodeWord (f.mword.toNat % 2 ^ 31) = .ok i →
    va = f.mopa.setWidth 64 → vb = f.mopb.setWidth 64 →
    (table = [] ∧ ((∃ e t p, i = .zzero e t p) ∨ (∃ t u p, i = .zacc t u p) ∨ ∃ o, i = .tmma o ∨ i = .tmmaZ o)) ∨
      ((∃ o, i = .tmmg o ∨ i = .tmmgZ o) ∧ s.localFault core x f.mopb.toNat 128 = none ∧
        (s.localBytes core x f.mopb.toNat 128).2 = false ∧ table = s.groupTable core x vb) →
    e = s.matrixEntry core x f.mword i va vb table true →
    (s.matrixBad core x i va vb table true = none → exec (.followOnHandoff core q) s =
      .next ((s.updCtx core x (fun c => { c with mq := c.mq ++ [e], stepCount := c.stepCount + e.steps })).popFerry core x n)) ∧
    (∀ rank c, s.matrixBad core x i va vb table true = some (rank, c) → exec (.followOnHandoff core q) s =
      .next ((s.lateFault core x c 6 0 (f.mword.setWidth 64) 1).popFerry core x n))) ∧
  (∀ (core x n : Nat) (s : State),
    exec (.fqstatHalt core x n) s = .next (s.updCtx core x (fun c => c.setFerryQ n { c.ferryQ n with halt := false, cause := 0 }))) ∧
  (∀ (core x n : Nat) (s : State) (f : FerryCmd), ((s.ctx core x).ferryQ n).halt = true → (s.ctx core x).ferryHead n = some f →
    exec (.fqstatDiscard core x n) s = .next
      ((((s.unreserveFerry f).dropFerryPins core x n).resumeFerry core x n).popFerry core x n)) ∧
  (∀ (core x n : Nat) (s : State) (f : FerryCmd) (a b len : Nat) (bytes : List Byte), (s.ctx core x).ferryHead n = some f →
     f.sloc = true → f.dloc = true → f.gather = false → f.bound = false → f.mcast = 0 → f.owed = [] → f.bar = 0 →
     f.row < f.nrows → f.off < f.rowlen → f.rowlen < 2 ^ 32 → len = min 512 (f.rowlen - f.off) →
     rowAddr f.src f.sstr f.row = .ofNat 64 a → rowAddr f.dst f.dstr f.row = .ofNat 64 b → a < 2 ^ 32 → b < 2 ^ 32 →
     s.localFault core x (a + f.off) len = none → s.localFault core x (b + f.off) len = none → windowOf (a + f.off) = 0 → windowOf (b + f.off) = 0 →
     (f.rowbuf = [] → f.overlapping (.ofNat 64 a) = true → f.off = 0) → (f.rowbuf = [] ∨ f.rowbuf.length = f.rowlen) →
     bytes = (if f.rowbuf = [] then (s.localBytes core x (a + f.off) len).1 else (f.rowbuf.drop f.off).take len) →
     ∃ t, s.ferryStep core x n f = some t ∧ (t.localBytes core x (b + f.off) len).1 = bytes ∧
       (f.off + len < f.rowlen → ∃ rb rp, (t.ctx core x).ferryHead n = some { f with off := f.off + len, rowbuf := rb, rowpoison := rp } ∧
         rb = (if f.rowbuf = [] then (if f.overlapping (.ofNat 64 a) then (s.localBytes core x a f.rowlen).1 else []) else f.rowbuf)) ∧
       (f.off + len = f.rowlen → f.row + 1 < f.nrows → (t.ctx core x).ferryHead n =
         some { f with row := f.row + 1, off := 0, rowsrc := none, rowbuf := [], rowpoison := [] }) ∧
       (f.off + len = f.rowlen → f.row + 1 = f.nrows →
         (∀ p ∈ t.pins, (p.core == core && p.x == x && p.holder == .ferry n) = false) ∧
         (f.mword = 0 → ∃ v : State, t = v.popFerry core x n) ∧
         (f.mword ≠ 0 → (t.ctx core x).ferryHead n = some { f with
           row := f.row + 1, off := 0, rowsrc := none, rowbuf := [], rowpoison := [], held := [], handing := true })))

/-- R216, R217, R226, R227, R230 to R232, R316, R317: a matrix instruction starts with its tile's rows or with zeros; it gathers its
operands, and a step that may start is counted and takes the unit; a tile instruction takes one row in a cycle; an instruction that is
done leaves its rows and its tile's type, and its flags and counts; a dummy step counts and does nothing else.
R223: an element of an integer step is the exact sum of the products, added to the tile's element and saturated to 32 bits; one of a
float step is the exact sum rounded once to FP32 and then added; blocks follow one another; a NaN block gives a NaN.
R229 and R230: the rows of `zzero`, `zld`, `zcvt`, `zacc` and `zst`, and the conversions of `zst`.
That `zld` reads its whole extent at its first row, and when dummies are wanted, is the model's choice (assumptions 142 and 45). -/
def Obligations.MatrixWork : Prop :=
  (∀ (core x : Nat) (s : State) (e : UnitEntry) (rest : List UnitEntry), s.matrixCanStart core = true → s.nextMatrix core = some x →
    (s.ctx core x).mq = e :: rest →
    (s.startBad core x e.instr e = none → ∃ t m, exec (.matrixInstructionStart core) s = .next t ∧ (t.core core).matrix = some m ∧
      m.x = x ∧ m.entry = e ∧ m.step = 0 ∧ m.flags = 0 ∧ m.sat = 0 ∧ m.free = s.cycle ∧ (t.ctx core x).mq = rest ∧
      ∀ f, productOf e.instr = some f → ∀ r < 64, mget 0 m.work r =
        if f.acc then (s.accRow core (s.physTile core x f.tile) r).data else 0) ∧
    (∀ c, s.startBad core x e.instr e = some c → exec (.matrixInstructionStart core) s =
      .next ((s.updCtx core x (fun k => { k with mq := rest })).matrixFault core x e c))) ∧
  (∀ (core : Nat) (s : State) (m : MatrixBusy) (f : Product) (u : UnitStep), (s.core core).matrix = some m →
    (s.unitNext m = .step f u → s.warmHeld core m.x = false →
      s.rampFits core (m.stepCycles f u / 4) (s.ctx core m.x).isAwaited = true →
      exec (.matrixStep core) s = .next (s.startStep core m f u)) ∧
    (s.unitNext m = .gatherA f u →
      (∀ p v, s.gatherA core m f u = .more p v → exec (.matrixStep core) s = .next (v.setMatrix core { m with pa := p })) ∧
      (∀ c, s.gatherA core m f u = .fault c → exec (.matrixStep core) s = .next (s.matrixFault core m.x m.entry c)) ∧
      (s.gatherA core m f u = .wait → exec (.matrixStep core) s = .next s)) ∧
    (s.unitNext m = .gatherB f u →
      (∀ p v, s.gatherB core m f u = .more p v → exec (.matrixStep core) s = .next (v.setMatrix core { m with pb := p })) ∧
      (∀ c, s.gatherB core m f u = .fault c → exec (.matrixStep core) s = .next (s.matrixFault core m.x m.entry c)) ∧
      (s.gatherB core m f u = .wait → exec (.matrixStep core) s = .next s))) ∧
  (∀ (core r : Nat) (s : State) (m : MatrixBusy), (s.core core).matrix = some m → s.unitNext m = .row r →
    (let p := m.entry.rowExtent r
     let tile := fun (t : BitVec 4) => s.physTile core m.x t.toNat
     let row := fun (t : BitVec 4) => (s.accRow core (tile t) r).data
     let runs := fun (t : State) (k : MatrixBusy) => exec (.matrixStep core) s = .next (t.setMatrix core k) ∧ k.x = m.x ∧ k.entry = m.entry ∧
       k.step = r + 1
     (s.reserved core (s.banksOf core m.x p.1 p.2) = true → exec (.matrixStep core) s = .next s) ∧
     (s.reserved core (s.banksOf core m.x p.1 p.2) = false →
       (∀ e t q, m.entry.instr = .zzero e t q → ∃ w k, runs w k ∧ ∀ i < 64, (w.accRow core (tile t) i).data = 0) ∧
       (∀ e t a q, m.entry.instr = .zld e t a q →
         (r = 0 → (s.localBytes core m.x p.1 32768).2 = true → exec (.matrixStep core) s = .next (s.matrixFault core m.x m.entry 0x47)) ∧
         (r = 0 → (s.localBytes core m.x p.1 32768).2 = false → ∃ k,
           (∀ i < 64, ∀ j < 512, byteOf (mget 0 k.work i) j = (s.localBytes core m.x p.1 32768).1.getD (512 * i + j) 0) ∧
           runs (s.writeRows core (tile t) [(0, mget 0 k.work 0)]) k) ∧
         (r ≠ 0 → ∃ k, k.work = m.work ∧ runs (s.writeRows core (tile t) [(r, mget 0 m.work r)]) k)) ∧
       (∀ t a g q, m.entry.instr = .zst t a g q ∨ m.entry.instr = .zstR t a g q → ∃ k, k.sat = m.sat ∧
         k.flags = m.flags ||| orFlags ((List.range 128).map (fun j => (zstElem (s.tagOf core (tile t)) g.toNat (lane (row t) j)).2)) ∧
         runs (s.localStore core m.x ((localOf m.entry.a).getD 0 + 128 * (if g = 5 ∨ g = 6 then 2 else 4) * r)
           ((List.range 128).flatMap (fun j => (zstElem (s.tagOf core (tile t)) g.toNat (lane (row t) j)).1)) [] false) k) ∧
       (∀ t v a q, m.entry.instr = .zcvt t v a q → ∃ d k, runs (s.writeRows core (tile t) [(r, d)]) k ∧
         (let out := fun j => zcvtElem (s.tagOf core (tile v)) (bits m.entry.b.toNat 31 0) (lane (row v) j)
          (∀ j < 128, lane d j = (out j).1) ∧ k.flags = m.flags ||| orFlags ((List.range 128).map (fun j => (out j).2.1)))) ∧
       (∀ t v q, m.entry.instr = .zacc t v q → ∃ d k, runs (s.writeRows core (tile t) [(r, d)]) k ∧
         (let out := fun j => zaccElem (s.tagOf core (tile t)) (lane (row t) j) (lane (row v) j)
          (∀ j < 128, lane d j = (out j).1) ∧ k.flags = m.flags ||| orFlags ((List.range 128).map (fun j => (out j).2.1)) ∧
          k.sat = m.sat + ((List.range 128).map (fun j => (out j).2.2)).sum))))) ∧
  (∀ (a d : Lane),
    zstElem true 3 a = (bytesOf a 4, 0) ∧ zstElem false 4 a = (bytesOf a 4, 0) ∧
    zstElem true 4 a = (bytesOf (BitVec.ofNat 32 (fp32.ofInt .rne a.toInt).1) 4, (fp32.ofInt .rne a.toInt).2) ∧
    zstElem false 5 a = (bytesOf (BitVec.ofNat 16 (bf16.convert .rne (fp32.unpack a.toNat)).1) 2, (bf16.convert .rne (fp32.unpack a.toNat)).2) ∧
    zstElem false 6 a = (bytesOf (BitVec.ofNat 16 (fp16.convert .rne (fp32.unpack a.toNat)).1) 2, (fp16.convert .rne (fp32.unpack a.toNat)).2) ∧
    zaccElem false d a = (.ofNat 32 (fp32.add .rne d.toNat a.toNat).1, (fp32.add .rne d.toNat a.toNat).2, 0) ∧
    zaccElem true d a = (.ofInt 32 (max (-2 ^ 31) (min (d.toInt + a.toInt) (2 ^ 31 - 1))), 0,
      if d.toInt + a.toInt < -2 ^ 31 ∨ 2 ^ 31 ≤ d.toInt + a.toInt then 1 else 0) ∧
    ∀ n, zcvtElem false n a = (.ofNat 32 (fp32.mul .rne a.toNat n).1, (fp32.mul .rne a.toNat n).2, 0)) ∧
  (∀ (core : Nat) (s : State) (m : MatrixBusy) (c : Ctx), s.matrixDone core = true → (s.core core).matrix = some m → c = s.ctx core m.x →
    m.flags &&& c.tvec.extractLsb' 57 5 = 0 ∨ c.hnd = true →
    ∃ t, exec (.matrixInstructionComplete core) s = .next t ∧ (t.core core).matrix = none ∧ (t.ctx core m.x).fflags = c.fflags ||| m.flags ∧
      (t.ctx core m.x).mxsat = c.mxsat + .ofNat 64 m.sat ∧
      (t.ctx core m.x).mxrag = c.mxrag + .ofNat 64 ((m.entry.table.map (fun w => bits w.toNat 38 32)).sum - 64) ∧
      (∀ e z p, (m.entry.instr = .zzero e z p ∨ ∃ a, m.entry.instr = .zld e z a p) →
        t.acc = s.acc ∧ t.tagOf core (s.physTile core m.x z.toNat) = e) ∧
      (∀ z v a p, m.entry.instr = .zcvt z v a p → t.acc = s.acc ∧ t.tagOf core (s.physTile core m.x z.toNat) = false) ∧
      ((∃ z a g p, m.entry.instr = .zst z a g p ∨ m.entry.instr = .zstR z a g p) ∨ (∃ z v p, m.entry.instr = .zacc z v p) →
        t.acc = s.acc ∧ t.ztag = s.ztag) ∧
      (∀ f, productOf m.entry.instr = some f → (m.work.map (·.1)).Nodup →
        t.tagOf core (s.physTile core m.x f.tile) = m.entry.int f ∧
        (∀ w ∈ m.work, w.1 ∈ f.rows m.entry.b m.entry.table →
          t.accRow core (s.physTile core m.x f.tile) w.1 = { data := w.2, poison := false }) ∧
        ∀ r < 64, r ∉ f.rows m.entry.b m.entry.table →
          t.accRow core (s.physTile core m.x f.tile) r = s.accRow core (s.physTile core m.x f.tile) r)) ∧
  (∀ (core n : Nat) (s : State), n = coreIsland core → s.dummyWanted n = true → s.dummyUnit core = true →
    ∃ r p, exec (.dummyStep core) s = .next { s with ramps := r, regs := { s.regs with pmc := p } } ∧
      (mget Ramp.reset r n).count = (s.rampNow n).count + 8 ∧ (mget Ramp.reset r n).dummies = (s.rampNow n).dummies + 1 ∧
      mget 0 p (8 * n + 1) = mget 0 s.regs.pmc (8 * n + 1) + 1) ∧
  (∀ (n : Nat) (s : State), s.windowOver n = true → exec (.rampWindowEnd n) s = .next (s.updRamp n (fun r => { r with
    window := r.window + 1, last := r.count, count := 0, dummiesLast := r.dummies, dummies := 0 }))) ∧
  (∀ (xs ys : List Int) (z : Lane) (n : Int), xs.length = ys.length → n = z.toInt + ((xs.zip ys).map (fun p => p.1 * p.2)).sum →
     (let a : Block := { nan := false, scale := 0, vals := xs.map (fun i => Num.ofInt i 0) }
      let b : Block := { nan := false, scale := 0, vals := ys.map (fun i => Num.ofInt i 0) }
      stepElem true [a] [b] z = (.ofInt 32 (max (-2 ^ 31) (min n (2 ^ 31 - 1))), 0, if n < -2 ^ 31 ∨ 2 ^ 31 ≤ n then 1 else 0))) ∧
  (∀ (xs ys : List (Bool × Nat × Nat)) (sa sb : Int) (z : Lane) (n : Int), xs.length = ys.length →
     n = ((xs.zip ys).map (fun p => (if p.1.1 = p.2.1 then 1 else -1) * ((p.1.2.1 * p.2.2.1 * 2 ^ (p.1.2.2 + p.2.2.2) : Nat) : Int))).sum →
     (let num := fun (q : Bool × Nat × Nat) => Num.fin q.1 q.2.1 ((q.2.2 : Int) - 32)
      let a : Block := { nan := false, scale := sa, vals := xs.map num }
      let b : Block := { nan := false, scale := sb, vals := ys.map num }
      let p := fp32.rnd .rne (decide (n < 0)) n.natAbs (sa + sb - 64)
      let t := fp32.add .rne z.toNat p.1
      stepElem false [a] [b] z = (.ofNat 32 t.1, p.2 ||| t.2, 0))) ∧
  (∀ (a b : Block) (as bs : List Block) (z : Lane),
     (a.nan = true ∨ b.nan = true → stepElem false [a] [b] z =
       (.ofNat 32 (fp32.add .rne z.toNat fp32.nan).1, (fp32.add .rne z.toNat fp32.nan).2, 0)) ∧
     stepElem false (a :: as) (b :: bs) z =
       (let first := stepElem false [a] [b] z
        let rest := stepElem false as bs first.1
        (rest.1, first.2.1 ||| rest.2.1, 0)))

/-- R239, R241 to R243, R247, R248, R250, R252, R316, R317 and R361: array instructions start, one in a cycle, or fault as they start, and the
remap that takes the last spare sets REPLACE; they
take their cycles and complete; a fallback takes the unit for each 32 cycles and gives it back after the last of them; an automatic tide
check takes the array for 192 cycles and has its outcome at their end; and a period is written.
R238: a raw count is corrected with the offset and the gain of its column, rounded to the nearest integer, ties to even, and kept within
0 and 15 d; without software calibration a corrected count is within 1 of the ideal one.
R241: a tide check fails when a corrected count is more than 1 from its ideal, 16 times the tide column's code; a failure sets DRIFT
and counts in TRIPS, a check that passes clears DRIFT.
R236, R237 and R239: where no conversion clips, a digital fallback gives each logical column the exact product of the inputs and the
committed weights, scaled by the column's scale and the input's. -/
def Obligations.CrossbarWork : Prop :=
  (∀ (core x n : Nat) (s : State) (e : UnitEntry) (rest : List UnitEntry), s.nextXbar core = some x → (s.ctx core x).xq = e :: rest →
    n = arrayNo core (arrayOf e.instr) →
    (∀ cause, s.xbarStartBad core x e.instr e = some cause → exec (.crossbarInstructionStart core) s =
      .next ((xbarTaken s core x rest).xbarFault core x (arrayOf e.instr) e cause)) ∧
    (s.xbarStartBad core x e.instr e = none →
      ((∀ o, e.instr ≠ .xremap o) →
        ∃ t, exec (.crossbarInstructionStart core) s = .next t ∧ (t.ctx core x).xq = rest ∧
          (t.core core).xbarAt = some s.cycle ∧ t.nextXbar core = none ∧
          (t.array n).busy = some (s.xbarBusy core x e.instr e) ∧
          ∀ o, e.instr = .xload o →
            (t.array n).committed (e.b.toNat % 256) = ofBytes 1024 (s.localBytes core x (unitAddr e.a) 128).1 ∧
            e.b.toNat % 256 ∉ (t.array n).ready) ∧
      (∀ o, e.instr = .xremap o → (s.array n).spused < 15 →
        ∃ t, exec (.crossbarInstructionStart core) s = .next t ∧
          t.array n = { (s.array n).move (e.a.toNat % 256) with busy := some (s.xbarBusy core x e.instr e) } ∧
          (t.array n).phys (e.a.toNat % 256) = 256 + (s.array n).spused) ∧
      (∀ o, e.instr = .xremap o → (s.array n).spused = 15 → s.action 9 5 ≠ 3 →
        ∃ t, exec (.crossbarInstructionStart core) s = .next t ∧
          t.array n = { (s.array n).move (e.a.toNat % 256) with busy := some (s.xbarBusy core x e.instr e) } ∧
          (t.array n).phys (e.a.toNat % 256) = 271 ∧ (t.array n).spused = 16 ∧ t.regs.replace = true))) ∧
  (∀ (core arr : Nat) (s : State) (b : XbarBusy), s.xbarDone core arr = true → (s.array (arrayNo core arr)).busy = some b →
    (∀ z o, b.entry.instr ≠ .xmv z o) →
    exec (.crossbarInstructionComplete core arr) s = .next ((s.xbarFinish core arr b).xbarEnd core arr b) ∧
    (∀ o, b.entry.instr = .xcalLdsc o → ∀ j < 256, ((s.xbarFinish core arr b).array (arrayNo core arr)).scaleOf j = b.words.getD j 0) ∧
    (∀ o l p, b.entry.instr = .xver o → p = b.entry.b.toNat % 512 → (s.array (arrayNo core arr)).owner p = some l →
      (s.array (arrayNo core arr)).mismatch p = 0 → l ∈ ((s.xbarFinish core arr b).array (arrayNo core arr)).ready)) ∧
  (∀ (core arr : Nat) (s : State) (b : XbarBusy) (z : BitVec 2) (o : KAB), s.xbarDone core arr = true →
    (s.array (arrayNo core arr)).busy = some b → b.entry.instr = .xmv z o →
    exec (.crossbarInstructionComplete core arr) s = .next (s.xmvVector core arr b)) ∧
  (∀ (core arr : Nat) (s : State), s.fallbackReady core arr = true →
    (s.fallbackOver core arr = false →
      ∃ t, exec (.digitalFallback core arr) s = .next t ∧ (t.ramp (coreIsland core)).count = (s.rampNow (coreIsland core)).count + 8 ∧
        (t.core core).fallback = some { arr := arr, steps := (s.core core).fallback.elim 0 (·.steps) + 1, free := s.cycle + 32 }) ∧
    (∀ b, (s.array (arrayNo core arr)).busy = some b → s.fallbackOver core arr = true →
      ∃ t, exec (.digitalFallback core arr) s = .next t ∧ (t.core core).fallback = none ∧
        (t.array (arrayNo core arr)).busy = some { b with released := true, free := s.cycle + 40 })) ∧
  (∀ (core arr n : Nat) (s : State), n = arrayNo core arr →
    (s.tideOver n = false → s.tideReady n = true →
      exec (.tideCheck core arr) s = .next (s.updArray n (fun a => { a with tideEnd := some (s.cycle + 192) }))) ∧
    (s.tideOver n = true → ∀ u, u = s.updArray n (fun a => { a with
        tideEnd := none, free := s.cycle, tideDue := some (s.cycle + s.tidePeriod (coreShoal core)) }) →
      exec (.tideCheck core arr) s = .next (u.takeFree.tideDone n ((u.array n).tideCounts u.free) none))) ∧
  (∀ (h : Nat) (v : BitVec 64) (s : State) (n : Nat), s.regs.booted = true → h < 16 → coreShoal (n / 16) = h →
    ∃ t, exec (.xdriftpWrite h v) s = .next t ∧ t.tidePeriod h = 1900 * (v.toNat % 2 ^ 32) ∧
      t.tideDue n = s.cycle + 1900 * (v.toNat % 2 ^ 32)) ∧
  (∀ (s : State) (n : Nat) (c : List Nat), c.length = 64 →
     ((∀ i < 64, c.getD i 0 ≤ 16 * (4 * (i % 4) + 3) + 1 ∧ 16 * (4 * (i % 4) + 3) ≤ c.getD i 0 + 1) →
       s.tideDone n c none = s.updArray n (fun a => { a with drift := false, tidedev := tideDeviation c })) ∧
     (∀ i < 64, 16 * (4 * (i % 4) + 3) + 1 < c.getD i 0 ∨ c.getD i 0 + 1 < 16 * (4 * (i % 4) + 3) →
       ((s.tideDone n c none).array n).drift = true ∧
       ((s.tideDone n c none).array n).trips = min ((s.array n).trips + 1) 65535)) ∧
  (∀ (raw d : Nat) (off : BitVec 10) (gain : BitVec 16) (v : Int), v = (16 * raw - off.toInt) * gain.toNat →
     ∃ q : Int, 2 * (v - q * 2 ^ 18) ≤ 2 ^ 18 ∧ 2 * (q * 2 ^ 18 - v) ≤ 2 ^ 18 ∧
       (2 * (v - q * 2 ^ 18) = 2 ^ 18 ∨ 2 * (q * 2 ^ 18 - v) = 2 ^ 18 → q % 2 = 0) ∧
       (corrected raw off gain d : Int) = max 0 (min q (15 * d))) ∧
  (∀ (d c r : Nat) (off : BitVec 10) (gain : BitVec 16) (w : Word), c ≤ 15 * d → r = analogCount false off gain d c w →
     r ≤ c + 1 ∧ c ≤ r + 1 ∧ r ≤ 15 * d) ∧
  (∀ (a : XArray) (d : Nat) (xs : List Byte) (sin : Lane) (draw j : Nat) (y : Int), d = 16 ∨ d = 32 ∨ d = 64 → xs.length = 256 → j < 256 →
     (∀ g k, g < 256 / d → k < 8 → idealCount (a.committed j) xs d g k ≤ 511) →
     y = ((List.range 256).map (fun i => (xs.getD i 0).toInt * ((codeAt (a.committed j) i : Int) - 8))).sum →
     (a.multiply true d xs sin draw).1[j]? = some (columnOut y (a.scaleOf j) sin).1)

/-! ## The links and the Sound engine at work -/

/-- R278 to R281 and R368: what the events of the links count, log and change: replays, retraining, training, a port taken down, and a
port enabled or disabled; and traffic for another device that the routing table forwards leaves again through the ports that may carry
it, or waits until one does.
R282: an access of another device is refused where its window is not valid, is too short or lacks the permission, and is otherwise
performed at the home slices and answered; one to a page that is being shot down is not taken yet (assumption 130). -/
def Obligations.LinksAndWindows : Prop :=
  (∀ (n : BitVec 16) (s : State), n ≠ 0 →
    (∃ t, exec (.narrowsSectorReceive n true) s = .next t ∧ (t.link 18).replays = (s.link 18).replays + n.setWidth 32 ∧
      (t.link 18).head = (s.link 18).head + 1) ∧
    (∃ t, exec (.narrowsSectorReceive n false) s = .next t ∧ (t.link 18).head = (s.link 18).head + 1)) ∧
  (∀ (p dest : Nat) (n : BitVec 16) (lane : Byte) (s : State), p < 18 → s.portCarries p = true → n.toNat ≤ 8 →
    ∃ t, exec (.straitFlitReceive p dest { tries := n, lane := lane }) s = .next t ∧ (t.link p).replays = (s.link p).replays + n.setWidth 32 ∧
      (n ≠ 0 → (t.link p).head = (s.link p).head + 1) ∧
      (s.forwards dest = false → t.outbox = s.outbox ∧ t.transit = s.transit ∧ (n = 0 → t = s)) ∧
      (s.forwards dest = true → s.portsTo dest = [] → t.outbox = s.outbox ∧ t.transit = s.transit ++ [.ofNat 8 dest]) ∧
      (s.forwards dest = true → s.portsTo dest ≠ [] → t.transit = s.transit ∧
        ∃ m : BitVec 18, t.outbox = s.outbox ++ [.onward (BitVec.ofNat 8 dest) m] ∧
          ∀ k < 18, (m.getLsbD k = true ↔ k ∈ s.portsTo dest))) ∧
  (∀ (p : Nat) (lane far : Byte) (fleet : BitVec 16) (s : State), p < 18 → (s.link p).en = true →
    ((s.link p).up = true → ∃ t, exec (.linkRetrain p lane) s = .next t ∧ (t.link p).replays = (s.link p).replays + 8 ∧
      (t.link p).retrains.toNat = min ((s.link p).retrains.toNat + 1) 65535 ∧ (t.link p).head = (s.link p).head + 1) ∧
    ((s.link p).up = false → ∃ t, exec (.linkTrained p far fleet) s = .next t ∧ (t.link p).up = true ∧ (t.link p).far = far ∧
      (t.link p).fleet = fleet ∧ (∀ d ∈ t.transit, t.forwards d.toNat = false ∨ t.portsTo d.toNat = []) ∧
      ∀ d ∈ s.transit, d ∈ t.transit ∨ ∃ m, .onward d m ∈ t.outbox) ∧
    (∃ t, exec (.portTrainTimeout p lane) s = .next t ∧ (t.link p).up = false ∧ (t.link p).replays = (s.link p).replays + 8 ∧
      (t.link p).retrains.toNat = min ((s.link p).retrains.toNat + 1) 65535 ∧ (t.link p).head = (s.link p).head + 1)) ∧
  (∀ (p : Nat) (en : Bool) (s : State), s.regs.booted = true → p < 18 →
    ∃ t, exec (.linkEnable p en) s = .next t ∧ (t.link p).en = en ∧ (t.link p).up = ((s.link p).up && en) ∧
      (t.link p).head = (s.link p).head + (if (s.link p).up = true ∧ en = false then 1 else 0)) ∧
  (∀ (a : Word) (n : Nat) (data : List Byte) (marks : List Nat) (kind : WindowKind) (s : State),
     ((∀ p < 18, s.portCarries p = false) → exec (.windowAccess a kind n data marks) s = .next s) ∧
     ((∃ p < 18, s.portCarries p = true) →
     (bits a.toNat 55 48 ≠ 0 → exec (.windowAccess a kind n data marks) s = .next { s with replies := s.replies ++ [.refused] }) ∧
     (bits a.toNat 55 48 = 0 →
       ((s.fwin (winOf a)).testBit 118 = false ∨ bits (s.fwin (winOf a)) 103 64 < bits a.toNat 47 0 + n ∨
           (s.fwin (winOf a)).testBit 116 = false →
         exec (.windowAccess a .read n data marks) s = .next { s with replies := s.replies ++ [.refused] }) ∧
       ((s.fwin (winOf a)).testBit 118 = false ∨ bits (s.fwin (winOf a)) 103 64 < bits a.toNat 47 0 + data.length ∨
           (s.fwin (winOf a)).testBit 117 = false →
         exec (.windowAccess a .write n data marks) s = .next { s with replies := s.replies ++ [.refused] }) ∧
       (bits a.toNat 47 0 % 16 = 0 → (s.fwin (winOf a)).testBit 118 = false ∨
           bits (s.fwin (winOf a)) 103 64 < bits a.toNat 47 0 + 16 ∨ (s.fwin (winOf a)).testBit 117 = false →
         exec (.windowAccess a .land n data marks) s = .next { s with replies := s.replies ++ [.refused] }) ∧
       (bits a.toNat 47 0 % 16 ≠ 0 → exec (.windowAccess a .land n data marks) s =
         .next { s with replies := s.replies ++ [.done (some 0x67)] }) ∧
       (∀ l u, s.windowAt (winOf a) (winOff a) n .read = (.ok l, u) →
         exec (.windowAccess a .read n data marks) s =
           .next ((u.touchHome l).answered (.bytes (u.sectorBytes l (bits a.toNat 47 0 % 64) n)))) ∧
       (∀ l u, s.windowAt (winOf a) (winOff a) data.length .write = (.ok l, u) →
         exec (.windowAccess a .write n data marks) s =
           .next ((u.sectorStore l (bits a.toNat 47 0 % 64) (withMarks data marks)).answered (.done none))) ∧
       (∀ pa u r, bits a.toNat 47 0 % 16 = 0 → s.windowAt (winOf a) (winOff a) 16 .atomic = (.ok [pa], u) →
         r = u.updGlobalBar pa (.land n) → exec (.windowAccess a .land n data marks) s = .next (r.1.answered (.done r.2))) ∧
       (∀ u, (kind = .read ∧ s.windowAt (winOf a) (winOff a) n .read = (.wait, u)) ∨
           (kind = .write ∧ s.windowAt (winOf a) (winOff a) data.length .write = (.wait, u)) →
         exec (.windowAccess a kind n data marks) s = .next s))))

/-- R284, R287, R294: a put or get moves, one whose target cannot be reached halts with 0x71, an acknowledged put is counted and done,
no progress for FTIMEOUT halts with 0x75 and aborts the collective it belongs to, and HALT and DISCARD resume and drop a halted head.
R287: one piece of a put to a window of this device: the bytes read at LADDR are written through the window and owed to RBAR; the bytes
owed are counted there, a refused count halts the queue, and the last row's count leaves the put waiting for its acknowledgement.
Towards another device the bytes leave through the engine, and their count follows them. Pieces of at most 512 bytes, the count that
stays owed after a refusal, and the answers of other devices as operands are the model's choices (assumptions 69, 70 and 71). -/
def Obligations.SoundTransfers : Prop :=
  (∀ (core x q : Nat) (r : RemoteReply) (s : State) (c : SoundCmd), s.soundReady core x q = true → (s.ctx core x).soundHead q = some c →
    c.started = true →
    (c.target = s.devid → c.owed = 0 → exec (.soundTransfer core x q r) s = .next ((s.soundPiece core x q c).getD s)) ∧
    (c.target = s.devid → c.owed ≠ 0 → exec (.soundTransfer core x q r) s = .next ((s.soundPay core x q c).getD s)) ∧
    (c.target ≠ s.devid → c.owed = 0 → s.reaches c.target = false → exec (.soundTransfer core x q r) s =
      .next ((s.updCtx core x (fun k => k.setSoundHead q c)).haltSound core x q 0x71 0)) ∧
    (c.target ≠ s.devid → c.owed = 0 ∨ c.kind ≠ 1 → s.reaches c.target = true → exec (.soundTransfer core x q r) s =
      .next ((s.soundReply core x q c r).getD s))) ∧
  (∀ (core x q : Nat) (s : State) (c : SoundCmd), s.ackReady core x q = true → (s.ctx core x).soundHead q = some c →
    (c.bar = 0 → exec (.soundAcknowledgement core x q) s = .next (s.finishSound core x q c)) ∧
    (c.bar ≠ 0 → ∀ u, s.soundBar core x c.barloc c.bar .outdone = (.done none, u) →
      exec (.soundAcknowledgement core x q) s = .next (u.finishSound core x q c))) ∧
  (∀ (core x q : Nat) (s : State) (c : SoundCmd), (s.ctx core x).task.isSome = true → ((s.ctx core x).soundQ q).halt = false →
    (s.ctx core x).soundHead q = some c → c.started = true →
    (c.since + 1900 * s.regs.ftimeout.toNat ≤ s.cycle → s.collOf core x q = none →
      exec (.fabricTimeout core x q) s = .next (s.haltSound core x q 0x75 0)) ∧
    (∀ i g r, s.collOf core x q = some (i, g, r) →
      (g.since + 1900 * s.regs.ftimeout.toNat ≤ s.cycle →
        exec (.fabricTimeout core x q) s = .next ((s.haltSound core x q 0x75 0).abortColl i g [r] 0x76)) ∧
      (s.cycle < g.since + 1900 * s.regs.ftimeout.toNat → exec (.fabricTimeout core x q) s = .next s))) ∧
  (∀ (core x q : Nat) (s : State) (c : SoundCmd), ((s.ctx core x).soundQ q).halt = true → (s.ctx core x).soundHead q = some c →
    (c.kind < 2 → ∃ t, exec (.sndqHalt core x q) s = .next t ∧ ((t.ctx core x).soundQ q).halt = false ∧
      (t.ctx core x).soundHead q = some { c with since := s.cycle }) ∧
    (s.collOf core x q = none → exec (.sndqDiscard core x q) s =
      .next ((s.updCtx core x (fun k => k.freeSoundQ q)).finishSound core x q c))) ∧
  (∀ (core x q len : Nat) (s u : State) (c : SoundCmd), c.kind = 0 → c.lloc = true → c.owed = 0 → len = min 512 (c.len - c.off) →
     (∀ l m, s.windowWrite (winOf c.raddr) c.far ((s.localBytes core x c.near.toNat len).1, s.localPoison core x c.near.toNat len) =
         (.ok l, u) → m = u.soundMoved core x q c len →
       s.soundPiece core x q c = some (if m.1.owed = 0 then m.2.soundCounted core x q m.1 none else m.2) ∧
       m.1.owed = (if c.rbar = 0 then 0 else len) ∧ m.1.since = u.cycle ∧
       (c.off + len = c.len → m.1.row = c.row + 1 ∧ m.1.off = 0) ∧
       (c.off + len ≠ c.len → m.1.row = c.row ∧ m.1.off = c.off + len) ∧
       (c.nrows ≤ m.1.row → m.1.held = 0)) ∧
     (∀ e i, s.windowWrite (winOf c.raddr) c.far ((s.localBytes core x c.near.toNat len).1, s.localPoison core x c.near.toNat len) =
         (.fault e i, u) → s.soundPiece core x q c = some (u.soundStop core x q c e i))) ∧
  (∀ (core x q : Nat) (s u : State) (c : SoundCmd), c.kind = 0 → c.owed ≠ 0 →
     (∀ k, s.windowLand (winOf c.rbar) (winOff c.rbar) c.owed = (some (.done k), u) →
       (k = none → s.soundPay core x q c = some (u.soundCounted core x q c none)) ∧
       (k = some 0x67 → s.soundPay core x q c = some (u.soundStop core x q c 0x67 0))) ∧
     (s.windowLand (winOf c.rbar) (winOff c.rbar) c.owed = (some .refused, u) →
       s.soundPay core x q c = some (u.soundStop core x q c 0x72 0)) ∧
     (c.nrows ≤ c.row → s.soundCounted core x q c none =
       s.updCtx core x (fun k => k.setSoundHead q { c with owed := 0, since := s.cycle, sent := true })) ∧
     (∃ t, s.soundReply core x q c (.counted none) = some t ∧
       t.outbox = s.outbox ++ [.land (BitVec.ofNat 8 c.target) c.rbar c.owed])) ∧
  (∀ (core x q n : Nat) (s : State) (c : SoundCmd), c.kind = 0 → c.lloc = true → c.owed = 0 → n = c.len - c.off →
     ∃ t, s.soundReply core x q c .accepted = some t ∧ t.outbox = s.outbox ++ [.write (BitVec.ofNat 8 c.target)
       (c.raddr + BitVec.ofInt 64 (c.far - winOff c.raddr))
       ((s.localBytes core x c.near.toNat n).1, s.localPoison core x c.near.toNat n)])

/-- R289 to R292 and R294: a rank joins with its rows; with every rank of the group here and joined the reduction runs, its result rows
land one by one at each rank, and what has landed is counted after it; and the blocks of an all-to-all land one by one; the rows of a
block that land before a refused one are counted.
R290: the sum of two ranks' clean rows in FP32 is their sum element by element, rounded once.
The order in which a die's commands of a group and tag join, the reading of a contribution at the join, and the row that a refusal
shows are the model's choices (assumptions 131, 62 and 134). -/
def Obligations.Collectives : Prop :=
  (∀ (core x q r : Nat) (s : State) (c : SoundCmd) (k : Task), s.joinReady core x q = true → (s.ctx core x).task = some k →
    (s.ctx core x).soundHead q = some c → c.lloc = true → s.colls = [] → s.rankId (coreDie core) ∈ c.group →
    (∀ e ∈ c.group, e.toNat % 256 = s.devid ∨ s.reaches (e.toNat % 256) = true) → r = c.group.findIdx (· == s.rankId (coreDie core)) →
    ∃ t g m, exec (.collectiveJoin core x q) s = .next t ∧ t.colls = [g] ∧ g.group = c.target ∧ g.tag = c.tag.toNat ∧ g.ranks = c.group ∧
      g.members = [m] ∧ g.result = none ∧ g.since = s.cycle ∧ m.rank = r ∧ m.launch = k.launch ∧ m.task = k.task ∧
      m.cmd = { c with started := true, since := s.cycle, held := if c.kind = 2 ∧ c.dloc = true ∧ (c.root = false ∨ r = 0) then c.held else 0 } ∧
      (t.ctx core x).soundHead q = some m.cmd ∧
      m.rows = c.brings.map (fun a => ((s.localBytes core x a.toNat c.len).1, s.localPoison core x a.toNat c.len))) ∧
  (∀ (core x q : Nat) (s : State) (c k : SoundCmd), (s.ctx core x).soundHead q = some c →
    .sound k ∈ s.dieSound (coreDie core) → 2 ≤ k.kind → k.target = c.target → k.tag = c.tag → k.started = false → k.seq < c.seq →
    exec (.collectiveJoin core x q) s = .next s) ∧
  (∀ (g tag i : Nat) (s : State) (c : Coll) (m : Member) (rest : List Member), s.waitingColl g tag = some i → s.colls[i]? = some c →
    c.members = m :: rest → (∀ k ∈ c.members, s.memberAlive k = true ∧ membersAgree m.cmd k.cmd = true) →
    (∀ d ∈ s.colls, ∀ k ∈ d.members, (s.placeOf k.launch k.task).isSome = true) →
    s.ownRanks c = List.range c.ranks.length → s.allJoined c = true →
    (m.cmd.kind = 2 → exec (.collectiveRun g tag []) s = .next (s.takeFree.setColl i { c with
      result := some (reduceRows s.free m.cmd.opf m.cmd.len m.cmd.nrows (c.shares [])), since := s.cycle })) ∧
    (m.cmd.kind = 3 → exec (.collectiveRun g tag []) s = .next (s.setColl i { c with result := some ([], 0), since := s.cycle }))) ∧
  (∀ (die g tag i : Nat) (s : State) (c : Coll) (m : Member) (v : List Piece × BitVec 5), s.memberAlive m = true → c.result = some v →
    m.cmd.kind = 2 →
    (s.dueAt die g tag true = some (i, c, m) →
      (∀ u, s.countMember m m.cmd.owed = (none, u) → exec (.collectiveResultWrite die g tag) s =
        .next (u.setColl i { c.setMember (m.owing 0) with since := u.cycle })) ∧
      (∀ e a u, s.countMember m m.cmd.owed = (some (e, a), u) → exec (.collectiveResultWrite die g tag) s =
        .next ((u.haltMember m e a).abortColl i (c.setMember (m.owing 0)) [m.rank] 0x76))) ∧
    (s.dueAt die g tag true = none → s.dueAt die g tag false = some (i, c, m) →
      (m.cmd.root = true → m.rank ≠ 0 → exec (.collectiveResultWrite die g tag) s =
        .next ((s.finishMember m).setColl i { c with finished := c.finished ++ [m.rank], since := s.cycle })) ∧
      (m.cmd.root = false ∨ m.rank = 0 →
        (v.1.length ≤ m.cmd.row → exec (.collectiveResultWrite die g tag) s = .next (((s.memberFlags m v.2).finishMember m).setColl i
          { c with finished := c.finished ++ [m.rank], since := s.cycle })) ∧
        ∀ l u row n w, v.1[m.cmd.row]? = some row → n = m.landed (m.cmd.row + 1) →
          s.writeResultRow m (rowAddr m.cmd.raddr m.cmd.rstr m.cmd.row) row = (.ok l, u) →
          w = (if m.cmd.row + 1 < v.1.length then u else u.freeMember n) →
          exec (.collectiveResultWrite die g tag) s = .next ((w.showRow n).setColl i
            { c.setMember (n.owing (if m.cmd.bar = 0 then 0 else m.cmd.len)) with since := w.cycle })))) ∧
  (∀ (g tag src dst i : Nat) (s : State) (c : Coll) (f t : Member) (remote : RemoteBlock) (marks : List Nat),
    s.blockFor g tag src dst = some i → s.colls[i]? = some c →
    c.members.find? (fun k => k.rank == src) = some f → c.members.find? (fun k => k.rank == dst) = some t →
    (∀ k ∈ c.members, s.memberAlive k = true) →
    (∀ u, landRows (winOf f.cmd.raddr) 0 (blockRows f.cmd ((f.rows.drop (f.cmd.nrows * dst)).take f.cmd.nrows) src) s = (.all, u) →
      exec (.allToAllExchange g tag src dst remote marks) s = .next (u.exchanged i (c.rowsAt t t.cmd.nrows) src dst)) ∧
    (∀ u n d, landRows (winOf f.cmd.raddr) 0 (blockRows f.cmd ((f.rows.drop (f.cmd.nrows * dst)).take f.cmd.nrows) src) s =
        (.refused n, u) → d = c.rowsAt t n →
      exec (.allToAllExchange g tag src dst remote marks) s =
        .next (((u.showRow (f.landed (d.rowAtRefusal src dst n))).haltMember f 0x72 0).abortColl i d [src] 0x76))) ∧
  (∀ (s : State) (i src dst : Nat) (c : Coll), (∀ r ∈ [src, dst], ∃ k < c.ranks.length,
      (k, r) ∉ c.blocks ++ [(src, dst)] ∨ (r, k) ∉ c.blocks ++ [(src, dst)]) →
    s.exchanged i c src dst = s.setColl i { c with blocks := c.blocks ++ [(src, dst)], since := s.cycle }) ∧
  (∀ (c : Coll) (t : Member) (n : Nat),
    (c.rowsAt t n).members = c.members.map (fun k =>
      if k.rank = t.rank then t.owing (if t.cmd.bar = 0 then 0 else t.cmd.owed + n * t.cmd.len) else k)) ∧
  (∀ (a b : List Byte) (n k : Nat), a.length = 4 * n → b.length = 4 * n → k < n →
     (let r := reduceRow 0x04 (4 * n) [(a, List.replicate (4 * n) false), (b, List.replicate (4 * n) false)]
      rowWord r.1 k = (fp32.add .rne (rowWord a k) (rowWord b k)).1 % 2 ^ 32 ∧ r.2.1 = []))

/-! ## Queues, the distributor and saves at work -/

/-- R301 to R303: a notify sets PEND, and in the cycle in which a pass unmaps its queue keeps the slot for it, whichever of the two comes first,
a slot that consumes clears it and reads TAIL, a pass takes its two halves, and a record that passes its checks enters the intake with the
next launch id. That a pass unmaps in one cycle and maps in a later one is the model's choice (assumption 81), and so is which slots give
their records to which die (assumption 79).
R304, R305, R315 and R318: the distributor's next decision is carried out; a launch that has waited longer than AGE is aged, and a
timed launch within LEAD of its START is so marked. -/
def Obligations.QueuesAndDistributor : Prop :=
  (∀ (n : BitVec 12) (s : State), s.regs.booted = true → s.regs.qtbase.toNat % 64 = 0 → s.queueAt n.toNat 0x14 < 2 ^ 39 →
    ∃ t, exec (.qnotify n) s = .next t ∧ t.queueState n.toNat = s.queueState n.toNat ||| 1 ∧ n.toNat ∈ t.sched.heard ∧
      (s.sched.passing = some s.cycle → ∀ k, (n.toNat, k) ∈ t.sched.notified ↔ (n.toNat, k) ∈ s.sched.unmapped)) ∧
  (∀ (slot n : Nat) (s : State), s.slotReady slot = true → mfind s.slotsMapped slot = some n → s.regs.qtbase.toNat % 64 = 0 →
    s.queueAt n 0x14 < 2 ^ 39 →
    ∃ t, exec (.queueSlotConsume slot) s = .next t ∧ t.queueState n = s.queueState n &&& ~~~1 ∧
      (s.queueHead n ≠ s.queueTail n → mfind t.sched.taking slot = some (s.queueTail n))) ∧
  (∀ s : State, s.regs.fatal = false →
    (∀ c, s.sched.passing = some c → c < s.cycle → exec .schedulerPass s = .next s.passMap ∧ s.passMap.sched.passing = none) ∧
    (s.sched.passing = none → s.sched.due ≤ s.cycle → exec .schedulerPass s = .next s.passUnmap ∧
      s.passUnmap.sched.passing = some s.cycle ∧ s.passUnmap.sched.due = s.sched.due + 19000 ∧
      ∀ q k, (q, k) ∈ s.passUnmap.sched.notified ↔ (q, k) ∈ s.passUnmap.sched.unmapped ∧ q ∈ s.sched.heard)) ∧
  (∀ (die slot n : Nat) (s u : State) (r : Record), s.takingSlot die = some (slot, n) → (s.readQueue n).headRecord n = (.ok r, u) →
    u.recordBad r = none → u.intakeFull die = false →
    ∃ t l, exec (.launchAccept die) s = .next t ∧ t.launch u.nextLaunch.toNat = some l ∧ l.rcd = r ∧ l.state = .accepted ∧
      l.die = die ∧ l.fromLnch = false ∧ l.queue = n ∧
      mget [] t.intake die = mget [] u.intake die ++ [u.nextLaunch.toNat]) ∧
  (∀ (s : State) (d : Decision), s.nextDecision = some d → exec .distributorDecision s = .next (s.decided d) ∧
    (∀ die, d = .flip die → die < 2 → (∀ k < 2, (s.decided d).regs.hotpar.getLsbD k = (s.regs.hotpar.getLsbD k ^^ decide (k = die))) ∧
      mget false (s.decided d).hotRetired die = false) ∧
    (∀ id l, d = .note id → s.launch id = some l → (s.decided d).launch id = some { l with eligibleAt := some s.cycle })) ∧
  (∀ (n since : Nat) (s : State) (l : Launch), s.launch n = some l → l.state = .accepted → l.aged = false →
    l.eligibleAt = some since → since + 1900 * s.regs.age.toNat < s.cycle →
    ∃ t, exec (.ageExpiry n) s = .next t ∧ t.launch n = some { l with aged := true }) ∧
  (∀ (n : Nat) (s : State) (l : Launch), s.launch n = some l → l.state = .accepted → l.lead = false → l.startAt ≠ 0 →
    s.leadReached l = true → ∃ t, exec (.timedLaunchLead n) s = .next t ∧ t.launch n = some { l with lead := true })

/-- R88, R132, R309: a task starts at its entry with ARGS in s1 and its launch id in s2, every other register zero, its random key from its
launch and task, and the range of its line.
R309: the ranges of the lines of a launch, one after another, are the tiles of the launch, each exactly once. -/
def Obligations.TaskStart : Prop :=
  (∀ (l : Launch) (t : Task), (Ctx.start l t).pc = l.rcd.entry ∧ (Ctx.start l t).readS 1 = l.rcd.args ∧
     (Ctx.start l t).readS 2 = .ofNat 64 l.id ∧ (∀ r, r ≠ 1 → r ≠ 2 → (Ctx.start l t).readS r = 0) ∧
     (∀ r ≠ 0, (Ctx.start l t).readP r = 0) ∧ (Ctx.start l t).vmode = 0 ∧ (Ctx.start l t).fflags = 0 ∧ (Ctx.start l t).tvec = 0 ∧
     (Ctx.start l t).hnd = false ∧ (Ctx.start l t).rand = { key := .ofNat 64 (l.id * 2 ^ 32 + t.task), ctr := 0, words := [] } ∧
     (t.stage = 0 → (Ctx.start l t).walker.range = l.lineRange t.line) ∧
     (t.stage ≠ 0 → (Ctx.start l t).walker.range.next = (Ctx.start l t).walker.range.fin)) ∧
  (∀ (l : Launch) (k : Nat), l.lineRange k =
     { next := k * l.rcd.tiles / l.lines, fin := (k + 1) * l.rcd.tiles / l.lines, owner := k }) ∧
  (∀ l : Launch, 0 < l.lines → (l.lineRange 0).next = 0 ∧ (l.lineRange (l.lines - 1)).fin = l.rcd.tiles ∧
     (∀ k, (l.lineRange k).fin = (l.lineRange (k + 1)).next) ∧ ∀ k, (l.lineRange k).next ≤ (l.lineRange k).fin)

/-- R330 to R335, R339 and R348: a victim stops at a save point or after 16,384 cycles, unless its matrix instruction waits on a halted
stream, for which a victim that has stopped runs on; drained, it is saved and its context is
free; a saved task is resumed, given back or killed; a halt request escalates with 0x18; a reset island takes tasks again. -/
def Obligations.SaveEvents : Prop :=
  (∀ (core x since : Nat) (s : State), (s.ctx core x).task.isSome = true → (s.ctx core x).save = .awaited since →
    s.regs.pfActive = false →
    ((s.ctx core x).blocked ≠ .no → s.stuck core x = false → ∃ t, exec (.savePoint core x) s = .next t ∧
      t.ctx core x = { s.ctx core x with save := .stopped 0, latches := [] }) ∧
    (since + 16384 ≤ s.cycle → s.stuck core x = false → ∃ t, exec (.savePointTimeout core x) s = .next t ∧
      t.ctx core x = { s.ctx core x with save := .stopped 0, latches := [] }) ∧
    (s.stuck core x = true → exec (.savePoint core x) s = .next s ∧ exec (.savePointTimeout core x) s = .next s)) ∧
  (∀ (core x reason : Nat) (s : State), (s.ctx core x).save = .stopped reason → reason ≠ 1 → s.stuck core x = true →
    exec (.savePoint core x) s = .next (s.updCtx core x (fun c => { c with save := .awaited s.cycle }))) ∧
  (∀ (core x reason a : Nat) (s : State) (t : Task), (s.ctx core x).task = some t → (s.ctx core x).save = .stopped reason →
    reason ≠ 2 → s.regs.pfActive = false → s.saveDrained core x = true → (s.ctx core x).area = some a →
    a + t.areaRounded ≤ 2 ^ 39 → (s.ctx core x).esc = none ∨ s.action 15 0 ≠ 3 →
    ∃ u v, exec (.contextSave core x) s = .next u ∧ u.ctx core x = Ctx.reset ∧ u.saved = s.saved ++ [v] ∧ v.launch = t.launch ∧
      v.task = t ∧ v.core = core ∧ v.reason = reason ∧ v.area = a) ∧
  (∀ (n k core : Nat) (s : State) (v : Saved) (l : Launch),
    s.saved.find? (fun v => v.launch == n && v.task.task == k) = some v → s.launch n = some l →
    (v.escalated = true → exec (.contextRestore n k) s = .next (s.setEscalated n k false)) ∧
    (v.escalated = false → s.nextDecision = some (.resume n k core) →
      exec (.contextRestore n k) s = .next (s.restoreTask v l core))) ∧
  (∀ (n k : Nat) (s : State) (v : Saved),
    s.saved.find? (fun v => v.launch == n && v.task.task == k && v.escalated) = some v →
    ∃ t, exec (.runtimeKill n k) s = .next t ∧ ∀ w ∈ t.saved, ¬(w.launch = n ∧ w.task.task = k)) ∧
  (∀ (core x : Nat) (s : State), (s.ctx core x).task.isSome = true → (s.ctx core x).save = .no → s.action 12 0 < 3 →
    ∃ t, exec (.runtimeHaltRequest core x) s = .next t ∧ (t.ctx core x).save = .stopped 1 ∧ (t.ctx core x).hnd = false ∧
      (t.ctx core x).esc = some (0x18, false, s.now) ∧ (t.ctx core x).ecause = ecauseOf 0x18 false 0 0) ∧
  (∀ (n : Nat) (s : State), (s.island n).resetting = true →
    ∃ t, exec (.islandResetEnd n) s = .next t ∧ t.island n = { s.island n with resetting := false })

/-- R330, R337, R340: what a context's area lays out of its registers comes back: whatever bytes hold the sections of the area as they were
written, the restored context has the scalar registers, predicates, modes, flags, trap and count registers and random state it had, with
the reserved bits of VMODE, TVEC and EPC 0. An escalated task goes on at the EPC of its area; any other at the pc it had, which, as the
walker, is kept beside the area: that is the model's choice (assumptions 74 and 76), as are the codes and places within the sections
(assumption 75). -/
def Obligations.AreaRestores : Prop :=
  ∀ (s : State) (core x reason : Nat) (c : Ctx) (t u : Task) (v : Saved) (b : List Byte), v.ctx = c →
    (∀ p ∈ s.areaFixed core x reason c t, (b.drop p.1).take p.2.length = p.2) → c.rand.words.length ≤ 4 → c.stepCount < 2 ^ 64 →
    (let d := Ctx.restored v u b
     (∀ r < 32, d.readS r = c.readS r) ∧ (∀ r < 8, d.readP r = c.readP r) ∧ d.vmode = c.vmode &&& 0x7FF ∧ d.fflags = c.fflags ∧
       d.tvec = c.tvec &&& 0x3FFF_FFFF_FFFF_FFF3 ∧ d.epc = c.epc &&& ~~~15 ∧ d.einfo = c.einfo ∧ d.emask = c.emask ∧ d.escr = c.escr ∧ d.mxsat = c.mxsat ∧
       d.mxrag = c.mxrag ∧ d.xbclip = c.xbclip ∧ d.stepCount = c.stepCount ∧ d.hnd = c.hnd ∧ d.rand = c.rand ∧
       d.pc = (if v.reason = 1 then c.epc &&& ~~~15 else c.pc) ∧ d.walker = c.walker ∧ d.latches = [])

/-! ## Time, ports, power, boot and the application cores -/

/-- R350 to R352, R355 and R373: the clock is stepped, read and controlled, the journal's read pointer is set, and the Ethernet ports send,
receive, stamp and go down; a PTP event message is stamped as it comes in, whether or not a buffer takes it. No application core runs, and
so writes or reads a register, before boot is complete (R370). -/
def Obligations.TimeAndEthernet : Prop :=
  (∀ (v : BitVec 64) (s : State), s.regs.booted = true → ∃ t, exec (.ptpstep v) s = .next t ∧
    (t.regs.ptpns : Int) = ((s.regs.ptpns : Int) + v.toInt) % (2 ^ 48 * 1000000000)) ∧
  (∀ (hart : Nat) (s : State), s.regs.booted = true → ∃ t, exec (.ptploRead hart) s = .next t ∧
    t.hostData = some (.ofNat 64 (s.regs.ptpns % 1000000000)) ∧
    mget 0 t.regs.ptplatch hart = .ofNat 64 (s.regs.ptpns / 1000000000 % 2 ^ 48) ∧ t.regs.ptpns = s.regs.ptpns) ∧
  (∀ (v : BitVec 64) (s : State), s.regs.booted = true → ∃ t, exec (.ptpctlWrite v) s = .next t ∧ t.regs.ptpRun = v.getLsbD 0 ∧
    t.regs.ptpLocked = v.getLsbD 1 ∧ t.regs.tsen = v.extractLsb' 2 4 ∧ t.regs.adj = v.extractLsb' 32 32 ∧
    t.regs.ptpns = s.regs.ptpns) ∧
  (∀ (v : BitVec 64) (s : State), s.regs.booted = true → exec (.jrdseq v) s = .next (s.updRegs (fun r => { r with jrdseq := v }))) ∧
  (∀ (p : Nat) (s : State),
    (∀ f n ask, s.nextFrame p = some (f, n, ask) → ∃ t, exec (.ethTransmit p) s = .next t ∧ (t.eth p).sent = (s.eth p).sent ++ [f] ∧
      (t.eth p).txhead = (s.eth p).txhead + .ofNat 64 n ∧ t.interrupts = s.interrupts ++ [(s.regs.inttgt.toNat, 5 + p)] ∧
      (s.regs.tsen.getLsbD p = true → isPtpEvent f = true ∨ ask = true → (s.eth p).stamps.length < 64 →
        (t.eth p).stamps = (s.eth p).stamps ++
          [.ofNat 64 (2 ^ 63 + 2 ^ 48 * ((s.eth p).txhead.toNat % 4096) + s.regs.ptpns % 2 ^ 48)])) ∧
    (∀ frame v, p < 4 → (s.eth p).runs = true →
      v = (if s.regs.tsen.getLsbD p = true ∧ isPtpEvent frame = true then s.pushStamp p ((s.eth p).rxhead.toNat % 4096) else s) →
      (∀ u n, v.putFrame (s.eth p).rxbase 4096 (s.eth p).rxhead.toNat
          (Nat.min 4096 ((s.eth p).rxtail - (s.eth p).rxhead).toNat) frame = some (u, n) →
        ∃ t, exec (.ethReceive p frame) s = .next t ∧ (t.eth p).rxhead = (u.eth p).rxhead + .ofNat 64 n ∧ t.mem = u.mem ∧
          t.interrupts = u.interrupts ++ [(u.regs.inttgt.toNat, 5 + p)]) ∧
      (v.putFrame (s.eth p).rxbase 4096 (s.eth p).rxhead.toNat
          (Nat.min 4096 ((s.eth p).rxtail - (s.eth p).rxhead).toNat) frame = none →
        exec (.ethReceive p frame) s = .next (State.touchRing (s.eth p).rxbase false
          (Nat.min 4096 ((s.eth p).rxtail - (s.eth p).rxhead).toNat) (s.eth p).rxhead.toNat v))) ∧
    (∀ frame, (s.eth p).runs = false → exec (.ethReceive p frame) s = .next s) ∧
    (∀ v rest, s.regs.booted = true → (s.eth p).stamps = v :: rest → ∃ t, exec (.stampPop p) s = .next t ∧ t.hostData = some v ∧ (t.eth p).stamps = rest) ∧
    (s.regs.booted = true → (s.eth p).stamps = [] → exec (.stampPop p) s = .next { s with hostData := some 0 }) ∧
    ∀ up, p < 4 → ∃ t, exec (.ethernetLinkDown p up) s = .next t ∧ (t.eth p).up = up)

/-- R343 to R348, R361 and R365: events of the surroundings are offered to the severity matrix under their causes: by the action that is
applied, which for a kill without a context and a reset without an island is that of an interrupt, one record is due for the error log,
an interrupt goes to the core that INTTGT names, the reset of the island is asked for, and REPL sets REPLACE. The records of a cycle
enter the log by increasing source, and a reset that is asked for begins when the agents' turn comes. R59 and R327: a failure that is to happen does so before the agents act; two bad
bits of a vector register poison their piece and change no value; a result whose check fails is not written and traps with its cause.
The model's choices: SRC 10 and the destination code of a failed check (assumption 115), the pieces and marks of a register (114), the list
of what fails, before the agents (34), and ACT of a kill or a reset that becomes an interrupt (141). -/
def Obligations.SurroundingsEvents : Prop :=
  (∀ s : State, exec .pcieLinkError s = .next (s.offer (ev 0xB6 7 0 0)) ∧ exec .thermalLimit s = .next (s.offer (ev 0xAD 7 0 0)) ∧
    exec .supplyUndervoltage s = .next (s.offer (ev 0xAE 7 0 0)) ∧
    exec .runtimeHeartbeatMissed s = .next (s.offer (ev 0xBA 7 0 0)) ∧
    ∀ hart : Nat, exec (.applicationCoreMachineCheck hart) s = .next (s.offer { ev 0xB7 7 0 0 with info := .ofNat 64 hart })) ∧
  (∀ (s : State) (e : Event) (act : Nat), act = s.applied e →
    (act = if s.action e.cls e.src = 3 ∧ e.ctx = false ∨ s.action e.cls e.src = 4 ∧ e.island = none then 2 else s.action e.cls e.src) ∧
    (e.forced = false → s.repl e.cls e.src = false →
      (act = 0 → s.offer e = s) ∧
      (1 ≤ act → ∃ r, r.length = 32 ∧ (s.offer e).logDue = s.logDue ++ [(e.src, r)] ∧
        (r.drop 10).take 3 = [.ofNat 8 e.cause, .ofNat 8 (e.cls + 16 * e.src), .ofNat 8 act]) ∧
      (s.offer e).interrupts = s.interrupts ++ (if 2 ≤ act then [(s.regs.inttgt.toNat, 1)] else []) ∧
      (∀ n, act = 4 → e.island = some n → (s.island n).resetting = false → ((s.offer e).island n).asked = true))) ∧
  (∀ (s : State) (e : Event), e.forced = true ∨ s.repl e.cls e.src = true → (s.offer e).regs.replace = true) ∧
  (∀ (s : State) (a b : Nat) (x y : List Byte), s.traceDue = [] → s.logDue = [(a, x), (b, y)] → b < a → a < 8 →
    s.flushLogs = (({ s with logDue := [] } : State).appendElog y).appendElog x ∧
    (s.appendElog x).regs.eloghead = s.regs.eloghead + 1) ∧
  (∀ (s : State) (n : Nat), s.agenda = [] → s.evTurn = true → s.resetDue = some n →
    step s = .next { s.islandReset n with agenda := [] }) ∧
  (∀ (s : State) (u : Chance) (rest : List Chance), s.agenda = [] → s.evTurn = true → s.resetDue = none → s.chances = u :: rest →
    step s = .next { ({ s with chances := rest } : State).chance u with chances := rest, agenda := [] }) ∧
  (∀ (s t : State) (core x r p : Nat), core < 512 → x < 4 → r < 64 → p < 8 → t = s.chance (.bits (.vreg core x r p) true) →
    (∀ q < 8, q ∈ t.badPieces core x r ↔ q = p ∨ q ∈ s.badPieces core x r) ∧ t.vregs = s.vregs) ∧
  (∀ (s t : State) (core x i : Nat) (f : InFlight) (cause : Byte), x < 4 → (s.ctx core x).flight[i]? = some f → f.left = 0 →
    (s.ctx core x).save.halted = false → checkFits cause.toNat f = true → s.action 6 0 < 3 → t = s.chance (.result core x i cause) →
    (t.ctx core x).ecause = ecauseOf cause true 10 0 ∧ (t.ctx core x).einfo = .ofNat 64 (destCode f.dest) ∧
    ∀ r, (∀ g ∈ (s.ctx core x).flight.eraseIdx i, g.left = 0 → g.dest ≠ .v r) → t.readV core x r = s.readV core x r)

/-- R240, R356, R358 to R361, R368: a fatal fault, its recovery and the restart; the power warning, its end, the commit of the checkpoint, the
loss of power, and RESUME and RESTORE. That RESUME enables PCIe again and clears DONE, and what RESTORE brings back beside the image, is the
model's choice (assumption 89), as is the empty memory after a loss of power (assumption 3). -/
def Obligations.PowerEvents : Prop :=
  (∀ (c : BitVec 8) (s : State),
    (c = 0x79 ∨ c = 0xB2 ∨ c = 0xBF → ∃ t, exec (.fatalDeviceFault c) s = .next t ∧ t.regs.fatal = true ∧ t.ctxs = [] ∧ t.intake = []) ∧
    (c ≠ 0x79 → c ≠ 0xB2 → c ≠ 0xBF → exec (.fatalDeviceFault c) s = .next s)) ∧
  (∀ s : State,
    (s.regs.fatal = true → s.regs.jready = false → ∃ t, exec .fatalRecovery s = .next t ∧ t.regs.jready = true ∧
      (backed (s.journalAt s.regs.jnext.toNat) = true → t.regs.jnext = s.regs.jnext + .ofNat 64 s.aliveLaunches.length)) ∧
    (s.regs.booted = true → s.regs.fatal = true → s.regs.jready = true → ∃ t, exec .restart s = .next t ∧ t.regs.fatal = false ∧
      t.regs.jready = false ∧ t.regs.hotpar = 0 ∧ t.ctxs = [] ∧ ∀ n l, t.launch n = some l → l.alive = false) ∧
    (s.regs.fatal = false ∨ s.regs.jready = false → exec .restart s = .next s)) ∧
  (∀ s : State,
    (∃ t, exec .powerWarning s = .next t ∧ t.regs.warning = true ∧
      (s.regs.pfDone = false → s.regs.fatal = false → t.regs.pfActive = true)) ∧
    exec .powerWarningDeassert s = .next (s.updRegs (fun r => { r with warning := false })) ∧
    (s.regs.pfActive = true → (∀ e ∈ s.ctxs, e.2.task = none) → ∃ t, exec .checkpointCommit s = .next t ∧ t.regs.pfActive = false ∧
      t.regs.pfDone = true ∧ t.regs.pcieOff = true ∧ ∀ p < 18, (t.link p).en = false ∧ (t.link p).up = false) ∧
    (∃ t, exec .powerLoss s = .next t ∧ t.mem = [] ∧ t.regs.replace = s.regs.replace ∧ t.regs.booted = false ∧ t.ctxs = [] ∧
      (s.regs.pfActive = false → t.flash = s.flash ∧ t.keptTasks = s.keptTasks) ∧
      (∀ n, (t.array n).cells = (s.array n).cells ∧ (t.array n).remap = (s.array n).remap ∧ (t.array n).ready = []) ∧
      ∀ k, (t.stack k).spares = (s.stack k).spares)) ∧
  (∀ s : State, s.regs.booted = true →
    (s.regs.pfDone = true → s.regs.warning = false → ∃ t, exec .resume s = .next t ∧ t.regs.pfDone = false ∧ t.regs.pcieOff = false) ∧
    (s.regs.pfDone = false ∨ s.regs.warning = true → ∃ t, exec .resume s = .next t ∧ t = s.refusePf ∧ t.regs.pfRefused = true) ∧
    (s.regs.imgvalid = true → s.regs.taken = false → ∃ t, exec .restore s = .next t ∧ t.saved = s.keptTasks) ∧
    (s.regs.imgvalid = false ∨ s.regs.taken = true → ∃ t, exec .restore s = .next t ∧ t = s.refusePf ∧ t.regs.pfRefused = true))

/-- R370 to R372: boot, once after power-good, takes the first slot whose image is accepted and then the microcode and the loader, each
measured once it is verified; once it is complete, the operations of ATTCTL extend a measurement register, write a quote, a public key or a
firmware slot at ATTBUF, and set ERR where they cannot. -/
def Obligations.BootAndAttestation : Prop :=
  (∀ s : State,
    (s.regs.booted = true ∨ s.regs.romRun = true → exec .boot s = .next s) ∧
    (s.regs.booted = false → s.regs.romRun = false → (∀ k < 2, imageAccepted (s.flashImage k) = false) →
      ∃ t, exec .boot s = .next t ∧ t.regs.booted = false ∧ t.regs.romRun = true ∧ t.regs.bootstat = Config.freeWord s.free 0) ∧
    (s.regs.booted = false → s.regs.romRun = false → ∀ k < 2, imageAccepted (s.flashImage k) = true → (∀ j < k, imageAccepted (s.flashImage j) = false) →
      ∃ t, exec .boot s = .next t ∧ t.regs.fwver = .ofNat 64 (imageVersion (s.flashImage k)) ∧
        t.measure 0 = sha3 (s.measure 0 ++ bodyDigest (s.flashImage k)) ∧ t.regs.romRun = true ∧
        (imageAccepted (s.flashImage 2) = true → t.measure 1 = sha3 (s.measure 1 ++ bodyDigest (s.flashImage 2))) ∧
        (imageAccepted (s.flashImage 2) = false → t.measure 1 = s.measure 1) ∧
        t.regs.booted = (imageAccepted (s.flashImage 2) && imageAccepted (s.flashImage 3)))) ∧
  (∀ s : State, s.regs.booted = true → exec .attctlNop s = .next s ∧
    (∀ (k : BitVec 3), (3 ≤ k.toNat → s.attRoom 32 = true → ∃ t, exec (.attctlExtend k) s = .next t ∧ t.regs.attErr = false ∧
        t.measure k.toNat = sha3 (s.measure k.toNat ++ (s.homeBytes s.regs.attbuf.toNat 32).1) ∧
        ∀ j ≠ k.toNat, t.measure j = s.measure j) ∧
      (k.toNat < 3 → exec (.attctlExtend k) s = .next (s.updRegs (fun r => { r with attErr := true })))) ∧
    (s.attRoom 2732 = true → exec .attctlQuote s = .next ((s.homeStore s.regs.attbuf.toNat
      (s.quoted ++ (List.range 2420).map (Config.mldsaSign identitySeed s.quoted))).updRegs (fun r => { r with attErr := false }))) ∧
    (s.attRoom 1312 = true → exec .attctlPublicKey s = .next ((s.homeStore s.regs.attbuf.toNat
      ((List.range 1312).map (Config.mldsaPublic identitySeed))).updRegs (fun r => { r with attErr := false }))) ∧
    (∀ n b, n = s.attLength → b = (s.homeBytes s.regs.attbuf.toNat n).1 →
      (s.attRoom n = true → n ≤ slotRoom → imageAccepted b = true → ∃ t, exec .attctlFirmwareUpdate s = .next t ∧ t.regs.attErr = false ∧
        t.flash = (s.flashStore (slotAt (1 - s.regs.lastBoot)) b).flash) ∧
      (s.attRoom n = false ∨ slotRoom < n ∨ imageAccepted b = false → exec .attctlFirmwareUpdate s =
        .next ((s.touchBytes s.regs.attbuf.toNat (if s.attRoom n = true ∧ n ≤ slotRoom then n else 16)).updRegs
          (fun r => { r with attErr := true })))) ∧
    ∀ op : BitVec 3, 5 ≤ op.toNat → exec (.attctlInvalidOp op) s = .next (s.updRegs (fun r => { r with attErr := true })))

/-- R18, R65, R81, R300, R301, R344, R363 to R367, R370 and R373: accesses of the running cores of the control complex: of the application
cores to memory, through their cache, which no store leaves before it is cleaned, and to the device registers, of a security core at the
home slices, the claim of an interrupt, and DMA from PCIe. An atomic on the STATE word of a queue's descriptor keeps its access codes.
The model's choices: the size of that cache's sectors and when one leaves (assumption 38), the address bits that a register keeps (101), the
security cores' path to memory (138), that the codes of STATE apply to the value an atomic stores (140), and that the lowest identity is
claimed (109). -/
def Obligations.HostAccesses : Prop :=
  (∀ (hart pa n : Nat) (op : HostAccess) (d : BitVec 64) (s : State), hart ≠ 16 → s.regs.booted = false →
    exec (.applicationCoreAccess hart op pa n d) s = .next s) ∧
  (∀ (hart pa n : Nat) (d : BitVec 64) (s : State), hart < 16 → s.regs.booted = true → backed pa = true →
    (n = 1 ∨ n = 2 ∨ n = 4 ∨ n = 8 →
      (backed (pa + n - 1) = true → s.appCache.length + 2 ≤ 524288 →
        exec (.applicationCoreAccess hart .load pa n d) s =
          .next { (sectorsOf pa n).foldl State.appFill s with hostData := some (ofBytes 64 (s.appBytes pa n)) } ∧
        (∃ t, exec (.applicationCoreAccess hart .store pa n d) s = .next t ∧
          t = { (sectorsOf pa n).foldl State.appFill s with appCache := t.appCache, hostData := some 0 } ∧
          (pa % 64 + n ≤ 64 → t.appBytes pa n = bytesOf d n))) ∧
      (backed (pa + n - 1) = false → exec (.applicationCoreAccess hart .load pa n d) s = .next { s with hostData := none })) ∧
    (pa % 8 = 0 → ∀ u w, u = s.appEvict (pa / 64) → w = ofBytes 64 (u.homeBytes pa 8).1 →
      exec (.applicationCoreAccess hart .amoAdd pa 8 d) s =
        .next { u.homeStore pa (bytesOf (u.amoStored pa 8 w (w + d)) 8) with hostData := some w } ∧
      exec (.applicationCoreAccess hart .amoSwap pa 8 d) s =
        .next { u.homeStore pa (bytesOf (u.amoStored pa 8 w d) 8) with hostData := some w }) ∧
    (∃ t, exec (.applicationCoreAccess hart .cboInval pa n d) s = .next t ∧ t.appCache = merase s.appCache (pa / 64) ∧ t.l2 = s.l2) ∧
    (∃ t, exec (.applicationCoreAccess hart .cboClean pa n d) s = .next t ∧
      ∀ e, mfind s.appCache (pa / 64) = some e → (t.homeSector (pa / 64)).1 = mergeBytes e.dirty e.data (s.homeSector (pa / 64)).1 ∧
        mfind t.appCache (pa / 64) = some { e with dirty := 0 })) ∧
  (∀ (s : State) (q pa n : Nat) (old new : Word), pa = s.regs.qtbase.toNat + 64 * q + 0x14 →
    (q < 4096 → s.regs.qtbase.toNat % 64 = 0 → s.amoStored pa 4 old new =
      ((old.setWidth 32 &&& 0xFE ||| new.setWidth 32 &&& 0x101 ||| old.setWidth 32 &&& ~~~(new.setWidth 32) &&& 0x200 : BitVec 32)).setWidth 64) ∧
    (4096 ≤ q → s.amoStored pa n old new = new)) ∧
  (∀ (hart off : Nat) (d : BitVec 64) (s : State), hart < 16 → s.regs.booted = true → off % 8 = 0 → off < 0x200 →
    (off ≠ 0xB8 → exec (.applicationCoreAccess hart .load (0xF_0000_0000_0000 + off) 8 d) s =
      .next { s.touchJrd off with hostData := some (s.readReg hart off) }) ∧
    exec (.applicationCoreAccess hart .store (0xF_0000_0000_0000 + off) 8 d) s =
      exec (.registerWrite off d) { s with hostData := some 0 } ∧
    exec (.applicationCoreAccess hart .load (0xF_0000_0000_0000 + off) 4 d) s = .next { s with hostData := none }) ∧
  (∀ (pa : Nat) (d : BitVec 64) (s : State), backed pa = true → backed (pa + 7) = true →
    exec (.applicationCoreAccess 16 .store pa 8 d) s = .next { s.homeStore pa (bytesOf d 8) with hostData := some 0 }) ∧
  (∀ (hart pa n : Nat) (d : BitVec 64) (s : State), s.hartRuns hart = true →
    (mget [] s.imsic hart = [] → exec (.applicationCoreAccess hart .claim pa n d) s = .next { s with hostData := some 0 }) ∧
    (mget [] s.imsic hart ≠ [] → ∃ t k, exec (.applicationCoreAccess hart .claim pa n d) s = .next t ∧
      t.hostData = some (.ofNat 64 k) ∧ k ∈ mget [] s.imsic hart ∧ (∀ j ∈ mget [] s.imsic hart, k ≤ j) ∧
      ∀ j, j ∈ mget [] t.imsic hart ↔ j ∈ mget [] s.imsic hart ∧ j ≠ k)) ∧
  (∀ (v : BitVec 64) (s : State), s.regs.booted = true →
    exec (.registerWrite 0x0018 v) s = .next (s.updRegs (fun r => { r with qtbase := .ofNat 64 (v.toNat % 2 ^ 52 / 64 * 64) })) ∧
    exec (.registerWrite 0x0130 v) s = .next (s.updRegs (fun r => { r with errth := v })) ∧
    (v ≠ 0 → exec (.registerWrite 0x0090 v) s = .next (s.updRegs (fun r => { r with ftimeout := v }))) ∧
    exec (.registerWrite 0x0090 0) s = .next s ∧
    ∀ k < 16, ∃ t, exec (.registerWrite (0x0200 + 8 * k) v) s = .next t ∧ ∀ f < 8,
      t.repl k f = v.getLsbD (8 * f + 3) ∧
      t.action k f = if bits v.toNat (8 * f + 2) (8 * f) < 5 then bits v.toNat (8 * f + 2) (8 * f) else s.action k f) ∧
  (∀ (pa : Nat) (b : List (BitVec 8)) (s : State),
    (s.regs.pcieOff = false → backed (pa + b.length - 1) = true →
      exec (.pcieDma pa true b) s = .next { s.homeStore pa b with replies := s.replies ++ [.done none] } ∧
      exec (.pcieDma pa false b) s = .next { s.touchBytes pa b.length with
        replies := (s.touchBytes pa b.length).replies ++ [.bytes ((s.homeBytes pa b.length).1,
          (s.homeBytes pa b.length).1.map (fun _ => (s.homeBytes pa b.length).2))] }) ∧
    (s.regs.pcieOff = true ∨ backed (pa + b.length - 1) = false →
      ∀ w, exec (.pcieDma pa w b) s = .next { s with replies := s.replies ++ [.refused] }))

/-! ## The machine as a whole -/

/-- R103 to R108: decoding gives back every well-formed slot instruction from the word that encodes it, which has 31 bits: no operand bit
is dropped and no two instructions share a word. -/
def Obligations.RoundTrip : Prop :=
  ∀ (i : Instr) (w : Nat), i.wf = true → encode i = some w → w < 2 ^ 31 ∧ decodeWord w = .ok i

/-- R102 to R107: words that the spec itself writes out decode to the instructions it gives them for, as does a word put together from the slot
frame and the opcode map by hand, `sub s3, l0, s2` on port 2. -/
def Obligations.DecodeWords : Prop :=
  decodeWord 0x000A0C1C = .ok (.add ⟨false, 5, false, ⟨false, 6⟩, ⟨false, 7⟩, 0⟩) ∧
  decodeWord 0x59015348 = .ok (.vfmul ⟨true, 0, true, ⟨false, 41⟩, ⟨true, 18⟩, 0⟩) ∧
  decodeWord 0x0046800A = .ok (.sub ⟨false, 3, false, ⟨true, 0⟩, ⟨false, 2⟩, 2⟩) ∧
  decodeWord 0x88000000 = .ok .nop ∧ decodeWord 0x0C940010 = .ok (.wnext 10) ∧
  decodeWord 0x08A14003 = .ok (.bcc 2 ⟨false, 10⟩ 3) ∧ decodeWord 0x218A0C00 = .ok (.stg ⟨5, ⟨false, 6⟩, 0, 0⟩) ∧
  decodeWord 0x26800302 = .ok (.fence 0 3 2) ∧ decodeWord 0x0E000001 = .ok (.pset 1) ∧
  decodeWord 0x3E860428 = .ok (.vred 3 false ⟨false, 2⟩ 0 true 0) ∧
  decodeWord 0x30800814 = .ok (.tmmgZ ⟨0, ⟨false, 4⟩, ⟨false, 5⟩, 0⟩) ∧
  decodeWord 0x33A60814 = .ok (.xmv 1 ⟨3, ⟨false, 4⟩, ⟨false, 5⟩, 0⟩) ∧
  decodeWord 0x388C0814 = .ok (.kvapp 6 ⟨false, 4⟩ ⟨false, 5⟩ 0) ∧ decodeWord 0x2A000800 = .ok (.fcoll ⟨0, ⟨false, 4⟩, 0⟩) ∧
  decodeWord 0x1D292A40 = .ok (.vcvt ⟨false, 20, true, ⟨false, 21⟩, 0⟩ 0 true 0)

/-- R88 to R91, R240, R316, R320, R343, R350, R353, R367 and R368: what reset leaves: no task, boot to be done, and the registers at their
reset values. -/
def Obligations.ResetState : Prop :=
  ∀ s : State, s = State.reset →
    s.agendaOk = true ∧ Mem.wf s.mem ∧ (∀ core x, (s.ctx core x).task = none) ∧ s.regs.booted = false ∧ s.regs.romRun = false ∧
    s.regs.fatal = false ∧ s.regs.hotpar = 0 ∧ s.regs.ptpns = 0 ∧ s.regs.ptpRun = false ∧ s.regs.jnext = 1 ∧ s.nextLaunch = 1 ∧
    (∀ hart, s.readReg hart 0x0028 = 0x03E8_0014 ∧ s.readReg hart 0x0090 = 10000 ∧ s.readReg hart 0x0130 = 0x0100_0100_0100_0100 ∧
      s.readReg hart 0x00A0 = 0 ∧ (∀ k < 32, s.readReg hart (0x3000 + 8 * k) = 950) ∧
      (∀ k < 18, s.readReg hart (0x3100 + 8 * k) = 0) ∧ s.readReg hart 0x3190 = 1 ∧
      ∀ k < 16, s.readReg hart (0x3200 + 8 * k) = 1000000) ∧
    (∀ src < 8, (∀ c ∈ [0, 1, 3, 4, 8, 10], s.action c src = 1) ∧ (∀ c ∈ [2, 5, 7, 9, 11, 13, 14, 15], s.action c src = 2) ∧
      s.action 6 src = 3 ∧ s.action 12 src = 0 ∧ ∀ c < 16, s.repl c src = decide (c = 2)) ∧
    ∀ n, (s.array n).status = 0x0010_0001 ∧ (∀ j < 256, (s.array n).scaleOf j = 0x3F80_0000)

/-- R88, R91, R92, R104: `s0` reads as 0 and `p0` as all ones, and a write to either is discarded; any other register reads what was written to it
last, and writing it changes no other. A source reads a register, a latch, whose scalar a vector source takes in every element, or the head
entry of a stream, with a block while the stream is empty. -/
def Obligations.RegistersAndSources : Prop :=
  (∀ (c : Ctx) (v : Word) (q : Pred), c.readS 0 = 0 ∧ c.writeS 0 v = c ∧ c.readP 0 = BitVec.allOnes 128 ∧ c.writeP 0 q = c) ∧
  (∀ (c : Ctx) (v : Word) (q : Pred) (r k : Nat), r ≠ 0 →
    (c.writeS r v).readS k = (if k = r then v else c.readS k) ∧ (c.writeP r q).readP k = (if k = r then q else c.readP k) ∧
    (c.writeS r v).readP k = c.readP k ∧ (c.writeP r q).readS k = c.readS k) ∧
  (∀ (s : State) (core x r core' x' k : Nat) (v : Vec), x < 4 → x' < 4 → r < 64 → k < 64 →
    (s.writeV core x r v).readV core' x' k = if core' = core ∧ x' = x ∧ k = r then v else s.readV core' x' k) ∧
  (∀ (s : State) (f : BitVec 6), srcS s ⟨false, f⟩ = s.me.readS (f.toNat % 32) ∧
    srcV s ⟨false, f⟩ = s.readV s.cur s.x (s.me.vname f.toNat)) ∧
  (∀ (s : State) (f : BitVec 6), f.toNat < 8 → srcS s ⟨true, f⟩ = lo64 (latchValue s f.toNat) ∧
    (2 ≤ f.toNat → srcV s ⟨true, f⟩ = latchValue s f.toNat) ∧
    (f.toNat < 2 → ∀ e < 4096 / s.me.iw, elem s.me.iw (srcV s ⟨true, f⟩) e = (latchValue s f.toNat).toNat % 2 ^ s.me.iw)) ∧
  (∀ (s : State) (f : BitVec 6) (e : Entry) (rest : List Entry), 8 ≤ f.toNat →
    (s.me.stream (f.toNat % 16)).entries = e :: rest → srcS s ⟨true, f⟩ = lo64 e.data ∧ srcV s ⟨true, f⟩ = e.data) ∧
  (∀ (o : SRR) (s : State) (k : Nat), o.a.m = true → 16 ≤ o.a.f.toNat → o.a.f.toNat < 32 → k = o.a.f.toNat - 16 → o.b.m = false →
    o.b.f.toNat < 32 → o.g = false → s.iss.checked = false → (s.me.stream k).readable = true →
    (viewOf (.add o)).pops = [k] ∧ ((s.me.stream k).entries = [] → waitsFor (.add o) s (.stream k)))

/-- R40 and the list's own form: a write to memory reads back and leaves every other byte as it was, and the operations that write memory keep
its canonical form, on which the equality of memories rests (the form is the model's). -/
def Obligations.MemoryForm : Prop :=
  (∀ (m : Memory) (a c : Nat) (b : Byte), Mem.read (Mem.write m a b) c = if c = a then b else Mem.read m c) ∧
  (∀ (m n : Memory), Mem.wf m → Mem.wf n → (∀ a, Mem.read m a = Mem.read n a) → m = n) ∧
  (∀ (s : State), Mem.wf s.mem →
    (∀ pa b, Mem.wf (s.homeStore pa b).mem) ∧ (∀ sec v bad, Mem.wf (s.toStack sec v bad).mem) ∧ (∀ l, Mem.wf (s.evictLine l).mem) ∧
    Mem.wf s.cleanAll.mem ∧ (∀ a pa n, Mem.wf (s.flashRestore a pa n).mem) ∧
    ∀ die line, ∃ t, exec (.rdcEviction die line) s = .next t ∧ Mem.wf t.mem)

/-- R57 and R58: a store into the own scratchpad changes exactly the bytes it stores: they read back, every other byte of the allocation reads
as before, and nothing but the scratchpad changes. -/
def Obligations.LocalStores : Prop :=
  ∀ (s : State) (core x a c : Nat) (b : List Byte), 0 < b.length → s.localFault core x a b.length = none → windowOf a = 0 →
    s.localFault core x c 1 = none → windowOf c = 0 →
    ((s.localStore core x a b [] false).localBytes core x c 1).1 =
        [if a ≤ c ∧ c < a + b.length then b.getD (c - a) 0 else ((s.localBytes core x c 1).1).getD 0 0] ∧
      ∃ m, s.localStore core x a b [] false = { s with spad := m }

/-- R85, R87, R91, R96: a computation of class A, V, M, C or P that passes its checks only puts results in flight: no register, predicate, flag,
latch or control register of any context, no byte of memory and no unit changes until they are written. A conversion with stochastic
rounding needs a random word. -/
def Obligations.ComputationFrame : Prop :=
  ∀ (i : Instr) (s : State), (s.form i).cls = .a ∨ (s.form i).cls = .v ∨ (s.form i).cls = .m ∨ (s.form i).cls = .c ∨ (s.form i).cls = .p →
    s.Clear (s.form i) → ((s.form i).sr = true → s.me.rand.words ≠ []) →
    ∃ rs, exec i s = .next (s.flying (s.form i) rs) ∧
      (∀ core x, (core, x) ≠ (s.cur, s.x) → x < 4 → s.x < 4 → (s.flying (s.form i) rs).ctx core x = s.ctx core x) ∧
      (s.flying (s.form i) rs).ctx s.cur s.x = { s.me with flight := s.me.flight ++ rs } ∧
      (∀ a, Mem.read (s.flying (s.form i) rs).mem a = Mem.read s.mem a) ∧ (s.flying (s.form i) rs).spad = s.spad ∧
      (s.flying (s.form i) rs).vregs = s.vregs ∧ (s.flying (s.form i) rs).regs = s.regs

/-- R104 to R106, R85, R91, R99, R92 and R109: while its bundle makes the checks, a slot that fails one stops with the cause of the first
that fails, in the order of R109, and one that waits for an entry of a stream blocks, unless a check of its own that needs no such entry
fails; whatever slot it is, no part of its effect happens. -/
def Obligations.SlotChecks : Prop :=
  (∀ (i : Instr) (s : State), (s.form i).cls ≠ .none → s.iss.checked = false →
    (s.slotRules (s.form i) ≠ .commit → exec i s = .next (s.stop (s.slotRules (s.form i)))) ∧
    (s.slotRules (s.form i) = .commit → s.slotWaits (s.form i) ≠ .commit →
      exec i s = .next (s.stop (s.slotWaits (s.form i))) ∨ ∃ cause, stopsWith i s cause)) ∧
  (∀ (v : View) (s : State),
    (v.encOk = false → s.slotCheck v = .trap 2 0x00 none 0 0) ∧
    (v.encOk = true → (∃ o ∈ v.sources, o.vec = false ∧ o.m = false ∧ 32 ≤ o.f) → s.slotCheck v = .trap 3 0x0A none 0 0) ∧
    (v.encOk = true → (∀ o ∈ v.sources, o.regOk = true) → (∃ o ∈ v.sources, o.modeOk = false) →
      s.slotCheck v = .trap 4 0x01 none 0 0) ∧
    (v.encOk = true → (∀ o ∈ v.sources, o.regOk = true ∧ o.modeOk = true) →
      (v.g = true → (v.n = false ∨ s.iss.twinned = true ∨ s.iss.last = none ∨
          (∃ cl u, s.iss.last = some (cl, u) ∧ (cl ≠ v.cls ∨ u ≠ 0 ∧ (v.cls = .a ∨ v.cls = .v)))) →
        s.slotCheck v = .trap 5 0x05 none 0 0) ∧
      (v.g = false →
        ((∃ l ∈ v.reads, mfind s.me.latches l = none) → s.slotCheck v = .trap 9 0x08 none 0 0) ∧
        ((∀ l ∈ v.reads, mfind s.me.latches l ≠ none) →
          (1 < v.lat → 24 < s.me.inFlight + v.count → s.slotCheck v = .trap 10 0x09 none 0 0) ∧
          ((v.lat ≤ 1 ∨ s.me.inFlight + v.count ≤ 24) →
            ((∃ k ∈ v.streams ++ v.named, (s.me.stream k).readable = false) → s.slotCheck v = .trap 11 0x0D none 0 0) ∧
            ((∀ k ∈ v.streams ++ v.named, (s.me.stream k).readable = true) →
              ((∃ k ∈ v.streams, (s.me.stream k).entries = []) →
                ∃ k ∈ v.streams, (s.me.stream k).entries = [] ∧ s.slotCheck v = .block (.stream k)) ∧
              ((∀ k ∈ v.streams, (s.me.stream k).entries ≠ []) → s.slotCheck v = .commit)))))))

/-- Every instruction and every event, whatever its operands, answers a next state from every state: none stops the model. -/
def Obligations.EveryInstructionAnswers : Prop := ∀ (i : Instr) (s : State), Answers (exec i s)

/-- Every run from a state whose agenda the surroundings can ask for goes on for ever, without a fault or a refusal. -/
def Obligations.SafeRuns : Prop := ∀ s : State, s.agendaOk = true → SafeFrom s

/-- Every step keeps the agenda one that the surroundings can ask for, and takes one event from it: the device asks for nothing from outside. -/
def Obligations.AgendaInvariant : Prop :=
  ∀ s t : State, s.agendaOk = true → step s = .next t → t.agendaOk = true ∧ t.agenda = s.agenda.tail

/-- R323, R324, R328 to R330, R342: taking a trap. A handler that may run is entered, with the results in flight put aside, the latches lost, the
trap registers written and the registers kept; where none may run the context escalates and stops, with the results in flight of its handler
and of the bundles that its trap interrupted in one record; the return resumes at EPC with what was put aside. A severity that kills replaces
the trap. EMASK names the slots, and for the outcome of a KV operation is 0. -/
def Obligations.TrapsAndReturns : Prop :=
  (∀ (s t : State) (rank extra src : Nat) (cause : Byte) (info : Option Word) (c : Ctx), s.action (classOf cause.toNat) 0 < 3 →
    t = s.stop (.trap rank cause info extra src) → c = t.ctx s.cur s.x →
    c.regs = s.me.regs ∧ c.preds = s.me.preds ∧ c.fflags = s.me.fflags ∧ c.vmode = s.me.vmode ∧ c.latches = [] ∧
    c.ecause = ecauseOf cause false src 0 ∧ c.einfo = info.getD (s.iss.words.getD s.iss.slot 0 |>.setWidth 64) ∧
    c.emask = (if kvCause cause info then 0 else .ofNat 64 (2 ^ s.iss.slot + 256 * extra)) ∧ c.epc = s.iss.pc &&& ~~~15 ∧
    (s.me.tvec.getLsbD 0 = true → s.me.hnd = false → alwaysEscalates cause.toNat = false →
      c.hnd = true ∧ c.pc = tvecAddr s.me.tvec ∧ c.held = s.me.flight ∧ c.heldClock = s.me.clock ∧ c.flight = [] ∧ c.save = s.me.save) ∧
    (s.me.tvec.getLsbD 0 = false ∨ s.me.hnd = true ∨ alwaysEscalates cause.toNat = true →
      c.hnd = false ∧ c.pc = s.iss.pc &&& ~~~15 ∧ c.save = .stopped 1 ∧ c.esc = some (cause, s.me.hnd && cause != 0x18, s.now) ∧
      c.held = [] ∧ c.flight = s.me.held ++ s.me.flight)) ∧
  (∀ (s : State) (rank extra src : Nat) (cause : Byte) (info : Option Word), s.action (classOf cause.toNat) 0 = 3 → s.me.task.isSome = true →
    ∃ u : State, s.stop (.trap rank cause info extra src) = u.killTask s.cur s.x ∧ u.ctxs = s.ctxs) ∧
  (∀ c : Ctx, c.returned.hnd = false ∧ c.returned.pc = c.epc &&& ~~~15 ∧ c.returned.flight = c.held ∧
    c.returned.clock = c.heldClock ∧ c.returned.regs = c.regs ∧ c.returned.fflags = c.fflags ∧
    ∀ e ∈ c.returned.log, e.cause = 0)

/-- R32, R162 and R349: poison consumed within a containment region unwinds the innermost one: D receives 0x47, the flags of the region's
opening come back, the results in flight are dropped and the context goes on at the handler; outside every region it is a late fault. -/
def Obligations.RegionUnwind : Prop :=
  ∀ (s : State) (core x src snum : Nat) (info : Word) (agent : Nat) (t : State), s.action 5 agent < 3 →
    t = s.poisoned core x src snum info agent →
    (∀ g rest, (s.ctx core x).regions = g :: rest →
      (t.ctx core x).pc = g.handler ∧ (t.ctx core x).regions = rest ∧ (t.ctx core x).flight = [] ∧ (t.ctx core x).held = [] ∧ (t.ctx core x).loop = none ∧
      (t.ctx core x).fflags = g.fflags ∧ (g.d ≠ 0 → (t.ctx core x).readS g.d = 0x47) ∧
      ∀ r ≠ g.d, r ≠ 0 → (t.ctx core x).readS r = mget 0 g.regs r) ∧
    ((s.ctx core x).regions = [] → (t.ctx core x).pending = (s.ctx core x).pending ++
        [{ cause := 0x47, src := src, snum := snum, info := info, seen := s.cycle }] ∧
      (t.ctx core x).regs = (s.ctx core x).regs ∧ (t.ctx core x).pc = (s.ctx core x).pc)

/-- R84, R86, R87, R97, R102, R109 and R176: a step. An event that the surroundings ask for is carried out; otherwise, where the core whose
turn it is has nothing else to do first, the four words at its context's pc decode to one instruction and three `nop`s, and the step is
that instruction's: its checks, then, where they pass, its effect, followed by the end of its bundle: its commit, its trap or its block.
After the last core of a cycle the device's agents act one by one, and then the cycle ends. That what the surroundings ask for comes before
everything else, and the agents after the cores, is the model's choice (assumptions 1 and 2). -/
def Obligations.StepRunsDecoded : Prop :=
  (∀ (e : Instr) (rest : List Instr) (s t : State), s.agenda = e :: rest → isEvent e = true →
    exec e { s with agenda := rest } = .next t → step s = .next { t with agenda := rest }) ∧
  (∀ (s u v c : State) (w : BitVec 32) (i : Instr) (j : Issue), s.agenda = [] → (∀ k, (s.stack k).bankWait = []) →
    Fetches s u [w, 0x08000000, 0x08000000, 0x88000000] →
    w.getLsbD 31 = false → decodeWord w.toNat = .ok i → (viewOf i).cls ≠ .none →
    v = { u with iss := Issue.start u.me.pc [w, 0x08000000, 0x08000000, 0x88000000] 1 } →
    v.bundleChecks (soleSlots i) = [] → j = { v.iss with slot := 0, unit := if (viewOf i).g then 1 else 0 } →
    exec i { v with iss := j } = .next c →
    (c.slotEnd = .commit → ∃ e, ∀ t, exec i { v with slotEnd := e, iss := { j with checked := true } } = .next t →
      ∃ k n l q r, r = t.updIss (fun j => { j with slot := k, unit := n, last := l, twinned := q, checked := false }) ∧
        (r.bodyFault = none → step s = .next { (r.commitBundle (u.me.tvec.getLsbD 1)).advance with agenda := [] }) ∧
        (∀ cause info, r.bodyFault = some (cause, info) → step s = .next { (v.enterTrap v.cur v.x
            { cause := cause, late := false, src := 0, snum := 0, info := info, emask := 0, epc := v.iss.pc } false).advance
          with agenda := [] })) ∧
    (∀ rank cause info extra src, rank < 99 → c.slotEnd = .trap rank cause info extra src →
      step s = .next { (v.stopBundle cause info extra src 1).advance with agenda := [] }) ∧
    (∀ b, c.slotEnd = .block b → step s = .next { ((v.upd (fun c => c.waitFor b)).passCore v.cur).advance with agenda := [] }) ∧
    (c.slotEnd = .stall → step s = .next { v.advance with agenda := [] })) ∧
  (∀ s : State, s.agenda = [] → s.evTurn = true → s.resetDue = none → s.chances = [] →
    (∀ e t, s.autoEvent = some e → exec e s = .next t → step s = .next { t with agenda := [] }) ∧
    (s.autoEvent = none → step s = .next { s.tick with agenda := [] } ∧ s.tick.cycle = s.cycle + 1 ∧ s.tick.evTurn = false))
end

