-- ==== Sys2Proof/Laws/Maps.lean ====
section
/-! SUPPORT. Maps and byte memory: reading back what was written, every other key left alone, and the canonical form of
memory, which every memory operation keeps. -/

namespace Sys2Proof.Machine

/-! ## Maps -/

theorem mfind_merase_same {α : Type} (m : Map α) (k : Nat) : mfind (merase m k) k = none := by
  induction m with
  | nil => rfl
  | cons e t ih =>
    by_cases h : e.1 = k
    · simpa [merase, h] using ih
    · simpa [merase, h, mfind] using ih

theorem mfind_merase_other {α : Type} (m : Map α) {k j : Nat} (h : j ≠ k) : mfind (merase m k) j = mfind m j := by
  induction m with
  | nil => rfl
  | cons e t ih =>
    by_cases he : e.1 = k
    · have : e.1 ≠ j := fun q => h (q.symm.trans he)
      simpa [merase, he, mfind, Ne.symm h] using ih
    · simp only [merase, List.filter_cons, he, ne_eq, not_false_eq_true, decide_true, if_true, mfind]
      split
      · rfl
      · exact ih

theorem mfind_minsert_same {α : Type} (m : Map α) (k : Nat) (v : α) (h : mfind m k = none) :
    mfind (minsert m k v) k = some v := by
  induction m with
  | nil => simp [minsert, mfind]
  | cons e t ih =>
    simp only [mfind] at h
    split at h
    · cases h
    · rename_i hk
      simp only [minsert]
      split
      · simp [mfind]
      · simpa [mfind, hk] using ih h

theorem mfind_minsert_other {α : Type} (m : Map α) {k j : Nat} (v : α) (h : j ≠ k) : mfind (minsert m k v) j = mfind m j := by
  induction m with
  | nil => simp [minsert, mfind, Ne.symm h]
  | cons e t ih =>
    simp only [minsert]
    split
    · simp [mfind, Ne.symm h]
    · simp [mfind, ih]

@[simp] theorem mfind_mset_same {α : Type} (m : Map α) (k : Nat) (v : α) : mfind (mset m k v) k = some v :=
  mfind_minsert_same _ _ _ (mfind_merase_same m k)

theorem mfind_mset_other {α : Type} (m : Map α) {k j : Nat} (v : α) (h : j ≠ k) : mfind (mset m k v) j = mfind m j := by
  rw [mset, mfind_minsert_other _ v h, mfind_merase_other m h]

@[simp] theorem mget_mset_same {α : Type} (d : α) (m : Map α) (k : Nat) (v : α) : mget d (mset m k v) k = v := by
  simp [mget]

theorem mget_mset_other {α : Type} (d : α) (m : Map α) {k j : Nat} (v : α) (h : j ≠ k) :
    mget d (mset m k v) j = mget d m j := by
  simp [mget, mfind_mset_other m v h]

/-- Inserting an absent key and erasing it again gives the map back. -/
theorem merase_minsert {α : Type} (m : Map α) (k : Nat) (v : α) (h : ∀ e ∈ m, e.1 ≠ k) : merase (minsert m k v) k = m := by
  have keep : ∀ n : Map α, (∀ e ∈ n, e.1 ≠ k) → merase n k = n := fun n hn => by
    simpa [merase, List.filter_eq_self] using hn
  induction m with
  | nil => simp [minsert, merase]
  | cons e t ih =>
    have ht : ∀ f ∈ t, f.1 ≠ k := fun f hf => h f (List.mem_cons_of_mem _ hf)
    simp only [minsert]
    split
    · have := keep _ h
      simpa [merase] using this
    · have he := h e (List.mem_cons_self ..)
      simpa [merase, he] using ih ht

/-- The last of two writes to one key stands. -/
@[simp] theorem mset_mset {α : Type} (m : Map α) (k : Nat) (v w : α) : mset (mset m k v) k w = mset m k w := by
  have : merase (mset m k v) k = merase m k :=
    merase_minsert _ _ _ (fun e he => by simpa [merase] using (List.mem_filter.mp he).2)
  simp only [mset] at this ⊢
  rw [this]

/-! ## Bytes -/

@[simp] theorem read_write_same (m : Memory) (a : Nat) (b : Byte) : Mem.read (Mem.write m a b) a = b := by
  unfold Mem.read Mem.write
  split
  · rename_i h
    simp [mget, mfind_merase_same, h]
  · simp

theorem read_write_other (m : Memory) {a c : Nat} (b : Byte) (h : c ≠ a) : Mem.read (Mem.write m a b) c = Mem.read m c := by
  unfold Mem.read Mem.write
  split
  · simp [mget, mfind_merase_other m h]
  · exact mget_mset_other _ m b h

/-! ## The canonical form -/

theorem wf_nil : Mem.wf [] := by simp [Mem.wf]

theorem wf_merase {m : Memory} (h : Mem.wf m) (a : Nat) : Mem.wf (merase m a) :=
  ⟨h.1.filter _, fun e he => h.2 e (List.mem_filter.mp he).1⟩

theorem mem_minsert {α : Type} {m : Map α} {k : Nat} {v : α} {e : Nat × α} :
    e ∈ minsert m k v → e = (k, v) ∨ e ∈ m := by
  induction m with
  | nil => simp [minsert]
  | cons f t ih =>
    simp only [minsert]
    split
    · simp
    · intro h
      rcases List.mem_cons.mp h with h | h
      · exact .inr (by simp [h])
      · exact (ih h).imp id (List.mem_cons_of_mem _)

theorem pairwise_minsert {α : Type} {m : Map α} {k : Nat} (v : α) (h : m.Pairwise (fun e f => e.1 < f.1))
    (hk : ∀ e ∈ m, e.1 ≠ k) : (minsert m k v).Pairwise (fun e f => e.1 < f.1) := by
  induction m with
  | nil => simp [minsert]
  | cons f t ih =>
    rw [List.pairwise_cons] at h
    simp only [minsert]
    split
    · rename_i hlt
      refine List.pairwise_cons.mpr ⟨fun e he => ?_, List.pairwise_cons.mpr h⟩
      rcases List.mem_cons.mp he with he | he
      · simpa [he] using hlt
      · exact lt_trans hlt (h.1 e he)
    · rename_i hge
      refine List.pairwise_cons.mpr ⟨fun e he => ?_, ih h.2 (fun e he => hk e (List.mem_cons_of_mem _ he))⟩
      rcases mem_minsert he with he | he
      · have := hk f (by simp)
        simp only [he]
        omega
      · exact h.1 e he

theorem wf_mset {m : Memory} (h : Mem.wf m) (a : Nat) {b : Byte} (hb : b ≠ unlistedByte) : Mem.wf (mset m a b) := by
  have hm := wf_merase h a
  have hk : ∀ e ∈ merase m a, e.1 ≠ a := fun e he => of_decide_eq_true (List.mem_filter.mp he).2
  exact ⟨pairwise_minsert b hm.1 hk, fun e he => (mem_minsert he).elim (fun q => q ▸ hb) (hm.2 e)⟩

/-- A byte write keeps the canonical form. -/
theorem wf_write {m : Memory} (h : Mem.wf m) (a : Nat) (b : Byte) : Mem.wf (Mem.write m a b) := by
  unfold Mem.write
  split
  · exact wf_merase h a
  · rename_i hb
    exact wf_mset h a hb

theorem wf_foldl_write {α : Type} (l : List α) (f : α → Nat) (g : α → Byte) {m : Memory} (h : Mem.wf m) :
    Mem.wf (l.foldl (fun m k => Mem.write m (f k) (g k)) m) := by
  induction l generalizing m with
  | nil => exact h
  | cons a t ih => exact ih (wf_write h _ _)

/-- A sector write to the stacks keeps the canonical form. -/
theorem wf_storeStack {m : Memory} (h : Mem.wf m) (sec : Nat) (v : Sector) : Mem.wf (storeStack m sec v) :=
  wf_foldl_write _ _ _ h

/-- Two memories in canonical form that read alike are equal. -/
theorem wf_head_least {e : Nat × Byte} {t : Memory} (h : Mem.wf (e :: t)) : ∀ f ∈ t, e.1 < f.1 :=
  (List.pairwise_cons.mp h.1).1

/-! ## Memory operations of the device -/

theorem wf_toStack {s : State} (h : Mem.wf s.mem) (sec : Nat) (v : Sector) (bad : Bool) : Mem.wf (s.toStack sec v bad).mem :=
  wf_storeStack h sec v

/-- A fold of steps that each keep the canonical form keeps it. -/
theorem wf_foldl {α : Type} (f : State → α → State) (hf : ∀ s a, Mem.wf s.mem → Mem.wf (f s a).mem) (l : List α)
    {s : State} (h : Mem.wf s.mem) : Mem.wf (l.foldl f s).mem := by
  induction l generalizing s with
  | nil => exact h
  | cons a t ih => exact ih (hf _ _ h)

theorem wf_cleanLine {s : State} (h : Mem.wf s.mem) (line : Nat) : Mem.wf (s.cleanLine line).mem := by
  refine wf_foldl _ (fun s sec hs => ?_) _ h
  dsimp only
  split
  · split
    · exact wf_storeStack hs _ _
    · exact hs
  · exact hs

theorem wf_evictLine {s : State} (h : Mem.wf s.mem) (line : Nat) : Mem.wf (s.evictLine line).mem := by
  unfold State.evictLine
  exact wf_cleanLine h line

theorem wf_useLine {s : State} (h : Mem.wf s.mem) (line : Nat) : Mem.wf (s.useLine line).mem := by
  unfold State.useLine
  split
  · exact h
  · dsimp only
    split
    · exact h
    · split
      · exact wf_evictLine h _
      · exact h

theorem wf_fillHome {s : State} (h : Mem.wf s.mem) (sec : Nat) : Mem.wf (s.fillHome sec).mem := by
  unfold State.fillHome
  split
  · exact h
  · split <;> exact wf_useLine h _

/-- A write at a home slice keeps the canonical form. -/
theorem wf_homeWrite {s : State} (h : Mem.wf s.mem) (sec : Nat) (mask : BitVec 64) (v : Sector) (bad : Bool) :
    Mem.wf (s.homeWrite sec mask v bad).mem := by
  unfold State.homeWrite
  split
  · exact h
  · dsimp only
    split
    · exact wf_useLine h _
    · exact wf_fillHome h _

/-- A run of home writes keeps the canonical form. -/
theorem wf_homeWrites (f : Nat → BitVec 64 × Sector) (bad : Bool) (l : List Nat) {s : State} (h : Mem.wf s.mem) :
    Mem.wf (l.foldl (fun s k => s.homeWrite k (f k).1 (f k).2 bad) s).mem :=
  wf_foldl _ (fun _ _ hs => wf_homeWrite hs _ _ _ _) _ h

/-- A write of bytes at their home slices keeps the canonical form. -/
theorem wf_homeStore {s : State} (h : Mem.wf s.mem) (pa : Nat) (b : List Byte) : Mem.wf (s.homeStore pa b).mem :=
  wf_homeWrites (pieceOf pa b []) false (sectorsOf pa b.length) h

theorem wf_rdcClean {s : State} (h : Mem.wf s.mem) (die sec : Nat) : Mem.wf (s.rdcClean die sec).mem := by
  unfold State.rdcClean
  split
  · split
    · exact h
    · exact wf_homeWrite h _ _ _ _
  · exact h

theorem wf_rdcDrop {s : State} (h : Mem.wf s.mem) (die sec : Nat) : Mem.wf (s.rdcDrop die sec).mem := by
  unfold State.rdcDrop
  exact wf_rdcClean h die sec

/-- An eviction of a remote-data cache keeps the canonical form. -/
theorem wf_rdcEvict {s : State} (h : Mem.wf s.mem) (die line : Nat) : Mem.wf (s.rdcEvict die line).mem := by
  unfold State.rdcEvict
  exact wf_foldl _ (fun _ _ hs => wf_rdcDrop hs _ _) _ h

/-- The memory of the reset state has the canonical form. -/
theorem wf_reset : Mem.wf State.reset.mem := wf_nil

end Sys2Proof.Machine
end

