-- ==== Sys2Proof/Laws/State.lean ====
section
/-! SUPPORT. What each small update of the state changes, and that it changes nothing else: one lemma for each field and
update, so that no later proof unfolds a record update. -/

namespace Sys2Proof.Machine

variable (s : State)

/-! ## `updCtx` -/

@[simp] theorem updCtx_agenda (core x : Nat) (f : Ctx → Ctx) : (s.updCtx core x f).agenda = s.agenda := rfl
@[simp] theorem updCtx_chances (core x : Nat) (f : Ctx → Ctx) : (s.updCtx core x f).chances = s.chances := rfl
@[simp] theorem updCtx_free (core x : Nat) (f : Ctx → Ctx) : (s.updCtx core x f).free = s.free := rfl
@[simp] theorem updCtx_cycle (core x : Nat) (f : Ctx → Ctx) : (s.updCtx core x f).cycle = s.cycle := rfl
@[simp] theorem updCtx_writeBacks (core x : Nat) (f : Ctx → Ctx) : (s.updCtx core x f).writeBacks = s.writeBacks := rfl
@[simp] theorem updCtx_stackUse (core x : Nat) (f : Ctx → Ctx) : (s.updCtx core x f).stackUse = s.stackUse := rfl
@[simp] theorem updCtx_cur (core x : Nat) (f : Ctx → Ctx) : (s.updCtx core x f).cur = s.cur := rfl
@[simp] theorem updCtx_evTurn (core x : Nat) (f : Ctx → Ctx) : (s.updCtx core x f).evTurn = s.evTurn := rfl
@[simp] theorem updCtx_slotEnd (core x : Nat) (f : Ctx → Ctx) : (s.updCtx core x f).slotEnd = s.slotEnd := rfl
@[simp] theorem updCtx_iss (core x : Nat) (f : Ctx → Ctx) : (s.updCtx core x f).iss = s.iss := rfl
@[simp] theorem updCtx_ctxs (core x : Nat) (f : Ctx → Ctx) : (s.updCtx core x f).ctxs = mset s.ctxs (cid core x) (f (s.ctx core x)) := rfl
@[simp] theorem updCtx_cores (core x : Nat) (f : Ctx → Ctx) : (s.updCtx core x f).cores = s.cores := rfl
@[simp] theorem updCtx_vregs (core x : Nat) (f : Ctx → Ctx) : (s.updCtx core x f).vregs = s.vregs := rfl
@[simp] theorem updCtx_vpoison (core x : Nat) (f : Ctx → Ctx) : (s.updCtx core x f).vpoison = s.vpoison := rfl
@[simp] theorem updCtx_spad (core x : Nat) (f : Ctx → Ctx) : (s.updCtx core x f).spad = s.spad := rfl
@[simp] theorem updCtx_acc (core x : Nat) (f : Ctx → Ctx) : (s.updCtx core x f).acc = s.acc := rfl
@[simp] theorem updCtx_ztag (core x : Nat) (f : Ctx → Ctx) : (s.updCtx core x f).ztag = s.ztag := rfl
@[simp] theorem updCtx_arrays (core x : Nat) (f : Ctx → Ctx) : (s.updCtx core x f).arrays = s.arrays := rfl
@[simp] theorem updCtx_mem (core x : Nat) (f : Ctx → Ctx) : (s.updCtx core x f).mem = s.mem := rfl
@[simp] theorem updCtx_poison (core x : Nat) (f : Ctx → Ctx) : (s.updCtx core x f).poison = s.poison := rfl
@[simp] theorem updCtx_l2 (core x : Nat) (f : Ctx → Ctx) : (s.updCtx core x f).l2 = s.l2 := rfl
@[simp] theorem updCtx_l2use (core x : Nat) (f : Ctx → Ctx) : (s.updCtx core x f).l2use = s.l2use := rfl
@[simp] theorem updCtx_rdc (core x : Nat) (f : Ctx → Ctx) : (s.updCtx core x f).rdc = s.rdc := rfl
@[simp] theorem updCtx_appCache (core x : Nat) (f : Ctx → Ctx) : (s.updCtx core x f).appCache = s.appCache := rfl
@[simp] theorem updCtx_pins (core x : Nat) (f : Ctx → Ctx) : (s.updCtx core x f).pins = s.pins := rfl
@[simp] theorem updCtx_linePins (core x : Nat) (f : Ctx → Ctx) : (s.updCtx core x f).linePins = s.linePins := rfl
@[simp] theorem updCtx_pinWaits (core x : Nat) (f : Ctx → Ctx) : (s.updCtx core x f).pinWaits = s.pinWaits := rfl
@[simp] theorem updCtx_joins (core x : Nat) (f : Ctx → Ctx) : (s.updCtx core x f).joins = s.joins := rfl
@[simp] theorem updCtx_launches (core x : Nat) (f : Ctx → Ctx) : (s.updCtx core x f).launches = s.launches := rfl
@[simp] theorem updCtx_nextLaunch (core x : Nat) (f : Ctx → Ctx) : (s.updCtx core x f).nextLaunch = s.nextLaunch := rfl
@[simp] theorem updCtx_intake (core x : Nat) (f : Ctx → Ctx) : (s.updCtx core x f).intake = s.intake := rfl
@[simp] theorem updCtx_saved (core x : Nat) (f : Ctx → Ctx) : (s.updCtx core x f).saved = s.saved := rfl
@[simp] theorem updCtx_holds (core x : Nat) (f : Ctx → Ctx) : (s.updCtx core x f).holds = s.holds := rfl
@[simp] theorem updCtx_slotsMapped (core x : Nat) (f : Ctx → Ctx) : (s.updCtx core x f).slotsMapped = s.slotsMapped := rfl
@[simp] theorem updCtx_sched (core x : Nat) (f : Ctx → Ctx) : (s.updCtx core x f).sched = s.sched := rfl
@[simp] theorem updCtx_hotRetired (core x : Nat) (f : Ctx → Ctx) : (s.updCtx core x f).hotRetired = s.hotRetired := rfl
@[simp] theorem updCtx_colls (core x : Nat) (f : Ctx → Ctx) : (s.updCtx core x f).colls = s.colls := rfl
@[simp] theorem updCtx_soundSeq (core x : Nat) (f : Ctx → Ctx) : (s.updCtx core x f).soundSeq = s.soundSeq := rfl
@[simp] theorem updCtx_heldResults (core x : Nat) (f : Ctx → Ctx) : (s.updCtx core x f).heldResults = s.heldResults := rfl
@[simp] theorem updCtx_links (core x : Nat) (f : Ctx → Ctx) : (s.updCtx core x f).links = s.links := rfl
@[simp] theorem updCtx_hbm (core x : Nat) (f : Ctx → Ctx) : (s.updCtx core x f).hbm = s.hbm := rfl
@[simp] theorem updCtx_eths (core x : Nat) (f : Ctx → Ctx) : (s.updCtx core x f).eths = s.eths := rfl
@[simp] theorem updCtx_ramps (core x : Nat) (f : Ctx → Ctx) : (s.updCtx core x f).ramps = s.ramps := rfl
@[simp] theorem updCtx_islands (core x : Nat) (f : Ctx → Ctx) : (s.updCtx core x f).islands = s.islands := rfl
@[simp] theorem updCtx_regs (core x : Nat) (f : Ctx → Ctx) : (s.updCtx core x f).regs = s.regs := rfl
@[simp] theorem updCtx_errCounts (core x : Nat) (f : Ctx → Ctx) : (s.updCtx core x f).errCounts = s.errCounts := rfl
@[simp] theorem updCtx_errLogged (core x : Nat) (f : Ctx → Ctx) : (s.updCtx core x f).errLogged = s.errLogged := rfl
@[simp] theorem updCtx_logDue (core x : Nat) (f : Ctx → Ctx) : (s.updCtx core x f).logDue = s.logDue := rfl
@[simp] theorem updCtx_traceDue (core x : Nat) (f : Ctx → Ctx) : (s.updCtx core x f).traceDue = s.traceDue := rfl
@[simp] theorem updCtx_errWindow (core x : Nat) (f : Ctx → Ctx) : (s.updCtx core x f).errWindow = s.errWindow := rfl
@[simp] theorem updCtx_interrupts (core x : Nat) (f : Ctx → Ctx) : (s.updCtx core x f).interrupts = s.interrupts := rfl
@[simp] theorem updCtx_imsic (core x : Nat) (f : Ctx → Ctx) : (s.updCtx core x f).imsic = s.imsic := rfl
@[simp] theorem updCtx_hostData (core x : Nat) (f : Ctx → Ctx) : (s.updCtx core x f).hostData = s.hostData := rfl
@[simp] theorem updCtx_flash (core x : Nat) (f : Ctx → Ctx) : (s.updCtx core x f).flash = s.flash := rfl
@[simp] theorem updCtx_image (core x : Nat) (f : Ctx → Ctx) : (s.updCtx core x f).image = s.image := rfl
@[simp] theorem updCtx_checkpointed (core x : Nat) (f : Ctx → Ctx) : (s.updCtx core x f).checkpointed = s.checkpointed := rfl
@[simp] theorem updCtx_keptTasks (core x : Nat) (f : Ctx → Ctx) : (s.updCtx core x f).keptTasks = s.keptTasks := rfl
@[simp] theorem updCtx_keptLaunches (core x : Nat) (f : Ctx → Ctx) : (s.updCtx core x f).keptLaunches = s.keptLaunches := rfl
@[simp] theorem updCtx_replies (core x : Nat) (f : Ctx → Ctx) : (s.updCtx core x f).replies = s.replies := rfl
@[simp] theorem updCtx_outbox (core x : Nat) (f : Ctx → Ctx) : (s.updCtx core x f).outbox = s.outbox := rfl
@[simp] theorem updCtx_transit (core x : Nat) (f : Ctx → Ctx) : (s.updCtx core x f).transit = s.transit := rfl
@[simp] theorem updCtx_freedBanks (core x : Nat) (f : Ctx → Ctx) : (s.updCtx core x f).freedBanks = s.freedBanks := rfl

/-! ## `upd` -/

@[simp] theorem upd_agenda (f : Ctx → Ctx) : (s.upd f).agenda = s.agenda := rfl
@[simp] theorem upd_chances (f : Ctx → Ctx) : (s.upd f).chances = s.chances := rfl
@[simp] theorem upd_free (f : Ctx → Ctx) : (s.upd f).free = s.free := rfl
@[simp] theorem upd_cycle (f : Ctx → Ctx) : (s.upd f).cycle = s.cycle := rfl
@[simp] theorem upd_writeBacks (f : Ctx → Ctx) : (s.upd f).writeBacks = s.writeBacks := rfl
@[simp] theorem upd_stackUse (f : Ctx → Ctx) : (s.upd f).stackUse = s.stackUse := rfl
@[simp] theorem upd_cur (f : Ctx → Ctx) : (s.upd f).cur = s.cur := rfl
@[simp] theorem upd_evTurn (f : Ctx → Ctx) : (s.upd f).evTurn = s.evTurn := rfl
@[simp] theorem upd_slotEnd (f : Ctx → Ctx) : (s.upd f).slotEnd = s.slotEnd := rfl
@[simp] theorem upd_iss (f : Ctx → Ctx) : (s.upd f).iss = s.iss := rfl
@[simp] theorem upd_ctxs (f : Ctx → Ctx) : (s.upd f).ctxs = mset s.ctxs (cid s.cur s.x) (f (s.ctx s.cur s.x)) := rfl
@[simp] theorem upd_cores (f : Ctx → Ctx) : (s.upd f).cores = s.cores := rfl
@[simp] theorem upd_vregs (f : Ctx → Ctx) : (s.upd f).vregs = s.vregs := rfl
@[simp] theorem upd_vpoison (f : Ctx → Ctx) : (s.upd f).vpoison = s.vpoison := rfl
@[simp] theorem upd_spad (f : Ctx → Ctx) : (s.upd f).spad = s.spad := rfl
@[simp] theorem upd_acc (f : Ctx → Ctx) : (s.upd f).acc = s.acc := rfl
@[simp] theorem upd_ztag (f : Ctx → Ctx) : (s.upd f).ztag = s.ztag := rfl
@[simp] theorem upd_arrays (f : Ctx → Ctx) : (s.upd f).arrays = s.arrays := rfl
@[simp] theorem upd_mem (f : Ctx → Ctx) : (s.upd f).mem = s.mem := rfl
@[simp] theorem upd_poison (f : Ctx → Ctx) : (s.upd f).poison = s.poison := rfl
@[simp] theorem upd_l2 (f : Ctx → Ctx) : (s.upd f).l2 = s.l2 := rfl
@[simp] theorem upd_l2use (f : Ctx → Ctx) : (s.upd f).l2use = s.l2use := rfl
@[simp] theorem upd_rdc (f : Ctx → Ctx) : (s.upd f).rdc = s.rdc := rfl
@[simp] theorem upd_appCache (f : Ctx → Ctx) : (s.upd f).appCache = s.appCache := rfl
@[simp] theorem upd_pins (f : Ctx → Ctx) : (s.upd f).pins = s.pins := rfl
@[simp] theorem upd_linePins (f : Ctx → Ctx) : (s.upd f).linePins = s.linePins := rfl
@[simp] theorem upd_pinWaits (f : Ctx → Ctx) : (s.upd f).pinWaits = s.pinWaits := rfl
@[simp] theorem upd_joins (f : Ctx → Ctx) : (s.upd f).joins = s.joins := rfl
@[simp] theorem upd_launches (f : Ctx → Ctx) : (s.upd f).launches = s.launches := rfl
@[simp] theorem upd_nextLaunch (f : Ctx → Ctx) : (s.upd f).nextLaunch = s.nextLaunch := rfl
@[simp] theorem upd_intake (f : Ctx → Ctx) : (s.upd f).intake = s.intake := rfl
@[simp] theorem upd_saved (f : Ctx → Ctx) : (s.upd f).saved = s.saved := rfl
@[simp] theorem upd_holds (f : Ctx → Ctx) : (s.upd f).holds = s.holds := rfl
@[simp] theorem upd_slotsMapped (f : Ctx → Ctx) : (s.upd f).slotsMapped = s.slotsMapped := rfl
@[simp] theorem upd_sched (f : Ctx → Ctx) : (s.upd f).sched = s.sched := rfl
@[simp] theorem upd_hotRetired (f : Ctx → Ctx) : (s.upd f).hotRetired = s.hotRetired := rfl
@[simp] theorem upd_colls (f : Ctx → Ctx) : (s.upd f).colls = s.colls := rfl
@[simp] theorem upd_soundSeq (f : Ctx → Ctx) : (s.upd f).soundSeq = s.soundSeq := rfl
@[simp] theorem upd_heldResults (f : Ctx → Ctx) : (s.upd f).heldResults = s.heldResults := rfl
@[simp] theorem upd_links (f : Ctx → Ctx) : (s.upd f).links = s.links := rfl
@[simp] theorem upd_hbm (f : Ctx → Ctx) : (s.upd f).hbm = s.hbm := rfl
@[simp] theorem upd_eths (f : Ctx → Ctx) : (s.upd f).eths = s.eths := rfl
@[simp] theorem upd_ramps (f : Ctx → Ctx) : (s.upd f).ramps = s.ramps := rfl
@[simp] theorem upd_islands (f : Ctx → Ctx) : (s.upd f).islands = s.islands := rfl
@[simp] theorem upd_regs (f : Ctx → Ctx) : (s.upd f).regs = s.regs := rfl
@[simp] theorem upd_errCounts (f : Ctx → Ctx) : (s.upd f).errCounts = s.errCounts := rfl
@[simp] theorem upd_errLogged (f : Ctx → Ctx) : (s.upd f).errLogged = s.errLogged := rfl
@[simp] theorem upd_logDue (f : Ctx → Ctx) : (s.upd f).logDue = s.logDue := rfl
@[simp] theorem upd_traceDue (f : Ctx → Ctx) : (s.upd f).traceDue = s.traceDue := rfl
@[simp] theorem upd_errWindow (f : Ctx → Ctx) : (s.upd f).errWindow = s.errWindow := rfl
@[simp] theorem upd_interrupts (f : Ctx → Ctx) : (s.upd f).interrupts = s.interrupts := rfl
@[simp] theorem upd_imsic (f : Ctx → Ctx) : (s.upd f).imsic = s.imsic := rfl
@[simp] theorem upd_hostData (f : Ctx → Ctx) : (s.upd f).hostData = s.hostData := rfl
@[simp] theorem upd_flash (f : Ctx → Ctx) : (s.upd f).flash = s.flash := rfl
@[simp] theorem upd_image (f : Ctx → Ctx) : (s.upd f).image = s.image := rfl
@[simp] theorem upd_checkpointed (f : Ctx → Ctx) : (s.upd f).checkpointed = s.checkpointed := rfl
@[simp] theorem upd_keptTasks (f : Ctx → Ctx) : (s.upd f).keptTasks = s.keptTasks := rfl
@[simp] theorem upd_keptLaunches (f : Ctx → Ctx) : (s.upd f).keptLaunches = s.keptLaunches := rfl
@[simp] theorem upd_replies (f : Ctx → Ctx) : (s.upd f).replies = s.replies := rfl
@[simp] theorem upd_outbox (f : Ctx → Ctx) : (s.upd f).outbox = s.outbox := rfl
@[simp] theorem upd_transit (f : Ctx → Ctx) : (s.upd f).transit = s.transit := rfl
@[simp] theorem upd_freedBanks (f : Ctx → Ctx) : (s.upd f).freedBanks = s.freedBanks := rfl

/-! ## `updCore` -/

@[simp] theorem updCore_agenda (core : Nat) (f : Core → Core) : (s.updCore core f).agenda = s.agenda := rfl
@[simp] theorem updCore_chances (core : Nat) (f : Core → Core) : (s.updCore core f).chances = s.chances := rfl
@[simp] theorem updCore_free (core : Nat) (f : Core → Core) : (s.updCore core f).free = s.free := rfl
@[simp] theorem updCore_cycle (core : Nat) (f : Core → Core) : (s.updCore core f).cycle = s.cycle := rfl
@[simp] theorem updCore_writeBacks (core : Nat) (f : Core → Core) : (s.updCore core f).writeBacks = s.writeBacks := rfl
@[simp] theorem updCore_stackUse (core : Nat) (f : Core → Core) : (s.updCore core f).stackUse = s.stackUse := rfl
@[simp] theorem updCore_cur (core : Nat) (f : Core → Core) : (s.updCore core f).cur = s.cur := rfl
@[simp] theorem updCore_evTurn (core : Nat) (f : Core → Core) : (s.updCore core f).evTurn = s.evTurn := rfl
@[simp] theorem updCore_slotEnd (core : Nat) (f : Core → Core) : (s.updCore core f).slotEnd = s.slotEnd := rfl
@[simp] theorem updCore_iss (core : Nat) (f : Core → Core) : (s.updCore core f).iss = s.iss := rfl
@[simp] theorem updCore_ctxs (core : Nat) (f : Core → Core) : (s.updCore core f).ctxs = s.ctxs := rfl
@[simp] theorem updCore_cores (core : Nat) (f : Core → Core) : (s.updCore core f).cores = mset s.cores core (f (s.core core)) := rfl
@[simp] theorem updCore_vregs (core : Nat) (f : Core → Core) : (s.updCore core f).vregs = s.vregs := rfl
@[simp] theorem updCore_vpoison (core : Nat) (f : Core → Core) : (s.updCore core f).vpoison = s.vpoison := rfl
@[simp] theorem updCore_spad (core : Nat) (f : Core → Core) : (s.updCore core f).spad = s.spad := rfl
@[simp] theorem updCore_acc (core : Nat) (f : Core → Core) : (s.updCore core f).acc = s.acc := rfl
@[simp] theorem updCore_ztag (core : Nat) (f : Core → Core) : (s.updCore core f).ztag = s.ztag := rfl
@[simp] theorem updCore_arrays (core : Nat) (f : Core → Core) : (s.updCore core f).arrays = s.arrays := rfl
@[simp] theorem updCore_mem (core : Nat) (f : Core → Core) : (s.updCore core f).mem = s.mem := rfl
@[simp] theorem updCore_poison (core : Nat) (f : Core → Core) : (s.updCore core f).poison = s.poison := rfl
@[simp] theorem updCore_l2 (core : Nat) (f : Core → Core) : (s.updCore core f).l2 = s.l2 := rfl
@[simp] theorem updCore_l2use (core : Nat) (f : Core → Core) : (s.updCore core f).l2use = s.l2use := rfl
@[simp] theorem updCore_rdc (core : Nat) (f : Core → Core) : (s.updCore core f).rdc = s.rdc := rfl
@[simp] theorem updCore_appCache (core : Nat) (f : Core → Core) : (s.updCore core f).appCache = s.appCache := rfl
@[simp] theorem updCore_pins (core : Nat) (f : Core → Core) : (s.updCore core f).pins = s.pins := rfl
@[simp] theorem updCore_linePins (core : Nat) (f : Core → Core) : (s.updCore core f).linePins = s.linePins := rfl
@[simp] theorem updCore_pinWaits (core : Nat) (f : Core → Core) : (s.updCore core f).pinWaits = s.pinWaits := rfl
@[simp] theorem updCore_joins (core : Nat) (f : Core → Core) : (s.updCore core f).joins = s.joins := rfl
@[simp] theorem updCore_launches (core : Nat) (f : Core → Core) : (s.updCore core f).launches = s.launches := rfl
@[simp] theorem updCore_nextLaunch (core : Nat) (f : Core → Core) : (s.updCore core f).nextLaunch = s.nextLaunch := rfl
@[simp] theorem updCore_intake (core : Nat) (f : Core → Core) : (s.updCore core f).intake = s.intake := rfl
@[simp] theorem updCore_saved (core : Nat) (f : Core → Core) : (s.updCore core f).saved = s.saved := rfl
@[simp] theorem updCore_holds (core : Nat) (f : Core → Core) : (s.updCore core f).holds = s.holds := rfl
@[simp] theorem updCore_slotsMapped (core : Nat) (f : Core → Core) : (s.updCore core f).slotsMapped = s.slotsMapped := rfl
@[simp] theorem updCore_sched (core : Nat) (f : Core → Core) : (s.updCore core f).sched = s.sched := rfl
@[simp] theorem updCore_hotRetired (core : Nat) (f : Core → Core) : (s.updCore core f).hotRetired = s.hotRetired := rfl
@[simp] theorem updCore_colls (core : Nat) (f : Core → Core) : (s.updCore core f).colls = s.colls := rfl
@[simp] theorem updCore_soundSeq (core : Nat) (f : Core → Core) : (s.updCore core f).soundSeq = s.soundSeq := rfl
@[simp] theorem updCore_heldResults (core : Nat) (f : Core → Core) : (s.updCore core f).heldResults = s.heldResults := rfl
@[simp] theorem updCore_links (core : Nat) (f : Core → Core) : (s.updCore core f).links = s.links := rfl
@[simp] theorem updCore_hbm (core : Nat) (f : Core → Core) : (s.updCore core f).hbm = s.hbm := rfl
@[simp] theorem updCore_eths (core : Nat) (f : Core → Core) : (s.updCore core f).eths = s.eths := rfl
@[simp] theorem updCore_ramps (core : Nat) (f : Core → Core) : (s.updCore core f).ramps = s.ramps := rfl
@[simp] theorem updCore_islands (core : Nat) (f : Core → Core) : (s.updCore core f).islands = s.islands := rfl
@[simp] theorem updCore_regs (core : Nat) (f : Core → Core) : (s.updCore core f).regs = s.regs := rfl
@[simp] theorem updCore_errCounts (core : Nat) (f : Core → Core) : (s.updCore core f).errCounts = s.errCounts := rfl
@[simp] theorem updCore_errLogged (core : Nat) (f : Core → Core) : (s.updCore core f).errLogged = s.errLogged := rfl
@[simp] theorem updCore_logDue (core : Nat) (f : Core → Core) : (s.updCore core f).logDue = s.logDue := rfl
@[simp] theorem updCore_traceDue (core : Nat) (f : Core → Core) : (s.updCore core f).traceDue = s.traceDue := rfl
@[simp] theorem updCore_errWindow (core : Nat) (f : Core → Core) : (s.updCore core f).errWindow = s.errWindow := rfl
@[simp] theorem updCore_interrupts (core : Nat) (f : Core → Core) : (s.updCore core f).interrupts = s.interrupts := rfl
@[simp] theorem updCore_imsic (core : Nat) (f : Core → Core) : (s.updCore core f).imsic = s.imsic := rfl
@[simp] theorem updCore_hostData (core : Nat) (f : Core → Core) : (s.updCore core f).hostData = s.hostData := rfl
@[simp] theorem updCore_flash (core : Nat) (f : Core → Core) : (s.updCore core f).flash = s.flash := rfl
@[simp] theorem updCore_image (core : Nat) (f : Core → Core) : (s.updCore core f).image = s.image := rfl
@[simp] theorem updCore_checkpointed (core : Nat) (f : Core → Core) : (s.updCore core f).checkpointed = s.checkpointed := rfl
@[simp] theorem updCore_keptTasks (core : Nat) (f : Core → Core) : (s.updCore core f).keptTasks = s.keptTasks := rfl
@[simp] theorem updCore_keptLaunches (core : Nat) (f : Core → Core) : (s.updCore core f).keptLaunches = s.keptLaunches := rfl
@[simp] theorem updCore_replies (core : Nat) (f : Core → Core) : (s.updCore core f).replies = s.replies := rfl
@[simp] theorem updCore_outbox (core : Nat) (f : Core → Core) : (s.updCore core f).outbox = s.outbox := rfl
@[simp] theorem updCore_transit (core : Nat) (f : Core → Core) : (s.updCore core f).transit = s.transit := rfl
@[simp] theorem updCore_freedBanks (core : Nat) (f : Core → Core) : (s.updCore core f).freedBanks = s.freedBanks := rfl

/-! ## `updIss` -/

@[simp] theorem updIss_agenda (f : Issue → Issue) : (s.updIss f).agenda = s.agenda := rfl
@[simp] theorem updIss_chances (f : Issue → Issue) : (s.updIss f).chances = s.chances := rfl
@[simp] theorem updIss_free (f : Issue → Issue) : (s.updIss f).free = s.free := rfl
@[simp] theorem updIss_cycle (f : Issue → Issue) : (s.updIss f).cycle = s.cycle := rfl
@[simp] theorem updIss_writeBacks (f : Issue → Issue) : (s.updIss f).writeBacks = s.writeBacks := rfl
@[simp] theorem updIss_stackUse (f : Issue → Issue) : (s.updIss f).stackUse = s.stackUse := rfl
@[simp] theorem updIss_cur (f : Issue → Issue) : (s.updIss f).cur = s.cur := rfl
@[simp] theorem updIss_evTurn (f : Issue → Issue) : (s.updIss f).evTurn = s.evTurn := rfl
@[simp] theorem updIss_slotEnd (f : Issue → Issue) : (s.updIss f).slotEnd = s.slotEnd := rfl
@[simp] theorem updIss_iss (f : Issue → Issue) : (s.updIss f).iss = f s.iss := rfl
@[simp] theorem updIss_ctxs (f : Issue → Issue) : (s.updIss f).ctxs = s.ctxs := rfl
@[simp] theorem updIss_cores (f : Issue → Issue) : (s.updIss f).cores = s.cores := rfl
@[simp] theorem updIss_vregs (f : Issue → Issue) : (s.updIss f).vregs = s.vregs := rfl
@[simp] theorem updIss_vpoison (f : Issue → Issue) : (s.updIss f).vpoison = s.vpoison := rfl
@[simp] theorem updIss_spad (f : Issue → Issue) : (s.updIss f).spad = s.spad := rfl
@[simp] theorem updIss_acc (f : Issue → Issue) : (s.updIss f).acc = s.acc := rfl
@[simp] theorem updIss_ztag (f : Issue → Issue) : (s.updIss f).ztag = s.ztag := rfl
@[simp] theorem updIss_arrays (f : Issue → Issue) : (s.updIss f).arrays = s.arrays := rfl
@[simp] theorem updIss_mem (f : Issue → Issue) : (s.updIss f).mem = s.mem := rfl
@[simp] theorem updIss_poison (f : Issue → Issue) : (s.updIss f).poison = s.poison := rfl
@[simp] theorem updIss_l2 (f : Issue → Issue) : (s.updIss f).l2 = s.l2 := rfl
@[simp] theorem updIss_l2use (f : Issue → Issue) : (s.updIss f).l2use = s.l2use := rfl
@[simp] theorem updIss_rdc (f : Issue → Issue) : (s.updIss f).rdc = s.rdc := rfl
@[simp] theorem updIss_appCache (f : Issue → Issue) : (s.updIss f).appCache = s.appCache := rfl
@[simp] theorem updIss_pins (f : Issue → Issue) : (s.updIss f).pins = s.pins := rfl
@[simp] theorem updIss_linePins (f : Issue → Issue) : (s.updIss f).linePins = s.linePins := rfl
@[simp] theorem updIss_pinWaits (f : Issue → Issue) : (s.updIss f).pinWaits = s.pinWaits := rfl
@[simp] theorem updIss_joins (f : Issue → Issue) : (s.updIss f).joins = s.joins := rfl
@[simp] theorem updIss_launches (f : Issue → Issue) : (s.updIss f).launches = s.launches := rfl
@[simp] theorem updIss_nextLaunch (f : Issue → Issue) : (s.updIss f).nextLaunch = s.nextLaunch := rfl
@[simp] theorem updIss_intake (f : Issue → Issue) : (s.updIss f).intake = s.intake := rfl
@[simp] theorem updIss_saved (f : Issue → Issue) : (s.updIss f).saved = s.saved := rfl
@[simp] theorem updIss_holds (f : Issue → Issue) : (s.updIss f).holds = s.holds := rfl
@[simp] theorem updIss_slotsMapped (f : Issue → Issue) : (s.updIss f).slotsMapped = s.slotsMapped := rfl
@[simp] theorem updIss_sched (f : Issue → Issue) : (s.updIss f).sched = s.sched := rfl
@[simp] theorem updIss_hotRetired (f : Issue → Issue) : (s.updIss f).hotRetired = s.hotRetired := rfl
@[simp] theorem updIss_colls (f : Issue → Issue) : (s.updIss f).colls = s.colls := rfl
@[simp] theorem updIss_soundSeq (f : Issue → Issue) : (s.updIss f).soundSeq = s.soundSeq := rfl
@[simp] theorem updIss_heldResults (f : Issue → Issue) : (s.updIss f).heldResults = s.heldResults := rfl
@[simp] theorem updIss_links (f : Issue → Issue) : (s.updIss f).links = s.links := rfl
@[simp] theorem updIss_hbm (f : Issue → Issue) : (s.updIss f).hbm = s.hbm := rfl
@[simp] theorem updIss_eths (f : Issue → Issue) : (s.updIss f).eths = s.eths := rfl
@[simp] theorem updIss_ramps (f : Issue → Issue) : (s.updIss f).ramps = s.ramps := rfl
@[simp] theorem updIss_islands (f : Issue → Issue) : (s.updIss f).islands = s.islands := rfl
@[simp] theorem updIss_regs (f : Issue → Issue) : (s.updIss f).regs = s.regs := rfl
@[simp] theorem updIss_errCounts (f : Issue → Issue) : (s.updIss f).errCounts = s.errCounts := rfl
@[simp] theorem updIss_errLogged (f : Issue → Issue) : (s.updIss f).errLogged = s.errLogged := rfl
@[simp] theorem updIss_logDue (f : Issue → Issue) : (s.updIss f).logDue = s.logDue := rfl
@[simp] theorem updIss_traceDue (f : Issue → Issue) : (s.updIss f).traceDue = s.traceDue := rfl
@[simp] theorem updIss_errWindow (f : Issue → Issue) : (s.updIss f).errWindow = s.errWindow := rfl
@[simp] theorem updIss_interrupts (f : Issue → Issue) : (s.updIss f).interrupts = s.interrupts := rfl
@[simp] theorem updIss_imsic (f : Issue → Issue) : (s.updIss f).imsic = s.imsic := rfl
@[simp] theorem updIss_hostData (f : Issue → Issue) : (s.updIss f).hostData = s.hostData := rfl
@[simp] theorem updIss_flash (f : Issue → Issue) : (s.updIss f).flash = s.flash := rfl
@[simp] theorem updIss_image (f : Issue → Issue) : (s.updIss f).image = s.image := rfl
@[simp] theorem updIss_checkpointed (f : Issue → Issue) : (s.updIss f).checkpointed = s.checkpointed := rfl
@[simp] theorem updIss_keptTasks (f : Issue → Issue) : (s.updIss f).keptTasks = s.keptTasks := rfl
@[simp] theorem updIss_keptLaunches (f : Issue → Issue) : (s.updIss f).keptLaunches = s.keptLaunches := rfl
@[simp] theorem updIss_replies (f : Issue → Issue) : (s.updIss f).replies = s.replies := rfl
@[simp] theorem updIss_outbox (f : Issue → Issue) : (s.updIss f).outbox = s.outbox := rfl
@[simp] theorem updIss_transit (f : Issue → Issue) : (s.updIss f).transit = s.transit := rfl
@[simp] theorem updIss_freedBanks (f : Issue → Issue) : (s.updIss f).freedBanks = s.freedBanks := rfl

/-! ## `updRegs` -/

@[simp] theorem updRegs_agenda (f : Regs → Regs) : (s.updRegs f).agenda = s.agenda := rfl
@[simp] theorem updRegs_chances (f : Regs → Regs) : (s.updRegs f).chances = s.chances := rfl
@[simp] theorem updRegs_free (f : Regs → Regs) : (s.updRegs f).free = s.free := rfl
@[simp] theorem updRegs_cycle (f : Regs → Regs) : (s.updRegs f).cycle = s.cycle := rfl
@[simp] theorem updRegs_writeBacks (f : Regs → Regs) : (s.updRegs f).writeBacks = s.writeBacks := rfl
@[simp] theorem updRegs_stackUse (f : Regs → Regs) : (s.updRegs f).stackUse = s.stackUse := rfl
@[simp] theorem updRegs_cur (f : Regs → Regs) : (s.updRegs f).cur = s.cur := rfl
@[simp] theorem updRegs_evTurn (f : Regs → Regs) : (s.updRegs f).evTurn = s.evTurn := rfl
@[simp] theorem updRegs_slotEnd (f : Regs → Regs) : (s.updRegs f).slotEnd = s.slotEnd := rfl
@[simp] theorem updRegs_iss (f : Regs → Regs) : (s.updRegs f).iss = s.iss := rfl
@[simp] theorem updRegs_ctxs (f : Regs → Regs) : (s.updRegs f).ctxs = s.ctxs := rfl
@[simp] theorem updRegs_cores (f : Regs → Regs) : (s.updRegs f).cores = s.cores := rfl
@[simp] theorem updRegs_vregs (f : Regs → Regs) : (s.updRegs f).vregs = s.vregs := rfl
@[simp] theorem updRegs_vpoison (f : Regs → Regs) : (s.updRegs f).vpoison = s.vpoison := rfl
@[simp] theorem updRegs_spad (f : Regs → Regs) : (s.updRegs f).spad = s.spad := rfl
@[simp] theorem updRegs_acc (f : Regs → Regs) : (s.updRegs f).acc = s.acc := rfl
@[simp] theorem updRegs_ztag (f : Regs → Regs) : (s.updRegs f).ztag = s.ztag := rfl
@[simp] theorem updRegs_arrays (f : Regs → Regs) : (s.updRegs f).arrays = s.arrays := rfl
@[simp] theorem updRegs_mem (f : Regs → Regs) : (s.updRegs f).mem = s.mem := rfl
@[simp] theorem updRegs_poison (f : Regs → Regs) : (s.updRegs f).poison = s.poison := rfl
@[simp] theorem updRegs_l2 (f : Regs → Regs) : (s.updRegs f).l2 = s.l2 := rfl
@[simp] theorem updRegs_l2use (f : Regs → Regs) : (s.updRegs f).l2use = s.l2use := rfl
@[simp] theorem updRegs_rdc (f : Regs → Regs) : (s.updRegs f).rdc = s.rdc := rfl
@[simp] theorem updRegs_appCache (f : Regs → Regs) : (s.updRegs f).appCache = s.appCache := rfl
@[simp] theorem updRegs_pins (f : Regs → Regs) : (s.updRegs f).pins = s.pins := rfl
@[simp] theorem updRegs_linePins (f : Regs → Regs) : (s.updRegs f).linePins = s.linePins := rfl
@[simp] theorem updRegs_pinWaits (f : Regs → Regs) : (s.updRegs f).pinWaits = s.pinWaits := rfl
@[simp] theorem updRegs_joins (f : Regs → Regs) : (s.updRegs f).joins = s.joins := rfl
@[simp] theorem updRegs_launches (f : Regs → Regs) : (s.updRegs f).launches = s.launches := rfl
@[simp] theorem updRegs_nextLaunch (f : Regs → Regs) : (s.updRegs f).nextLaunch = s.nextLaunch := rfl
@[simp] theorem updRegs_intake (f : Regs → Regs) : (s.updRegs f).intake = s.intake := rfl
@[simp] theorem updRegs_saved (f : Regs → Regs) : (s.updRegs f).saved = s.saved := rfl
@[simp] theorem updRegs_holds (f : Regs → Regs) : (s.updRegs f).holds = s.holds := rfl
@[simp] theorem updRegs_slotsMapped (f : Regs → Regs) : (s.updRegs f).slotsMapped = s.slotsMapped := rfl
@[simp] theorem updRegs_sched (f : Regs → Regs) : (s.updRegs f).sched = s.sched := rfl
@[simp] theorem updRegs_hotRetired (f : Regs → Regs) : (s.updRegs f).hotRetired = s.hotRetired := rfl
@[simp] theorem updRegs_colls (f : Regs → Regs) : (s.updRegs f).colls = s.colls := rfl
@[simp] theorem updRegs_soundSeq (f : Regs → Regs) : (s.updRegs f).soundSeq = s.soundSeq := rfl
@[simp] theorem updRegs_heldResults (f : Regs → Regs) : (s.updRegs f).heldResults = s.heldResults := rfl
@[simp] theorem updRegs_links (f : Regs → Regs) : (s.updRegs f).links = s.links := rfl
@[simp] theorem updRegs_hbm (f : Regs → Regs) : (s.updRegs f).hbm = s.hbm := rfl
@[simp] theorem updRegs_eths (f : Regs → Regs) : (s.updRegs f).eths = s.eths := rfl
@[simp] theorem updRegs_ramps (f : Regs → Regs) : (s.updRegs f).ramps = s.ramps := rfl
@[simp] theorem updRegs_islands (f : Regs → Regs) : (s.updRegs f).islands = s.islands := rfl
@[simp] theorem updRegs_regs (f : Regs → Regs) : (s.updRegs f).regs = f s.regs := rfl
@[simp] theorem updRegs_errCounts (f : Regs → Regs) : (s.updRegs f).errCounts = s.errCounts := rfl
@[simp] theorem updRegs_errLogged (f : Regs → Regs) : (s.updRegs f).errLogged = s.errLogged := rfl
@[simp] theorem updRegs_logDue (f : Regs → Regs) : (s.updRegs f).logDue = s.logDue := rfl
@[simp] theorem updRegs_traceDue (f : Regs → Regs) : (s.updRegs f).traceDue = s.traceDue := rfl
@[simp] theorem updRegs_errWindow (f : Regs → Regs) : (s.updRegs f).errWindow = s.errWindow := rfl
@[simp] theorem updRegs_interrupts (f : Regs → Regs) : (s.updRegs f).interrupts = s.interrupts := rfl
@[simp] theorem updRegs_imsic (f : Regs → Regs) : (s.updRegs f).imsic = s.imsic := rfl
@[simp] theorem updRegs_hostData (f : Regs → Regs) : (s.updRegs f).hostData = s.hostData := rfl
@[simp] theorem updRegs_flash (f : Regs → Regs) : (s.updRegs f).flash = s.flash := rfl
@[simp] theorem updRegs_image (f : Regs → Regs) : (s.updRegs f).image = s.image := rfl
@[simp] theorem updRegs_checkpointed (f : Regs → Regs) : (s.updRegs f).checkpointed = s.checkpointed := rfl
@[simp] theorem updRegs_keptTasks (f : Regs → Regs) : (s.updRegs f).keptTasks = s.keptTasks := rfl
@[simp] theorem updRegs_keptLaunches (f : Regs → Regs) : (s.updRegs f).keptLaunches = s.keptLaunches := rfl
@[simp] theorem updRegs_replies (f : Regs → Regs) : (s.updRegs f).replies = s.replies := rfl
@[simp] theorem updRegs_outbox (f : Regs → Regs) : (s.updRegs f).outbox = s.outbox := rfl
@[simp] theorem updRegs_transit (f : Regs → Regs) : (s.updRegs f).transit = s.transit := rfl
@[simp] theorem updRegs_freedBanks (f : Regs → Regs) : (s.updRegs f).freedBanks = s.freedBanks := rfl

/-! ## `writeV` -/

@[simp] theorem writeV_agenda (core x r : Nat) (v : Vec) : (s.writeV core x r v).agenda = s.agenda := rfl
@[simp] theorem writeV_chances (core x r : Nat) (v : Vec) : (s.writeV core x r v).chances = s.chances := rfl
@[simp] theorem writeV_free (core x r : Nat) (v : Vec) : (s.writeV core x r v).free = s.free := rfl
@[simp] theorem writeV_cycle (core x r : Nat) (v : Vec) : (s.writeV core x r v).cycle = s.cycle := rfl
@[simp] theorem writeV_writeBacks (core x r : Nat) (v : Vec) : (s.writeV core x r v).writeBacks = s.writeBacks := rfl
@[simp] theorem writeV_stackUse (core x r : Nat) (v : Vec) : (s.writeV core x r v).stackUse = s.stackUse := rfl
@[simp] theorem writeV_cur (core x r : Nat) (v : Vec) : (s.writeV core x r v).cur = s.cur := rfl
@[simp] theorem writeV_evTurn (core x r : Nat) (v : Vec) : (s.writeV core x r v).evTurn = s.evTurn := rfl
@[simp] theorem writeV_slotEnd (core x r : Nat) (v : Vec) : (s.writeV core x r v).slotEnd = s.slotEnd := rfl
@[simp] theorem writeV_iss (core x r : Nat) (v : Vec) : (s.writeV core x r v).iss = s.iss := rfl
@[simp] theorem writeV_ctxs (core x r : Nat) (v : Vec) : (s.writeV core x r v).ctxs = s.ctxs := rfl
@[simp] theorem writeV_cores (core x r : Nat) (v : Vec) : (s.writeV core x r v).cores = s.cores := rfl
@[simp] theorem writeV_vregs (core x r : Nat) (v : Vec) : (s.writeV core x r v).vregs = mset s.vregs (vkey core x r) v := rfl
@[simp] theorem writeV_vpoison (core x r : Nat) (v : Vec) : (s.writeV core x r v).vpoison = s.vpoison := rfl
@[simp] theorem writeV_spad (core x r : Nat) (v : Vec) : (s.writeV core x r v).spad = s.spad := rfl
@[simp] theorem writeV_acc (core x r : Nat) (v : Vec) : (s.writeV core x r v).acc = s.acc := rfl
@[simp] theorem writeV_ztag (core x r : Nat) (v : Vec) : (s.writeV core x r v).ztag = s.ztag := rfl
@[simp] theorem writeV_arrays (core x r : Nat) (v : Vec) : (s.writeV core x r v).arrays = s.arrays := rfl
@[simp] theorem writeV_mem (core x r : Nat) (v : Vec) : (s.writeV core x r v).mem = s.mem := rfl
@[simp] theorem writeV_poison (core x r : Nat) (v : Vec) : (s.writeV core x r v).poison = s.poison := rfl
@[simp] theorem writeV_l2 (core x r : Nat) (v : Vec) : (s.writeV core x r v).l2 = s.l2 := rfl
@[simp] theorem writeV_l2use (core x r : Nat) (v : Vec) : (s.writeV core x r v).l2use = s.l2use := rfl
@[simp] theorem writeV_rdc (core x r : Nat) (v : Vec) : (s.writeV core x r v).rdc = s.rdc := rfl
@[simp] theorem writeV_appCache (core x r : Nat) (v : Vec) : (s.writeV core x r v).appCache = s.appCache := rfl
@[simp] theorem writeV_pins (core x r : Nat) (v : Vec) : (s.writeV core x r v).pins = s.pins := rfl
@[simp] theorem writeV_linePins (core x r : Nat) (v : Vec) : (s.writeV core x r v).linePins = s.linePins := rfl
@[simp] theorem writeV_pinWaits (core x r : Nat) (v : Vec) : (s.writeV core x r v).pinWaits = s.pinWaits := rfl
@[simp] theorem writeV_joins (core x r : Nat) (v : Vec) : (s.writeV core x r v).joins = s.joins := rfl
@[simp] theorem writeV_launches (core x r : Nat) (v : Vec) : (s.writeV core x r v).launches = s.launches := rfl
@[simp] theorem writeV_nextLaunch (core x r : Nat) (v : Vec) : (s.writeV core x r v).nextLaunch = s.nextLaunch := rfl
@[simp] theorem writeV_intake (core x r : Nat) (v : Vec) : (s.writeV core x r v).intake = s.intake := rfl
@[simp] theorem writeV_saved (core x r : Nat) (v : Vec) : (s.writeV core x r v).saved = s.saved := rfl
@[simp] theorem writeV_holds (core x r : Nat) (v : Vec) : (s.writeV core x r v).holds = s.holds := rfl
@[simp] theorem writeV_slotsMapped (core x r : Nat) (v : Vec) : (s.writeV core x r v).slotsMapped = s.slotsMapped := rfl
@[simp] theorem writeV_sched (core x r : Nat) (v : Vec) : (s.writeV core x r v).sched = s.sched := rfl
@[simp] theorem writeV_hotRetired (core x r : Nat) (v : Vec) : (s.writeV core x r v).hotRetired = s.hotRetired := rfl
@[simp] theorem writeV_colls (core x r : Nat) (v : Vec) : (s.writeV core x r v).colls = s.colls := rfl
@[simp] theorem writeV_soundSeq (core x r : Nat) (v : Vec) : (s.writeV core x r v).soundSeq = s.soundSeq := rfl
@[simp] theorem writeV_heldResults (core x r : Nat) (v : Vec) : (s.writeV core x r v).heldResults = s.heldResults := rfl
@[simp] theorem writeV_links (core x r : Nat) (v : Vec) : (s.writeV core x r v).links = s.links := rfl
@[simp] theorem writeV_hbm (core x r : Nat) (v : Vec) : (s.writeV core x r v).hbm = s.hbm := rfl
@[simp] theorem writeV_eths (core x r : Nat) (v : Vec) : (s.writeV core x r v).eths = s.eths := rfl
@[simp] theorem writeV_ramps (core x r : Nat) (v : Vec) : (s.writeV core x r v).ramps = s.ramps := rfl
@[simp] theorem writeV_islands (core x r : Nat) (v : Vec) : (s.writeV core x r v).islands = s.islands := rfl
@[simp] theorem writeV_regs (core x r : Nat) (v : Vec) : (s.writeV core x r v).regs = s.regs := rfl
@[simp] theorem writeV_errCounts (core x r : Nat) (v : Vec) : (s.writeV core x r v).errCounts = s.errCounts := rfl
@[simp] theorem writeV_errLogged (core x r : Nat) (v : Vec) : (s.writeV core x r v).errLogged = s.errLogged := rfl
@[simp] theorem writeV_logDue (core x r : Nat) (v : Vec) : (s.writeV core x r v).logDue = s.logDue := rfl
@[simp] theorem writeV_traceDue (core x r : Nat) (v : Vec) : (s.writeV core x r v).traceDue = s.traceDue := rfl
@[simp] theorem writeV_errWindow (core x r : Nat) (v : Vec) : (s.writeV core x r v).errWindow = s.errWindow := rfl
@[simp] theorem writeV_interrupts (core x r : Nat) (v : Vec) : (s.writeV core x r v).interrupts = s.interrupts := rfl
@[simp] theorem writeV_imsic (core x r : Nat) (v : Vec) : (s.writeV core x r v).imsic = s.imsic := rfl
@[simp] theorem writeV_hostData (core x r : Nat) (v : Vec) : (s.writeV core x r v).hostData = s.hostData := rfl
@[simp] theorem writeV_flash (core x r : Nat) (v : Vec) : (s.writeV core x r v).flash = s.flash := rfl
@[simp] theorem writeV_image (core x r : Nat) (v : Vec) : (s.writeV core x r v).image = s.image := rfl
@[simp] theorem writeV_checkpointed (core x r : Nat) (v : Vec) : (s.writeV core x r v).checkpointed = s.checkpointed := rfl
@[simp] theorem writeV_keptTasks (core x r : Nat) (v : Vec) : (s.writeV core x r v).keptTasks = s.keptTasks := rfl
@[simp] theorem writeV_keptLaunches (core x r : Nat) (v : Vec) : (s.writeV core x r v).keptLaunches = s.keptLaunches := rfl
@[simp] theorem writeV_replies (core x r : Nat) (v : Vec) : (s.writeV core x r v).replies = s.replies := rfl
@[simp] theorem writeV_outbox (core x r : Nat) (v : Vec) : (s.writeV core x r v).outbox = s.outbox := rfl
@[simp] theorem writeV_transit (core x r : Nat) (v : Vec) : (s.writeV core x r v).transit = s.transit := rfl
@[simp] theorem writeV_freedBanks (core x r : Nat) (v : Vec) : (s.writeV core x r v).freedBanks = s.freedBanks := rfl

/-! ## `updArray` -/

@[simp] theorem updArray_agenda (n : Nat) (f : XArray → XArray) : (s.updArray n f).agenda = s.agenda := rfl
@[simp] theorem updArray_chances (n : Nat) (f : XArray → XArray) : (s.updArray n f).chances = s.chances := rfl
@[simp] theorem updArray_free (n : Nat) (f : XArray → XArray) : (s.updArray n f).free = s.free := rfl
@[simp] theorem updArray_cycle (n : Nat) (f : XArray → XArray) : (s.updArray n f).cycle = s.cycle := rfl
@[simp] theorem updArray_writeBacks (n : Nat) (f : XArray → XArray) : (s.updArray n f).writeBacks = s.writeBacks := rfl
@[simp] theorem updArray_stackUse (n : Nat) (f : XArray → XArray) : (s.updArray n f).stackUse = s.stackUse := rfl
@[simp] theorem updArray_cur (n : Nat) (f : XArray → XArray) : (s.updArray n f).cur = s.cur := rfl
@[simp] theorem updArray_evTurn (n : Nat) (f : XArray → XArray) : (s.updArray n f).evTurn = s.evTurn := rfl
@[simp] theorem updArray_slotEnd (n : Nat) (f : XArray → XArray) : (s.updArray n f).slotEnd = s.slotEnd := rfl
@[simp] theorem updArray_iss (n : Nat) (f : XArray → XArray) : (s.updArray n f).iss = s.iss := rfl
@[simp] theorem updArray_ctxs (n : Nat) (f : XArray → XArray) : (s.updArray n f).ctxs = s.ctxs := rfl
@[simp] theorem updArray_cores (n : Nat) (f : XArray → XArray) : (s.updArray n f).cores = s.cores := rfl
@[simp] theorem updArray_vregs (n : Nat) (f : XArray → XArray) : (s.updArray n f).vregs = s.vregs := rfl
@[simp] theorem updArray_vpoison (n : Nat) (f : XArray → XArray) : (s.updArray n f).vpoison = s.vpoison := rfl
@[simp] theorem updArray_spad (n : Nat) (f : XArray → XArray) : (s.updArray n f).spad = s.spad := rfl
@[simp] theorem updArray_acc (n : Nat) (f : XArray → XArray) : (s.updArray n f).acc = s.acc := rfl
@[simp] theorem updArray_ztag (n : Nat) (f : XArray → XArray) : (s.updArray n f).ztag = s.ztag := rfl
@[simp] theorem updArray_arrays (n : Nat) (f : XArray → XArray) : (s.updArray n f).arrays = mset s.arrays n (f (s.array n)) := rfl
@[simp] theorem updArray_mem (n : Nat) (f : XArray → XArray) : (s.updArray n f).mem = s.mem := rfl
@[simp] theorem updArray_poison (n : Nat) (f : XArray → XArray) : (s.updArray n f).poison = s.poison := rfl
@[simp] theorem updArray_l2 (n : Nat) (f : XArray → XArray) : (s.updArray n f).l2 = s.l2 := rfl
@[simp] theorem updArray_l2use (n : Nat) (f : XArray → XArray) : (s.updArray n f).l2use = s.l2use := rfl
@[simp] theorem updArray_rdc (n : Nat) (f : XArray → XArray) : (s.updArray n f).rdc = s.rdc := rfl
@[simp] theorem updArray_appCache (n : Nat) (f : XArray → XArray) : (s.updArray n f).appCache = s.appCache := rfl
@[simp] theorem updArray_pins (n : Nat) (f : XArray → XArray) : (s.updArray n f).pins = s.pins := rfl
@[simp] theorem updArray_linePins (n : Nat) (f : XArray → XArray) : (s.updArray n f).linePins = s.linePins := rfl
@[simp] theorem updArray_pinWaits (n : Nat) (f : XArray → XArray) : (s.updArray n f).pinWaits = s.pinWaits := rfl
@[simp] theorem updArray_joins (n : Nat) (f : XArray → XArray) : (s.updArray n f).joins = s.joins := rfl
@[simp] theorem updArray_launches (n : Nat) (f : XArray → XArray) : (s.updArray n f).launches = s.launches := rfl
@[simp] theorem updArray_nextLaunch (n : Nat) (f : XArray → XArray) : (s.updArray n f).nextLaunch = s.nextLaunch := rfl
@[simp] theorem updArray_intake (n : Nat) (f : XArray → XArray) : (s.updArray n f).intake = s.intake := rfl
@[simp] theorem updArray_saved (n : Nat) (f : XArray → XArray) : (s.updArray n f).saved = s.saved := rfl
@[simp] theorem updArray_holds (n : Nat) (f : XArray → XArray) : (s.updArray n f).holds = s.holds := rfl
@[simp] theorem updArray_slotsMapped (n : Nat) (f : XArray → XArray) : (s.updArray n f).slotsMapped = s.slotsMapped := rfl
@[simp] theorem updArray_sched (n : Nat) (f : XArray → XArray) : (s.updArray n f).sched = s.sched := rfl
@[simp] theorem updArray_hotRetired (n : Nat) (f : XArray → XArray) : (s.updArray n f).hotRetired = s.hotRetired := rfl
@[simp] theorem updArray_colls (n : Nat) (f : XArray → XArray) : (s.updArray n f).colls = s.colls := rfl
@[simp] theorem updArray_soundSeq (n : Nat) (f : XArray → XArray) : (s.updArray n f).soundSeq = s.soundSeq := rfl
@[simp] theorem updArray_heldResults (n : Nat) (f : XArray → XArray) : (s.updArray n f).heldResults = s.heldResults := rfl
@[simp] theorem updArray_links (n : Nat) (f : XArray → XArray) : (s.updArray n f).links = s.links := rfl
@[simp] theorem updArray_hbm (n : Nat) (f : XArray → XArray) : (s.updArray n f).hbm = s.hbm := rfl
@[simp] theorem updArray_eths (n : Nat) (f : XArray → XArray) : (s.updArray n f).eths = s.eths := rfl
@[simp] theorem updArray_ramps (n : Nat) (f : XArray → XArray) : (s.updArray n f).ramps = s.ramps := rfl
@[simp] theorem updArray_islands (n : Nat) (f : XArray → XArray) : (s.updArray n f).islands = s.islands := rfl
@[simp] theorem updArray_regs (n : Nat) (f : XArray → XArray) : (s.updArray n f).regs = s.regs := rfl
@[simp] theorem updArray_errCounts (n : Nat) (f : XArray → XArray) : (s.updArray n f).errCounts = s.errCounts := rfl
@[simp] theorem updArray_errLogged (n : Nat) (f : XArray → XArray) : (s.updArray n f).errLogged = s.errLogged := rfl
@[simp] theorem updArray_logDue (n : Nat) (f : XArray → XArray) : (s.updArray n f).logDue = s.logDue := rfl
@[simp] theorem updArray_traceDue (n : Nat) (f : XArray → XArray) : (s.updArray n f).traceDue = s.traceDue := rfl
@[simp] theorem updArray_errWindow (n : Nat) (f : XArray → XArray) : (s.updArray n f).errWindow = s.errWindow := rfl
@[simp] theorem updArray_interrupts (n : Nat) (f : XArray → XArray) : (s.updArray n f).interrupts = s.interrupts := rfl
@[simp] theorem updArray_imsic (n : Nat) (f : XArray → XArray) : (s.updArray n f).imsic = s.imsic := rfl
@[simp] theorem updArray_hostData (n : Nat) (f : XArray → XArray) : (s.updArray n f).hostData = s.hostData := rfl
@[simp] theorem updArray_flash (n : Nat) (f : XArray → XArray) : (s.updArray n f).flash = s.flash := rfl
@[simp] theorem updArray_image (n : Nat) (f : XArray → XArray) : (s.updArray n f).image = s.image := rfl
@[simp] theorem updArray_checkpointed (n : Nat) (f : XArray → XArray) : (s.updArray n f).checkpointed = s.checkpointed := rfl
@[simp] theorem updArray_keptTasks (n : Nat) (f : XArray → XArray) : (s.updArray n f).keptTasks = s.keptTasks := rfl
@[simp] theorem updArray_keptLaunches (n : Nat) (f : XArray → XArray) : (s.updArray n f).keptLaunches = s.keptLaunches := rfl
@[simp] theorem updArray_replies (n : Nat) (f : XArray → XArray) : (s.updArray n f).replies = s.replies := rfl
@[simp] theorem updArray_outbox (n : Nat) (f : XArray → XArray) : (s.updArray n f).outbox = s.outbox := rfl
@[simp] theorem updArray_transit (n : Nat) (f : XArray → XArray) : (s.updArray n f).transit = s.transit := rfl
@[simp] theorem updArray_freedBanks (n : Nat) (f : XArray → XArray) : (s.updArray n f).freedBanks = s.freedBanks := rfl

/-! ## `updLink` -/

@[simp] theorem updLink_agenda (n : Nat) (f : Link → Link) : (s.updLink n f).agenda = s.agenda := rfl
@[simp] theorem updLink_chances (n : Nat) (f : Link → Link) : (s.updLink n f).chances = s.chances := rfl
@[simp] theorem updLink_free (n : Nat) (f : Link → Link) : (s.updLink n f).free = s.free := rfl
@[simp] theorem updLink_cycle (n : Nat) (f : Link → Link) : (s.updLink n f).cycle = s.cycle := rfl
@[simp] theorem updLink_writeBacks (n : Nat) (f : Link → Link) : (s.updLink n f).writeBacks = s.writeBacks := rfl
@[simp] theorem updLink_stackUse (n : Nat) (f : Link → Link) : (s.updLink n f).stackUse = s.stackUse := rfl
@[simp] theorem updLink_cur (n : Nat) (f : Link → Link) : (s.updLink n f).cur = s.cur := rfl
@[simp] theorem updLink_evTurn (n : Nat) (f : Link → Link) : (s.updLink n f).evTurn = s.evTurn := rfl
@[simp] theorem updLink_slotEnd (n : Nat) (f : Link → Link) : (s.updLink n f).slotEnd = s.slotEnd := rfl
@[simp] theorem updLink_iss (n : Nat) (f : Link → Link) : (s.updLink n f).iss = s.iss := rfl
@[simp] theorem updLink_ctxs (n : Nat) (f : Link → Link) : (s.updLink n f).ctxs = s.ctxs := rfl
@[simp] theorem updLink_cores (n : Nat) (f : Link → Link) : (s.updLink n f).cores = s.cores := rfl
@[simp] theorem updLink_vregs (n : Nat) (f : Link → Link) : (s.updLink n f).vregs = s.vregs := rfl
@[simp] theorem updLink_vpoison (n : Nat) (f : Link → Link) : (s.updLink n f).vpoison = s.vpoison := rfl
@[simp] theorem updLink_spad (n : Nat) (f : Link → Link) : (s.updLink n f).spad = s.spad := rfl
@[simp] theorem updLink_acc (n : Nat) (f : Link → Link) : (s.updLink n f).acc = s.acc := rfl
@[simp] theorem updLink_ztag (n : Nat) (f : Link → Link) : (s.updLink n f).ztag = s.ztag := rfl
@[simp] theorem updLink_arrays (n : Nat) (f : Link → Link) : (s.updLink n f).arrays = s.arrays := rfl
@[simp] theorem updLink_mem (n : Nat) (f : Link → Link) : (s.updLink n f).mem = s.mem := rfl
@[simp] theorem updLink_poison (n : Nat) (f : Link → Link) : (s.updLink n f).poison = s.poison := rfl
@[simp] theorem updLink_l2 (n : Nat) (f : Link → Link) : (s.updLink n f).l2 = s.l2 := rfl
@[simp] theorem updLink_l2use (n : Nat) (f : Link → Link) : (s.updLink n f).l2use = s.l2use := rfl
@[simp] theorem updLink_rdc (n : Nat) (f : Link → Link) : (s.updLink n f).rdc = s.rdc := rfl
@[simp] theorem updLink_appCache (n : Nat) (f : Link → Link) : (s.updLink n f).appCache = s.appCache := rfl
@[simp] theorem updLink_pins (n : Nat) (f : Link → Link) : (s.updLink n f).pins = s.pins := rfl
@[simp] theorem updLink_linePins (n : Nat) (f : Link → Link) : (s.updLink n f).linePins = s.linePins := rfl
@[simp] theorem updLink_pinWaits (n : Nat) (f : Link → Link) : (s.updLink n f).pinWaits = s.pinWaits := rfl
@[simp] theorem updLink_joins (n : Nat) (f : Link → Link) : (s.updLink n f).joins = s.joins := rfl
@[simp] theorem updLink_launches (n : Nat) (f : Link → Link) : (s.updLink n f).launches = s.launches := rfl
@[simp] theorem updLink_nextLaunch (n : Nat) (f : Link → Link) : (s.updLink n f).nextLaunch = s.nextLaunch := rfl
@[simp] theorem updLink_intake (n : Nat) (f : Link → Link) : (s.updLink n f).intake = s.intake := rfl
@[simp] theorem updLink_saved (n : Nat) (f : Link → Link) : (s.updLink n f).saved = s.saved := rfl
@[simp] theorem updLink_holds (n : Nat) (f : Link → Link) : (s.updLink n f).holds = s.holds := rfl
@[simp] theorem updLink_slotsMapped (n : Nat) (f : Link → Link) : (s.updLink n f).slotsMapped = s.slotsMapped := rfl
@[simp] theorem updLink_sched (n : Nat) (f : Link → Link) : (s.updLink n f).sched = s.sched := rfl
@[simp] theorem updLink_hotRetired (n : Nat) (f : Link → Link) : (s.updLink n f).hotRetired = s.hotRetired := rfl
@[simp] theorem updLink_colls (n : Nat) (f : Link → Link) : (s.updLink n f).colls = s.colls := rfl
@[simp] theorem updLink_soundSeq (n : Nat) (f : Link → Link) : (s.updLink n f).soundSeq = s.soundSeq := rfl
@[simp] theorem updLink_heldResults (n : Nat) (f : Link → Link) : (s.updLink n f).heldResults = s.heldResults := rfl
@[simp] theorem updLink_links (n : Nat) (f : Link → Link) : (s.updLink n f).links = mset s.links n (f (s.link n)) := rfl
@[simp] theorem updLink_hbm (n : Nat) (f : Link → Link) : (s.updLink n f).hbm = s.hbm := rfl
@[simp] theorem updLink_eths (n : Nat) (f : Link → Link) : (s.updLink n f).eths = s.eths := rfl
@[simp] theorem updLink_ramps (n : Nat) (f : Link → Link) : (s.updLink n f).ramps = s.ramps := rfl
@[simp] theorem updLink_islands (n : Nat) (f : Link → Link) : (s.updLink n f).islands = s.islands := rfl
@[simp] theorem updLink_regs (n : Nat) (f : Link → Link) : (s.updLink n f).regs = s.regs := rfl
@[simp] theorem updLink_errCounts (n : Nat) (f : Link → Link) : (s.updLink n f).errCounts = s.errCounts := rfl
@[simp] theorem updLink_errLogged (n : Nat) (f : Link → Link) : (s.updLink n f).errLogged = s.errLogged := rfl
@[simp] theorem updLink_logDue (n : Nat) (f : Link → Link) : (s.updLink n f).logDue = s.logDue := rfl
@[simp] theorem updLink_traceDue (n : Nat) (f : Link → Link) : (s.updLink n f).traceDue = s.traceDue := rfl
@[simp] theorem updLink_errWindow (n : Nat) (f : Link → Link) : (s.updLink n f).errWindow = s.errWindow := rfl
@[simp] theorem updLink_interrupts (n : Nat) (f : Link → Link) : (s.updLink n f).interrupts = s.interrupts := rfl
@[simp] theorem updLink_imsic (n : Nat) (f : Link → Link) : (s.updLink n f).imsic = s.imsic := rfl
@[simp] theorem updLink_hostData (n : Nat) (f : Link → Link) : (s.updLink n f).hostData = s.hostData := rfl
@[simp] theorem updLink_flash (n : Nat) (f : Link → Link) : (s.updLink n f).flash = s.flash := rfl
@[simp] theorem updLink_image (n : Nat) (f : Link → Link) : (s.updLink n f).image = s.image := rfl
@[simp] theorem updLink_checkpointed (n : Nat) (f : Link → Link) : (s.updLink n f).checkpointed = s.checkpointed := rfl
@[simp] theorem updLink_keptTasks (n : Nat) (f : Link → Link) : (s.updLink n f).keptTasks = s.keptTasks := rfl
@[simp] theorem updLink_keptLaunches (n : Nat) (f : Link → Link) : (s.updLink n f).keptLaunches = s.keptLaunches := rfl
@[simp] theorem updLink_replies (n : Nat) (f : Link → Link) : (s.updLink n f).replies = s.replies := rfl
@[simp] theorem updLink_outbox (n : Nat) (f : Link → Link) : (s.updLink n f).outbox = s.outbox := rfl
@[simp] theorem updLink_transit (n : Nat) (f : Link → Link) : (s.updLink n f).transit = s.transit := rfl
@[simp] theorem updLink_freedBanks (n : Nat) (f : Link → Link) : (s.updLink n f).freedBanks = s.freedBanks := rfl

/-! ## `updStack` -/

@[simp] theorem updStack_agenda (n : Nat) (f : Stack → Stack) : (s.updStack n f).agenda = s.agenda := rfl
@[simp] theorem updStack_chances (n : Nat) (f : Stack → Stack) : (s.updStack n f).chances = s.chances := rfl
@[simp] theorem updStack_free (n : Nat) (f : Stack → Stack) : (s.updStack n f).free = s.free := rfl
@[simp] theorem updStack_cycle (n : Nat) (f : Stack → Stack) : (s.updStack n f).cycle = s.cycle := rfl
@[simp] theorem updStack_writeBacks (n : Nat) (f : Stack → Stack) : (s.updStack n f).writeBacks = s.writeBacks := rfl
@[simp] theorem updStack_stackUse (n : Nat) (f : Stack → Stack) : (s.updStack n f).stackUse = s.stackUse := rfl
@[simp] theorem updStack_cur (n : Nat) (f : Stack → Stack) : (s.updStack n f).cur = s.cur := rfl
@[simp] theorem updStack_evTurn (n : Nat) (f : Stack → Stack) : (s.updStack n f).evTurn = s.evTurn := rfl
@[simp] theorem updStack_slotEnd (n : Nat) (f : Stack → Stack) : (s.updStack n f).slotEnd = s.slotEnd := rfl
@[simp] theorem updStack_iss (n : Nat) (f : Stack → Stack) : (s.updStack n f).iss = s.iss := rfl
@[simp] theorem updStack_ctxs (n : Nat) (f : Stack → Stack) : (s.updStack n f).ctxs = s.ctxs := rfl
@[simp] theorem updStack_cores (n : Nat) (f : Stack → Stack) : (s.updStack n f).cores = s.cores := rfl
@[simp] theorem updStack_vregs (n : Nat) (f : Stack → Stack) : (s.updStack n f).vregs = s.vregs := rfl
@[simp] theorem updStack_vpoison (n : Nat) (f : Stack → Stack) : (s.updStack n f).vpoison = s.vpoison := rfl
@[simp] theorem updStack_spad (n : Nat) (f : Stack → Stack) : (s.updStack n f).spad = s.spad := rfl
@[simp] theorem updStack_acc (n : Nat) (f : Stack → Stack) : (s.updStack n f).acc = s.acc := rfl
@[simp] theorem updStack_ztag (n : Nat) (f : Stack → Stack) : (s.updStack n f).ztag = s.ztag := rfl
@[simp] theorem updStack_arrays (n : Nat) (f : Stack → Stack) : (s.updStack n f).arrays = s.arrays := rfl
@[simp] theorem updStack_mem (n : Nat) (f : Stack → Stack) : (s.updStack n f).mem = s.mem := rfl
@[simp] theorem updStack_poison (n : Nat) (f : Stack → Stack) : (s.updStack n f).poison = s.poison := rfl
@[simp] theorem updStack_l2 (n : Nat) (f : Stack → Stack) : (s.updStack n f).l2 = s.l2 := rfl
@[simp] theorem updStack_l2use (n : Nat) (f : Stack → Stack) : (s.updStack n f).l2use = s.l2use := rfl
@[simp] theorem updStack_rdc (n : Nat) (f : Stack → Stack) : (s.updStack n f).rdc = s.rdc := rfl
@[simp] theorem updStack_appCache (n : Nat) (f : Stack → Stack) : (s.updStack n f).appCache = s.appCache := rfl
@[simp] theorem updStack_pins (n : Nat) (f : Stack → Stack) : (s.updStack n f).pins = s.pins := rfl
@[simp] theorem updStack_linePins (n : Nat) (f : Stack → Stack) : (s.updStack n f).linePins = s.linePins := rfl
@[simp] theorem updStack_pinWaits (n : Nat) (f : Stack → Stack) : (s.updStack n f).pinWaits = s.pinWaits := rfl
@[simp] theorem updStack_joins (n : Nat) (f : Stack → Stack) : (s.updStack n f).joins = s.joins := rfl
@[simp] theorem updStack_launches (n : Nat) (f : Stack → Stack) : (s.updStack n f).launches = s.launches := rfl
@[simp] theorem updStack_nextLaunch (n : Nat) (f : Stack → Stack) : (s.updStack n f).nextLaunch = s.nextLaunch := rfl
@[simp] theorem updStack_intake (n : Nat) (f : Stack → Stack) : (s.updStack n f).intake = s.intake := rfl
@[simp] theorem updStack_saved (n : Nat) (f : Stack → Stack) : (s.updStack n f).saved = s.saved := rfl
@[simp] theorem updStack_holds (n : Nat) (f : Stack → Stack) : (s.updStack n f).holds = s.holds := rfl
@[simp] theorem updStack_slotsMapped (n : Nat) (f : Stack → Stack) : (s.updStack n f).slotsMapped = s.slotsMapped := rfl
@[simp] theorem updStack_sched (n : Nat) (f : Stack → Stack) : (s.updStack n f).sched = s.sched := rfl
@[simp] theorem updStack_hotRetired (n : Nat) (f : Stack → Stack) : (s.updStack n f).hotRetired = s.hotRetired := rfl
@[simp] theorem updStack_colls (n : Nat) (f : Stack → Stack) : (s.updStack n f).colls = s.colls := rfl
@[simp] theorem updStack_soundSeq (n : Nat) (f : Stack → Stack) : (s.updStack n f).soundSeq = s.soundSeq := rfl
@[simp] theorem updStack_heldResults (n : Nat) (f : Stack → Stack) : (s.updStack n f).heldResults = s.heldResults := rfl
@[simp] theorem updStack_links (n : Nat) (f : Stack → Stack) : (s.updStack n f).links = s.links := rfl
@[simp] theorem updStack_hbm (n : Nat) (f : Stack → Stack) : (s.updStack n f).hbm = mset s.hbm n (f (s.stack n)) := rfl
@[simp] theorem updStack_eths (n : Nat) (f : Stack → Stack) : (s.updStack n f).eths = s.eths := rfl
@[simp] theorem updStack_ramps (n : Nat) (f : Stack → Stack) : (s.updStack n f).ramps = s.ramps := rfl
@[simp] theorem updStack_islands (n : Nat) (f : Stack → Stack) : (s.updStack n f).islands = s.islands := rfl
@[simp] theorem updStack_regs (n : Nat) (f : Stack → Stack) : (s.updStack n f).regs = s.regs := rfl
@[simp] theorem updStack_errCounts (n : Nat) (f : Stack → Stack) : (s.updStack n f).errCounts = s.errCounts := rfl
@[simp] theorem updStack_errLogged (n : Nat) (f : Stack → Stack) : (s.updStack n f).errLogged = s.errLogged := rfl
@[simp] theorem updStack_logDue (n : Nat) (f : Stack → Stack) : (s.updStack n f).logDue = s.logDue := rfl
@[simp] theorem updStack_traceDue (n : Nat) (f : Stack → Stack) : (s.updStack n f).traceDue = s.traceDue := rfl
@[simp] theorem updStack_errWindow (n : Nat) (f : Stack → Stack) : (s.updStack n f).errWindow = s.errWindow := rfl
@[simp] theorem updStack_interrupts (n : Nat) (f : Stack → Stack) : (s.updStack n f).interrupts = s.interrupts := rfl
@[simp] theorem updStack_imsic (n : Nat) (f : Stack → Stack) : (s.updStack n f).imsic = s.imsic := rfl
@[simp] theorem updStack_hostData (n : Nat) (f : Stack → Stack) : (s.updStack n f).hostData = s.hostData := rfl
@[simp] theorem updStack_flash (n : Nat) (f : Stack → Stack) : (s.updStack n f).flash = s.flash := rfl
@[simp] theorem updStack_image (n : Nat) (f : Stack → Stack) : (s.updStack n f).image = s.image := rfl
@[simp] theorem updStack_checkpointed (n : Nat) (f : Stack → Stack) : (s.updStack n f).checkpointed = s.checkpointed := rfl
@[simp] theorem updStack_keptTasks (n : Nat) (f : Stack → Stack) : (s.updStack n f).keptTasks = s.keptTasks := rfl
@[simp] theorem updStack_keptLaunches (n : Nat) (f : Stack → Stack) : (s.updStack n f).keptLaunches = s.keptLaunches := rfl
@[simp] theorem updStack_replies (n : Nat) (f : Stack → Stack) : (s.updStack n f).replies = s.replies := rfl
@[simp] theorem updStack_outbox (n : Nat) (f : Stack → Stack) : (s.updStack n f).outbox = s.outbox := rfl
@[simp] theorem updStack_transit (n : Nat) (f : Stack → Stack) : (s.updStack n f).transit = s.transit := rfl
@[simp] theorem updStack_freedBanks (n : Nat) (f : Stack → Stack) : (s.updStack n f).freedBanks = s.freedBanks := rfl

/-! ## `takeFree` -/

@[simp] theorem takeFree_agenda : (s.takeFree).agenda = s.agenda := rfl
@[simp] theorem takeFree_chances : (s.takeFree).chances = s.chances := rfl
@[simp] theorem takeFree_free : (s.takeFree).free = s.free + 1 := rfl
@[simp] theorem takeFree_cycle : (s.takeFree).cycle = s.cycle := rfl
@[simp] theorem takeFree_writeBacks : (s.takeFree).writeBacks = s.writeBacks := rfl
@[simp] theorem takeFree_stackUse : (s.takeFree).stackUse = s.stackUse := rfl
@[simp] theorem takeFree_cur : (s.takeFree).cur = s.cur := rfl
@[simp] theorem takeFree_evTurn : (s.takeFree).evTurn = s.evTurn := rfl
@[simp] theorem takeFree_slotEnd : (s.takeFree).slotEnd = s.slotEnd := rfl
@[simp] theorem takeFree_iss : (s.takeFree).iss = s.iss := rfl
@[simp] theorem takeFree_ctxs : (s.takeFree).ctxs = s.ctxs := rfl
@[simp] theorem takeFree_cores : (s.takeFree).cores = s.cores := rfl
@[simp] theorem takeFree_vregs : (s.takeFree).vregs = s.vregs := rfl
@[simp] theorem takeFree_vpoison : (s.takeFree).vpoison = s.vpoison := rfl
@[simp] theorem takeFree_spad : (s.takeFree).spad = s.spad := rfl
@[simp] theorem takeFree_acc : (s.takeFree).acc = s.acc := rfl
@[simp] theorem takeFree_ztag : (s.takeFree).ztag = s.ztag := rfl
@[simp] theorem takeFree_arrays : (s.takeFree).arrays = s.arrays := rfl
@[simp] theorem takeFree_mem : (s.takeFree).mem = s.mem := rfl
@[simp] theorem takeFree_poison : (s.takeFree).poison = s.poison := rfl
@[simp] theorem takeFree_l2 : (s.takeFree).l2 = s.l2 := rfl
@[simp] theorem takeFree_l2use : (s.takeFree).l2use = s.l2use := rfl
@[simp] theorem takeFree_rdc : (s.takeFree).rdc = s.rdc := rfl
@[simp] theorem takeFree_appCache : (s.takeFree).appCache = s.appCache := rfl
@[simp] theorem takeFree_pins : (s.takeFree).pins = s.pins := rfl
@[simp] theorem takeFree_linePins : (s.takeFree).linePins = s.linePins := rfl
@[simp] theorem takeFree_pinWaits : (s.takeFree).pinWaits = s.pinWaits := rfl
@[simp] theorem takeFree_joins : (s.takeFree).joins = s.joins := rfl
@[simp] theorem takeFree_launches : (s.takeFree).launches = s.launches := rfl
@[simp] theorem takeFree_nextLaunch : (s.takeFree).nextLaunch = s.nextLaunch := rfl
@[simp] theorem takeFree_intake : (s.takeFree).intake = s.intake := rfl
@[simp] theorem takeFree_saved : (s.takeFree).saved = s.saved := rfl
@[simp] theorem takeFree_holds : (s.takeFree).holds = s.holds := rfl
@[simp] theorem takeFree_slotsMapped : (s.takeFree).slotsMapped = s.slotsMapped := rfl
@[simp] theorem takeFree_sched : (s.takeFree).sched = s.sched := rfl
@[simp] theorem takeFree_hotRetired : (s.takeFree).hotRetired = s.hotRetired := rfl
@[simp] theorem takeFree_colls : (s.takeFree).colls = s.colls := rfl
@[simp] theorem takeFree_soundSeq : (s.takeFree).soundSeq = s.soundSeq := rfl
@[simp] theorem takeFree_heldResults : (s.takeFree).heldResults = s.heldResults := rfl
@[simp] theorem takeFree_links : (s.takeFree).links = s.links := rfl
@[simp] theorem takeFree_hbm : (s.takeFree).hbm = s.hbm := rfl
@[simp] theorem takeFree_eths : (s.takeFree).eths = s.eths := rfl
@[simp] theorem takeFree_ramps : (s.takeFree).ramps = s.ramps := rfl
@[simp] theorem takeFree_islands : (s.takeFree).islands = s.islands := rfl
@[simp] theorem takeFree_regs : (s.takeFree).regs = s.regs := rfl
@[simp] theorem takeFree_errCounts : (s.takeFree).errCounts = s.errCounts := rfl
@[simp] theorem takeFree_errLogged : (s.takeFree).errLogged = s.errLogged := rfl
@[simp] theorem takeFree_logDue : (s.takeFree).logDue = s.logDue := rfl
@[simp] theorem takeFree_traceDue : (s.takeFree).traceDue = s.traceDue := rfl
@[simp] theorem takeFree_errWindow : (s.takeFree).errWindow = s.errWindow := rfl
@[simp] theorem takeFree_interrupts : (s.takeFree).interrupts = s.interrupts := rfl
@[simp] theorem takeFree_imsic : (s.takeFree).imsic = s.imsic := rfl
@[simp] theorem takeFree_hostData : (s.takeFree).hostData = s.hostData := rfl
@[simp] theorem takeFree_flash : (s.takeFree).flash = s.flash := rfl
@[simp] theorem takeFree_image : (s.takeFree).image = s.image := rfl
@[simp] theorem takeFree_checkpointed : (s.takeFree).checkpointed = s.checkpointed := rfl
@[simp] theorem takeFree_keptTasks : (s.takeFree).keptTasks = s.keptTasks := rfl
@[simp] theorem takeFree_keptLaunches : (s.takeFree).keptLaunches = s.keptLaunches := rfl
@[simp] theorem takeFree_replies : (s.takeFree).replies = s.replies := rfl
@[simp] theorem takeFree_outbox : (s.takeFree).outbox = s.outbox := rfl
@[simp] theorem takeFree_transit : (s.takeFree).transit = s.transit := rfl
@[simp] theorem takeFree_freedBanks : (s.takeFree).freedBanks = s.freedBanks := rfl

end Sys2Proof.Machine
end

