-- ==== Sys2Proof/Laws/Ops.lean ====
section
/-! SUPPORT. What the shared operations of issue can do: a slot that passes its checks has its effect, one that does not stops
its bundle, and every slot answers a next state. -/

namespace Sys2Proof.Machine

variable {v : View} {pre own : State → Vals → SlotEnd} {act : Vals → State → State} {s : State}

/-- The bits 63:0 of a scalar held wide are the scalar. -/
@[simp] theorem lo64_wide (w : Word) : lo64 (wide w) = w := by
  simp [lo64, wide, BitVec.setWidth_setWidth_of_le]

/-- Two changes of one context are one change. -/
theorem updCtx_updCtx (core x : Nat) (f g : Ctx → Ctx) : (s.updCtx core x f).updCtx core x g = s.updCtx core x (fun c => g (f c)) := by
  simp [State.updCtx, State.ctx]

/-- The checks of a slot that passes those of R109 are its own. -/
theorem checks_own (h : s.slotCheck v = .commit) : s.checks v pre own = own s (s.vals v) := by
  unfold State.slotCheck at h
  unfold State.checks
  cases hr : s.slotRules v <;> rw [hr] at h <;> simp only [SlotEnd.and, reduceCtorEq] at h ⊢
  rw [h]

/-- A check of R109 that a slot fails by itself comes before its own. -/
theorem checks_rules (h : s.slotRules v ≠ .commit) : s.checks v pre own = s.slotRules v := by
  unfold State.checks
  cases hr : s.slotRules v <;> simp_all [SlotEnd.and]

/-- A slot none of whose own checks comes before its wait for a stream makes those of R109 first. -/
theorem checks_slotCheck (h : s.slotCheck v ≠ .commit) : s.checks v (fun _ _ => .commit) own = s.slotCheck v := by
  unfold State.slotCheck at h ⊢
  unfold State.checks
  cases hr : s.slotRules v <;> cases hw : s.slotWaits v <;> simp_all [SlotEnd.and]

/-- A slot that passes every check, with no poisoned operand, has its effect. -/
theorem issuePre_clear (h : s.Clear v) (ho : own s (s.vals v) = .commit) :
    issuePre v pre own act s = .next (act (s.vals v) (s.begin v)) := by
  obtain ⟨hc, hb, hd⟩ := h
  simp only [View.sources] at hb
  simp only [issuePre, checks_own hc, ho, State.effect, hb, hd, Bool.false_eq_true, if_false, ite_self]

theorem issue_clear (h : s.Clear v) (ho : own s (s.vals v) = .commit) :
    issue v own act s = .next (act (s.vals v) (s.begin v)) := issuePre_clear h ho

/-- A slot that fails a check stops, unless its bundle has made the checks already. -/
theorem issuePre_stops (hk : s.iss.checked = false) (h : s.checks v pre own ≠ .commit) :
    issuePre v pre own act s = .next (s.stop (s.checks v pre own)) := by
  unfold issuePre
  rw [hk]
  split
  · rename_i hc
    exact absurd hc h
  · rfl

/-- A slot that fails a check of R109 by itself stops. -/
theorem issue_slotCheck (hk : s.iss.checked = false) (h : s.slotCheck v ≠ .commit) :
    issue v own act s = .next (s.stop (s.slotCheck v)) := by
  have e := checks_slotCheck (own := own) h
  rw [issue, issuePre_stops hk (by rwa [e]), e]

/-- A slot that fails a check of its own stops. -/
theorem issuePre_own (hk : s.iss.checked = false) (h : s.slotCheck v = .commit) (ho : own s (s.vals v) ≠ .commit) :
    issuePre v pre own act s = .next (s.stop (own s (s.vals v))) := by
  have e : s.checks v pre own = own s (s.vals v) := checks_own h
  rw [issuePre_stops hk (by rwa [e]), e]

theorem issue_own (hk : s.iss.checked = false) (h : s.slotCheck v = .commit) (ho : own s (s.vals v) ≠ .commit) :
    issue v own act s = .next (s.stop (own s (s.vals v))) := issuePre_own hk h ho

/-- Every slot answers a next state, whatever the state it meets. -/
theorem issuePre_answers : Answers (issuePre v pre own act s) := by
  unfold issuePre Answers
  split <;> exact ⟨_, rfl⟩

theorem issue_answers : Answers (issue v own act s) := issuePre_answers

/-- Beginning a slot notes its pops and its use of random bits. -/
theorem begin_eq : s.begin v = s.noted v := rfl

/-- A result in flight changes the flight record of the running context and nothing else. -/
theorem noted_deliver (val : Vec) (mask : Pred) (f : Flags) :
    (s.noted v).deliver v val mask f = s.flying v [resultOf s v val mask f] := rfl

/-- A scalar result in flight. -/
theorem noted_deliverS (w : Word) : (s.noted v).deliverS v w = s.flying v [scalarOf s v w] := rfl

/-- The flight record after a result. -/
theorem flying_flight (f : List InFlight) : (s.flying v f).me.flight = s.me.flight ++ f := by
  simp [State.flying, State.me, State.ctx, State.x, State.core, State.noted]

/-- A result in flight leaves every register of the running context as it was. -/
theorem flying_regs (f : List InFlight) : (s.flying v f).me.regs = s.me.regs := by
  simp [State.flying, State.me, State.ctx, State.x, State.core, State.noted]

/-- Taking a trap whose handler may run: HND is set, the trap registers are written and the pc is the handler's (R324). -/
theorem trapped_handler (c : Ctx) (t : Trap) (now : Word) (h1 : c.tvec.getLsbD 0 = true) (h2 : c.hnd = false)
    (h3 : alwaysEscalates t.cause.toNat = false) :
    (c.trapped t now).hnd = true ∧ (c.trapped t now).pc = tvecAddr c.tvec ∧ (c.trapped t now).epc = t.epc &&& ~~~15 ∧
      (c.trapped t now).ecause = ecauseOf t.cause t.late t.src t.snum ∧ (c.trapped t now).einfo = t.info ∧
      (c.trapped t now).emask = t.emask ∧ (c.trapped t now).held = c.flight ∧ (c.trapped t now).flight = [] ∧
      (c.trapped t now).latches = [] := by
  simp [Ctx.trapped, Ctx.nests, h1, h2, h3]

/-- A trap that no handler may take escalates: the context stops with HND = 0 (R330). -/
theorem trapped_escalates (c : Ctx) (t : Trap) (now : Word)
    (h : c.tvec.getLsbD 0 = false ∨ c.nests t = true ∨ alwaysEscalates t.cause.toNat = true) :
    (c.trapped t now).hnd = false ∧ (c.trapped t now).save = .stopped 1 ∧ (c.trapped t now).pc = t.epc &&& ~~~15 ∧
      (c.trapped t now).flight = c.held ++ c.flight := by
  have g : (c.tvec.getLsbD 0 && !c.nests t && !alwaysEscalates t.cause.toNat) = false := by
    rcases h with h | h | h <;> rw [h] <;> simp
  simp only [Ctx.trapped, g]
  by_cases hn : c.hnd <;> simp [hn]

/-- A return from a handler: the context resumes at EPC with HND clear and its flight record back (R329). -/
theorem returned_eq (c : Ctx) : c.returned.hnd = false ∧ c.returned.pc = c.epc &&& ~~~15 ∧ c.returned.flight = c.held ∧
    c.returned.clock = c.heldClock ∧ c.returned.regs = c.regs := ⟨rfl, rfl, rfl, rfl, rfl⟩

end Sys2Proof.Machine
end

