-- ==== Sys2Proof/Laws/PerInstr.lean ====
section
/-! SUPPORT. One lemma per instruction: the word the encoder gives an instruction lies below bit 31, so the encoder leaves the
stop bit to the bundle's framing (R102, R103); an event has no word. -/

namespace Sys2Proof.Laws

theorem pFld_le {n : Nat} (v : BitVec n) (lo : Nat) : pFld v lo ≤ (2 ^ n - 1) * 2 ^ lo :=
  Nat.mul_le_mul_right _ (Nat.le_sub_one_of_lt v.isLt)

theorem pFlag_le (b : Bool) (lo : Nat) : pFlag b lo ≤ 2 ^ lo := by
  cases b <;> simp [pFlag]

theorem pSrc_le (s : Src) (mode lo : Nat) : pSrc s mode lo ≤ 2 ^ mode + 63 * 2 ^ lo :=
  Nat.add_le_add (pFlag_le s.m mode) (pFld_le s.f lo)

namespace F

/-- The encoder's word leaves the stop bit free. -/
def Statement (i : Instr) : Prop := ∀ w, encode i = some w → w < 2 ^ 31

theorem add (o : SRR) : Statement (.add o) := by
  intro w h; cases h
  have := pFlag_le o.g 30
  have := pFld_le o.d 17
  have := pFlag_le o.n 16
  have := pSrc_le o.a 15 9
  have := pSrc_le o.b 8 2
  have := pFld_le o.p 0
  omega

theorem sub (o : SRR) : Statement (.sub o) := by
  intro w h; cases h
  have := pFlag_le o.g 30
  have := pFld_le o.d 17
  have := pFlag_le o.n 16
  have := pSrc_le o.a 15 9
  have := pSrc_le o.b 8 2
  have := pFld_le o.p 0
  omega

theorem and (o : SRR) : Statement (.and o) := by
  intro w h; cases h
  have := pFlag_le o.g 30
  have := pFld_le o.d 17
  have := pFlag_le o.n 16
  have := pSrc_le o.a 15 9
  have := pSrc_le o.b 8 2
  have := pFld_le o.p 0
  omega

theorem andn (o : SRR) : Statement (.andn o) := by
  intro w h; cases h
  have := pFlag_le o.g 30
  have := pFld_le o.d 17
  have := pFlag_le o.n 16
  have := pSrc_le o.a 15 9
  have := pSrc_le o.b 8 2
  have := pFld_le o.p 0
  omega

theorem or (o : SRR) : Statement (.or o) := by
  intro w h; cases h
  have := pFlag_le o.g 30
  have := pFld_le o.d 17
  have := pFlag_le o.n 16
  have := pSrc_le o.a 15 9
  have := pSrc_le o.b 8 2
  have := pFld_le o.p 0
  omega

theorem xor (o : SRR) : Statement (.xor o) := by
  intro w h; cases h
  have := pFlag_le o.g 30
  have := pFld_le o.d 17
  have := pFlag_le o.n 16
  have := pSrc_le o.a 15 9
  have := pSrc_le o.b 8 2
  have := pFld_le o.p 0
  omega

theorem sll (o : SRR) : Statement (.sll o) := by
  intro w h; cases h
  have := pFlag_le o.g 30
  have := pFld_le o.d 17
  have := pFlag_le o.n 16
  have := pSrc_le o.a 15 9
  have := pSrc_le o.b 8 2
  have := pFld_le o.p 0
  omega

theorem srl (o : SRR) : Statement (.srl o) := by
  intro w h; cases h
  have := pFlag_le o.g 30
  have := pFld_le o.d 17
  have := pFlag_le o.n 16
  have := pSrc_le o.a 15 9
  have := pSrc_le o.b 8 2
  have := pFld_le o.p 0
  omega

theorem sra (o : SRR) : Statement (.sra o) := by
  intro w h; cases h
  have := pFlag_le o.g 30
  have := pFld_le o.d 17
  have := pFlag_le o.n 16
  have := pSrc_le o.a 15 9
  have := pSrc_le o.b 8 2
  have := pFld_le o.p 0
  omega

theorem rol (o : SRR) : Statement (.rol o) := by
  intro w h; cases h
  have := pFlag_le o.g 30
  have := pFld_le o.d 17
  have := pFlag_le o.n 16
  have := pSrc_le o.a 15 9
  have := pSrc_le o.b 8 2
  have := pFld_le o.p 0
  omega

theorem ror (o : SRR) : Statement (.ror o) := by
  intro w h; cases h
  have := pFlag_le o.g 30
  have := pFld_le o.d 17
  have := pFlag_le o.n 16
  have := pSrc_le o.a 15 9
  have := pSrc_le o.b 8 2
  have := pFld_le o.p 0
  omega

theorem lea (o : SRR) : Statement (.lea o) := by
  intro w h; cases h
  have := pFlag_le o.g 30
  have := pFld_le o.d 17
  have := pFlag_le o.n 16
  have := pSrc_le o.a 15 9
  have := pSrc_le o.b 8 2
  have := pFld_le o.p 0
  omega

theorem slt (o : SRR) : Statement (.slt o) := by
  intro w h; cases h
  have := pFlag_le o.g 30
  have := pFld_le o.d 17
  have := pFlag_le o.n 16
  have := pSrc_le o.a 15 9
  have := pSrc_le o.b 8 2
  have := pFld_le o.p 0
  omega

theorem sltu (o : SRR) : Statement (.sltu o) := by
  intro w h; cases h
  have := pFlag_le o.g 30
  have := pFld_le o.d 17
  have := pFlag_le o.n 16
  have := pSrc_le o.a 15 9
  have := pSrc_le o.b 8 2
  have := pFld_le o.p 0
  omega

theorem min (o : SRR) : Statement (.min o) := by
  intro w h; cases h
  have := pFlag_le o.g 30
  have := pFld_le o.d 17
  have := pFlag_le o.n 16
  have := pSrc_le o.a 15 9
  have := pSrc_le o.b 8 2
  have := pFld_le o.p 0
  omega

theorem max (o : SRR) : Statement (.max o) := by
  intro w h; cases h
  have := pFlag_le o.g 30
  have := pFld_le o.d 17
  have := pFlag_le o.n 16
  have := pSrc_le o.a 15 9
  have := pSrc_le o.b 8 2
  have := pFld_le o.p 0
  omega

theorem minu (o : SRR) : Statement (.minu o) := by
  intro w h; cases h
  have := pFlag_le o.g 30
  have := pFld_le o.d 17
  have := pFlag_le o.n 16
  have := pSrc_le o.a 15 9
  have := pSrc_le o.b 8 2
  have := pFld_le o.p 0
  omega

theorem maxu (o : SRR) : Statement (.maxu o) := by
  intro w h; cases h
  have := pFlag_le o.g 30
  have := pFld_le o.d 17
  have := pFlag_le o.n 16
  have := pSrc_le o.a 15 9
  have := pSrc_le o.b 8 2
  have := pFld_le o.p 0
  omega

theorem mul (o : SRR) : Statement (.mul o) := by
  intro w h; cases h
  have := pFlag_le o.g 30
  have := pFld_le o.d 17
  have := pFlag_le o.n 16
  have := pSrc_le o.a 15 9
  have := pSrc_le o.b 8 2
  have := pFld_le o.p 0
  omega

theorem mulh (o : SRR) : Statement (.mulh o) := by
  intro w h; cases h
  have := pFlag_le o.g 30
  have := pFld_le o.d 17
  have := pFlag_le o.n 16
  have := pSrc_le o.a 15 9
  have := pSrc_le o.b 8 2
  have := pFld_le o.p 0
  omega

theorem mulhu (o : SRR) : Statement (.mulhu o) := by
  intro w h; cases h
  have := pFlag_le o.g 30
  have := pFld_le o.d 17
  have := pFlag_le o.n 16
  have := pSrc_le o.a 15 9
  have := pSrc_le o.b 8 2
  have := pFld_le o.p 0
  omega

theorem div (o : SRR) : Statement (.div o) := by
  intro w h; cases h
  have := pFlag_le o.g 30
  have := pFld_le o.d 17
  have := pFlag_le o.n 16
  have := pSrc_le o.a 15 9
  have := pSrc_le o.b 8 2
  have := pFld_le o.p 0
  omega

theorem divu (o : SRR) : Statement (.divu o) := by
  intro w h; cases h
  have := pFlag_le o.g 30
  have := pFld_le o.d 17
  have := pFlag_le o.n 16
  have := pSrc_le o.a 15 9
  have := pSrc_le o.b 8 2
  have := pFld_le o.p 0
  omega

theorem rem (o : SRR) : Statement (.rem o) := by
  intro w h; cases h
  have := pFlag_le o.g 30
  have := pFld_le o.d 17
  have := pFlag_le o.n 16
  have := pSrc_le o.a 15 9
  have := pSrc_le o.b 8 2
  have := pFld_le o.p 0
  omega

theorem remu (o : SRR) : Statement (.remu o) := by
  intro w h; cases h
  have := pFlag_le o.g 30
  have := pFld_le o.d 17
  have := pFlag_le o.n 16
  have := pSrc_le o.a 15 9
  have := pSrc_le o.b 8 2
  have := pFld_le o.p 0
  omega

theorem sel (o : SRR) : Statement (.sel o) := by
  intro w h; cases h
  have := pFlag_le o.g 30
  have := pFld_le o.d 17
  have := pFlag_le o.n 16
  have := pSrc_le o.a 15 9
  have := pSrc_le o.b 8 2
  have := pFld_le o.p 0
  omega

theorem addi (o : SRI) : Statement (.addi o) := by
  intro w h; cases h
  have := pFlag_le o.g 30
  have := pFld_le o.d 17
  have := pFlag_le o.n 16
  have := pSrc_le o.a 15 9
  have := pFld_le o.imm 2
  have := pFld_le o.p 0
  omega

theorem andi (o : SRI) : Statement (.andi o) := by
  intro w h; cases h
  have := pFlag_le o.g 30
  have := pFld_le o.d 17
  have := pFlag_le o.n 16
  have := pSrc_le o.a 15 9
  have := pFld_le o.imm 2
  have := pFld_le o.p 0
  omega

theorem ori (o : SRI) : Statement (.ori o) := by
  intro w h; cases h
  have := pFlag_le o.g 30
  have := pFld_le o.d 17
  have := pFlag_le o.n 16
  have := pSrc_le o.a 15 9
  have := pFld_le o.imm 2
  have := pFld_le o.p 0
  omega

theorem xori (o : SRI) : Statement (.xori o) := by
  intro w h; cases h
  have := pFlag_le o.g 30
  have := pFld_le o.d 17
  have := pFlag_le o.n 16
  have := pSrc_le o.a 15 9
  have := pFld_le o.imm 2
  have := pFld_le o.p 0
  omega

theorem slli (o : SSH) : Statement (.slli o) := by
  intro w h; cases h
  have := pFlag_le o.g 30
  have := pFld_le o.d 17
  have := pFlag_le o.n 16
  have := pSrc_le o.a 15 9
  have := pFld_le o.sh 2
  have := pFld_le o.p 0
  omega

theorem srli (o : SSH) : Statement (.srli o) := by
  intro w h; cases h
  have := pFlag_le o.g 30
  have := pFld_le o.d 17
  have := pFlag_le o.n 16
  have := pSrc_le o.a 15 9
  have := pFld_le o.sh 2
  have := pFld_le o.p 0
  omega

theorem srai (o : SSH) : Statement (.srai o) := by
  intro w h; cases h
  have := pFlag_le o.g 30
  have := pFld_le o.d 17
  have := pFlag_le o.n 16
  have := pSrc_le o.a 15 9
  have := pFld_le o.sh 2
  have := pFld_le o.p 0
  omega

theorem nop : Statement (.nop) := by
  intro w h; cases h
  omega

theorem bcc (c : BitVec 3) (a : Src) (off : BitVec 13) : Statement (.bcc c a off) := by
  intro w h; cases h
  have := pFld_le c 20
  have := pSrc_le a 19 13
  have := pFld_le off 0
  omega

theorem jal (d : BitVec 5) (imm : BitVec 17) : Statement (.jal d imm) := by
  intro w h; cases h
  have := pFld_le d 17
  have := pFld_le imm 0
  omega

theorem jr (d : BitVec 5) (a : Src) (p : BitVec 2) : Statement (.jr d a p) := by
  intro w h; cases h
  have := pFld_le d 17
  have := pSrc_le a 15 9
  have := pFld_le p 0
  omega

theorem jrGd (d : BitVec 5) (a : Src) (l : BitVec 4) (p : BitVec 2) : Statement (.jrGd d a l p) := by
  intro w h; cases h
  have := pFld_le d 17
  have := pSrc_le a 15 9
  have := pFld_le l 2
  have := pFld_le p 0
  omega

theorem looph (o : DAB6) : Statement (.looph o) := by
  intro w h; cases h
  have := pFld_le o.d 17
  have := pSrc_le o.a 15 9
  have := pSrc_le o.b 8 2
  have := pFld_le o.p 0
  omega

theorem trap (a : Src) (imm : BitVec 7) (p : BitVec 2) : Statement (.trap a imm p) := by
  intro w h; cases h
  have := pSrc_le a 15 9
  have := pFld_le imm 2
  have := pFld_le p 0
  omega

theorem lnch (d : BitVec 5) (a : Src) (p : BitVec 2) : Statement (.lnch d a p) := by
  intro w h; cases h
  have := pFld_le d 17
  have := pSrc_le a 15 9
  have := pFld_le p 0
  omega

theorem cwr (a : Src) (imm : BitVec 7) (p : BitVec 2) : Statement (.cwr a imm p) := by
  intro w h; cases h
  have := pSrc_le a 15 9
  have := pFld_le imm 2
  have := pFld_le p 0
  omega

theorem crdr (d : BitVec 5) (imm : BitVec 7) (p : BitVec 2) : Statement (.crdr d imm p) := by
  intro w h; cases h
  have := pFld_le d 17
  have := pFld_le imm 2
  have := pFld_le p 0
  omega

theorem done : Statement (.done) := by
  intro w h; cases h
  omega

theorem yield : Statement (.yield) := by
  intro w h; cases h
  omega

theorem waitt (a : Src) (p : BitVec 2) : Statement (.waitt a p) := by
  intro w h; cases h
  have := pSrc_le a 15 9
  have := pFld_le p 0
  omega

theorem rdtime (d : BitVec 5) : Statement (.rdtime d) := by
  intro w h; cases h
  have := pFld_le d 17
  omega

theorem wnext (d : BitVec 5) : Statement (.wnext d) := by
  intro w h; cases h
  have := pFld_le d 17
  omega

theorem wpos (d : BitVec 5) (k : BitVec 2) : Statement (.wpos d k) := by
  intro w h; cases h
  have := pFld_le d 17
  have := pFld_le k 5
  omega

theorem ifence : Statement (.ifence) := by
  intro w h; cases h
  omega

theorem eret : Statement (.eret) := by
  intro w h; cases h
  omega

theorem clz (o : SU) : Statement (.clz o) := by
  intro w h; cases h
  have := pFlag_le o.g 30
  have := pFld_le o.d 17
  have := pFlag_le o.n 16
  have := pSrc_le o.a 15 9
  have := pFld_le o.p 0
  omega

theorem ctz (o : SU) : Statement (.ctz o) := by
  intro w h; cases h
  have := pFlag_le o.g 30
  have := pFld_le o.d 17
  have := pFlag_le o.n 16
  have := pSrc_le o.a 15 9
  have := pFld_le o.p 0
  omega

theorem popc (o : SU) : Statement (.popc o) := by
  intro w h; cases h
  have := pFlag_le o.g 30
  have := pFld_le o.d 17
  have := pFlag_le o.n 16
  have := pSrc_le o.a 15 9
  have := pFld_le o.p 0
  omega

theorem sext (o : SU) (w : BitVec 2) : Statement (.sext o w) := by
  intro w h; cases h
  have := pFlag_le o.g 30
  have := pFld_le o.d 17
  have := pFlag_le o.n 16
  have := pSrc_le o.a 15 9
  have := pFld_le o.p 0
  have := pFld_le w 5
  omega

theorem zext (o : SU) (w : BitVec 2) : Statement (.zext o w) := by
  intro w h; cases h
  have := pFlag_le o.g 30
  have := pFld_le o.d 17
  have := pFlag_le o.n 16
  have := pSrc_le o.a 15 9
  have := pFld_le o.p 0
  have := pFld_le w 5
  omega

theorem crd (g : Bool) (d : BitVec 5) (n : Bool) (k : BitVec 4) (p : BitVec 2) : Statement (.crd g d n k p) := by
  intro w h; cases h
  have := pFlag_le g 30
  have := pFld_le d 17
  have := pFlag_le n 16
  have := pFld_le k 5
  have := pFld_le p 0
  omega

theorem li (g : Bool) (d : BitVec 5) (imm : BitVec 17) : Statement (.li g d imm) := by
  intro w h; cases h
  have := pFlag_le g 30
  have := pFld_le d 17
  have := pFld_le imm 0
  omega

theorem lih (g : Bool) (d : BitVec 5) (imm : BitVec 16) : Statement (.lih g d imm) := by
  intro w h; cases h
  have := pFlag_le g 30
  have := pFld_le d 17
  have := pFld_le imm 0
  omega

theorem pset (imm : BitVec 11) : Statement (.pset imm) := by
  intro w h; cases h
  have := pFld_le imm 0
  omega

theorem vadd (o : VRR) : Statement (.vadd o) := by
  intro w h; cases h
  have := pFlag_le o.g 30
  have := pFld_le o.d 17
  have := pFlag_le o.n 16
  have := pSrc_le o.a 15 9
  have := pSrc_le o.b 8 2
  have := pFld_le o.p 0
  omega

theorem vsub (o : VRR) : Statement (.vsub o) := by
  intro w h; cases h
  have := pFlag_le o.g 30
  have := pFld_le o.d 17
  have := pFlag_le o.n 16
  have := pSrc_le o.a 15 9
  have := pSrc_le o.b 8 2
  have := pFld_le o.p 0
  omega

theorem vmul (o : VRR) : Statement (.vmul o) := by
  intro w h; cases h
  have := pFlag_le o.g 30
  have := pFld_le o.d 17
  have := pFlag_le o.n 16
  have := pSrc_le o.a 15 9
  have := pSrc_le o.b 8 2
  have := pFld_le o.p 0
  omega

theorem vmulh (o : VRR) : Statement (.vmulh o) := by
  intro w h; cases h
  have := pFlag_le o.g 30
  have := pFld_le o.d 17
  have := pFlag_le o.n 16
  have := pSrc_le o.a 15 9
  have := pSrc_le o.b 8 2
  have := pFld_le o.p 0
  omega

theorem vmad (o : VRR) : Statement (.vmad o) := by
  intro w h; cases h
  have := pFlag_le o.g 30
  have := pFld_le o.d 17
  have := pFlag_le o.n 16
  have := pSrc_le o.a 15 9
  have := pSrc_le o.b 8 2
  have := pFld_le o.p 0
  omega

theorem vand (o : VRR) : Statement (.vand o) := by
  intro w h; cases h
  have := pFlag_le o.g 30
  have := pFld_le o.d 17
  have := pFlag_le o.n 16
  have := pSrc_le o.a 15 9
  have := pSrc_le o.b 8 2
  have := pFld_le o.p 0
  omega

theorem vor (o : VRR) : Statement (.vor o) := by
  intro w h; cases h
  have := pFlag_le o.g 30
  have := pFld_le o.d 17
  have := pFlag_le o.n 16
  have := pSrc_le o.a 15 9
  have := pSrc_le o.b 8 2
  have := pFld_le o.p 0
  omega

theorem vxor (o : VRR) : Statement (.vxor o) := by
  intro w h; cases h
  have := pFlag_le o.g 30
  have := pFld_le o.d 17
  have := pFlag_le o.n 16
  have := pSrc_le o.a 15 9
  have := pSrc_le o.b 8 2
  have := pFld_le o.p 0
  omega

theorem vshl (o : VRR) : Statement (.vshl o) := by
  intro w h; cases h
  have := pFlag_le o.g 30
  have := pFld_le o.d 17
  have := pFlag_le o.n 16
  have := pSrc_le o.a 15 9
  have := pSrc_le o.b 8 2
  have := pFld_le o.p 0
  omega

theorem vshr (o : VRR) : Statement (.vshr o) := by
  intro w h; cases h
  have := pFlag_le o.g 30
  have := pFld_le o.d 17
  have := pFlag_le o.n 16
  have := pSrc_le o.a 15 9
  have := pSrc_le o.b 8 2
  have := pFld_le o.p 0
  omega

theorem vsra (o : VRR) : Statement (.vsra o) := by
  intro w h; cases h
  have := pFlag_le o.g 30
  have := pFld_le o.d 17
  have := pFlag_le o.n 16
  have := pSrc_le o.a 15 9
  have := pSrc_le o.b 8 2
  have := pFld_le o.p 0
  omega

theorem vmin (o : VRR) : Statement (.vmin o) := by
  intro w h; cases h
  have := pFlag_le o.g 30
  have := pFld_le o.d 17
  have := pFlag_le o.n 16
  have := pSrc_le o.a 15 9
  have := pSrc_le o.b 8 2
  have := pFld_le o.p 0
  omega

theorem vmax (o : VRR) : Statement (.vmax o) := by
  intro w h; cases h
  have := pFlag_le o.g 30
  have := pFld_le o.d 17
  have := pFlag_le o.n 16
  have := pSrc_le o.a 15 9
  have := pSrc_le o.b 8 2
  have := pFld_le o.p 0
  omega

theorem vcmp (o : VCM) : Statement (.vcmp o) := by
  intro w h; cases h
  have := pFlag_le o.g 30
  have := pFld_le o.c 20
  have := pFld_le o.k 17
  have := pFlag_le o.n 16
  have := pSrc_le o.a 15 9
  have := pSrc_le o.b 8 2
  have := pFld_le o.p 0
  omega

theorem vsel (o : VRR) : Statement (.vsel o) := by
  intro w h; cases h
  have := pFlag_le o.g 30
  have := pFld_le o.d 17
  have := pFlag_le o.n 16
  have := pSrc_le o.a 15 9
  have := pSrc_le o.b 8 2
  have := pFld_le o.p 0
  omega

theorem vabs (o : VU) : Statement (.vabs o) := by
  intro w h; cases h
  have := pFlag_le o.g 30
  have := pFld_le o.d 17
  have := pFlag_le o.n 16
  have := pSrc_le o.a 15 9
  have := pFld_le o.p 0
  omega

theorem vclz (o : VU) : Statement (.vclz o) := by
  intro w h; cases h
  have := pFlag_le o.g 30
  have := pFld_le o.d 17
  have := pFlag_le o.n 16
  have := pSrc_le o.a 15 9
  have := pFld_le o.p 0
  omega

theorem vpopc (o : VU) : Statement (.vpopc o) := by
  intro w h; cases h
  have := pFlag_le o.g 30
  have := pFld_le o.d 17
  have := pFlag_le o.n 16
  have := pSrc_le o.a 15 9
  have := pFld_le o.p 0
  omega

theorem vsat (o : VU) (t : BitVec 2) : Statement (.vsat o t) := by
  intro w h; cases h
  have := pFlag_le o.g 30
  have := pFld_le o.d 17
  have := pFlag_le o.n 16
  have := pSrc_le o.a 15 9
  have := pFld_le o.p 0
  have := pFld_le t 5
  omega

theorem vfadd (o : VRR) : Statement (.vfadd o) := by
  intro w h; cases h
  have := pFlag_le o.g 30
  have := pFld_le o.d 17
  have := pFlag_le o.n 16
  have := pSrc_le o.a 15 9
  have := pSrc_le o.b 8 2
  have := pFld_le o.p 0
  omega

theorem vfsub (o : VRR) : Statement (.vfsub o) := by
  intro w h; cases h
  have := pFlag_le o.g 30
  have := pFld_le o.d 17
  have := pFlag_le o.n 16
  have := pSrc_le o.a 15 9
  have := pSrc_le o.b 8 2
  have := pFld_le o.p 0
  omega

theorem vfmul (o : VRR) : Statement (.vfmul o) := by
  intro w h; cases h
  have := pFlag_le o.g 30
  have := pFld_le o.d 17
  have := pFlag_le o.n 16
  have := pSrc_le o.a 15 9
  have := pSrc_le o.b 8 2
  have := pFld_le o.p 0
  omega

theorem vffma (o : VRR) : Statement (.vffma o) := by
  intro w h; cases h
  have := pFlag_le o.g 30
  have := pFld_le o.d 17
  have := pFlag_le o.n 16
  have := pSrc_le o.a 15 9
  have := pSrc_le o.b 8 2
  have := pFld_le o.p 0
  omega

theorem vfmin (o : VRR) : Statement (.vfmin o) := by
  intro w h; cases h
  have := pFlag_le o.g 30
  have := pFld_le o.d 17
  have := pFlag_le o.n 16
  have := pSrc_le o.a 15 9
  have := pSrc_le o.b 8 2
  have := pFld_le o.p 0
  omega

theorem vfmax (o : VRR) : Statement (.vfmax o) := by
  intro w h; cases h
  have := pFlag_le o.g 30
  have := pFld_le o.d 17
  have := pFlag_le o.n 16
  have := pSrc_le o.a 15 9
  have := pSrc_le o.b 8 2
  have := pFld_le o.p 0
  omega

theorem vfsgn (o : VRR) : Statement (.vfsgn o) := by
  intro w h; cases h
  have := pFlag_le o.g 30
  have := pFld_le o.d 17
  have := pFlag_le o.n 16
  have := pSrc_le o.a 15 9
  have := pSrc_le o.b 8 2
  have := pFld_le o.p 0
  omega

theorem vfcmp (o : VCM) : Statement (.vfcmp o) := by
  intro w h; cases h
  have := pFlag_le o.g 30
  have := pFld_le o.c 20
  have := pFld_le o.k 17
  have := pFlag_le o.n 16
  have := pSrc_le o.a 15 9
  have := pSrc_le o.b 8 2
  have := pFld_le o.p 0
  omega

theorem vfclass (o : VU) : Statement (.vfclass o) := by
  intro w h; cases h
  have := pFlag_le o.g 30
  have := pFld_le o.d 17
  have := pFlag_le o.n 16
  have := pSrc_le o.a 15 9
  have := pFld_le o.p 0
  omega

theorem vrcp (o : VU) : Statement (.vrcp o) := by
  intro w h; cases h
  have := pFlag_le o.g 30
  have := pFld_le o.d 17
  have := pFlag_le o.n 16
  have := pSrc_le o.a 15 9
  have := pFld_le o.p 0
  omega

theorem vrsq (o : VU) : Statement (.vrsq o) := by
  intro w h; cases h
  have := pFlag_le o.g 30
  have := pFld_le o.d 17
  have := pFlag_le o.n 16
  have := pSrc_le o.a 15 9
  have := pFld_le o.p 0
  omega

theorem vsqrt (o : VU) : Statement (.vsqrt o) := by
  intro w h; cases h
  have := pFlag_le o.g 30
  have := pFld_le o.d 17
  have := pFlag_le o.n 16
  have := pSrc_le o.a 15 9
  have := pFld_le o.p 0
  omega

theorem vexp2 (o : VU) : Statement (.vexp2 o) := by
  intro w h; cases h
  have := pFlag_le o.g 30
  have := pFld_le o.d 17
  have := pFlag_le o.n 16
  have := pSrc_le o.a 15 9
  have := pFld_le o.p 0
  omega

theorem vlog2 (o : VU) : Statement (.vlog2 o) := by
  intro w h; cases h
  have := pFlag_le o.g 30
  have := pFld_le o.d 17
  have := pFlag_le o.n 16
  have := pSrc_le o.a 15 9
  have := pFld_le o.p 0
  omega

theorem vtanh (o : VU) : Statement (.vtanh o) := by
  intro w h; cases h
  have := pFlag_le o.g 30
  have := pFld_le o.d 17
  have := pFlag_le o.n 16
  have := pSrc_le o.a 15 9
  have := pFld_le o.p 0
  omega

theorem vsilu (o : VU) : Statement (.vsilu o) := by
  intro w h; cases h
  have := pFlag_le o.g 30
  have := pFld_le o.d 17
  have := pFlag_le o.n 16
  have := pSrc_le o.a 15 9
  have := pFld_le o.p 0
  omega

theorem vcvt (o : VU) (part : BitVec 2) (sr : Bool) (c : BitVec 4) : Statement (.vcvt o part sr c) := by
  intro w h; cases h
  have := pFlag_le o.g 30
  have := pFld_le o.d 17
  have := pFlag_le o.n 16
  have := pSrc_le o.a 15 9
  have := pFld_le o.p 0
  have := pFld_le part 7
  have := pFlag_le sr 6
  have := pFld_le c 2
  omega

theorem vqnt (o : VU) (sr : Bool) (c : BitVec 4) : Statement (.vqnt o sr c) := by
  intro w h; cases h
  have := pFlag_le o.g 30
  have := pFld_le o.d 17
  have := pFlag_le o.n 16
  have := pSrc_le o.a 15 9
  have := pFld_le o.p 0
  have := pFlag_le sr 6
  have := pFld_le c 2
  omega

theorem vdqnt (o : VU) (h : Bool) (c : BitVec 4) : Statement (.vdqnt o h c) := by
  intro w h; cases h
  have := pFlag_le o.g 30
  have := pFld_le o.d 17
  have := pFlag_le o.n 16
  have := pSrc_le o.a 15 9
  have := pFld_le o.p 0
  have := pFlag_le h 7
  have := pFld_le c 2
  omega

theorem vperm (o : PRR) : Statement (.vperm o) := by
  intro w h; cases h
  have := pFld_le o.d 17
  have := pFlag_le o.n 16
  have := pSrc_le o.a 15 9
  have := pSrc_le o.b 8 2
  have := pFld_le o.p 0
  omega

theorem vxcl (o : PRR) : Statement (.vxcl o) := by
  intro w h; cases h
  have := pFld_le o.d 17
  have := pFlag_le o.n 16
  have := pSrc_le o.a 15 9
  have := pSrc_le o.b 8 2
  have := pFld_le o.p 0
  omega

theorem vshf (o : PRR) : Statement (.vshf o) := by
  intro w h; cases h
  have := pFld_le o.d 17
  have := pFlag_le o.n 16
  have := pSrc_le o.a 15 9
  have := pSrc_le o.b 8 2
  have := pFld_le o.p 0
  omega

theorem ld (o : LDI) : Statement (.ld o) := by
  intro w h; cases h
  have := pFld_le o.d 17
  have := pFlag_le o.n 16
  have := pSrc_le o.a 15 9
  have := pFld_le o.imm 2
  have := pFld_le o.p 0
  omega

theorem st (o : STI) : Statement (.st o) := by
  intro w h; cases h
  have := pFld_le o.d 17
  have := pSrc_le o.a 15 9
  have := pFld_le o.imm 2
  have := pFld_le o.p 0
  omega

theorem stGd (o : GSI) : Statement (.stGd o) := by
  intro w h; cases h
  have := pFld_le o.l 17
  have := pSrc_le o.a 15 9
  have := pFld_le o.imm 2
  have := pFld_le o.p 0
  omega

theorem ldg (o : LDI) : Statement (.ldg o) := by
  intro w h; cases h
  have := pFld_le o.d 17
  have := pFlag_le o.n 16
  have := pSrc_le o.a 15 9
  have := pFld_le o.imm 2
  have := pFld_le o.p 0
  omega

theorem stg (o : STI) : Statement (.stg o) := by
  intro w h; cases h
  have := pFld_le o.d 17
  have := pSrc_le o.a 15 9
  have := pFld_le o.imm 2
  have := pFld_le o.p 0
  omega

theorem stgGd (o : GSI) : Statement (.stgGd o) := by
  intro w h; cases h
  have := pFld_le o.l 17
  have := pSrc_le o.a 15 9
  have := pFld_le o.imm 2
  have := pFld_le o.p 0
  omega

theorem vld (d : BitVec 6) (n : Bool) (a : Src) (imm : BitVec 7) (p : BitVec 2) : Statement (.vld d n a imm p) := by
  intro w h; cases h
  have := pFld_le d 17
  have := pFlag_le n 16
  have := pSrc_le a 15 9
  have := pFld_le imm 2
  have := pFld_le p 0
  omega

theorem vst (d : BitVec 6) (a : Src) (imm : BitVec 7) (p : BitVec 2) : Statement (.vst d a imm p) := by
  intro w h; cases h
  have := pFld_le d 17
  have := pSrc_le a 15 9
  have := pFld_le imm 2
  have := pFld_le p 0
  omega

theorem vstGd (o : GSI) : Statement (.vstGd o) := by
  intro w h; cases h
  have := pFld_le o.l 17
  have := pSrc_le o.a 15 9
  have := pFld_le o.imm 2
  have := pFld_le o.p 0
  omega

theorem vldg (o : PRR) : Statement (.vldg o) := by
  intro w h; cases h
  have := pFld_le o.d 17
  have := pFlag_le o.n 16
  have := pSrc_le o.a 15 9
  have := pSrc_le o.b 8 2
  have := pFld_le o.p 0
  omega

theorem vstg (o : DAB6) : Statement (.vstg o) := by
  intro w h; cases h
  have := pFld_le o.d 17
  have := pSrc_le o.a 15 9
  have := pSrc_le o.b 8 2
  have := pFld_le o.p 0
  omega

theorem vstgGd (l : BitVec 4) (a b : Src) (p : BitVec 2) : Statement (.vstgGd l a b p) := by
  intro w h; cases h
  have := pFld_le l 17
  have := pSrc_le a 15 9
  have := pSrc_le b 8 2
  have := pFld_le p 0
  omega

theorem vstgPush (d : BitVec 6) (k : BitVec 4) (p : BitVec 2) : Statement (.vstgPush d k p) := by
  intro w h; cases h
  have := pFld_le d 17
  have := pFld_le k 9
  have := pFld_le p 0
  omega

theorem vgath (o : PRR) : Statement (.vgath o) := by
  intro w h; cases h
  have := pFld_le o.d 17
  have := pFlag_le o.n 16
  have := pSrc_le o.a 15 9
  have := pSrc_le o.b 8 2
  have := pFld_le o.p 0
  omega

theorem vscat (o : PRR) : Statement (.vscat o) := by
  intro w h; cases h
  have := pFld_le o.d 17
  have := pFlag_le o.n 16
  have := pSrc_le o.a 15 9
  have := pSrc_le o.b 8 2
  have := pFld_le o.p 0
  omega

theorem amo (o : SR3) : Statement (.amo o) := by
  intro w h; cases h
  have := pFld_le o.d 17
  have := pFlag_le o.n 16
  have := pSrc_le o.a 15 9
  have := pSrc_le o.b 8 2
  have := pFld_le o.p 0
  omega

theorem amog (o : SR3) : Statement (.amog o) := by
  intro w h; cases h
  have := pFld_le o.d 17
  have := pFlag_le o.n 16
  have := pSrc_le o.a 15 9
  have := pSrc_le o.b 8 2
  have := pFld_le o.p 0
  omega

theorem vamo (o : PRR) : Statement (.vamo o) := by
  intro w h; cases h
  have := pFld_le o.d 17
  have := pFlag_le o.n 16
  have := pSrc_le o.a 15 9
  have := pSrc_le o.b 8 2
  have := pFld_le o.p 0
  omega

theorem fence (scope : BitVec 3) (q r : BitVec 8) : Statement (.fence scope q r) := by
  intro w h; cases h
  have := pFld_le scope 17
  have := pFld_le q 8
  have := pFld_le r 0
  omega

theorem qfence (m : BitVec 4) : Statement (.qfence m) := by
  intro w h; cases h
  have := pFld_le m 0
  omega

theorem cinv (d : BitVec 6) (a : Src) (p : BitVec 2) : Statement (.cinv d a p) := by
  intro w h; cases h
  have := pFld_le d 17
  have := pSrc_le a 15 9
  have := pFld_le p 0
  omega

theorem cwb (d : BitVec 6) (a : Src) (p : BitVec 2) : Statement (.cwb d a p) := by
  intro w h; cases h
  have := pFld_le d 17
  have := pSrc_le a 15 9
  have := pFld_le p 0
  omega

theorem acq (d : BitVec 6) (n : Bool) (a : Src) (scope : BitVec 3) (p : BitVec 2) : Statement (.acq d n a scope p) := by
  intro w h; cases h
  have := pFld_le d 17
  have := pFlag_le n 16
  have := pSrc_le a 15 9
  have := pFld_le scope 5
  have := pFld_le p 0
  omega

theorem rel (d : BitVec 6) (n : Bool) (a : Src) (scope : BitVec 3) (p : BitVec 2) : Statement (.rel d n a scope p) := by
  intro w h; cases h
  have := pFld_le d 17
  have := pFlag_le n 16
  have := pSrc_le a 15 9
  have := pFld_le scope 5
  have := pFld_le p 0
  omega

theorem unbind (n : Bool) (a : Src) (p : BitVec 2) : Statement (.unbind n a p) := by
  intro w h; cases h
  have := pFlag_le n 16
  have := pSrc_le a 15 9
  have := pFld_le p 0
  omega

theorem bind (o : DAB6) : Statement (.bind o) := by
  intro w h; cases h
  have := pFld_le o.d 17
  have := pSrc_le o.a 15 9
  have := pSrc_le o.b 8 2
  have := pFld_le o.p 0
  omega

theorem fcopy (o : QA) : Statement (.fcopy o) := by
  intro w h; cases h
  have := pFld_le o.q 17
  have := pSrc_le o.a 15 9
  have := pFld_le o.p 0
  omega

theorem fgath (o : QA) : Statement (.fgath o) := by
  intro w h; cases h
  have := pFld_le o.q 17
  have := pSrc_le o.a 15 9
  have := pFld_le o.p 0
  omega

theorem fput (o : QA) : Statement (.fput o) := by
  intro w h; cases h
  have := pFld_le o.q 17
  have := pSrc_le o.a 15 9
  have := pFld_le o.p 0
  omega

theorem fget (o : QA) : Statement (.fget o) := by
  intro w h; cases h
  have := pFld_le o.q 17
  have := pSrc_le o.a 15 9
  have := pFld_le o.p 0
  omega

theorem fcoll (o : QA) : Statement (.fcoll o) := by
  intro w h; cases h
  have := pFld_le o.q 17
  have := pSrc_le o.a 15 9
  have := pFld_le o.p 0
  omega

theorem fa2a (o : QA) : Statement (.fa2a o) := by
  intro w h; cases h
  have := pFld_le o.q 17
  have := pSrc_le o.a 15 9
  have := pFld_le o.p 0
  omega

theorem fwait (m : BitVec 2) (p : BitVec 2) : Statement (.fwait m p) := by
  intro w h; cases h
  have := pFld_le m 17
  have := pFld_le p 0
  omega

theorem binit (n : Bool) (a b : Src) (p : BitVec 2) : Statement (.binit n a b p) := by
  intro w h; cases h
  have := pFlag_le n 16
  have := pSrc_le a 15 9
  have := pSrc_le b 8 2
  have := pFld_le p 0
  omega

theorem barv (n : Bool) (a : Src) (y : Bool) (p : BitVec 2) : Statement (.barv n a y p) := by
  intro w h; cases h
  have := pFlag_le n 16
  have := pSrc_le a 15 9
  have := pFlag_le y 8
  have := pFld_le p 0
  omega

theorem barvRel (scope : BitVec 3) (n : Bool) (a : Src) (y : Bool) (p : BitVec 2) : Statement (.barvRel scope n a y p) := by
  intro w h; cases h
  have := pFld_le scope 17
  have := pFlag_le n 16
  have := pSrc_le a 15 9
  have := pFlag_le y 8
  have := pFld_le p 0
  omega

theorem bwait (scope : BitVec 3) (n : Bool) (a b : Src) (p : BitVec 2) : Statement (.bwait scope n a b p) := by
  intro w h; cases h
  have := pFld_le scope 17
  have := pFlag_le n 16
  have := pSrc_le a 15 9
  have := pSrc_le b 8 2
  have := pFld_le p 0
  omega

theorem bxpect (o : PRR) : Statement (.bxpect o) := by
  intro w h; cases h
  have := pFld_le o.d 17
  have := pFlag_le o.n 16
  have := pSrc_le o.a 15 9
  have := pSrc_le o.b 8 2
  have := pFld_le o.p 0
  omega

theorem copen (d : BitVec 5) (n : Bool) (a : Src) (p : BitVec 2) : Statement (.copen d n a p) := by
  intro w h; cases h
  have := pFld_le d 17
  have := pFlag_le n 16
  have := pSrc_le a 15 9
  have := pFld_le p 0
  omega

theorem cclose (p : BitVec 2) : Statement (.cclose p) := by
  intro w h; cases h
  have := pFld_le p 0
  omega

theorem tchk (l k : BitVec 4) (p : BitVec 2) : Statement (.tchk l k p) := by
  intro w h; cases h
  have := pFld_le l 9
  have := pFld_le k 2
  have := pFld_le p 0
  omega

theorem sdesc (o : KA) : Statement (.sdesc o) := by
  intro w h; cases h
  have := pFld_le o.k 17
  have := pSrc_le o.a 15 9
  have := pFld_le o.p 0
  omega

theorem sbind (k : BitVec 4) (p : BitVec 2) : Statement (.sbind k p) := by
  intro w h; cases h
  have := pFld_le k 17
  have := pFld_le p 0
  omega

theorem sclose (k : BitVec 4) (p : BitVec 2) : Statement (.sclose k p) := by
  intro w h; cases h
  have := pFld_le k 17
  have := pFld_le p 0
  omega

theorem tmma (o : KAB) : Statement (.tmma o) := by
  intro w h; cases h
  have := pFld_le o.k 17
  have := pSrc_le o.a 15 9
  have := pSrc_le o.b 8 2
  have := pFld_le o.p 0
  omega

theorem tmmaZ (o : KAB) : Statement (.tmmaZ o) := by
  intro w h; cases h
  have := pFld_le o.k 17
  have := pSrc_le o.a 15 9
  have := pSrc_le o.b 8 2
  have := pFld_le o.p 0
  omega

theorem tmmg (o : KAB) : Statement (.tmmg o) := by
  intro w h; cases h
  have := pFld_le o.k 17
  have := pSrc_le o.a 15 9
  have := pSrc_le o.b 8 2
  have := pFld_le o.p 0
  omega

theorem tmmgZ (o : KAB) : Statement (.tmmgZ o) := by
  intro w h; cases h
  have := pFld_le o.k 17
  have := pSrc_le o.a 15 9
  have := pSrc_le o.b 8 2
  have := pFld_le o.p 0
  omega

theorem zzero (e : Bool) (t : BitVec 4) (p : BitVec 2) : Statement (.zzero e t p) := by
  intro w h; cases h
  have := pFlag_le e 21
  have := pFld_le t 17
  have := pFld_le p 0
  omega

theorem zld (e : Bool) (t : BitVec 4) (a : Src) (p : BitVec 2) : Statement (.zld e t a p) := by
  intro w h; cases h
  have := pFlag_le e 21
  have := pFld_le t 17
  have := pSrc_le a 15 9
  have := pFld_le p 0
  omega

theorem zst (t : BitVec 4) (a : Src) (f : BitVec 4) (p : BitVec 2) : Statement (.zst t a f p) := by
  intro w h; cases h
  have := pFld_le t 17
  have := pSrc_le a 15 9
  have := pFld_le f 2
  have := pFld_le p 0
  omega

theorem zstR (t : BitVec 4) (a : Src) (f : BitVec 4) (p : BitVec 2) : Statement (.zstR t a f p) := by
  intro w h; cases h
  have := pFld_le t 17
  have := pSrc_le a 15 9
  have := pFld_le f 2
  have := pFld_le p 0
  omega

theorem zcvt (t u : BitVec 4) (b : Src) (p : BitVec 2) : Statement (.zcvt t u b p) := by
  intro w h; cases h
  have := pFld_le t 17
  have := pFld_le u 9
  have := pSrc_le b 8 2
  have := pFld_le p 0
  omega

theorem zacc (t u : BitVec 4) (p : BitVec 2) : Statement (.zacc t u p) := by
  intro w h; cases h
  have := pFld_le t 17
  have := pFld_le u 9
  have := pFld_le p 0
  omega

theorem xmv (z : BitVec 2) (o : KAB) : Statement (.xmv z o) := by
  intro w h; cases h
  have := pFld_le z 21
  have := pFld_le o.k 17
  have := pSrc_le o.a 15 9
  have := pSrc_le o.b 8 2
  have := pFld_le o.p 0
  omega

theorem xload (o : KAB) : Statement (.xload o) := by
  intro w h; cases h
  have := pFld_le o.k 17
  have := pSrc_le o.a 15 9
  have := pSrc_le o.b 8 2
  have := pFld_le o.p 0
  omega

theorem xprog (o : KA) : Statement (.xprog o) := by
  intro w h; cases h
  have := pFld_le o.k 17
  have := pSrc_le o.a 15 9
  have := pFld_le o.p 0
  omega

theorem xver (o : KAB) : Statement (.xver o) := by
  intro w h; cases h
  have := pFld_le o.k 17
  have := pSrc_le o.a 15 9
  have := pSrc_le o.b 8 2
  have := pFld_le o.p 0
  omega

theorem xremap (o : KA) : Statement (.xremap o) := by
  intro w h; cases h
  have := pFld_le o.k 17
  have := pSrc_le o.a 15 9
  have := pFld_le o.p 0
  omega

theorem xdrift (o : KA) : Statement (.xdrift o) := by
  intro w h; cases h
  have := pFld_le o.k 17
  have := pSrc_le o.a 15 9
  have := pFld_le o.p 0
  omega

theorem xcalMeas (k : BitVec 4) (p : BitVec 2) : Statement (.xcalMeas k p) := by
  intro w h; cases h
  have := pFld_le k 17
  have := pFld_le p 0
  omega

theorem xcalLdsc (o : KA) : Statement (.xcalLdsc o) := by
  intro w h; cases h
  have := pFld_le o.k 17
  have := pSrc_le o.a 15 9
  have := pFld_le o.p 0
  omega

theorem xcalLdog (o : KA) : Statement (.xcalLdog o) := by
  intro w h; cases h
  have := pFld_le o.k 17
  have := pSrc_le o.a 15 9
  have := pFld_le o.p 0
  omega

theorem xcalStog (o : KA) : Statement (.xcalStog o) := by
  intro w h; cases h
  have := pFld_le o.k 17
  have := pSrc_le o.a 15 9
  have := pFld_le o.p 0
  omega

theorem xstat (d : BitVec 5) (k : BitVec 4) (p : BitVec 2) : Statement (.xstat d k p) := by
  intro w h; cases h
  have := pFld_le d 17
  have := pFld_le k 9
  have := pFld_le p 0
  omega

theorem xfb (o : KA) : Statement (.xfb o) := by
  intro w h; cases h
  have := pFld_le o.k 17
  have := pSrc_le o.a 15 9
  have := pFld_le o.p 0
  omega

theorem kvnew (a b : Src) (p : BitVec 2) : Statement (.kvnew a b p) := by
  intro w h; cases h
  have := pSrc_le a 15 9
  have := pSrc_le b 8 2
  have := pFld_le p 0
  omega

theorem kvapp (d : BitVec 5) (a b : Src) (p : BitVec 2) : Statement (.kvapp d a b p) := by
  intro w h; cases h
  have := pFld_le d 17
  have := pSrc_le a 15 9
  have := pSrc_le b 8 2
  have := pFld_le p 0
  omega

theorem kvrefInc (a b : Src) (p : BitVec 2) : Statement (.kvrefInc a b p) := by
  intro w h; cases h
  have := pSrc_le a 15 9
  have := pSrc_le b 8 2
  have := pFld_le p 0
  omega

theorem kvrefDec (a b : Src) (p : BitVec 2) : Statement (.kvrefDec a b p) := by
  intro w h; cases h
  have := pSrc_le a 15 9
  have := pSrc_le b 8 2
  have := pFld_le p 0
  omega

theorem kvtrunc (a b : Src) (p : BitVec 2) : Statement (.kvtrunc a b p) := by
  intro w h; cases h
  have := pSrc_le a 15 9
  have := pSrc_le b 8 2
  have := pFld_le p 0
  omega

theorem kvfind (d : BitVec 5) (a b : Src) (p : BitVec 2) : Statement (.kvfind d a b p) := by
  intro w h; cases h
  have := pFld_le d 17
  have := pSrc_le a 15 9
  have := pSrc_le b 8 2
  have := pFld_le p 0
  omega

theorem kvpub (d : BitVec 5) (a b : Src) (p : BitVec 2) : Statement (.kvpub d a b p) := by
  intro w h; cases h
  have := pFld_le d 17
  have := pSrc_le a 15 9
  have := pSrc_le b 8 2
  have := pFld_le p 0
  omega

theorem kvcow (a : Src) (p : BitVec 2) : Statement (.kvcow a p) := by
  intro w h; cases h
  have := pSrc_le a 15 9
  have := pFld_le p 0
  omega

theorem kvstrm (o : KAB) : Statement (.kvstrm o) := by
  intro w h; cases h
  have := pFld_le o.k 17
  have := pSrc_le o.a 15 9
  have := pSrc_le o.b 8 2
  have := pFld_le o.p 0
  omega

theorem rseed (n : Bool) (a b : Src) (p : BitVec 2) : Statement (.rseed n a b p) := by
  intro w h; cases h
  have := pFlag_le n 16
  have := pSrc_le a 15 9
  have := pSrc_le b 8 2
  have := pFld_le p 0
  omega

theorem rsave (n : Bool) (a : Src) (p : BitVec 2) : Statement (.rsave n a p) := by
  intro w h; cases h
  have := pFlag_le n 16
  have := pSrc_le a 15 9
  have := pFld_le p 0
  omega

theorem rload (n : Bool) (a : Src) (p : BitVec 2) : Statement (.rload n a p) := by
  intro w h; cases h
  have := pFlag_le n 16
  have := pSrc_le a 15 9
  have := pFld_le p 0
  omega

theorem vext (o : SR3) : Statement (.vext o) := by
  intro w h; cases h
  have := pFld_le o.d 17
  have := pFlag_le o.n 16
  have := pSrc_le o.a 15 9
  have := pSrc_le o.b 8 2
  have := pFld_le o.p 0
  omega

theorem vins (o : PRR) : Statement (.vins o) := by
  intro w h; cases h
  have := pFld_le o.d 17
  have := pFlag_le o.n 16
  have := pSrc_le o.a 15 9
  have := pSrc_le o.b 8 2
  have := pFld_le o.p 0
  omega

theorem vbcast (d : BitVec 6) (n : Bool) (a : Src) (p : BitVec 2) : Statement (.vbcast d n a p) := by
  intro w h; cases h
  have := pFld_le d 17
  have := pFlag_le n 16
  have := pSrc_le a 15 9
  have := pFld_le p 0
  omega

theorem vtrn (d : BitVec 6) (p : BitVec 2) : Statement (.vtrn d p) := by
  intro w h; cases h
  have := pFld_le d 17
  have := pFld_le p 0
  omega

theorem vred (d : BitVec 6) (n : Bool) (a : Src) (op : BitVec 2) (h : Bool) (p : BitVec 2) :
    Statement (.vred d n a op h p) := by
  intro w h; cases h
  have := pFld_le d 17
  have := pFlag_le n 16
  have := pSrc_le a 15 9
  have := pFld_le op 6
  have := pFlag_le h 5
  have := pFld_le p 0
  omega

theorem vscan (d : BitVec 6) (n : Bool) (a : Src) (op : BitVec 2) (h : Bool) (p : BitVec 2) :
    Statement (.vscan d n a op h p) := by
  intro w h; cases h
  have := pFld_le d 17
  have := pFlag_le n 16
  have := pSrc_le a 15 9
  have := pFld_le op 6
  have := pFlag_le h 5
  have := pFld_le p 0
  omega

theorem viota (d : BitVec 6) (n : Bool) (c : Bool) (p : BitVec 2) : Statement (.viota d n c p) := by
  intro w h; cases h
  have := pFld_le d 17
  have := pFlag_le n 16
  have := pFlag_le c 5
  have := pFld_le p 0
  omega

theorem pand (d : BitVec 3) (n : Bool) (a b : BitVec 3) (p : BitVec 2) : Statement (.pand d n a b p) := by
  intro w h; cases h
  have := pFld_le d 17
  have := pFlag_le n 16
  have := pFld_le a 9
  have := pFld_le b 2
  have := pFld_le p 0
  omega

theorem por (d : BitVec 3) (n : Bool) (a b : BitVec 3) (p : BitVec 2) : Statement (.por d n a b p) := by
  intro w h; cases h
  have := pFld_le d 17
  have := pFlag_le n 16
  have := pFld_le a 9
  have := pFld_le b 2
  have := pFld_le p 0
  omega

theorem pxor (d : BitVec 3) (n : Bool) (a b : BitVec 3) (p : BitVec 2) : Statement (.pxor d n a b p) := by
  intro w h; cases h
  have := pFld_le d 17
  have := pFlag_le n 16
  have := pFld_le a 9
  have := pFld_le b 2
  have := pFld_le p 0
  omega

theorem pnot (d : BitVec 3) (n : Bool) (a : BitVec 3) (p : BitVec 2) : Statement (.pnot d n a p) := by
  intro w h; cases h
  have := pFld_le d 17
  have := pFlag_le n 16
  have := pFld_le a 9
  have := pFld_le p 0
  omega

theorem ppop (d : BitVec 5) (n : Bool) (a : BitVec 3) (p : BitVec 2) : Statement (.ppop d n a p) := by
  intro w h; cases h
  have := pFld_le d 17
  have := pFlag_le n 16
  have := pFld_le a 9
  have := pFld_le p 0
  omega

theorem pfirst (d : BitVec 5) (n : Bool) (a : BitVec 3) (p : BitVec 2) : Statement (.pfirst d n a p) := by
  intro w h; cases h
  have := pFld_le d 17
  have := pFlag_le n 16
  have := pFld_le a 9
  have := pFld_le p 0
  omega

theorem resultWrite (core x : Nat) : Statement (.resultWrite core x) := fun _ h => nomatch h

theorem contextReady (core x : Nat) : Statement (.contextReady core x) := fun _ h => nomatch h

theorem generatorAppend (core x : Nat) : Statement (.generatorAppend core x) := fun _ h => nomatch h

theorem operandLogPerform (core x idx : Nat) : Statement (.operandLogPerform core x idx) := fun _ h => nomatch h

theorem lateFaultDelivery (core x : Nat) : Statement (.lateFaultDelivery core x) := fun _ h => nomatch h

theorem shootdownComplete : Statement (.shootdownComplete) := fun _ h => nomatch h

theorem correctedWriteback (sec : Nat) (c0 c1 : WriteOutcome) :
    Statement (.correctedWriteback sec c0 c1) := fun _ h => nomatch h

theorem tileFetchEntryFill (core x k : Nat) : Statement (.tileFetchEntryFill core x k) := fun _ h => nomatch h

theorem streamGeneratorRow (core x k : Nat) : Statement (.streamGeneratorRow core x k) := fun _ h => nomatch h

theorem writeStreamDrain (core x k : Nat) : Statement (.writeStreamDrain core x k) := fun _ h => nomatch h

theorem ferryTransfer (core q : Nat) : Statement (.ferryTransfer core q) := fun _ h => nomatch h

theorem followOnHandoff (core q : Nat) : Statement (.followOnHandoff core q) := fun _ h => nomatch h

theorem matrixInstructionStart (core : Nat) : Statement (.matrixInstructionStart core) := fun _ h => nomatch h

theorem matrixStep (core : Nat) : Statement (.matrixStep core) := fun _ h => nomatch h

theorem matrixInstructionComplete (core : Nat) : Statement (.matrixInstructionComplete core) := fun _ h => nomatch h

theorem dummyStep (core : Nat) : Statement (.dummyStep core) := fun _ h => nomatch h

theorem rampWindowEnd (island : Nat) : Statement (.rampWindowEnd island) := fun _ h => nomatch h

theorem crossbarInstructionStart (core : Nat) : Statement (.crossbarInstructionStart core) := fun _ h => nomatch h

theorem crossbarInstructionComplete (core arr : Nat) :
    Statement (.crossbarInstructionComplete core arr) := fun _ h => nomatch h

theorem digitalFallback (core arr : Nat) : Statement (.digitalFallback core arr) := fun _ h => nomatch h

theorem tideCheck (core arr : Nat) : Statement (.tideCheck core arr) := fun _ h => nomatch h

theorem kvOperation (core x : Nat) : Statement (.kvOperation core x) := fun _ h => nomatch h

theorem kvStreamEntryFill (core x k : Nat) : Statement (.kvStreamEntryFill core x k) := fun _ h => nomatch h

theorem soundTransfer (core x q : Nat) (reply : RemoteReply) :
    Statement (.soundTransfer core x q reply) := fun _ h => nomatch h

theorem soundAcknowledgement (core x q : Nat) : Statement (.soundAcknowledgement core x q) := fun _ h => nomatch h

theorem collectiveJoin (core x q : Nat) : Statement (.collectiveJoin core x q) := fun _ h => nomatch h

theorem collectiveRun (group tag : Nat) (remote : List RemoteShare) :
    Statement (.collectiveRun group tag remote) := fun _ h => nomatch h

theorem collectiveResultWrite (die group tag : Nat) :
    Statement (.collectiveResultWrite die group tag) := fun _ h => nomatch h

theorem allToAllExchange (group tag src dst : Nat) (remote : RemoteBlock) (poison : List Nat) :
    Statement (.allToAllExchange group tag src dst remote poison) := fun _ h => nomatch h

theorem fabricTimeout (core x q : Nat) : Statement (.fabricTimeout core x q) := fun _ h => nomatch h

theorem queueSlotConsume (slot : Nat) : Statement (.queueSlotConsume slot) := fun _ h => nomatch h

theorem schedulerPass : Statement (.schedulerPass) := fun _ h => nomatch h

theorem launchAccept (die : Nat) : Statement (.launchAccept die) := fun _ h => nomatch h

theorem distributorDecision : Statement (.distributorDecision) := fun _ h => nomatch h

theorem ageExpiry (launch : Nat) : Statement (.ageExpiry launch) := fun _ h => nomatch h

theorem timedLaunchLead (launch : Nat) : Statement (.timedLaunchLead launch) := fun _ h => nomatch h

theorem steal (core x : Nat) : Statement (.steal core x) := fun _ h => nomatch h

theorem taskEnd (core x : Nat) : Statement (.taskEnd core x) := fun _ h => nomatch h

theorem savePoint (core x : Nat) : Statement (.savePoint core x) := fun _ h => nomatch h

theorem savePointTimeout (core x : Nat) : Statement (.savePointTimeout core x) := fun _ h => nomatch h

theorem contextSave (core x : Nat) : Statement (.contextSave core x) := fun _ h => nomatch h

theorem contextRestore (launch task : Nat) : Statement (.contextRestore launch task) := fun _ h => nomatch h

theorem islandResetEnd (island : Nat) : Statement (.islandResetEnd island) := fun _ h => nomatch h

theorem waittExpiry (core x : Nat) : Statement (.waittExpiry core x) := fun _ h => nomatch h

theorem fatalRecovery : Statement (.fatalRecovery) := fun _ h => nomatch h

theorem checkpointCommit : Statement (.checkpointCommit) := fun _ h => nomatch h

theorem ethTransmit (port : Nat) : Statement (.ethTransmit port) := fun _ h => nomatch h

theorem errorThresholdWindowEnd : Statement (.errorThresholdWindowEnd) := fun _ h => nomatch h

theorem refreshWindowEnd (stack : Nat) : Statement (.refreshWindowEnd stack) := fun _ h => nomatch h

theorem refreshManagementEnd (stack bank : Nat) : Statement (.refreshManagementEnd stack bank) := fun _ h => nomatch h

theorem pageWalk (core x : Nat) (va : BitVec 64) (acc : AccessKind) :
    Statement (.pageWalk core x va acc) := fun _ h => nomatch h

theorem shootdown (v : BitVec 64) : Statement (.shootdown v) := fun _ h => nomatch h

theorem hbmSectorFill (sec : Nat) (c0 c1 : ReadOutcome) : Statement (.hbmSectorFill sec c0 c1) := fun _ h => nomatch h

theorem patrolScrub (stack : Nat) (c : ReadOutcome) : Statement (.patrolScrub stack c) := fun _ h => nomatch h

theorem activationAlert (stack chan bank row : Nat) (count : BitVec 32) :
    Statement (.activationAlert stack chan bank row count) := fun _ h => nomatch h

theorem rdcEviction (die line : Nat) : Statement (.rdcEviction die line) := fun _ h => nomatch h

theorem sqstatHalt (core x k : Nat) : Statement (.sqstatHalt core x k) := fun _ h => nomatch h

theorem fqstatHalt (core x q : Nat) : Statement (.fqstatHalt core x q) := fun _ h => nomatch h

theorem fqstatDiscard (core x q : Nat) : Statement (.fqstatDiscard core x q) := fun _ h => nomatch h

theorem narrowsSectorReceive (tries : BitVec 16) (ok : Bool) :
    Statement (.narrowsSectorReceive tries ok) := fun _ h => nomatch h

theorem straitFlitReceive (port dest : Nat) (tries : FlitReplays) :
    Statement (.straitFlitReceive port dest tries) := fun _ h => nomatch h

theorem linkRetrain (port : Nat) (lane : BitVec 8) : Statement (.linkRetrain port lane) := fun _ h => nomatch h

theorem linkTrained (port : Nat) (far : BitVec 8) (fleet : BitVec 16) :
    Statement (.linkTrained port far fleet) := fun _ h => nomatch h

theorem portTrainTimeout (port : Nat) (lane : BitVec 8) : Statement (.portTrainTimeout port lane) := fun _ h => nomatch h

theorem windowAccess (addr : BitVec 64) (kind : WindowKind) (len : Nat) (data : List (BitVec 8)) (poison : List Nat) :
    Statement (.windowAccess addr kind len data poison) := fun _ h => nomatch h

theorem sndqHalt (core x q : Nat) : Statement (.sndqHalt core x q) := fun _ h => nomatch h

theorem sndqDiscard (core x q : Nat) : Statement (.sndqDiscard core x q) := fun _ h => nomatch h

theorem qnotify (n : BitVec 12) : Statement (.qnotify n) := fun _ h => nomatch h

theorem ptpstep (v : BitVec 64) : Statement (.ptpstep v) := fun _ h => nomatch h

theorem ptploRead (hart : Nat) : Statement (.ptploRead hart) := fun _ h => nomatch h

theorem ptpctlWrite (v : BitVec 64) : Statement (.ptpctlWrite v) := fun _ h => nomatch h

theorem jrdseq (v : BitVec 64) : Statement (.jrdseq v) := fun _ h => nomatch h

theorem fatalDeviceFault (cause : BitVec 8) : Statement (.fatalDeviceFault cause) := fun _ h => nomatch h

theorem restart : Statement (.restart) := fun _ h => nomatch h

theorem powerWarning : Statement (.powerWarning) := fun _ h => nomatch h

theorem resume : Statement (.resume) := fun _ h => nomatch h

theorem restore : Statement (.restore) := fun _ h => nomatch h

theorem boot : Statement (.boot) := fun _ h => nomatch h

theorem attctlNop : Statement (.attctlNop) := fun _ h => nomatch h

theorem attctlExtend (idx : BitVec 3) : Statement (.attctlExtend idx) := fun _ h => nomatch h

theorem attctlQuote : Statement (.attctlQuote) := fun _ h => nomatch h

theorem attctlPublicKey : Statement (.attctlPublicKey) := fun _ h => nomatch h

theorem attctlFirmwareUpdate : Statement (.attctlFirmwareUpdate) := fun _ h => nomatch h

theorem attctlInvalidOp (op : BitVec 3) : Statement (.attctlInvalidOp op) := fun _ h => nomatch h

theorem xdriftpWrite (shoal : Nat) (v : BitVec 64) : Statement (.xdriftpWrite shoal v) := fun _ h => nomatch h

theorem linkEnable (port : Nat) (en : Bool) : Statement (.linkEnable port en) := fun _ h => nomatch h

theorem ethReceive (port : Nat) (frame : List (BitVec 8)) : Statement (.ethReceive port frame) := fun _ h => nomatch h

theorem stampPop (port : Nat) : Statement (.stampPop port) := fun _ h => nomatch h

theorem pcieDma (pa : Nat) (write : Bool) (data : List (BitVec 8)) :
    Statement (.pcieDma pa write data) := fun _ h => nomatch h

theorem registerWrite (off : Nat) (v : BitVec 64) : Statement (.registerWrite off v) := fun _ h => nomatch h

theorem applicationCoreAccess (hart : Nat) (op : HostAccess) (pa size : Nat) (data : BitVec 64) :
    Statement (.applicationCoreAccess hart op pa size data) := fun _ h => nomatch h

theorem runtimeHaltRequest (core x : Nat) : Statement (.runtimeHaltRequest core x) := fun _ h => nomatch h

theorem runtimeKill (launch task : Nat) : Statement (.runtimeKill launch task) := fun _ h => nomatch h

theorem powerWarningDeassert : Statement (.powerWarningDeassert) := fun _ h => nomatch h

theorem powerLoss : Statement (.powerLoss) := fun _ h => nomatch h

theorem ethernetLinkDown (port : Nat) (up : Bool) : Statement (.ethernetLinkDown port up) := fun _ h => nomatch h

theorem pcieLinkError : Statement (.pcieLinkError) := fun _ h => nomatch h

theorem thermalLimit : Statement (.thermalLimit) := fun _ h => nomatch h

theorem supplyUndervoltage : Statement (.supplyUndervoltage) := fun _ h => nomatch h

theorem applicationCoreMachineCheck (hart : Nat) : Statement (.applicationCoreMachineCheck hart) := fun _ h => nomatch h

theorem runtimeHeartbeatMissed : Statement (.runtimeHeartbeatMissed) := fun _ h => nomatch h

end F

end Sys2Proof.Laws
end

