-- ==== Sys2Proof/Laws/Vectors.lean ====
section
/-! SUPPORT. Elements of a vector: what a packed list and an elementwise operation hold at each place, and what an integer
vector slot that passes its checks puts in flight. -/

namespace Sys2Proof.Machine

/-- The number that a list of fields packs to. -/
def packed (w : Nat) (l : List Nat) : Nat := l.foldr (fun x acc => x % 2 ^ w + 2 ^ w * acc) 0

theorem packed_lt (w : Nat) (l : List Nat) : packed w l < 2 ^ (w * l.length) := by
  induction l with
  | nil => simp [packed]
  | cons x t ih =>
    have h1 : x % 2 ^ w < 2 ^ w := Nat.mod_lt _ (Nat.two_pow_pos w)
    have h2 : 2 ^ (w * (x :: t).length) = 2 ^ w * 2 ^ (w * t.length) := by
      rw [List.length_cons, Nat.mul_succ, Nat.pow_add, Nat.mul_comm]
    rw [h2]
    change x % 2 ^ w + 2 ^ w * packed w t < _
    calc x % 2 ^ w + 2 ^ w * packed w t < 2 ^ w + 2 ^ w * packed w t := by omega
      _ = 2 ^ w * (packed w t + 1) := by rw [Nat.mul_add, Nat.mul_one, Nat.add_comm]
      _ ≤ 2 ^ w * 2 ^ (w * t.length) := Nat.mul_le_mul_left _ ih

theorem packed_field (w : Nat) (l : List Nat) (e : Nat) (h : e < l.length) :
    packed w l / 2 ^ (w * e) % 2 ^ w = l.getD e 0 % 2 ^ w := by
  induction l generalizing e with
  | nil => simp at h
  | cons x t ih =>
    have h1 : x % 2 ^ w < 2 ^ w := Nat.mod_lt _ (Nat.two_pow_pos w)
    have hp : packed w (x :: t) = x % 2 ^ w + 2 ^ w * packed w t := rfl
    cases e with
    | zero => rw [hp]; simp
    | succ e =>
      have hd : packed w (x :: t) / 2 ^ w = packed w t := by
        rw [hp, Nat.add_mul_div_left _ _ (Nat.two_pow_pos w), Nat.div_eq_of_lt h1, Nat.zero_add]
      rw [Nat.mul_succ, Nat.add_comm, Nat.pow_add, ← Nat.div_div_eq_div_mul, hd]
      simpa using ih e (by simpa using h)

/-- Element `e` of a packed list is its member `e`. -/
theorem elem_packList {w : Nat} {l : List Nat} {e : Nat} (hl : w * l.length ≤ 4096) (h : e < l.length) :
    elem w (packList w l) e = l.getD e 0 % 2 ^ w := by
  have hlt : packed w l < 2 ^ 4096 := lt_of_lt_of_le (packed_lt w l) (Nat.pow_le_pow_right (by decide) hl)
  have : (packList w l).toNat = packed w l := by
    show (BitVec.ofNat 4096 (packed w l)).toNat = _
    rw [BitVec.toNat_ofNat, Nat.mod_eq_of_lt hlt]
  rw [elem, BitVec.extractLsb'_toNat, this, Nat.shiftRight_eq_div_pow, packed_field w l e h]

/-- What an elementwise operation holds in element `e`. -/
theorem elem_elementwise {w : Nat} (mask : Pred) (f : Nat → Nat × Flags) {e : Nat} (h : e < 4096 / w) :
    elem w (elementwise w mask f).1 e = if mask.getLsbD (w * e / 32) then (f e).1 % 2 ^ w else 0 := by
  have hl : w * (4096 / w) ≤ 4096 := Nat.mul_div_le 4096 w
  unfold elementwise
  simp only [List.map_map]
  rw [elem_packList (by simpa using hl) (by simpa using h)]
  rw [List.getD_eq_getElem?_getD, List.getElem?_map, List.getElem?_range h]
  simp only [Option.map_some, Option.getD_some, Function.comp, active]
  split <;> simp_all

/-- The flags of an elementwise operation are those of its active elements. -/
theorem flags_elementwise (w : Nat) (mask : Pred) (f : Nat → Nat × Flags) :
    (elementwise w mask f).2 =
      orFlags ((List.range (4096 / w)).map (fun e => if mask.getLsbD (w * e / 32) then (f e).2 else 0)) := by
  unfold elementwise active
  simp only [List.map_map]
  congr 1
  apply List.map_congr_left
  intro e _
  simp only [Function.comp]
  split <;> simp_all

/-- An integer vector slot that passes its checks puts one result in flight. -/
theorem vecInt_clear {v : View} {f : Nat → Bool → Nat → Nat → Nat → Nat} {s : State} (h : s.Clear v) :
    vecInt v f s = .next (s.flying v [resultOf s v (elementwise s.me.iw s.me.ap (fun e =>
      (f s.me.iw s.me.us (elem s.me.iw (s.vals v).a e) (elem s.me.iw (s.vals v).b e) (elem s.me.iw (s.vals v).d e), 0))).1
      s.me.ap 0]) := by
  unfold vecInt
  rw [issue_clear h rfl]
  rfl

/-- A float vector slot that passes its checks puts one result in flight. -/
theorem vecFloat_clear {v : View} {f : Fmt → Mode → Nat → Nat → Nat → Nat × Flags} {s : State} (h : s.Clear v) :
    vecFloat v f s = .next (s.flying v [
      let r := elementwise (floatWidth s.me.ff) s.me.ap (fun e => f (floatFmt s.me.ff) (modeOf s.me.rm)
        (elem (floatWidth s.me.ff) (s.vals v).a e) (elem (floatWidth s.me.ff) (s.vals v).b e)
        (elem (floatWidth s.me.ff) (s.vals v).d e))
      resultOf s v r.1 s.me.ap r.2]) := by
  unfold vecFloat
  rw [issue_clear h rfl]
  rfl

/-- A scalar slot of two sources that passes its checks puts its result in flight. -/
theorem scalar2_clear {v : View} {f : Word → Word → Word} {s : State} (h : s.Clear v) :
    scalar2 v f s = .next (s.flying v [scalarOf s v (f (lo64 (s.vals v).a) (lo64 (s.vals v).b))]) := by
  unfold scalar2
  rw [issue_clear h rfl]
  rfl

/-- A scalar slot of one source that passes its checks puts its result in flight. -/
theorem scalar1_clear {v : View} {f : Word → Word} {s : State} (h : s.Clear v) :
    scalar1 v f s = .next (s.flying v [scalarOf s v (f (lo64 (s.vals v).a))]) := by
  unfold scalar1
  rw [issue_clear h rfl]
  rfl

end Sys2Proof.Machine
end

