-- ==== Sys2Proof/Tests/Slice0.lean ====
section
/-! SUPPORT. Small checks of the model: ill-formed terms, words the spec writes out, its worked examples, and a state for the
hypotheses of every statement. Expected results are the spec's own, or worked out by hand from its rules. -/

set_option Elab.async false

namespace Sys2Proof.Tests

open Sys2Proof.Machine Sys2Proof.Spec

/-! ## Helpers -/

/-- A task of four banks and two tiles runs on context 0 of core 0. -/
def here : State := State.reset.withFetchWord 32 0x0800_0000

/-- That state with its running context changed. -/
def With (f : Ctx → Ctx) : State := here.upd f

/-- Register `k` as a source. -/
def r (k : Nat) : Src := ⟨false, .ofNat 6 k⟩

/-- Latch `k` as a source. -/
def lat (k : Nat) : Src := ⟨true, .ofNat 6 k⟩

/-- The head of stream `k` as a source, with a pop. -/
def pop (k : Nat) : Src := ⟨true, .ofNat 6 (16 + k)⟩

/-- The answer of an instruction meets a test. -/
def after (i : Instr) (s : State) (p : State → Bool) : Bool := match exec i s with
  | .next t => p t
  | _ => false

/-- A step's answer meets a test. -/
def stepped (s : State) (p : State → Bool) : Bool := match step s with
  | .next t => p t
  | _ => false

/-- The scalars that an instruction puts in flight. -/
def gives (i : Instr) (s : State) (l : List Word) : Bool := after i s (fun t => t.me.flight.map (fun f => lo64 f.val) == l)

/-- The lanes from `k` on of the first result an instruction puts in flight, and its flags. -/
def lanes (i : Instr) (s : State) (k : Nat) (l : List Lane) (fl : Flags) : Bool := after i s (fun t => match t.me.flight with
  | f :: _ => (List.range l.length).map (fun j => lane f.val (k + j)) == l && f.flags == fl
  | [] => false)

/-- An instruction stops its bundle with a cause. -/
def stops (i : Instr) (s : State) (c : Byte) : Bool := after i s (fun t => match t.slotEnd with
  | .trap _ k _ _ _ => k == c
  | _ => false)

/-- An instruction blocks its bundle. -/
def blocks (i : Instr) (s : State) : Bool := after i s (fun t => match t.slotEnd with
  | .block _ => true
  | _ => false)

/-- Every slot of a list passes its checks in a state. -/
def clearAll (s : State) (l : List Instr) : Bool :=
  l.all (fun i => decide (s.slotCheck (viewOf i) = .commit) && !((viewOf i).sources.any s.operandBad) && !s.dataBad (viewOf i))

/-- What the test of a list says of each of its slots. -/
theorem clear_of {s : State} {l : List Instr} (h : clearAll s l = true) : ∀ i ∈ l, s.Clear (viewOf i) := by
  intro i hi
  have := List.all_eq_true.mp h i hi
  simp only [Bool.and_eq_true, decide_eq_true_eq, Bool.not_eq_true'] at this
  exact ⟨this.1.1, this.1.2, this.2⟩

/-- A vector of the given lanes, the others zero. -/
def vec (l : List Lane) : Vec := ofLanes (fun j => l.getD j 0)

/-! ## Ill-formed terms are refused -/

/-- An unassigned code: a `vcmp` with condition 7 (R191); a guarded store whose latch code is none (R145). -/
theorem test_unassigned_code : (Instr.vcmp ⟨false, 7, 1, false, r 1, r 2, 0⟩).wf = false ∧
    (Instr.stGd ⟨5, r 4, 0, 0⟩).wf = false := by decide +kernel

/-- A scalar source field of 32 or more (R105). -/
theorem test_scalar_field : (Instr.add ⟨false, 1, false, r 32, r 2, 0⟩).wf = false := by decide +kernel

/-- A source mode that is reserved (R104). -/
theorem test_source_mode : (Instr.add ⟨false, 1, false, ⟨true, 8⟩, r 2, 0⟩).wf = false := by decide +kernel

/-- Well-formed neighbours of the terms above. -/
theorem test_well_formed : (Instr.vcmp ⟨false, 6, 1, false, r 1, r 2, 0⟩).wf = true ∧
    (Instr.stGd ⟨6, r 4, 0, 0⟩).wf = true ∧ (Instr.add ⟨false, 1, false, lat 7, r 2, 0⟩).wf = true := by decide +kernel

/-- Events of parts the device does not have: context 4, core 512, stream 16, queue 2, shoal 16, an unaligned register. -/
theorem test_events_refused : (Instr.resultWrite 0 4).wf = false ∧ (Instr.matrixStep 512).wf = false ∧
    (Instr.sqstatHalt 0 0 16).wf = false ∧ (Instr.fqstatHalt 0 0 2).wf = false ∧ (Instr.xdriftpWrite 16 0).wf = false ∧
    (Instr.registerWrite 4 0).wf = false ∧ (Instr.hbmSectorFill 0 ⟨.retried 6, .clean⟩ ⟨.clean, .clean⟩).wf = false ∧
    (Instr.linkRetrain 19 0).wf = false := by decide +kernel

/-- An agenda whose head is no event, or an event of a part the device does not have, stops the step by name. -/
theorem test_agenda_refused : step { here with agenda := [.nop] } = .fault .agendaMalformed ∧
    step { here with agenda := [.resultWrite 0 4] } = .fault .agendaMalformed := ⟨rfl, rfl⟩

/-! ## Words of the spec -/

/-- The bundle of chapter 6. -/
theorem test_words_bundle : decodeWord 0x19505348 = .ok (.vfmul ⟨false, 40, false, r 41, pop 2, 0⟩) ∧
    decodeWord 0x59015348 = .ok (.vfmul ⟨true, 0, true, r 41, pop 2, 0⟩) ∧
    decodeWord 0x000A0C1C = .ok (.add ⟨false, 5, false, r 6, r 7, 0⟩) ∧
    decodeWord 0x0050121A = .ok (.sub ⟨false, 8, false, r 9, r 6, 2⟩) ∧ decodeWord 0x08000000 = .ok .nop := by decide +kernel

/-- The late store of chapter 8. -/
theorem test_words_store : decodeWord 0x218A0C00 = .ok (.stg ⟨5, r 6, 0, 0⟩) ∧ decodeWord 0x218E0C04 = .ok (.stg ⟨7, r 6, 1, 0⟩) ∧
    decodeWord 0x00101024 = .ok (.add ⟨false, 8, false, r 8, r 9, 0⟩) ∧ decodeWord 0x22021400 = .ok (.vld 1 false (r 10) 0 0) ∧
    decodeWord 0x26800302 = .ok (.fence 0 3 2) := by decide +kernel

/-- The walker of chapter 9. -/
theorem test_words_walker : decodeWord 0x0C940010 = .ok (.wnext 10) ∧ decodeWord 0x08A14003 = .ok (.bcc 2 (r 10) 3) ∧
    decodeWord 0x07981424 = .ok (.slli ⟨false, 12, false, r 10, 9, 0⟩) ∧ decodeWord 0x0C960034 = .ok (.wpos 11 1) ∧
    decodeWord 0x001A0230 = .ok (.add ⟨false, 13, false, r 1, r 12, 0⟩) ∧ decodeWord 0x21961A00 = .ok (.stg ⟨11, r 13, 0, 0⟩) ∧
    decodeWord 0x0901FFFD = .ok (.jal 0 (-3)) ∧ decodeWord 0x0C800000 = .ok .done := by decide +kernel

/-- The four scores of chapter 10. -/
theorem test_words_scores : decodeWord 0x0E000001 = .ok (.pset 1) ∧ decodeWord 0x1C84020C = .ok (.vexp2 ⟨false, 2, false, r 1, 0⟩) ∧
    decodeWord 0x3E860428 = .ok (.vred 3 false (r 2) 0 true 0) ∧ decodeWord 0x1C880600 = .ok (.vrcp ⟨false, 4, false, r 3, 0⟩) ∧
    decodeWord 0x190A0410 = .ok (.vfmul ⟨false, 5, false, r 2, r 4, 0⟩) := by decide +kernel

/-- Tiles, arrays, the KV cache and collectives of chapters 11 to 14. -/
theorem test_words_units : decodeWord 0x30800814 = .ok (.tmmgZ ⟨0, r 4, r 5, 0⟩) ∧
    decodeWord 0x32200C10 = .ok (.zstR 0 (r 6) 4 0) ∧ decodeWord 0x33A60814 = .ok (.xmv 1 ⟨3, r 4, r 5, 0⟩) ∧
    decodeWord 0x388C0814 = .ok (.kvapp 6 (r 4) (r 5) 0) ∧ decodeWord 0x2A000800 = .ok (.fcoll ⟨0, r 4, 0⟩) := by decide +kernel

/-- An encoding that the opcode map leaves unassigned is refused by name, and so is an unassigned code of an assigned opcode. -/
theorem test_reserved_words : (decodeWord 0x3FFFFFFF).isOk = false := by decide +kernel

/-! ## States that meet the hypotheses of the statements -/

/-- Scalar operands in every form: registers, a latch and the head of a stream. -/
def s3 : SRR := ⟨false, 5, false, r 6, r 7, 0⟩

/-- The same for vectors. -/
def v3 : VRR := ⟨false, 5, false, r 6, r 7, 0⟩

/-- One vector source. -/
def v1 : VU := ⟨false, 5, false, r 6, 0⟩

/-- Two sources of the permute and memory units. -/
def p3 : PRR := ⟨5, false, r 6, r 7, 0⟩

/-- A stream that is open, with one entry. -/
def opened : Stream := { Stream.reset with cfg := true, started := true, kind := 1, entries := [⟨vec [7, 9], 0, 0, [], 0⟩] }

/-- A context with a value in latches `l0` and `l2`, an entry in stream 2 and a random word. -/
def rich : State := With (fun c => { c with
  latches := [(0, wide 11), (1, wide 11), (2, vec [1, 2, 3]), (3, vec [1, 2, 3])]
  streams := [(2, opened)]
  rand := { key := 1, ctr := 1, words := [5] }
  regs := [(6, 0xFFFF_FFFF_FFFF_FFFF), (7, 2)] })

/-- A bundle in which slot 0 was a class-A slot, and one in which it was a class-V slot: a twin may follow. -/
def twinA : State := rich.updIss (fun i => { i with last := some (.a, 0), unit := 1 })
def twinV : State := rich.updIss (fun i => { i with last := some (.v, 0), unit := 1 })

/-- Every scalar operation passes its checks (RegisterArithmetic, ImmediateAndUnary). -/
theorem witness_scalar : ∀ i ∈ [Instr.add s3, .sub s3, .and s3, .andn s3, .or s3, .xor s3, .sll s3, .srl s3, .sra s3, .rol s3,
    .ror s3, .lea s3, .slt s3, .sltu s3, .min s3, .max s3, .minu s3, .maxu s3, .mul s3, .mulh s3, .mulhu s3, .div s3, .divu s3,
    .rem s3, .remu s3, .sel s3, .addi ⟨false, 5, false, r 6, 127, 0⟩, .andi ⟨false, 5, false, r 6, 64, 0⟩,
    .ori ⟨false, 5, false, r 6, 0, 0⟩, .xori ⟨false, 5, true, r 6, 0, 0⟩, .slli ⟨false, 5, false, r 6, 63, 0⟩,
    .srli ⟨false, 5, false, r 6, 0, 0⟩, .srai ⟨false, 5, false, r 6, 1, 0⟩, .clz ⟨false, 5, false, r 6, 0⟩,
    .ctz ⟨false, 5, false, r 6, 0⟩, .popc ⟨false, 5, false, r 6, 0⟩, .sext ⟨false, 5, false, r 6, 0⟩ 0,
    .zext ⟨false, 5, false, r 6, 0⟩ 2, .crd false 5 false 12 0, .li false 5 0x1_0000, .lih false 5 0xFFFF], here.Clear (viewOf i) :=
  clear_of (by decide +kernel)

/-- A latch, the head of a stream with and without a pop, destination `s0` and a twin pass too. -/
theorem witness_scalar_forms : rich.Clear (viewOf (.add ⟨false, 5, false, lat 0, pop 2, 0⟩)) ∧
    rich.Clear (viewOf (.add ⟨false, 0, true, lat 2, r 31, 3⟩)) ∧ twinA.Clear (viewOf (.add ⟨true, 0, true, r 6, r 7, 0⟩)) :=
  ⟨⟨by decide +kernel, by decide +kernel⟩, ⟨by decide +kernel, by decide +kernel⟩, ⟨by decide +kernel, by decide +kernel⟩⟩

/-- The bounds of the counts of `clz` and `ctz`, and coordinates: the task and its launch are there. -/
theorem witness_unary : (here.me.task.isSome = true ∧ (here.launch probeTask.launch).isSome = true) ∧
    (∃ n : Nat, n ≤ 64 ∧ (∀ j < n, (0 : Word).getLsbD (63 - j) = false) ∧ n = 64) :=
  ⟨by decide +kernel, 64, by decide +kernel⟩

/-- Every vector operation passes its checks (VectorIntegers, VectorCompares, VectorFloats, SpecialAndConvert). -/
theorem witness_vector : ∀ i ∈ [Instr.vadd v3, .vsub v3, .vmul v3, .vmulh v3, .vmad v3, .vand v3, .vor v3, .vxor v3, .vshl v3, .vshr v3,
    .vsra v3, .vmin v3, .vmax v3, .vabs v1, .vclz v1, .vpopc v1, .vsat v1 0, .vsat v1 1, .vsat v1 2,
    .vcmp ⟨false, 6, 7, false, r 6, r 7, 0⟩, .vfcmp ⟨false, 5, 1, true, r 6, r 7, 0⟩, .vfadd v3, .vfsub v3, .vfmul v3, .vffma v3,
    .vfmin v3, .vfmax v3, .vfsgn v3, .vfclass v1, .vrcp v1, .vrsq v1, .vsqrt v1, .vexp2 v1, .vlog2 v1, .vtanh v1, .vsilu v1,
    .vcvt v1 0 true 0, .vcvt v1 0 false 4, .vqnt v1 true 8, .vqnt v1 false 7, .vdqnt v1 true 9], rich.Clear (viewOf i) :=
  clear_of (by decide +kernel)

/-- A latch, a stream, a twin and a bundle with D renamed are among the forms; a target of `vsat` narrower than the elements, a random
word and a float in each format are to be had. -/
theorem witness_vector_forms : rich.Clear (viewOf (.vfmul ⟨false, 40, false, lat 2, pop 2, 0⟩)) ∧
    twinV.Clear (viewOf (.vfmul ⟨true, 0, true, lat 0, ⟨true, 50⟩, 0⟩)) ∧ (16 : Nat) < rich.me.iw ∧ rich.me.rand.words ≠ [] :=
  ⟨⟨by decide +kernel, by decide +kernel⟩, ⟨by decide +kernel, by decide +kernel⟩, by decide +kernel, by decide +kernel⟩

/-- Moves, reductions and predicates (VectorMoves, Reductions, Predicates). -/
theorem witness_moves : ∀ i ∈ [Instr.vsel v3, .vperm p3, .vshf p3, .vxcl p3, .vins p3, .vext ⟨5, false, r 6, r 7, 0⟩,
    .vbcast 5 false (r 6) 0, .viota 5 false true 0, .vtrn 8 0, .vred 3 false (r 2) 0 true 0, .vred 3 false (r 2) 2 false 0,
    .vscan 3 false (r 2) 1 true 0, .pand 1 false 2 0 0, .por 7 false 2 3 0, .pxor 1 true 2 3 0, .pnot 1 false 0 0,
    .ppop 5 false 0 0, .pfirst 5 false 1 0, .pset 1], rich.Clear (viewOf i) := clear_of (by decide +kernel)

/-- A predicate that is empty, and one whose first bit is 127, and the folds that the reductions use. -/
theorem witness_predicates : rich.me.readP 1 = 0 ∧
    ((With (fun c => { c with preds := [(2, 2 ^ 127)] })).me.readP 2).getLsbD 127 = true ∧
    (∀ j < 127, ((With (fun c => { c with preds := [(2, 2 ^ 127)] })).me.readP 2).getLsbD j = false) ∧
    (∃ f : Nat → Nat → Nat × Flags, ∀ x y, (rich.me.combine true 0).2 x y = f x y) :=
  ⟨by decide +kernel, by decide +kernel, by decide +kernel, ⟨_, fun _ _ => rfl⟩⟩

/-- The generic address of a local address. -/
def gen (l : Nat) : Word := .ofNat 64 (0xFFFF_FFFF_0000_0000 + l)

/-- Registers of the running context, by number. -/
def regsOf (l : List (Nat × Word)) : State := With (fun c => { c with regs := l })

/-- A record of `n` bytes with fields (offset, value). -/
def record (n : Nat) (l : List (Nat × Nat)) : List Byte :=
  let v := (l.map (fun p => p.2 * 2 ^ (8 * p.1))).sum
  (List.range n).map (fun k => .ofNat 8 (v / 2 ^ (8 * k)))

/-- A state with bytes at a local address of the running task. -/
def holding (s : State) (l : Nat) (b : List Byte) : State := s.localStore s.cur s.x l b [] false

/-- Control slots pass their checks (BranchesAndJumps, TaskControl, ControlRegisters). -/
theorem witness_control : ∀ i ∈ [Instr.nop, .bcc 0 (r 6) (-3), .bcc 1 (r 6) 3, .jal 1 5, .jr 0 (r 7) 0, .jrGd 0 (r 7) 0 0, .looph ⟨1, r 5, r 0, 0⟩,
    .trap (r 6) 9 0, .done, .yield, .waitt (r 6) 0, .rdtime 5, .wnext 5, .wpos 5 3, .ifence, .eret, .crdr 5 1 0, .cwr (r 6) 0 0,
    .cwr (r 6) 0x10 0, .cwr (r 6) 0x13 0, .cwr (r 6) 0x2F 0, .cwr (r 6) 0x3A 0], rich.Clear (viewOf i) := clear_of (by decide +kernel)

/-- Branches that are taken and not, a jump to a bundle and one to no bundle, and latches that agree and differ. -/
theorem witness_branches : srcS here (r 6) = 0 ∧ (srcS rich (r 6)).toInt < 0 ∧ (srcS (regsOf [(6, 0x40)]) (r 6)).toNat % 16 = 0 ∧
    (srcS rich (r 7)).toNat % 16 ≠ 0 ∧ latchValue rich 0 = latchValue rich (twinLatch 0) ∧
    latchValue rich 0 ≠ latchValue (rich.upd (fun c => { c with latches := [(0, wide 11), (1, wide 12)] })) (twinLatch 0) ∧
    (rich.upd (fun c => { c with latches := [(0, wide 11), (1, wide 12)] })).slotCheck (viewOf (.jrGd 0 (r 7) 0 0)) = .commit := by
  decide +kernel

/-- A task whose walker has a tile, one whose walker has given −1, one that was refused, and one whose tile is known. -/
def walking (w : Walker) : State := With (fun c => { c with walker := w })

/-- What control needs, and where it stops (TaskControl, ControlStops). -/
theorem witness_task_control : here.me.loop = none ∧ here.me.hnd = false ∧ ringOk (srcS here (r 0)).toNat = true ∧ here.iss.after = none ∧
    here.iss.slots = 1 ∧ here.drained 0 0 = true ∧ (srcS here (r 6)).toNat ≤ here.regs.ptpns % 2 ^ 64 ∧
    (walking ⟨⟨9, 12, 0⟩, none, .none, false⟩).me.walker.range.next < 12 ∧ here.me.walker.range.fin ≤ here.me.walker.range.next ∧
    (walking ⟨⟨0, 0, 0⟩, none, .none, true⟩).me.walker.finished = true ∧
    (walking ⟨⟨0, 0, 0⟩, none, .refused, false⟩).me.walker.outcome = .refused ∧
    here.me.walker.cur = none ∧ (walking ⟨⟨9, 12, 0⟩, some 9, .none, false⟩).me.walker.cur = some 9 ∧
    (here.launchOf 0 0).isSome = true ∧ here.me.writesOut = false ∧ (With (fun c => { c with hnd := true })).me.hnd = true := by
  decide +kernel

/-- A loop within a loop, a ring register that names registers twice, a `done` beside another slot and one with work left, `eret` outside
a handler, a time to come, and a walker that is empty. -/
theorem witness_control_stops :
    (With (fun c => { c with loop := some ⟨1, 0, 0, 1, 0, 0⟩ })).slotCheck (viewOf (.looph ⟨1, r 5, r 0, 0⟩)) = .commit ∧
    ringOk (srcS (regsOf [(6, 0x0000_0009_8000_0000)]) (r 6)).toNat = false ∧
    (here.updIss (fun i => { i with slots := 2 })).slotCheck (viewOf .done) = .commit ∧
    (With (fun c => { c with log := [entry here .store 0 false] })).drained 0 0 = false ∧
    here.slotCheck (viewOf .eret) = .commit ∧ here.regs.ptpns % 2 ^ 64 < (srcS rich (r 6)).toNat ∧
    here.slotCheck (viewOf (.wnext 5)) = .commit ∧ here.me.walker.finished = false ∧ here.me.walker.outcome ≠ .refused ∧
    (∃ t, here.me.task = some t ∧ t.stage = 0) := by
  and_intros <;> decide +kernel

/-- A legal and an illegal mode word, and halted queues (ControlRegisters). -/
theorem witness_modes : vmodeOk 0 = true ∧ vmodeOk (0x400 + 1) = true ∧ vmodeOk (srcS rich (r 6)).toNat = false ∧
    ((With (fun c => c.setFerryQ 1 { Queue.reset with halt := true })).me.ferryQ 1).halt = true ∧
    ((With (fun c => c.setSoundQ 1 { Queue.reset with halt := true })).me.soundQ 1).halt = true := by decide +kernel

/-- An address in the task's scratchpad, the same with eight banks, and an address in global memory, in `s6`. -/
def local6 : State := regsOf [(6, gen 0x1000), (7, 0x40)]
def wide6 : State := local6.upd (fun c => { c with task := some { probeTask with banks := 8 } })
def global6 : State := regsOf [(6, 0x2000_0000_0040), (7, 0x40)]

/-- Memory slots pass their checks (LocalAccesses, GlobalAccesses, Synchronisation, FencesAndRegions, StreamsAndEngines). -/
theorem witness_memory : ∀ i ∈ [Instr.ld ⟨5, false, r 6, 0, 0⟩, .st ⟨5, r 6, 127, 0⟩, .stGd ⟨0, r 6, 0, 0⟩, .ldg ⟨5, true, r 6, 0, 0⟩,
    .stg ⟨5, r 6, 0, 0⟩, .stgGd ⟨2, r 6, 0, 0⟩, .vld 5 false (r 6) 0 0, .vst 5 (r 6) 0 0, .vstGd ⟨2, r 6, 0, 0⟩,
    .vldg ⟨5, false, r 6, r 7, 0⟩, .vstg ⟨5, r 6, r 7, 0⟩, .vstgGd 2 (r 6) (r 7) 0, .vgath ⟨5, false, r 6, r 7, 0⟩,
    .vscat ⟨5, false, r 6, r 7, 0⟩, .vamo ⟨5, false, r 6, r 7, 0⟩, .amo ⟨5, false, r 6, r 7, 0⟩, .amog ⟨5, false, r 6, r 7, 0⟩,
    .cinv 5 (r 6) 0, .cwb 5 (r 6) 0, .fence 0 3 2, .qfence 15, .fwait 3 0, .tchk 0 1 0, .copen 5 false (r 6) 0, .cclose 0,
    .rseed false (r 6) (r 7) 0, .rsave false (r 6) 0, .rload false (r 6) 0, .bind ⟨5, r 6, r 7, 0⟩, .unbind false (r 6) 0,
    .acq 5 false (r 6) 0 0, .rel 5 false (r 6) 0 0, .binit false (r 6) (r 7) 0, .barv false (r 6) false 0, .barvRel 0 false (r 6) false 0,
    .bwait 0 false (r 6) (r 7) 0, .bxpect ⟨5, false, r 6, r 7, 0⟩, .sdesc ⟨3, r 6, 0⟩, .sbind 3 0, .sclose 3 0, .vstgPush 5 3 0,
    .fcopy ⟨1, r 6, 0⟩, .fgath ⟨0, r 6, 0⟩, .fput ⟨0, r 6, 0⟩, .fget ⟨1, r 6, 0⟩, .fcoll ⟨0, r 6, 0⟩, .fa2a ⟨1, r 6, 0⟩, .lnch 5 (r 6) 0,
    .xstat 5 3 0], rich.Clear (viewOf i) := clear_of (by decide +kernel)

/-- Local objects at both ends of the allocation, and the last bytes of an object in it (LocalAccesses). -/
theorem witness_local : localAt local6 (ea local6 (r 6) 0 8) 8 0x1000 ∧
    localAt (regsOf [(6, gen 0x3FFF8)]) (ea (regsOf [(6, gen 0x3FFF8)]) (r 6) 0 8) 8 0x3FFF8 ∧
    (ea local6 (r 6) 127 8).toNat % 8 = 0 ∧ local6.me.inFlight < 24 ∧ (local6.localBytes 0 0 0x1000 8).2 = false ∧
    latchValue rich 0 = latchValue rich (twinLatch 0) ∧ wide6.vecEnd (ea wide6 (r 6) 0 64) = .commit ∧
    wide6.vecBad 0x1000 wide6.me.ap = false ∧ windowOf 0x1000 < 5 ∧ localAt local6 (srcS local6 (r 6) &&& ~~~7) 8 0x1000 := by
  and_intros <;> decide +kernel

/-- Global addresses, room in the operand log, and lanes whose addresses are all canonical (GlobalAccesses). -/
theorem witness_global : globalAt (ea global6 (r 6) 0 8) 8 ∧ (ea global6 (r 6) 0 8).toNat % 8 = 0 ∧
    inAperture (ea global6 (r 6) 0 8) = false ∧ globalAt (srcS global6 (r 6) + srcS global6 (r 0)) 512 ∧
    (srcS global6 (r 6) + srcS global6 (r 0)).toNat % 64 = 0 ∧ global6.me.log.length < 16 ∧
    (∀ j < 128, global6.me.ap.getLsbD j = true → (laneAddr (srcS global6 (r 6)) (srcV global6 (r 7)) j).toNat % 4 = 0 ∧
      canonical (laneAddr (srcS global6 (r 6)) (srcV global6 (r 7)) j) = true) := by
  and_intros <;> decide +kernel

/-- A range of bytes for `cinv` and `cwb` (GlobalAccesses). -/
theorem witness_range : global6.me.readS 7 ≠ 0 ∧ (global6.me.readS 7).toNat ≤ 2 ^ 32 ∧
    (srcS global6 (r 6)).toNat + (global6.me.readS 7).toNat ≤ 0xFFFF_FFFF_0000_0000 ∧
    globalAt (srcS global6 (r 6)) (global6.me.readS 7).toNat := by
  refine ⟨by decide +kernel, by decide +kernel, by decide +kernel, ?_⟩
  unfold globalAt
  decide +kernel

/-- Fences with nothing outstanding, joins of one queue and of two with room, no command to wait for, an open region and room for
one, and an image of the random state (FencesAndRegions). -/
theorem witness_fences : here.outstanding 0 0 &&& 0xFF = 0 ∧ (joinQueues 4).length ≤ 1 ∧ 2 ≤ (joinQueues 15).length ∧
    (∀ k ∈ joinQueues 15, room here k.1 k.2) ∧ here.me.fwaitNames 3 = [] ∧ latchValue rich 0 = latchValue rich 1 ∧
    (srcS here (r 6)).toNat % 16 = 0 ∧ here.me.regions.length < 4 ∧
    (With (fun c => { c with regions := [⟨[], 0, 0, 1⟩] })).me.regions ≠ [] ∧ (srcS local6 (r 6)).toNat % 64 = 0 ∧
    ownAt local6 (srcS local6 (r 6)) 1088 0x1000 ∧ randImageOk (local6.localBytes 0 0 0x1000 1088).1 = true := by
  and_intros <;> first | decide +kernel | (unfold room; decide +kernel)

/-- The barrier object of chapter 4 after its EXPECT, as the spec writes it. -/
def barrier4 : BarObj := 0x0002_0000_0000_0000_0000_0006_0000_8025

/-- A task that has that object at local 0x1000, named by `s6`. -/
def synced : State := holding (regsOf [(6, gen 0x1000), (7, 0x25)]) 0x1000 (bytesOf barrier4 16)

/-- Local and global sync objects, bindings old and new, and arrivals, expectations and waits that succeed (Synchronisation). -/
theorem witness_sync : localObj synced (srcS synced (r 6)) 8 0x1000 false ∧ localObj synced (srcS synced (r 6)) 16 0x1000 false ∧
    globalObj (srcS global6 (r 6)) 8 ∧ globalObj (srcS global6 (r 6)) 16 ∧ synced.me.regionsDone (srcS synced (r 6)) 0 = true ∧
    (0 : Word).toNat ≤ (le64 (synced.localBytes 0 0 0x1000 8).1).toNat ∧ bits (srcS synced (r 7)).toNat 13 4 ≠ 0 ∧
    bits (srcS synced (r 7)).toNat 63 15 = 0 ∧ (0x26 : Nat) % 16 ≠ (barAt synced 0x1000).gen ∧ (barAt synced 0x1000).usable = true ∧
    ((barAt synced 0x1000).apply .arrive).2 = none ∧ ((barAt synced 0x1000).apply (.expect (2 ^ 56 - 1 - 0x600) 0)).2 = none := by
  and_intros <;> decide +kernel

/-- A wait on a global object whose word has been read, and a binding within its bounds (Synchronisation). -/
theorem witness_sync_read :
    (With (fun c => { c with syncRead := some (0x40, wide 7) })).me.syncRead = some (0x40, wide 7) ∧ (7 : Word).toNat ≤ (lo64 (wide 7)).toNat ∧
    (0 : Nat) % 16 ≠ BarObj.gen (BitVec.setWidth 128 (wide 7)) ∧
    (⟨0, 0x40, 8⟩ : Binding).len ≠ 0 ∧ (0x40 : Word).toNat ≤ 2 ^ 40 ∧ (⟨0, 0x40, 8⟩ : Binding) ∉ here.me.bindings ∧ here.me.bindings.length < 16 ∧
    globalObj 8 8 := by
  and_intros <;> decide +kernel

/-- A usable object, and counts at the ends of their ranges (BarrierUpdates). -/
theorem witness_barrier : barrier4.usable = true ∧ barrier4.arrv = 2 ∧ barrier4.inb = 0x600 ∧ (2 ^ 56 - 1 : Nat) < 2 ^ 56 := by decide +kernel

/-- A descriptor of a global read stream: base 0x2000_0000_0000, FP32 elements, kind 1, one row of 512 bytes. -/
def desc : List Byte := record 32 [(0, 0x2000_0000_0000), (8, 1), (9, 1), (10, 512), (12, 1), (24, 1)]

/-- Streams to describe, start, close and push to (StreamsAndEngines). -/
theorem witness_streams : localOf (srcS local6 (r 6)) = some 0x1000 ∧ local6.localFault 0 0 0x1000 32 = none ∧
    local6.reserved 0 (local6.banksOf 0 0 0x1000 32) = false ∧
    (holding local6 0x1000 desc).localBytes 0 0 0x1000 32 = (desc, false) ∧ (srcS local6 (r 6)).toNat % 32 = 0 ∧
    descOk desc = true ∧ (here.me.stream 3).cfg = false ∧ (rich.me.stream 2).cfg = true ∧ opened.kind ≠ 3 ∧ opened.kind ≠ 5 ∧
    ({ opened with kind := 5 } : Stream).entries.length < 8 ∧ (({ Stream.reset with cfg := true } : Stream).started = false) := by
  decide +kernel

/-- A ferry record: 64 bytes from local 0x2000 to local 0x3000, bank 0. -/
def ferry : List Byte := record 64 [(0, 0x2000), (8, 0x3000), (0x10, 64), (0x14, 1), (0x20, 1), (0x27, 3)]

/-- The same with a table of row addresses at local 0x2000. -/
def gatherRecord : List Byte := record 64 [(0, 0x2000), (8, 0x3000), (0x10, 64), (0x14, 1), (0x20, 1), (0x27, 0x0B)]

/-- A put of 64 bytes from local 0x2000 to window address 0x3000 of device 0. -/
def putRecord : List Byte := record 64 [(0, 0x2000), (8, 0x3000), (0x13, 1), (0x14, 64), (0x18, 1)]

/-- Engine records that pass their checks, and room in their queues (StreamsAndEngines). -/
theorem witness_engines : ownAt local6 (srcS local6 (r 6)) 64 0x1000 ∧ (srcS local6 (r 6)).toNat % 64 = 0 ∧ room local6 false 1 ∧
    room local6 true 0 ∧ local6.ferryBad (ferryOf ferry) false (field ferry 0x3C 4) = none ∧
    local6.ferryBad (ferryOf gatherRecord) true (field gatherRecord 0x3C 4) = none ∧
    local6.soundEnd (soundOf 0 putRecord) 0 = .commit ∧ local6.soundEnd (soundOf 1 putRecord) 0 = .commit := by
  and_intros <;> first | decide +kernel | (unfold room; decide +kernel)

/-- A tree of five levels at 0x70_0000 that maps the 2 MiB at 0x40_0000 to themselves, written with R21's fields. -/
def paged (s : State) : State :=
  let p := fun (a v : Nat) (s : State) => s.homeStore a (bytesOf (.ofNat 64 v : Word) 8)
  p 0x703010 0x4009DF (p 0x702000 0x703001 (p 0x701000 0x702001 (p 0x700000 0x701001
    { s with launches := mset s.launches 1 { probeLaunch with ptroot := 0x700000 } })))

/-- Group 5 of this device alone, ranked 0 on die 0, as the directory at GRPBASE gives it. -/
def grouped : State :=
  ((paged local6).updRegs (fun g => { g with grpbase := 0x40_0000 })).homeStore (0x40_0000 + 1088 * 5)
    (record 1088 [(0, 1), (0x40, 0x8000)])

/-- A sum of two rows of 64 bytes over group 5, and an all-to-all over it, with their results (R285). -/
def collRecord : List Byte := record 64 [(0, 0x2000), (8, 0x3000), (0x10, 5), (0x12, 4), (0x13, 3), (0x14, 64), (0x18, 2), (0x1C, 64),
  (0x20, 64), (0x24, 1)]
def a2aRecord : List Byte := record 64 [(0, 0x2000), (8, 0x3000), (0x10, 5), (0x13, 1), (0x14, 64), (0x18, 1), (0x24, 1)]

/-- Collective records that pass their checks (StreamsAndEngines). -/
theorem witness_collectives : grouped.soundEnd (soundOf 2 collRecord) 0 = .commit ∧ grouped.soundEnd (soundOf 3 a2aRecord) 1 = .commit := by
  decide +kernel

/-- Operands of the matrix unit: an A panel at 0x1_0000 in MXINT8, a B panel at 0x2_0000, a table at 0x1000 whose group 0 owns 40 rows. -/
def tiled : State := holding (regsOf [(4, 0x0901_0000), (5, 0x0902_0000), (6, gen 0x1000), (7, 0x8000)]) 0x1000
  (record 128 [(0, 0x28_0902_0000)])

/-- Tile and array slots pass their checks and their queues have room (UnitQueues). -/
theorem witness_units : (∀ i ∈ [Instr.tmma ⟨0, r 4, r 5, 0⟩, .tmmaZ ⟨1, r 4, r 5, 0⟩, .tmmg ⟨0, r 4, r 6, 0⟩, .tmmgZ ⟨0, r 4, r 6, 0⟩,
    .zzero true 1 0, .zld false 0 (r 7) 0, .zst 0 (r 7) 4 0, .zstR 0 (r 7) 4 0, .zcvt 0 1 (r 7) 0, .zacc 0 1 0, .xmv 1 ⟨3, r 7, r 7, 0⟩,
    .xload ⟨3, r 7, r 0, 0⟩, .xver ⟨3, r 7, r 0, 0⟩, .xprog ⟨3, r 7, 0⟩, .xremap ⟨3, r 7, 0⟩, .xdrift ⟨3, r 7, 0⟩, .xcalLdsc ⟨3, r 7, 0⟩,
    .xcalLdog ⟨3, r 7, 0⟩, .xcalStog ⟨3, r 7, 0⟩, .xcalMeas 3 0, .xfb ⟨3, r 7, 0⟩], tiled.Clear (viewOf i)) ∧
    tiled.me.mq.length < 8 ∧ tiled.me.xq.length < 8 := ⟨clear_of (by decide +kernel), by decide +kernel, by decide +kernel⟩

/-- Operands that pass the checks of the tile instructions (UnitQueues). -/
theorem witness_tiles : tiled.matrixBad 0 0 (.tmma ⟨0, r 4, r 5, 0⟩) 0x0901_0000 0x0902_0000 [] true = none ∧
    tiled.matrixBad 0 0 (.tmmaZ ⟨1, r 4, r 5, 0⟩) 0x0901_0000 0x0902_0000 [] true = none ∧
    tiled.matrixBad 0 0 (.tmmg ⟨0, r 4, r 6, 0⟩) 0x0901_0000 (gen 0x1000) (tiled.groupTable 0 0 (gen 0x1000)) true = none ∧
    localOf (gen 0x1000) = some 0x1000 ∧ tiled.localFault 0 0 0x1000 128 = none ∧ (tiled.localBytes 0 0 0x1000 128).2 = false ∧
    tiled.matrixBad 0 0 (.zzero true 1 0) 0 0 [] true = none ∧ tiled.matrixBad 0 0 (.zld false 0 (r 7) 0) 0x8000 0 [] true = none ∧
    tiled.matrixBad 0 0 (.zst 0 (r 7) 4 0) 0x8000 0 [] true = none ∧ tiled.matrixBad 0 0 (.zstR 0 (r 7) 4 0) 0x8000 0 [] true = none ∧
    tiled.matrixBad 0 0 (.zcvt 0 1 (r 7) 0) 0 0x8000 [] true = none ∧ tiled.matrixBad 0 0 (.zacc 0 1 0) 0 0 [] true = none := by decide +kernel

/-- Operands that pass the checks of the array instructions (UnitQueues). -/
theorem witness_arrays : tiled.xbarBad 0 0 (.xmv 1 ⟨3, r 7, r 7, 0⟩) 0x8000 0x9000 = none ∧
    tiled.xbarBad 0 0 (.xload ⟨3, r 7, r 0, 0⟩) 0x8000 255 = none ∧ tiled.xbarBad 0 0 (.xver ⟨3, r 7, r 0, 0⟩) 0x8000 275 = none ∧
    tiled.xbarBad 0 0 (.xprog ⟨3, r 7, 0⟩) (0x200 + 271) 0 = none ∧ tiled.xbarBad 0 0 (.xremap ⟨3, r 7, 0⟩) 255 0 = none ∧
    tiled.xbarBad 0 0 (.xdrift ⟨3, r 7, 0⟩) 0x8000 0 = none ∧ tiled.xbarBad 0 0 (.xcalLdsc ⟨3, r 7, 0⟩) 0x8000 0 = none ∧
    tiled.xbarBad 0 0 (.xcalLdog ⟨3, r 7, 0⟩) 0x8000 0 = none ∧ tiled.xbarBad 0 0 (.xcalStog ⟨3, r 7, 0⟩) 0x8000 0 = none ∧
    tiled.xbarBad 0 0 (.xfb ⟨3, r 7, 0⟩) 0 0 = none ∧ tiled.xbarBad 0 0 (.xcalMeas 3 0) 0 0 = none := by decide +kernel

/-- KV instructions that are sent and that take their outcome (KvInstructions). -/
theorem witness_kv : (∀ i ∈ [Instr.kvnew (r 4) (r 5) 0, .kvapp 6 (r 4) (r 7) 0, .kvrefInc (r 4) (r 5) 0, .kvrefDec (r 4) (r 5) 0,
    .kvtrunc (r 4) (r 5) 0, .kvfind 6 (r 4) (r 7) 0, .kvpub 6 (r 4) (r 7) 0, .kvcow (r 4) 0, .kvstrm ⟨3, r 4, r 7, 0⟩], tiled.Clear (viewOf i)) ∧
    here.me.kv = .none ∧ tiled.kvEnd (.kvnew (r 4) (r 5) 0) 0 = .commit ∧ tiled.kvEnd (.kvapp 6 (r 4) (r 7) 0) (gen 0x8000) = .commit ∧
    tiled.kvEnd (.kvstrm ⟨3, r 4, r 7, 0⟩) (gen 0x8000) = .commit ∧
    (With (fun c => { c with kv := .value 0x10000 7 })).me.kv = .value here.me.pc 7 := by
  and_intros <;> first | decide +kernel | exact clear_of (by decide +kernel)

/-- The launch record of chapter 15, without its entry's address. -/
def record15 : List Byte := record 64 [(0, 0x0000_0100_0001_0000), (0x10, 6), (0x14, 5), (0x18, 1), (0x1C, 1), (0x20, 0xE4), (0x21, 0x12),
  (0x22, 1), (0x23, 1), (0x24, 1), (0x25, 2), (0x26, 3), (0x28, 0x40), (0x2B, 4)]

/-- A task with that record at local 0x1000 (LaunchFromTask): the record passes R299 as the spec says. -/
theorem witness_lnch : (holding local6 0x1000 record15).Clear (viewOf (.lnch 5 (r 6) 0)) ∧ (srcS local6 (r 6)).toNat % 64 = 0 ∧
    ownAt (holding local6 0x1000 record15) (srcS local6 (r 6)) 64 0x1000 ∧
    local6.recordBad (recordOf ((holding local6 0x1000 record15).localBytes 0 0 0x1000 64).1) = none ∧ (local6.launchOf 0 0).isSome = true ∧
    (mget [] local6.intake (coreDie 0)).length < 256 ∧ local6.regs.pfActive = false := by
  and_intros <;> decide +kernel

/-! ## States for the events -/

/-- Whether a part that may fail does not. -/
def ok {ε α : Type} (x : Except ε α) : Bool := match x with
  | .ok _ => true
  | .error _ => false

/-- A result that is due: 9 for `s5` and `l0`. -/
def due : InFlight := { left := 0, lat := 1, dest := .s 5, latch := some 0, val := wide 9, mask := BitVec.allOnes 128, flags := 0 }

/-- A result is due (ResultsWritten); a flag result is due with its trap enabled and a handler to take it (LateFaults). -/
theorem witness_results : (With (fun c => { c with flight := [due] })).me.flight.filter (fun f => f.left == 0) = [due] ∧ due.flags = 0 ∧
    (let s := With (fun c => { c with flight := [{ due with dest := .none, flags := 1 }], tvec := 2 ^ 57 + 1 })
     1 &&& s.me.tvec.extractLsb' 57 5 ≠ 0 ∧ s.me.hnd = false ∧ s.me.tvec.getLsbD 0 = true ∧
     ∀ a ∈ [0x34, 0x35, 0x36, 0x37, 0x38], (s.action (classOf a) 0) < 3) := by decide +kernel

/-- A wait that is over, room for a random word, a time that has come, and a thief that asks (ContextEvents). -/
theorem witness_contexts : (With (fun c => { c with blocked := .matrixQueue })).waitOver 0 0 = true ∧ here.me.rand.words.length < 4 ∧
    (With (fun c => { c with blocked := .time 0 })).me.blocked = .time 0 ∧
    (With (fun c => { c with blocked := .steal, walker := { Walker.reset with outcome := .asked } })).me.walker.outcome = .asked ∧
    here.scan probeLaunch 0 (scanOrder 0) = none ∧
    (here.scan { probeLaunch with ownerless := [(0, ⟨9, 12, 0⟩)] } 0 (scanOrder 0)).isSome = true ∧
    ({ probeLaunch with ownerless := [(0, ⟨9, 12, 0⟩)] } : Launch).ownerless.find? (fun q => q.1 == 0) = some (0, ⟨9, 12, 0⟩) := by
  decide +kernel

/-- The walker of chapter 15's task, which holds [5, 15), with a task of another line to steal from it. -/
def split15 : State := walking ⟨⟨5, 15, 0⟩, none, .none, false⟩

/-- A walker that may be split, and one that is too short (ContextEvents). -/
theorem witness_steals : (split15.victims 1 1 0).map (·.2) = [⟨5, 15, 0⟩] ∧ (5 : Nat) + 2 * probeLaunch.rcd.grain ≤ 15 ∧
    ((walking ⟨⟨5, 6, 0⟩, none, .none, false⟩).victims 1 1 0).all (fun v => decide (v.2.fin < v.2.next + 2)) = true := by decide +kernel

/-- A late fault, and one before another, for a handler that may run (LateFaults). -/
theorem witness_late : (With (fun c => { c with tvec := 1, pending := [⟨0x40, 3, 0, 7, 5⟩, ⟨0x41, 3, 0, 8, 6⟩] })).me.pending =
      [⟨0x40, 3, 0, 7, 5⟩, ⟨0x41, 3, 0, 8, 6⟩] ∧ (1 : Word).getLsbD 0 = true ∧ alwaysEscalates 0x40 = false ∧ here.me.save = .no := by decide +kernel

/-- A state with one entry in the operand log of the running task, in a paged address space. -/
def logged (e : LogEntry) : State := (paged here).upd (fun c => { c with log := [e] })

/-- Entries that are performed: a load, a store, an atomic and a release, and a load that faults (LogPerformed). -/
theorem witness_log : (∀ e ∈ [entry here .load 0x40_0000 true, entry here .store 0x40_0000 false], (logged e).me.log = [e] ∧ e.cause = 0) ∧
    ((logged (entry here .load 0x40_0000 true)).core 0).watch = [] ∧
    ok ((logged (entry here .load 0x40_0000 true)).globalBytes 0 0 0x40_0000 8).1 = true ∧
    ok ((logged (entry here .store 0x40_0000 false)).globalStore 0 0 0x40_0000 (bytesOf (7 : Word) 8) []).1 = true ∧
    ok ((logged (entry here (.amo 1) 0x40_0000 true)).entryTr 0 0 0x40_0000 .atomic).1 = true ∧
    ok ((logged (entry here (.rel 0) 0x40_0000 true)).entryTr 0 0 0x40_0000 .write).1 = true ∧
    (paged here).me.regionsDone 0x40_0000 0 = true ∧
    ok ((logged (entry here .load 0x2000_0000_0040 true)).globalBytes 0 0 0x2000_0000_0040 8).1 = false := by decide +kernel

/-- A task with nothing left that has met its `done` (TaskEnds). -/
theorem witness_end : (With (fun c => { c with blocked := .drains })).me.blocked = .drains ∧ here.me.pending = [] ∧ here.drained 0 0 = true := by
  decide +kernel

/-- Sectors, stacks, banks, lines and a window of ERRTH that has ended (StackEvents). -/
theorem witness_stacks : 64 * (2 ^ 33 - 1) < 2 ^ 39 ∧ mfind here.l2 7 = none ∧ (here.stack (stackOf 64)).wbcor = true ∧ (here.stack 7).scrubh ≠ 0 ∧
    (here.stack 0).alertth.toNat ≤ (0x4000 : BitVec 32).toNat ∧ mfind (here.stack 0).acts (rowOf 63 15 32767) = none ∧
    (0 ∈ ({ here with rdc := [(rdcKey 0 0, ⟨0, true, 0, false⟩)] }).rdcLines 0) ∧ here.linePinned 0 0 = false ∧
    1900000000 * (here.errWindow + 1) ≤ ({ here with cycle := 1900000000 }).cycle := by decide +kernel

/-- A pin of ferry queue 0 of context 0 on the 2 MiB page at an address of address space 1, and a shootdown of address space 2 that is in
progress over the 512 pages at 0x40_0000. -/
def held (va : Nat) : Pin := ⟨0, 0, .ferry 0, ⟨1, false, va, 9, va, true, true, false, true⟩⟩
def shooting (l : List Pin) : State :=
  { here.updRegs (fun g => { g with sdBusy := true, sdAsn := 2, sdva := 0x40_0000, sdnp := 512 }) with pins := l }

/-- A walk that finds a leaf which allows a write, a shootdown to ask for, and one in progress that no pin holds up (Translation). -/
theorem witness_walk : canonical 0x40_0000 = true ∧
    (match ((paged here).walk (some 0) 1 0x40_0000 0x70_0000 4).1 with
      | .leaf e p => e.va == 0x40_0000 && e.k == 9 && p == 0x70_3010 && permFault e .write == none
      | .fault _ => false) = true ∧
    ((paged here).core 0).tlb.find? (fun f => f.covers 1 0x40_0000 && (f.dy || !accWrites .write)) = none ∧ (paged here).rootOf 0 0 = 0x70_0000 ∧
    (0x2000 : BitVec 64).getLsbD 13 = true ∧ here.regs.sdBusy = false ∧ (shooting []).regs.sdBusy = true ∧
    (∀ p ∈ (shooting [held 0x60_0000]).pins, inShootdown (shooting [held 0x60_0000]) p.page.va (2 ^ (12 + p.page.k)) = false) ∧
    (∃ p ∈ (shooting [held 0x40_0000]).pins, inShootdown (shooting [held 0x40_0000]) p.page.va (2 ^ (12 + p.page.k)) = true) := by
  decide +kernel

/-- A stream of the running task, in a paged address space. -/
def streaming (q : Stream) : State := (paged here).upd (fun c => c.setStream 3 q)

/-- A local generator, one whose bytes fill an entry, a global one, a tile fetch, a write stream with an entry, and a stream of tokens. -/
def generator : Stream := { Stream.reset with cfg := true, started := true, loc := true, base := 0x2000, rowlen := 512, count := 2, ext := 1 }
def filled : Stream := { generator with row := 1, pend := List.replicate 512 1, pendPoison := List.replicate 512 false, pendLines := List.replicate 512 0 }
def farther : Stream := { generator with kind := 1, loc := false, base := 0x40_0000 }
def tileFetch : Stream := { farther with kind := 2 }
def writing : Stream := { generator with kind := 5, entries := [⟨7, 0, 0, [], 0⟩] }
def tokens : Stream := { generator with kind := 4, kv := some ⟨false, 0, 1, 0, [0], 0, 0⟩ }

/-- Whether a read for a stream has its bytes, has to wait, or faults with a cause. -/
def got (g : Got × State) : Bool := match g.1 with
  | .ok _ _ _ => true
  | _ => false
def waits (g : Got × State) : Bool := g.1 == .wait
def faulted (g : Got × State) (c : Byte) : Bool := match g.1 with
  | .fault d _ => c == d
  | _ => false

/-- Streams that pack, read and drain (StreamsAtWork). -/
theorem witness_generators : (streaming filled).streamRuns 0 0 3 [0, 1, 3] = true ∧ ((streaming filled).ctx 0 0).boundDone filled = true ∧
    filled.canPack = true ∧ ((streaming filled).packEntry 0 0 3).isSome = true ∧ generator.canPack = false ∧ generator.wantsRow = true ∧
    got ((streaming generator).streamGet 0 0 3 0x2000 512) = true ∧ got ((streaming farther).streamGet 0 0 3 0x40_0000 512) = true ∧
    ((generator.rowAt 0 + 0).toNat = 0xFFFF_FFFF_0000_2000 ∨ generator.rowAt 0 = 0x2000) ∧ (streaming writing).drainReady 0 0 3 = true ∧
    localOf (writing.rowAt 0 + .ofNat 64 writing.off) = some 0x2000 ∧ (streaming writing).localFault 0 0 0x2000 512 = none ∧
    ok ((streaming farther).globalStore 0 0 0x40_0000 (List.replicate 512 0) []).1 = true := by decide +kernel

/-- A tile fetch, whose page and lines are pinned, and which waits while its page is being shot down, and an entry whose scale bytes have to
wait (StreamsAtWork). -/
theorem witness_tile_fetch : (streaming tileFetch).streamRuns 0 0 3 [2] = true ∧ tileFetch.canPack = false ∧ tileFetch.wantsRow = true ∧
    got ((streaming tileFetch).streamGet 0 0 3 0x40_0000 512) = true ∧
    waits (((streaming tileFetch).updRegs (fun g => { g with sdBusy := true, sdva := 0x40_0000, sdnp := 512 })).streamGet 0 0 3 0x40_0000 512) = true ∧
    (let q := { filled with scl := true, base := 0x2000, soff := 0x800, sstr := 1 }
     ((streaming q).packEntry 0 0 3).isSome = true ∧
       (((streaming q).reserve 0 ((streaming q).banksOf 0 0 0x2800 1) true).packEntry 0 0 3).isSome = false) := by decide +kernel

/-- A write stream to global memory, a stream of tokens, a halted stream and a row that faults (StreamsAtWork). -/
theorem witness_streams_more : (streaming { farther with kind := 5, entries := [⟨7, 0, 0, [], 0⟩] }).drainReady 0 0 3 = true ∧
    (streaming tokens).streamRuns 0 0 3 [4] = true ∧ ((streaming tokens).kvFill 0 0 3).isSome = true ∧ generator.scl = false ∧
    (let s := streaming { farther with base := 0x2000_0000_0000 }
     faulted (s.streamGet 0 0 3 0x2000_0000_0000 512) 0x40 = true ∧ (s.globalBytes 0 0 0x2000_0000_0000 512).2.action (classOf 0x40) 2 < 3 ∧
       ((s.streamGet 0 0 3 0x2000_0000_0000 512).2.ctx 0 0).stream 3 = { farther with base := 0x2000_0000_0000 }) ∧
    (streaming { generator with halt := true }).me.stream 3 = { generator with halt := true } := by decide +kernel

/-- A KV operation that was sent and one whose operands are refused (KvUnit). -/
theorem witness_kv_unit : (let s := With (fun c => { c with blocked := .kv (.kvnew (r 4) (r 5) 0) 0 0, kv := .sent 0x10000 (.kvnew (r 4) (r 5) 0) 0 0 })
     s.me.kv = .sent 0x10000 (.kvnew (r 4) (r 5) 0) 0 0 ∧ s.me.log = [] ∧
     s.reserved 0 (s.banksOf 0 0 ((localOf 0).getD 0) (kvLocal (.kvnew (r 4) (r 5) 0)).1) = false) ∧
    ((paged here).kvRun 0 0 (.kvnew (r 4) (r 5) 0) 0x40_0000 0).isSome = true := by decide +kernel

/-- The ferry command of the record above, at the head of queue 1. -/
def ferrying (f : FerryCmd) : State := With (fun c => c.setFerryQ 1 { Queue.reset with entries := [.ferry f] })

/-- A command to start, one to continue, a follow-on to hand over, a halted queue and a copy of two rows (FerryWork). -/
theorem witness_ferry : (ferrying (ferryOf ferry)).ferryReady 0 1 = true ∧ (ferrying { ferryOf ferry with started := true }).ferryReady 0 1 = true ∧
    (ferrying (ferryOf ferry)).me.ferryHead 1 = some (ferryOf ferry) ∧
    (ferrying { ferryOf ferry with handing := true, mword := 0x3100_0000 }).followReady 0 1 = true ∧
    ((ferrying (ferryOf ferry)).upd (fun c => c.setFerryQ 1 { c.ferryQ 1 with halt := true })).me.ferryHead 1 = some (ferryOf ferry) ∧
    (let f := { ferryOf ferry with nrows := 2, sstr := 64, dstr := 64 }
     f.sloc = true ∧ f.dloc = true ∧ f.gather = false ∧ f.bound = false ∧ f.mcast = 0 ∧ f.owed = [] ∧ f.bar = 0 ∧ f.row + 1 < f.nrows ∧
       rowAddr f.src f.sstr f.row = 0x2000 ∧ here.localFault 0 0 0x2000 64 = none ∧ windowOf 0x3000 = 0) := by decide +kernel

/-- The follow-on of that command is a `zzero`, which has no bad operand (FerryWork). -/
theorem witness_follow_on : (∃ e t p, decodeWord ((0x3100_0000 : BitVec 32).toNat % 2 ^ 31) = .ok (.zzero e t p)) ∧
    here.matrixBad 0 0 (.zzero false 0 0) 0 0 [] true = none := ⟨⟨false, 0, 0, by decide +kernel⟩, by decide +kernel⟩

/-- The matrix queue's entry for a `tmma.z` of the operands above, and the unit at work on it. -/
def tileEntry : UnitEntry := tiled.matrixEntry 0 0 0x3000_0814 (.tmmaZ ⟨0, r 4, r 5, 0⟩) 0x0901_0000 0x0902_0000 [] false
def waitingTile : State := { (tiled.upd (fun c => { c with mq := [tileEntry] })) with cycle := 1 }
def working (m : MatrixBusy) : State := { tiled.updCore 0 (fun k => { k with matrix := some m }) with cycle := 1 }
def busyTile : MatrixBusy := ⟨0, tileEntry, 0, 1, 0, 0, [], Panel.empty, Panel.empty⟩

/-- An instruction that may start, a step whose panels are to be gathered, and one that may start within the ramp (MatrixWork). -/
theorem witness_matrix : waitingTile.matrixCanStart 0 = true ∧ waitingTile.nextMatrix 0 = some 0 ∧
    waitingTile.startBad 0 0 tileEntry.instr tileEntry = none ∧
    (match (working busyTile).unitNext busyTile with | .gatherA _ _ => true | _ => false) = true ∧
    (match (working busyTile).unitNext { busyTile with pa := { Panel.empty with full := true } } with | .gatherB _ _ => true | _ => false) = true ∧
    (match (working busyTile).unitNext { busyTile with pa := { Panel.empty with full := true }, pb := { Panel.empty with full := true } } with
      | .step _ _ => true | _ => false) = true ∧
    (working busyTile).warmHeld 0 0 = false ∧ (working busyTile).rampFits 0 8 false = true := by decide +kernel

/-- Gathering the A panel gets somewhere (MatrixWork). -/
theorem witness_gather : (match (productOf tileEntry.instr), (working busyTile).unitNext busyTile with
    | some f, .gatherA _ u => (match (working busyTile).gatherA 0 busyTile f u with | .more _ _ => true | _ => false)
    | _, _ => false) = true := by decide +kernel

/-- Instructions that are done, dummy steps that are wanted and a window that is over (MatrixWork). -/
theorem witness_matrix_done : (working { busyTile with step := 1 }).matrixDone 0 = true ∧
    (working { busyTile with entry := tiled.matrixEntry 0 0 0x3100_0000 (.zzero false 0 0) 0 0 [] false, step := 1 }).matrixDone 0 = true ∧
    (working { busyTile with entry := tiled.matrixEntry 0 0 0x3100_0000 (.zld true 0 (r 7) 0) 0x8000 0 [] false, step := 64 }).matrixDone 0 = true ∧
    (let s := { here.updRamp 0 (fun q => { q with last := 2000 }) with cycle := 1900 }
     s.dummyWanted 0 = true ∧ s.dummyUnit 0 = true) ∧
    ({ here.updRamp 0 (fun q => { q with count := 8 }) with cycle := 1900 }).windowOver 0 = true := by decide +kernel

/-- An array instruction that may start, ones that are done, and a check that is due (CrossbarWork). -/
def xbarEntryOf (i : Instr) (a b : Word) : UnitEntry := tiled.xbarEntry i a b
def waitingArray : State := { (tiled.upd (fun c => { c with xq := [xbarEntryOf (.xload ⟨3, r 7, r 0, 0⟩) 0x8000 5] })) with cycle := 1 }
def workingArray (i : Instr) (a b : Word) : State :=
  tiled.updArray 3 (fun y => { y with busy := some (tiled.xbarBusy 0 0 i (xbarEntryOf i a b)) })

theorem witness_array : waitingArray.nextXbar 0 = some 0 ∧
    waitingArray.xbarStartBad 0 0 (.xload ⟨3, r 7, r 0, 0⟩) (xbarEntryOf (.xload ⟨3, r 7, r 0, 0⟩) 0x8000 5) = none ∧
    ({ workingArray (.xcalLdsc ⟨3, r 7, 0⟩) 0x8000 0 with cycle := 100000 }).xbarDone 0 3 = true ∧
    ({ workingArray (.xver ⟨3, r 7, r 0, 0⟩) 0x8000 0 with cycle := 100000 }).xbarDone 0 3 = true ∧
    ({ workingArray (.xmv 1 ⟨3, r 7, r 7, 0⟩) 0x8000 0x9000 with cycle := 100000 }).xbarDone 0 3 = true ∧
    ((workingArray (.xmv 1 ⟨3, r 7, r 7, 0⟩) 0x8000 0x9000).updArray 3 (fun y => { y with
        busy := y.busy.map (fun b => { b with fallback := true }) })).fallbackReady 0 3 = true ∧
    ({ here.updRegs (fun g => { g with xdriftp := [(0, 1000)], hwUp := true }) with cycle := 2000000 }).tideReady 0 = true := by decide +kernel

/-- Tide counts that pass, one that fails, and columns that do not clip (CrossbarWork). -/
theorem witness_tide : (∀ i < 64, ((List.range 64).map (fun t => 16 * (4 * (t % 4) + 3))).getD i 0 ≤ 16 * (4 * (i % 4) + 3) + 1) ∧
    16 * 3 + 1 < (List.replicate 64 50).getD 0 0 ∧ here.action 8 5 < 4 ∧ coreShoal 0 = 0 ∧
    (∀ g k, g < 256 / 16 → k < 8 → idealCount (XArray.reset.committed 0) (List.replicate 256 (-1)) 16 g k ≤ 511) := by
  refine ⟨by decide +kernel, by decide +kernel, by decide +kernel, by decide +kernel, ?_⟩
  have h : ∀ g < 16, ∀ k < 8, idealCount (XArray.reset.committed 0) (List.replicate 256 (-1)) 16 g k ≤ 511 := by decide +kernel
  exact fun g k hg hk => h g hg k hk

/-- Links that are up, down and enabled, and windows with and without rights (LinksAndWindows). -/
def linked : State := (here.updRegs (fun g => { g with route := [(9, 4)] })).updLink 2 (fun l => { l with en := true, up := true, far := 9 })
theorem witness_links : linked.portCarries 2 = true ∧ (8 : BitVec 16).toNat ≤ 8 ∧ (linked.link 2).en = true ∧ (linked.link 2).up = true ∧
    ((here.updLink 2 (fun l => { l with en := true })).link 2).up = false ∧ bits (0x0001_0000_0000_0000 : Word).toNat 55 48 ≠ 0 ∧
    bits (0x4000 : Word).toNat 55 48 = 0 ∧ (here.fwin 0).testBit 118 = false := by decide +kernel

/-- A window whose bytes a read and a write reach (LinksAndWindows): base 0x40_0000, 2 MiB, read and write, address space 1. -/
def windowed : State := (paged here).updRegs (fun g => { g with
  fwin := [(0, .ofNat 128 (0x40_0000 + 2 ^ 64 * (0x20_0000 + 2 ^ 40 + 2 ^ 52 + 2 ^ 53 + 2 ^ 54)))] })

/-- A put of two pieces to a window of this device, started, at the head of queue 0; one to another device. -/
def putCmd : SoundCmd := { soundOf 0 putRecord with started := true }
def sounding (c : SoundCmd) : State := With (fun k => k.setSoundQ 0 { Queue.reset with entries := [.sound c] })

/-- Transfers to this device, to one that is out of reach and to a neighbour, an acknowledgement, a timeout and a halted head
(SoundTransfers). -/
theorem witness_sound : (sounding putCmd).soundReady 0 0 0 = true ∧ (sounding putCmd).me.soundHead 0 = some putCmd ∧ putCmd.lloc = true ∧
    putCmd.target = here.devid ∧ (sounding { putCmd with peer := 9 }).soundReady 0 0 0 = true ∧
    (sounding { putCmd with peer := 9 }).reaches 9 = false ∧ ({ putCmd with peer := 9 } : SoundCmd).target = 9 ∧
    (sounding { putCmd with row := 1, sent := true, peer := 9 }).ackReady 0 0 0 = true ∧ putCmd.bar = 0 ∧
    ({ sounding putCmd with cycle := 19000000 }).regs.ftimeout.toNat * 1900 ≤ 19000000 ∧ (sounding putCmd).collOf 0 0 0 = none ∧
    putCmd.kind < 2 ∧ putCmd.row < putCmd.nrows ∧ putCmd.owed = 0 := by decide +kernel

/-- Windows that a read, a write and a put reach (LinksAndWindows, SoundTransfers). -/
def opens (p : PinnedAll) : Bool := match p with
  | .ok _ => true
  | _ => false
theorem witness_windows : opens (windowed.windowAt 0 0x100 64 .read).1 = true ∧ opens (windowed.windowAt 0 0x100 64 .write).1 = true ∧
    (match (windowed.windowAt 0 0x100 16 .atomic).1 with | .ok [_] => true | _ => false) = true ∧
    ((windowed.updRegs (fun g => { g with sdBusy := true, sdva := 0x40_0000, sdnp := 1 })).windowAt 0 0x100 64 .read).1 = .wait ∧
    winOf 0x3000 = 0 ∧ bits (0x100 : Word).toNat 47 0 % 16 = 0 ∧ bits (0x108 : Word).toNat 47 0 % 16 ≠ 0 ∧
    opens (windowed.windowWrite (winOf 0x3000) 0x3000 (List.replicate 64 1, List.replicate 64 false)).1 = true ∧
    bits (windowed.fwin 0) 103 64 < 0x1F_FFFF + 2 := by decide +kernel

/-- A sum over group 5, at the head of queue 0, to join; one that every rank has joined; one whose result is there; an all-to-all. -/
def sumCmd : SoundCmd := { soundOf 2 collRecord with group := [0] }
def joining : State := local6.upd (fun k => k.setSoundQ 0 { Queue.reset with entries := [.sound sumCmd] })
def member : Member := ⟨0, 1, 0, 0, sumCmd, []⟩
def collOfOne : Coll := ⟨5, 1, [0], [member], none, [], [], false, 0⟩
def collective (c : Coll) : State := { joining with colls := [c] }
def exchanging : Coll := { collOfOne with members := [{ member with cmd := { soundOf 3 a2aRecord with group := [0] } }], result := some ([], 0) }

/-- The first result row of the collective's only member, written in a state. -/
def resultRow (s : State) : PinnedAll :=
  (s.writeResultRow member (rowAddr sumCmd.raddr sumCmd.rstr 0) (List.replicate 64 1, List.replicate 64 false)).1

/-- Collectives at each stage (Collectives). -/
theorem witness_collective_stages : joining.joinReady 0 0 0 = true ∧ joining.me.soundHead 0 = some sumCmd ∧ sumCmd.lloc = true ∧ joining.colls = [] ∧
    joining.rankId 0 ∈ sumCmd.group ∧ sumCmd.group = [0] ∧ joining.devid = 0 ∧
    (collective collOfOne).waitingColl 5 1 = some 0 ∧ (collective collOfOne).memberAlive member = true ∧
    membersAgree member.cmd member.cmd = true ∧ (collective collOfOne).ownRanks collOfOne = List.range collOfOne.ranks.length ∧
    (collective collOfOne).allJoined collOfOne = true ∧
    (let c := { collOfOne with result := some ([], 0) }
     (collective c).dueAt 0 5 1 true = none ∧ (collective c).dueAt 0 5 1 false = some (0, c, member)) ∧ sumCmd.root = false ∧
    (let c := { collOfOne with result := some ([], 0), members := [member.owing 64] }
     (collective c).dueAt 0 5 1 true = some (0, c, member.owing 64)) ∧ (joining.ctx 0 0).task = some probeTask ∧
    (∀ d ∈ (collective collOfOne).colls, ∀ k ∈ d.members, ((collective collOfOne).placeOf k.launch k.task).isSome = true) ∧
    opens (resultRow (collective { collOfOne with result := some ([(List.replicate 64 1, List.replicate 64 false)], 0) })) = true ∧
    (collective exchanging).blockFor 5 1 0 0 = some 0 ∧ exchanging.members.find? (fun k => k.rank == 0) ≠ none := by decide +kernel

/-- Every rank of its group is of this device or can be reached (Collectives). -/
theorem witness_reach : ∀ e ∈ sumCmd.group, e.toNat % 256 = joining.devid ∨ joining.reaches (e.toNat % 256) = true := by
  intro e he
  rw [show sumCmd.group = [0] by decide +kernel, List.mem_singleton] at he
  exact .inl (he ▸ by decide +kernel)

/-- A block of that all-to-all that reaches its window (Collectives). -/
theorem witness_block : (landRows 0 0 [(0x3000, (List.replicate 64 1, List.replicate 64 false))] windowed).1 = .all ∧
    (landRows 0 0 [(0x3000, (List.replicate 64 1, List.replicate 64 false)), (0x20_0000, (List.replicate 64 1, List.replicate 64 false))]
      windowed).1 = .refused 1 := by decide +kernel

/-- Queue 1 at QTBASE 0x50_0000: at 0x40_0000 a ring of 2 records in address space 1, enabled, with record 0 placed and PEND set. -/
def queued : State :=
  let s := (paged State.reset).updRegs (fun g => { g with qtbase := 0x50_0000, booted := true })
  let s := { s with launches := [], slotsMapped := [(0, 1)] }
  (s.homeStore 0x50_0040 (record 64 [(0, 0x40_0000), (8, 1), (0x0A, 1), (0x0C, 1), (0x14, 0x101), (0x18, 0x70_0000)])).homeStore 0x40_0000 record15

/-- A queue to notify, a slot that has work, a record to take, a pass and a decision that are due (QueuesAndDistributor). -/
theorem witness_queues : queued.regs.qtbase.toNat % 64 = 0 ∧ queued.queueAt 1 0x14 < 2 ^ 39 ∧ queued.slotReady 0 = true ∧
    queued.queueHead 1 ≠ queued.queueTail 1 ∧ queued.regs.fatal = false ∧ ({ queued with cycle := 19000 }).sched.due ≤ 19000 ∧
    ({ queued with sched := { Sched.reset with taking := [(0, 1)] } }).takingSlot 0 = some (0, 1) ∧ ok (queued.headRecord 1).1 = true ∧
    (match (queued.headRecord 1).1 with | .ok q => (queued.recordBad q).isNone | .error _ => false) = true ∧ queued.intakeFull 0 = false ∧
    ({ here with launches := [(1, { probeLaunch with state := .accepted })] }).nextDecision = some (.note 1) := by decide +kernel

/-- A launch that has waited too long, a timed one within its lead, and one of 30 tiles on two lines (QueuesAndDistributor, TaskStart). -/
theorem witness_launches : (let l := { probeLaunch with state := .accepted, eligibleAt := some 0 }
      l.aged = false ∧ 0 + 1900 * here.regs.age.toNat < 19000000 ∧ l.lead = false) ∧
    here.leadReached { probeLaunch with rcd := { probeLaunch.rcd with start := 20000 } } = true ∧ (0 : Nat) < probeLaunch.lines := by decide +kernel

/-- Victims at a save point and after 16,384 cycles, one to save, one saved to resume, to give back or to kill, and an island in reset
(SaveEvents). -/
def stopped : State := With (fun c => { c with save := .stopped 0, area := some 0x80_0000 })
def savedOne (e : Bool) : Saved := ⟨1, probeTask, 0, true, 0, 0x80_0000, 0x10_0000, here.me, e⟩
theorem witness_saves : (With (fun c => { c with save := .awaited 0, blocked := .drains })).me.save = .awaited 0 ∧ here.regs.pfActive = false ∧
    0 + 16384 ≤ ({ here with cycle := 16384 }).cycle ∧ stopped.saveDrained 0 0 = true ∧ 0x80_0000 + probeTask.areaRounded ≤ 2 ^ 39 ∧
    (∀ f ∈ stopped.me.flight, f.left ≠ 0) ∧
    ([savedOne false] : List Saved).find? (fun v => v.launch == 1 && v.task.task == 0) = some (savedOne false) ∧
    ([savedOne true] : List Saved).find? (fun v => v.launch == 1 && v.task.task == 0 && v.escalated) = some (savedOne true) ∧
    here.me.save = .no ∧ here.action 12 0 < 3 ∧
    ((here.updIsland 3 (fun q => { q with resetting := true })).island 3).resetting = true := by decide +kernel

/-- A saved task that is resumed next (SaveEvents). -/
theorem witness_resume : (let s := { here with ctxs := [], saved := [savedOne false] }
    match s.nextDecision with | some (.resume 1 0 _) => true | _ => false) = true := by decide +kernel

/-- Sections of an area that do not overlap: bytes that hold them all are those of an area written (AreaRestores). -/
theorem witness_area : (let p := (here.areaFixed 0 0 0 here.me probeTask).map (fun e => (e.1, e.2.length))
    (List.range 14).all (fun k => decide ((p.getD k (0, 0)).1 + (p.getD k (0, 0)).2 ≤ (p.getD (k + 1) (0, 0)).1)) &&
      decide (p.length = 15) && decide (here.me.rand.words.length ≤ 4) && decide (here.me.epc &&& 15 = 0)) = true := by decide +kernel

/-- A port that runs with a frame to send and buffers to fill, and a stamp to read (TimeAndEthernet). -/
def ported : State :=
  (here.updEth 1 (fun e => { e with ctl := 1, up := true, txbase := 0x9000, rxbase := 0xA000, txtail := 1, rxtail := 1, stamps := [5] })).homeStore
    0x9000 (record 16 [(0, 0xB000), (8, 64), (10, 1)]) |>.homeStore 0xA000 (record 16 [(0, 0xC000), (8, 128)])
theorem witness_ports : (ported.nextFrame 1).isSome = true ∧ (ported.eth 1).runs = true ∧ (here.eth 1).runs = false ∧
    (ported.putFrame 0xA000 4096 0 1 (List.replicate 64 1)).isSome = true ∧ (ported.eth 1).stamps = [5] ∧ (here.eth 1).stamps = [] ∧
    ({ ported.updRegs (fun g => { g with tsen := 2 }) with cycle := 1 }).regs.tsen.getLsbD 1 = true := by decide +kernel

/-- Causes of fatal faults and of others, and the states of power, recovery and image (SurroundingsEvents, PowerEvents). -/
theorem witness_power : here.repl 0 0 = false ∧ here.action 0 0 = 1 ∧ here.action 2 0 = 2 ∧ here.repl 2 0 = true ∧
    (here.updRegs (fun g => { g with fatal := true })).regs.jready = false ∧ here.regs.fatal = false ∧ here.regs.pfDone = false ∧
    (here.updRegs (fun g => { g with pfActive := true })).regs.pfActive = true ∧ (∀ e ∈ State.reset.ctxs, e.2.task = none) ∧
    (here.updRegs (fun g => { g with pfDone := true })).regs.warning = false ∧
    (here.updRegs (fun g => { g with imgvalid := true })).regs.taken = false := by decide +kernel

/-- A failure that waits, with the agents to act, and a result that is due and whose check can fail, where the severity matrix leaves the trap
to the context (SurroundingsEvents). -/
def failing : State :=
  { (With (fun c => { c with flight := [⟨0, 4, .v 5, some 2, 7, allLanes, 0⟩] })).updRegs (fun g => { g with sevc := [(6, 0)] }) with
    chances := [.result 0 0 0 0x29], evTurn := true }
theorem witness_chances : failing.agenda = [] ∧ failing.evTurn = true ∧ failing.chances = [.result 0 0 0 0x29] ∧ failing.action 6 0 < 3 ∧
    ((failing.ctx 0 0).flight[0]?).any (fun f => f.left == 0 && checkFits 0x29 f) = true ∧
    (∀ g ∈ (failing.ctx 0 0).flight.eraseIdx 0, g.left = 0 → g.dest ≠ .v 5) ∧ (511 < 512 ∧ 3 < 4 ∧ 63 < 64 ∧ 7 < 8) := by decide +kernel

/-- R59, R327: a poisoned register that a slot reads leaves its destination unwritten; a failed check traps with the register's code. -/
theorem test_chances : ((failing.chance (.bits (.vreg 0 0 41 3) true)).operandBad ⟨true, false, 41⟩ = true) ∧
    (failing.chance (.result 0 0 0 0x29)).readV 0 0 5 = failing.readV 0 0 5 ∧
    ((failing.chance (.result 0 0 0 0x29)).ctx 0 0).ecause.toNat % 256 = 0x29 := by decide +kernel

/-- Boot to do and done, and room at ATTBUF (BootAndAttestation). Whether an image is accepted rests on keys and signatures that the spec
leaves uninterpreted, so no state can be shown to hold one; both answers are covered. -/
theorem witness_boot : State.reset.regs.booted = false ∧ (here.updRegs (fun g => { g with booted := true })).regs.booted = true ∧
    here.attRoom 32 = true ∧ here.attRoom 2732 = true ∧ here.attRoom 1312 = true ∧ 3 ≤ (7 : BitVec 3).toNat ∧ 5 ≤ (5 : BitVec 3).toNat ∧
    (∀ b : List Byte, imageAccepted b = true ∨ imageAccepted b = false) := by
  and_intros <;> first | decide +kernel | exact fun b => Bool.eq_false_or_eq_true (imageAccepted b)

/-- A sector in the cache of the application cores with a byte written (HostAccesses). -/
def cached : State := here.appStore 0x1000 [7]
theorem witness_cached : (mfind cached.appCache (0x1000 / 64)).any (fun e => e.dirty == 1) = true ∧ cached.appCache.length + 2 ≤ 524288 ∧
    here.appCache.length + 2 ≤ 524288 ∧ 0x1038 % 64 + 8 ≤ 64 := by decide +kernel

/-- R363: what an application core stores reaches the home slice with `cbo.clean`. -/
theorem test_app_cache : (cached.homeBytes 0x1000 1).1 = [0] ∧ cached.appBytes 0x1000 1 = [7] ∧
    ((cached.appClean (0x1000 / 64)).homeBytes 0x1000 1).1 = [7] := by decide +kernel

/-- Addresses that memory backs and does not, and register offsets at both ends (HostAccesses). -/
theorem witness_host : backed 0 = true ∧ backed (2 ^ 39 - 8 + 8 - 1) = true ∧ backed (2 ^ 39 - 4) = true ∧ backed (2 ^ 39 - 4 + 8 - 1) = false ∧ backed (0x1000 + 64 - 1) = true ∧ backed (2 ^ 48) = false ∧
    0x1F8 % 8 = 0 ∧ 0x1F8 < 0x200 ∧ 0x1F8 ≠ 0xB8 ∧ (∃ k < 16, 0x0200 + 8 * k = 0x278) := by
  and_intros <;> decide +kernel

/-! ## States for the machine as a whole -/

/-- Instructions of the round trip and of the frame of computations, with their forms (RoundTrip, ComputationFrame, SlotChecks). -/
theorem witness_round_trip : encode (.vfmul ⟨true, 0, true, r 41, pop 2, 0⟩) = some 0x59015348 ∧
    (Instr.vfmul ⟨true, 0, true, r 41, pop 2, 0⟩).wf = true ∧ (rich.form (.vcvt v1 0 true 0)).cls = .c ∧
    (rich.form (.vcvt v1 0 true 0)).sr = true ∧ (rich.form (.add s3)).cls = .a ∧ rich.slotCheck (rich.form (.vcvt v1 0 true 0)) = .commit := by decide +kernel

/-- Slots that fail each check (SlotChecks). -/
theorem witness_slot_checks : (viewOf (.vcmp ⟨false, 7, 1, false, r 1, r 2, 0⟩)).encOk = false ∧
    (viewOf (.add ⟨false, 1, false, r 32, r 2, 0⟩)).sources.any (fun o => o.vec = false ∧ o.m = false ∧ 32 ≤ o.f) = true ∧
    (viewOf (.add ⟨false, 1, false, ⟨true, 8⟩, r 2, 0⟩)).sources.any (fun o => !o.modeOk) = true ∧
    rich.slotCheck (viewOf (.add ⟨true, 0, true, r 6, r 7, 0⟩)) = .trap 5 0x05 none 0 0 ∧
    here.slotCheck (viewOf (.add ⟨false, 5, false, lat 0, r 2, 0⟩)) = .trap 9 0x08 none 0 0 ∧
    (With (fun c => { c with flight := List.replicate 24 { due with lat := 4, left := 4 } })).slotCheck (viewOf (.vfadd v3)) = .trap 10 0x09 none 0 0 ∧
    here.slotCheck (viewOf (.add ⟨false, 5, false, pop 3, r 2, 0⟩)) = .trap 11 0x0D none 0 0 := by decide +kernel

/-- A stream that is readable and empty blocks its slot (RegistersAndSources, SlotChecks). -/
theorem witness_empty_stream : (let s := With (fun c => { c with streams := [(3, { opened with entries := [] })] })
    (s.me.stream 3).readable = true ∧ (s.me.stream 3).entries = [] ∧
      s.slotCheck (viewOf (.add ⟨false, 5, false, pop 3, r 2, 0⟩)) = .block (.stream 3)) := by decide +kernel

/-- Memory in its form, stores in the allocation at both ends, and an agenda that the surroundings can ask for (MemoryForm, LocalStores,
SafeRuns, AgendaInvariant). -/
theorem witness_invariants : Mem.wf here.mem ∧ Mem.wf State.reset.mem ∧ here.localFault 0 0 0 1 = none ∧ here.localFault 0 0 0x3FFFF 1 = none ∧
    windowOf 0x3FFFF = 0 ∧ ({ here with agenda := [.resultWrite 511 3, .powerWarning] }).agendaOk = true ∧ here.agendaOk = true := by
  decide +kernel

/-- A trap that a handler takes and one that escalates, and poison in and out of a region (TrapsAndReturns, RegionUnwind). -/
theorem witness_traps : here.action (classOf 0x0B) 0 < 3 ∧ (With (fun c => { c with tvec := 1 })).me.tvec.getLsbD 0 = true ∧
    here.me.hnd = false ∧ alwaysEscalates 0x0B = false ∧ here.me.tvec.getLsbD 0 = false ∧ here.action 5 0 < 3 ∧
    (With (fun c => { c with regions := [⟨[], 0, 0x4000, 9⟩] })).me.regions = [⟨[], 0, 0x4000, 9⟩] ∧ here.me.regions = [] := by decide +kernel

/-- A state whose next bundle holds `add s5, s6, s7` and three `nop`s. -/
def ready : State := State.reset.withFetchWord 32 0x000A0C1C

/-- Fetching there gives the four words (StepRunsDecoded). -/
theorem witness_fetch : ∃ u, Fetches ready u [0x000A0C1C, 0x08000000, 0x08000000, 0x88000000] := by
  have h : (match (({ ready with iss := Issue.start ready.me.pc [] 0 } : State).fetchBundle ready.me.pc).1 with
      | .ok l => l == [0x000A0C1C, 0x08000000, 0x08000000, 0x88000000]
      | .error _ => false) = true := by decide +kernel
  generalize hq : ({ ready with iss := Issue.start ready.me.pc [] 0 } : State).fetchBundle ready.me.pc = q at h
  obtain ⟨l | l, u⟩ := q
  · simp at h
  · refine ⟨u, ?_⟩
    unfold Fetches
    rw [hq, eq_of_beq h]
    and_intros <;> first | rfl | decide +kernel

/-- That bundle passes its checks, its agenda is empty and an event heads an agenda (StepRunsDecoded). -/
theorem witness_step : ready.agenda = [] ∧
    ({ ready with iss := Issue.start ready.me.pc [0x000A0C1C, 0x08000000, 0x08000000, 0x88000000] 1 }).bundleChecks
      (soleSlots (.add ⟨false, 5, false, r 6, r 7, 0⟩)) = [] ∧ isEvent .powerWarning = true ∧
    (viewOf (.add ⟨false, 5, false, r 6, r 7, 0⟩)).cls ≠ .none := by decide +kernel


/-! ## A pool of KV pages -/

/-- A live page entry: frame `f`, with references, pins and flags (R258). -/
def page (f refs pins flags : Nat) : CptE := ⟨f, refs, 1, flags, 127, 127, 0, pins, 0, 0⟩

/-- Pool 0 of the running launch at 0x40_1000: four pages, of which 2 and 3 are free, a hash of 16 buckets where `hash` says so, with
fields changed; page 1 has the given entry; the sequence at 0x40_0800 has the given fields and lists pages 0 and 1 (R257 to R260). -/
def pooled (hash : Bool) (changed : List (Nat × Nat)) (c : CptE) (seq : List (Nat × Nat)) : State :=
  let s := (paged local6).updLaunch 1 (fun l => { l with pooldir := 0x40_1000, poolcnt := 1 })
  let s := s.homeStore 0x40_1000 (record 64 ([(0, 0x40_2000), (8, 0x40_4000), (0x18, 4), (0x1C, 2), (0x20, 2), (0x25, 1)] ++
    (if hash then [(0x10, 0x40_3000), (0x24, 4)] else []) ++ changed))
  let s := s.homeStore 0x40_2000 ((page 0 1 0 1).bytes ++ c.bytes ++ { page 2 0 0 0 with flink := 3 }.bytes ++ (page 3 0 0 0).bytes)
  (s.homeStore 0x40_0800 (record 64 ([(8, 0x40_0900), (20, 1 + 256 * 4)] ++ seq))).homeStore 0x40_0900 (le 4 0 ++ le 4 1)

/-- That pool with 17 tokens in the sequence, the last of them in page 1 of one reference, and with 16. -/
def tail17 (c : CptE) : State := pooled true [] c [(0, 17), (4, 2)]
def full16 (hash : Bool) (flags : Nat) : State := pooled hash [] (page 1 1 0 1) [(0, 16), (4, 1), (20, flags)]

/-- The environment of the running context. -/
def kvHere (s : State) : KvEnv := s.kvEnv 0 0

/-- An operation of the unit has a value that meets a test; it raises a cause. -/
def yields {α : Type} (m : KvM α) (s : State) (p : α → State → Bool) : Bool := match m s with
  | .ok (v, t) => p v t
  | .error _ => false
def raises {α : Type} (m : KvM α) (s : State) (c : Byte) : Bool := match m s with
  | .ok _ => false
  | .error (d, _) => c == d

/-- The pool of that state, and its page 1, live with the numbers that it has. -/
def onPage (s : State) (p : PoolD → CptE → Bool) : Bool :=
  yields (readPool (kvHere s) 0 >>= fun q => readCpt (kvHere s) q 1 >>= fun c => pure (q, c)) s (fun v _ => p v.1 v.2 && decide (1 < v.1.npages))

/-- Page entries of every kind (KvUnit): free, without references, with several, with one and no pins, with one and pins, with all the
references there can be, deferred, and with all the pins there can be. -/
theorem witness_kv_pages : onPage (tail17 (page 1 0 0 0)) (fun _ c => !c.alloc) = true ∧
    onPage (tail17 (page 1 0 0 1)) (fun _ c => c.alloc && c.refs == 0) = true ∧
    onPage (tail17 (page 1 2 0 1)) (fun _ c => c.alloc && c.refs == 2) = true ∧
    onPage (tail17 (page 1 1 0 1)) (fun _ c => c.alloc && c.refs == 1 && c.pins == 0 && !c.pub && !c.defer) = true ∧
    onPage (tail17 (page 1 1 3 1)) (fun q c => c.alloc && c.refs == 1 && c.pins != 0 && q.ndefer != 0xFFFF_FFFF) = true ∧
    onPage (pooled true [(0x28, 0xFFFF_FFFF)] (page 1 1 3 1) []) (fun q c => c.alloc && c.refs == 1 && c.pins != 0 && q.ndefer == 0xFFFF_FFFF) = true ∧
    onPage (tail17 (page 1 65535 65535 1)) (fun _ c => c.alloc && c.refs == 65535 && c.pins == 65535) = true ∧
    onPage (tail17 (page 1 0 1 5)) (fun q c => c.alloc && c.refs != 65535 && c.defer && q.ndefer == 0) = true ∧
    onPage (pooled true [(0x28, 1)] (page 1 0 1 5) []) (fun q c => c.alloc && c.refs != 65535 && c.defer && q.ndefer != 0 && c.pins != 65535) = true := by
  decide +kernel

/-- The pool descriptor with fields changed meets a test. -/
def onPool (l : List (Nat × Nat)) (p : PoolD → State → Bool) : Bool :=
  let s := pooled true l (page 1 1 0 1) []
  yields (readPool (kvHere s) 0) s p

/-- Pools to allocate from, and pools that have no free page, or whose free list is bad (KvUnit). -/
theorem witness_kv_alloc : (onPool [] (fun q t => q.nfree != 0 && decide (q.freehead < q.npages) && yields (readCpt (kvHere t) q q.freehead) t (fun c _ => !c.alloc && !c.defer)) = true ∧
    onPool [(0x20, 2 ^ 32 - 2)] (fun q _ => q.nfree == 0) = true ∧
    onPool [(0x1C, 5)] (fun q _ => q.nfree != 0 && decide (q.npages ≤ q.freehead)) = true) ∧
    (let s := pooled true [(0x20, 2 ^ 32 - 1), (0x1C, 2 ^ 32 - 1)] (page 1 1 0 1) []
     yields (readPool (kvHere s) 0) s (fun q t => q.nfree != 0 && q.freehead == 1 && yields (readCpt (kvHere t) q 1) t (fun c _ => c.alloc)) = true) := by
  decide +kernel

/-- Sequences for `kvnew`, one of them in use, a page to take a reference on, and operations sent, refused and waiting (KvUnit). -/
theorem witness_kv_new : (let s := tail17 (page 1 1 0 1)
    yields (kvRead (kvHere s) 0x40_0800 64) s (fun b t => (seqOf b).flagsOk && (seqOf b).plist.toNat % 4 == 0 && field b 56 8 == 0 &&
      (seqOf b).sflags % 2 == 1 && (seqOf b).npg == 2 && yields (readPool (kvHere s) 0) t (fun _ _ => true)) = true ∧
    yields (kvRead (kvHere s) 0x40_0A00 64) s (fun b t => (seqOf b).flagsOk && (seqOf b).sflags % 2 == 0 &&
      yields (readPool (kvHere s) 0) t (fun _ _ => true)) = true ∧
    (0x4_0000_0000 : Word).toNat % 2 ^ 32 < (kvHere s).cnt ∧ (0x4_0000_0000 : Word).toNat / 2 ^ 32 ≤ 24 ∧
    (match s.kvRun 0 0 (.kvnew (r 4) (r 5) 0) 0x40_0A00 0x4_0000_0000 with | some (.ok _) => true | _ => false) = true ∧
    (match s.kvRun 0 0 (.kvnew (r 4) (r 5) 0) 0x40_0800 0x4_0000_0000 with | some (.error (c, _)) => c == 0x85 | _ => false) = true ∧
    (let t := (holding s 0x1000 (record 16 [(0, 0), (4, 17)])).updRegs (fun g => { g with sdBusy := true, sdva := 0x40_0000, sdnp := 512 })
     (t.kvRun 0 0 (.kvstrm ⟨3, r 4, r 5, 0⟩) 0x40_0800 (gen 0x1000)).isNone = true)) := by decide +kernel

/-- The page that holds the sequence's 17th token meets a test. -/
def onTail (c : CptE) (p : CptE → Bool) : Bool :=
  let s := tail17 c
  yields (readSeq (kvHere s) 0x40_0800) s (fun v t => v.1.length % 16 == 1 && yields (listPage (kvHere s) v.1 1) t (fun g u =>
    g == 1 && yields (livePage (kvHere s) v.2 g) u (fun c _ => p c)))

/-- The sequence has 17 tokens, the last in a page of its own, in one that is shared, or in one that is pinned (KvUnit). -/
theorem witness_kv_tail : onTail (page 1 1 0 1) (fun c => decide (c.refs ≤ 1) && c.pins == 0) = true ∧
    onTail (page 1 2 0 1) (fun c => decide (2 ≤ c.refs)) = true ∧ onTail (page 1 1 1 1) (fun c => c.pins != 0) = true ∧
    (List.range 256).all (fun i => bits (field (List.replicate 8 0x3F) (4 * i) 4) 30 23 != 255) = true ∧
    (let s := tail17 (page 1 2 0 1)
     yields (readSeq (kvHere s) 0x40_0800) s (fun v t => yields (kvAlloc (kvHere s) v.2) t (fun g u =>
       g.1 == 2 && yields (kvRead (kvHere s) (v.2.frame + 4096) 128) u (fun _ w => yields (kvRead (kvHere s) (v.2.frame + 4096 + 0x800) 128) w (fun _ _ => true)))) =
      true) := by decide +kernel

/-- A sequence of 16 tokens, which the next starts a page, with room in its list and without, and with a number that is not finite
(KvUnit). -/
theorem witness_kv_fresh : (let s := full16 true 0
    yields (readSeq (kvHere s) 0x40_0800) s (fun v t => v.1.length % 16 == 0 && decide (v.1.npg < 2 ^ v.1.lcap) &&
      yields (kvAlloc (kvHere s) v.2) t (fun _ _ => true)) = true) ∧
    (let s := pooled true [] (page 1 1 0 1) [(0, 16 * 16), (4, 16)]
     yields (readSeq (kvHere s) 0x40_0800) s (fun v _ => v.1.length % 16 == 0 && decide (2 ^ v.1.lcap ≤ v.1.npg)) = true) ∧
    bits (0x7F80_0000 : Lane).toNat 30 23 = 255 := by decide +kernel

/-- Sequences to cut at a page's end and within a page, and too short ones (KvUnit). -/
theorem witness_kv_cut : (let s := tail17 (page 1 1 0 1)
    yields (readSeq (kvHere s) 0x40_0800) s (fun v t => decide (v.1.length < 18) && decide (16 ≤ v.1.length) && decide (5 ≤ v.1.length) &&
      yields (dropPages (kvHere s) v.1 1 (v.1.npg - 1) v.2) t (fun q u => yields (listPage (kvHere s) v.1 0) u (fun g w =>
        yields (livePage (kvHere s) q g) w (fun c y => c.refs == 1 && c.pins == 0 &&
          yields (writeCpt (kvHere s) q g { c with fill := 5 }) y (fun _ _ => true))))) = true) ∧
    (let s := tail17 (page 1 1 0 1)
     yields (kvTrunc (kvHere s) 0x40_0800 5) s (fun _ _ => true) = true ∧ raises (kvTrunc (kvHere s) 0x40_0800 18) s 0x85 = true) := by decide +kernel

/-- A sequence of 16 tokens with flags besides VALID and LCAP meets a test. -/
def onFull (hash : Bool) (flags : Nat) (p : SeqD → PoolD → State → Bool) : Bool :=
  let s := full16 hash flags
  yields (readSeq (kvHere s) 0x40_0800) s (fun v t => p v.1 v.2 t)

/-- Sequences whose pages are all chained, with and without a hash, and ones that are not (KvUnit). -/
theorem witness_kv_find : (onFull false 0x1_0000 (fun d q _ => !d.broken && d.chained == d.npg && d.length == 16 * d.npg && decide (d.npg < 2 ^ d.lcap) && q.hash == 0) = true ∧
    onFull true 0x1_0000 (fun d q t => d.chained == d.npg && decide (q.hash ≠ 0) && yields (probe (kvHere t) q 7 (fun b => b.take 32 == []) 16 0) t
      (fun f _ => f.isNone)) = true ∧
    onFull true 0 (fun d _ _ => d.chained != d.npg) = true ∧ onFull true 0x1_0002 (fun d _ _ => d.broken) = true ∧
    onFull true 0 (fun d q t => !d.broken && decide (d.chained < 65535) && decide (16 * (d.chained + 1) ≤ d.length) &&
      yields (listPage (kvHere t) d d.chained) t (fun g u => yields (livePage (kvHere t) q g) u (fun c w => !c.pub &&
        yields (kvWrite (kvHere t) 0x40_0800 { d with chain := List.replicate 32 7, sflags := d.withChained false 1 }.bytes) w (fun _ y =>
          yields (freeBucket (kvHere t) q 7 16 0) y (fun i _ => i == some 7))))) = true ∧
    onFull true 0x1_0000 (fun d _ _ => decide (d.length < 16 * (d.chained + 1))) = true) := by decide +kernel

/-- A record for `kvstrm` within the sequence, and one that runs past its end (KvUnit). -/
theorem witness_kv_record : (let s := tail17 (page 1 1 0 1)
    let rcd := record 16 [(0, 0), (4, 17)]
    field rcd 0 4 % 16 = 0 ∧ 1 ≤ field rcd 4 4 ∧ field rcd 8 1 ≤ 1 ∧ field rcd 9 7 = 0 ∧
    yields (readSeq (kvHere s) 0x40_0800) s (fun v t => decide (v.1.length < 16 + 17) && decide (0 + 17 ≤ v.1.length) &&
      yields (pageRange (kvHere s) v.1 0 2) t (fun l _ => l == [0, 1])) = true ∧
    yields (kvStream (kvHere s) 0x40_0800 rcd false) s (fun v u => yields (readPool (kvHere s) v.pool) u (fun q w =>
      yields (framesOf (kvHere s) q v.pages) w (fun fr y => match (y.pinFrames 0 0 3 fr).1 with | .ok _ => true | _ => false))) = true ∧
    raises (kvStream (kvHere s) 0x40_0800 (record 16 [(0, 16), (4, 17)]) false) s 0x88 = true) := by decide +kernel


/-! ## What the statements ask besides -/

/-- An open read stream in an array or KV slot is named; a slot may wait for a stream whose rules it passes; the checks are being made
(SlotChecks, RegistersAndSources, ControlStops). -/
theorem witness_checking : rich.iss.checked = false ∧ (viewOf (.xmv 1 ⟨3, pop 2, r 7, 0⟩)).named = [2] ∧
    twinA.slotRules (viewOf (.add ⟨true, 0, true, r 6, r 7, 0⟩)) = .commit ∧ (viewOf (.mul ⟨true, 0, true, r 6, r 7, 0⟩)).cls = .m ∧
    (let s := With (fun c => { c with streams := [(3, { opened with entries := [] })] })
     s.slotRules (viewOf (.add ⟨false, 5, false, pop 3, r 2, 0⟩)) = .commit ∧
       s.slotWaits (viewOf (.add ⟨false, 5, false, pop 3, r 2, 0⟩)) = .block (.stream 3) ∧
       s.slotWaits (viewOf (.jr 0 (pop 3) 0)) = .block (.stream 3)) := by decide +kernel

/-- How a sole instruction of a bundle answers when a step runs it (StepRunsDecoded). -/
def answers (w : Nat) (f : Ctx → Ctx) : Option SlotEnd :=
  let s := (State.reset.withFetchWord 32 w).upd f
  let u := (({ s with iss := Issue.start s.me.pc [] 0 } : State).fetchBundle s.me.pc).2
  match decodeWord w with
  | .ok i => (match exec i { u with iss := { Issue.start s.me.pc [BitVec.ofNat 32 w, 0x08000000, 0x08000000, 0x88000000] 1 with slot := 0 } } with
    | .next c => some c.slotEnd
    | _ => none)
  | .error _ => none

/-- An `add` commits, a store to a misaligned address traps, one of an address of other memory with a full log stalls, and a wait for a stream
blocks (StepRunsDecoded). -/
theorem witness_answers : answers 0x000A0C1C id = some .commit ∧
    (match answers 0x218A0C00 (fun c => { c with regs := [(6, 1)] }) with | some (.trap k c _ _ _) => decide (k < 99) && c == 0x4B | _ => false) = true ∧
    answers 0x218A0C00 (fun c => { c with regs := [(6, 0x2000_0000_0040)], log := List.replicate 16 (entry here .load 0 false) }) = some .stall ∧
    answers 0x0046_A40A (fun c => { c with streams := [(2, { opened with entries := [] })] }) = some (.block (.stream 2)) ∧
    ready.hbm = [] ∧ ({ here with evTurn := true } : State).resetDue = none ∧ State.reset.autoEvent = none := by decide +kernel

/-- Waits that are over in the cycle after, and words that a generator may make (ContextEvents). -/
theorem witness_words : ({ here with cycle := 1 } : State).me.randAt < ({ here with cycle := 1 } : State).cycle ∧ here.cycle ≤ here.me.randAt ∧
    here.regs.failing = false ∧ here.me.fflags = 0 := by decide +kernel

/-- Results that are due for a predicate, a control register and the flags (ResultsWritten). -/
theorem witness_due : (∀ f ∈ [{ due with dest := .p 1, mask := 5 }, { due with dest := .ctl 0x0D, latch := none }, { due with dest := .ctl 1 },
      { due with dest := .v 5, latch := some 2 }],
    (With (fun c => { c with flight := [f] })).me.flight.filter (fun g => g.left == 0) = [f] ∧ f.flags &&& here.me.tvec.extractLsb' 57 5 = 0) := by
  decide +kernel

/-- An entry of the operand log that reads, writes or updates the 64 bytes at 0x40_0000 in all lanes or in four. -/
def wholeEntry (op : LogOp) : LogEntry := { entry here op 0x40_0000 true with mask := 0xF, d := .v 5, cmp := 64 }

/-- Whether the translations of an entry succeed. -/
def lanesOk (e : LogEntry) (k : AccessKind) : Bool := ok ((logged e).laneTr 0 0 e k).1
def objOk (e : LogEntry) (k : AccessKind) : Bool := ok ((logged e).entryTr 0 0 e.addr k).1

/-- Entries of every kind whose addresses translate, and whose bytes are clean (LogPerformed). -/
theorem witness_log_kinds : ok ((logged (wholeEntry .vload)).globalBytes 0 0 0x40_0000 512).1 = true ∧ lanesOk (wholeEntry .gather) .read = true ∧
    lanesOk (wholeEntry .scatter) .write = true ∧ lanesOk (wholeEntry (.vamo 1)) .atomic = true ∧ objOk (wholeEntry .binit) .atomic = true ∧
    objOk (wholeEntry .bxpect) .atomic = true ∧ objOk (wholeEntry (.barrive false)) .atomic = true ∧
    ((logged (wholeEntry (.barrive true))).ctx 0 0).regionsDone 0x40_0000 0 = true ∧ objOk (wholeEntry .acqRead) .read = true ∧
    objOk (wholeEntry .bwaitRead) .read = true ∧ ((paged here).homeBytes 0x40_0000 16).2 = false ∧
    ok ((logged (wholeEntry .vstore)).translateAll 0 1 0x70_0000 .write [0x40_0000]).1 = true ∧
    (let s := (logged (wholeEntry .acqRead)).upd (fun c => { c with blocked := .syncLoad (wholeEntry .acqRead) })
     s.me.blocked = .syncLoad (wholeEntry .acqRead)) ∧ shareSector (here.me.undrained 0) (wholeEntry .cwb).sectors = false := by decide +kernel

/-- Poisoned bytes at the address of an entry, an update that raises a cause, and addresses that no page maps (LogPerformed). -/
theorem witness_log_faults : (let s := (logged (wholeEntry .load)).homeWrite (0x40_0000 / 64) 1 0 true
      (s.homeBytes 0x40_0000 8).2 = true ∧ (match (s.globalBytes 0 0 0x40_0000 8).1 with | .ok (_, p, _) => p.contains true | .error _ => false) = true ∧
        (s.viewSector 0 (0x40_0000 / 64)).2 = true ∧ (s.homeLane 0x40_0000).2 = true) ∧
    ((logged (wholeEntry (.barrive false))).updGlobalBar 0x40_0000 .arrive).2.isSome = true ∧
    (∀ k ∈ [AccessKind.read, .write, .atomic], ok ((logged (wholeEntry .load)).entryTr 0 0 0x2000_0000_0040 k).1 = false ∧
      ok ((logged (wholeEntry .load)).laneTr 0 0 { wholeEntry .gather with addr := 0x2000_0000_0040 } k).1 = false) ∧
    ok ((logged (wholeEntry .store)).globalStore 0 0 0x2000_0000_0040 (bytesOf (7 : Word) 8) []).1 = false ∧
    ok ((logged (wholeEntry .vload)).globalBytes 0 0 0x2000_0000_0040 512).1 = false := by decide +kernel

/-- Write-backs that are due, writes to a stack that may fail, and hardware that is up (StackEvents). -/
theorem witness_writebacks : (∃ w ∈ ({ here with writeBacks := [⟨8, 0, 1⟩] } : State).writeBacks, w.sec = 8 ∧ w.half = 0) ∧ 9 ∈ lineSectors (8 / 8) ∧
    (8, true) ∈ ({ here with stackUse := [(8, true)] } : State).stackUse ∧ (here.updRegs (fun g => { g with hwUp := true })).regs.hwUp = true ∧
    here.stack 7 = Stack.reset := by decide +kernel

/-- Scales of a local stream (StreamsAtWork): 64 blocks whose bytes stand at SOFF; and a stream whose reads a store before its `sbind` holds
back. -/
theorem witness_scales : (let q := { filled with scl := true, fmt := 9, soff := 0x800, sstr := 16, blk := 0 }
    let s := streaming q
    q.loc = true ∧ q.kind ≠ 2 ∧ (∀ i < 16, q.blk + i < q.blocks → got (s.localGet 0 0 (q.scaleAt (q.blk + i)) 1, s) = true) ∧
    got (s.entryBytes 0 0 3) = true ∧
    ({ s.me with log := [entry here .store 0 false] } : Ctx).boundDone { q with after := 1 } = false) := by decide +kernel

/-- A ferry command that may not transfer, as its context is being saved; one that may; a copy onto an overlapping row, and the last piece of the
last row with a follow-on (FerryWork). -/
theorem witness_ferry_more : (let s := ferrying (ferryOf ferry)
    s.ferryMay 0 0 1 (ferryOf ferry) = true ∧ (s.upd (fun c => { c with save := .stopped 0 })).ferryMay 0 0 1 (ferryOf ferry) = false ∧
    (let g := { ferryOf ferry with started := true, held := s.farHolds 0 0 (ferryOf ferry) }
     ((s.startFerry 0 0 1 (ferryOf ferry)).ferryStep 0 0 1 g).isSome = true) ∧
    (let g := { ferryOf ferry with started := true, src := 0x40_0000, flags := 2 }
     (((paged (ferrying g)).updRegs (fun r => { r with sdBusy := true, sdva := 0x40_0000, sdnp := 512 })).ferryStep 0 0 1 g).isSome = false)) ∧
    (let f := { ferryOf ferry with dst := 0x2020, started := true }
     f.overlapping 0x2000 = true ∧ f.off = 0 ∧ f.off + 64 = f.rowlen ∧ f.row + 1 = f.nrows ∧ f.rowbuf = [] ∧
       here.localFault 0 0 0x2020 64 = none ∧ windowOf 0x2020 = 0) ∧
    (let f := { ferryOf ferry with mword := 0x3080_0814, mopb := 0x1000, handing := true }
     here.localFault 0 0 f.mopb.toNat 128 = none ∧ (here.localBytes 0 0 f.mopb.toNat 128).2 = false ∧
       (decodeWord (f.mword.toNat % 2 ^ 31)).isOk = true ∧ (ferrying f).followReady 0 1 = true) := by decide +kernel

/-- Tile instructions whose next row is due, with their banks free and reserved (MatrixWork). -/
def rowWork (i : Instr) (a b : Word) (k : Nat) : MatrixBusy := { busyTile with entry := tiled.matrixEntry 0 0 (.ofNat 32 ((encode i).getD 0)) i a b [] false, step := k }
def rowNext (i : Instr) (a b : Word) (k : Nat) : Bool :=
  let m := rowWork i a b k
  (match (working m).unitNext m with | .row r => r == k | _ => false) && (m.entry.instr == i) &&
    !(working m).reserved 0 ((working m).banksOf 0 0 (m.entry.rowExtent k).1 (m.entry.rowExtent k).2)
theorem witness_rows : rowNext (.zzero true 1 0) 0 0 0 = true ∧ rowNext (.zld false 0 (r 7) 0) 0x8000 0 0 = true ∧
    rowNext (.zld false 0 (r 7) 0) 0x8000 0 5 = true ∧ rowNext (.zst 0 (r 7) 4 0) 0x8000 0 63 = true ∧ rowNext (.zstR 0 (r 7) 4 0) 0x8000 0 0 = true ∧
    rowNext (.zcvt 0 1 (r 7) 0) 0 0x8000 3 = true ∧ rowNext (.zacc 0 1 0) 0 0 3 = true ∧
    (let m := rowWork (.zst 0 (r 7) 4 0) 0x8000 0 0
     let s := working m
     (s.reserve 0 (s.banksOf 0 0 0x8000 512) true).reserved 0 (s.banksOf 0 0 (m.entry.rowExtent 0).1 (m.entry.rowExtent 0).2) = true) ∧
    ((tiled.localStore 0 0 0x8000 [1] [] true).localBytes 0 0 0x8000 64).2 = true ∧
    busyTile.flags &&& tiled.me.tvec.extractLsb' 57 5 = 0 ∧ (busyTile.work.map (·.1)).Nodup := by decide +kernel

/-- Array instructions that fault as they start, a row that may move to a spare, a fallback that gives the unit back, and a tide check that
ends (CrossbarWork). -/
theorem witness_array_more : (let e := xbarEntryOf (.xremap ⟨3, r 7, 0⟩) 255 0
     let s := { (tiled.upd (fun c => { c with xq := [e] })) with cycle := 1 }
     s.nextXbar 0 = some 0 ∧ s.xbarStartBad 0 0 (.xremap ⟨3, r 7, 0⟩) e = none ∧ (s.array 3).spused < 15 ∧
       (s.updArray 3 (fun a => { a with retired := List.replicate 16 0 })).xbarStartBad 0 0 (.xremap ⟨3, r 7, 0⟩) e = some 0x94) ∧
    (let s := (workingArray (.xmv 1 ⟨3, r 7, r 7, 0⟩) 0x8000 0x9000).updArray 3 (fun y => { y with
        busy := y.busy.map (fun b => { b with fallback := true }) })
     ({ s.updCore 0 (fun c => { c with fallback := some ⟨3, 4, 0⟩ }) with cycle := 1 }).fallbackOver 0 3 = true ∧
       ({ s.updCore 0 (fun c => { c with fallback := some ⟨3, 4, 0⟩ }) with cycle := 1 }).fallbackReady 0 3 = true ∧ s.fallbackOver 0 3 = false) ∧
    ({ here.updArray 3 (fun a => { a with tideEnd := some 5 }) with cycle := 5 }).tideOver 3 = true ∧ here.tideOver 3 = false ∧ (960 ≤ 15 * 64) := by
  decide +kernel

/-- Traffic for another device that the routing table forwards, through a port that may carry it (LinksAndWindows). -/
theorem witness_forward : (let s := (here.updRegs (fun g => { g with route := [(9, 4), (5, 4 + 2 ^ 18)] })).updLink 2 (fun l => { l with en := true, up := true, far := 9 })
    s.portCarries 2 = true ∧ s.forwards 5 = true ∧ s.portsTo 5 = [2] ∧ s.forwards 9 = false ∧ s.reaches 9 = true) := by decide +kernel

/-- Bytes owed to a barrier object behind a window: it takes them, it is misaligned, or the window refuses them (SoundTransfers); a collective whose
member has waited, and one whose member has not (SoundTransfers). -/
theorem witness_owed : (let s := windowed.homeStore 0x40_0100 (bytesOf barrier4 16)
      (s.windowLand 0 0x100 0x200).1 = some (.done none) ∧ (s.windowLand 0 0x108 0x200).1 = some (.done (some 0x67)) ∧
        (here.windowLand 0 0x100 0x200).1 = some .refused) ∧
    (match (windowed.windowWrite 0 0x3000 (List.replicate 64 1, List.replicate 64 false)).1 with | .ok _ => true | _ => false) = true ∧
    (match (here.windowWrite 0 0x3000 (List.replicate 64 1, List.replicate 64 false)).1 with | .fault c _ => c == 0x72 | _ => false) = true ∧
    ({ putCmd with owed := 64, row := 1 } : SoundCmd).nrows ≤ ({ putCmd with owed := 64, row := 1 } : SoundCmd).row ∧
    (let s := local6.upd (fun k => k.setSoundQ 0 { Queue.reset with entries := [.sound { sumCmd with started := true }] })
     (match ({ s with colls := [collOfOne] }).collOf 0 0 0 with | some (_, g, k) => g == collOfOne && k == 0 | none => false) = true) := by
  decide +kernel

/-- A command of a collective behind which an earlier one has not joined, a rank that writes no result, and a result of two rows and of one
(Collectives). -/
theorem witness_collective_more : (let late := { sumCmd with seq := 7 }
      let early := { sumCmd with seq := 3 }
      let s := local6.upd (fun k => (k.setSoundQ 0 { Queue.reset with entries := [.sound late] }).setSoundQ 1
        { Queue.reset with entries := [.sound putCmd, .sound early] })
      .sound early ∈ s.dieSound (coreDie 0) ∧ 2 ≤ early.kind ∧ early.started = false ∧ early.seq < late.seq) ∧
    (let m := { member with rank := 1, cmd := { sumCmd with opf := sumCmd.opf ||| 0x40 } }
     let c := { collOfOne with ranks := [0x100, 0], members := [m], result := some ([([1], [false])], 0) }
     let s := collective c
     s.colls.findSome? (fun c => if c.group = 5 ∧ c.tag = 1 then some (c.ranks.findIdx (· == s.rankId 0)) else none) = some 1 ∧
       s.dueAt 0 5 1 false = some (0, c, m) ∧ m.cmd.root = true ∧ m.rank ≠ 0 ∧ s.memberAlive m = true) ∧
    sumCmd.row = 0 ∧ (collective collOfOne).rankId 0 = 0 ∧
    (∀ r ∈ [0, 1], ∃ k < 2, (k, r) ∉ ([] ++ [(0, 1)] : List (Nat × Nat)) ∨ (r, k) ∉ ([] ++ [(0, 1)] : List (Nat × Nat))) := by decide +kernel

/-- A pass between its halves, a notify in the cycle of its unmapping, and a hot launch that makes the parity flip (QueuesAndDistributor). -/
theorem witness_passing : ({ queued with sched := { Sched.reset with passing := some 0 }, cycle := 1 } : State).passReady = true ∧
    ({ queued with sched := { Sched.reset with passing := some 0 } } : State).sched.passing = some queued.cycle ∧
    ({ queued with cycle := 19000 } : State).sched.passing = none ∧
    ({ here with ctxs := [], hotRetired := [(0, true)], launches := [(1, { probeLaunch with state := .accepted, rcd := { probeLaunch.rcd with shape := 0x20 } })] }
      : State).nextDecision = some (.flip 0) := by decide +kernel

/-- A victim whose matrix instruction takes from a halted stream, and one that does not (SaveEvents). -/
theorem witness_stuck : (let s := ((With (fun c => { c.setStream 3 { opened with halt := true } with save := .stopped 0 })).updCore 0
      (fun k => { k with matrix := some { busyTile with entry := { tileEntry with streams := [3] } } }))
    s.stuck 0 0 = true ∧ s.me.save = .stopped 0) ∧ here.stuck 0 0 = false ∧ stopped.me.esc = none := by decide +kernel

/-- A PTP event message, for which a port without buffers has no room and which its TSEN stamps (TimeAndEthernet). -/
theorem witness_stamps : isPtpEvent (List.replicate 12 0 ++ [0x88, 0xF7] ++ List.replicate 34 0) = true ∧ isPtpEvent (List.replicate 64 1) = false ∧
    (ported.putFrame 0xA000 4096 0 0 (List.replicate 64 1)).isSome = false ∧ (ported.eth 1).stamps.length < 64 := by decide +kernel

/-- Events whose actions are to log, to interrupt, to kill without a context and to reset an island, a forced one, two records that are due, and a
reset that is (SurroundingsEvents). -/
theorem witness_events : here.applied { ev 0 0 0 0 with cls := 5 } = 2 ∧ here.applied { ev 0 0 0 0 with cls := 0 } = 1 ∧ here.applied { ev 0 0 0 0 with cls := 6 } = 2 ∧
    (let s := here.updRegs (fun g => { g with sevc := [(6, 4)] })
     s.applied { ev 0 0 0 0 with cls := 6, island := some 3 } = 4 ∧ s.applied { ev 0 0 0 0 with cls := 6 } = 2 ∧ (s.island 3).resetting = false) ∧
    here.applied { ev 0 0 0 0 with cls := 12 } = 0 ∧ here.repl 2 0 = true ∧ ({ ev 0 0 0 0 with forced := true } : Event).forced = true ∧
    ({ here with logDue := [(4, [1]), (2, [2])] } : State).traceDue = [] ∧ failing.resetDue = none ∧
    ({ here.updIsland 3 (fun q => { q with asked := true }) with evTurn := true } : State).resetDue = some 3 := by decide +kernel

/-- A ROM that has run, processors that run and do not, an interrupt to claim, and PCIe on and off (BootAndAttestation, HostAccesses). -/
theorem witness_harts : State.reset.regs.romRun = false ∧ (here.updRegs (fun g => { g with romRun := true })).regs.romRun = true ∧
    State.reset.hartRuns 3 = false ∧ (here.updRegs (fun g => { g with booted := true })).hartRuns 3 = true ∧ State.reset.hartRuns 16 = true ∧
    mget [] here.imsic 3 = [] ∧ mget [] ({ here with imsic := [(3, [5, 1])] } : State).imsic 3 ≠ [] ∧ here.regs.pcieOff = false ∧
    (here.updRegs (fun g => { g with pcieOff := true })).regs.pcieOff = true ∧ here.regs.qtbase.toNat % 64 = 0 := by decide +kernel

/-! ## What the statements ask since the second review -/

/-- The firmware has brought the device up: application cores run. -/
def booted (s : State) : State := s.updRegs (fun g => { g with booted := true })

/-- A KV operation whose outcome is a cause, one that takes poison, and one whose outcome is held for another bundle (KvInstructions). -/
theorem witness_kv_outcomes : (∀ k ∈ [KvOutcome.cause here.me.pc 0x81 16, .cause here.me.pc 0x47 0, .value 0x9990 7],
      (With (fun c => { c with kv := k })).Clear (viewOf (.kvnew (r 4) (r 5) 0))) ∧
    (0x81 : Byte) ≠ 0x47 ∧ (0x9990 : Word) ≠ here.me.pc ∧ kvCause 0x81 (some 16) = true ∧ kvCause 0x0B none = false := by
  and_intros <;> first | decide +kernel | (intro k hk; fin_cases hk <;> exact ⟨by decide +kernel, by decide +kernel⟩)

/-- A store that is still to drain, and one of another line (LocalAccesses, GlobalAccesses, LogPerformed). -/
theorem witness_pushes : here.heldBack 0x1000 8 = false ∧ ((streaming writing).upd (fun c => { c with logNext := 1 })).heldBack 0x2000 8 = true ∧
    (logged (entry here .load 0x40_0000 true)).behindPush 0 0 (entry here .load 0x40_0000 true) = false ∧
    here.me.writesOut = false ∧ here.me.save.halted = false := by decide +kernel

/-- Bytes of a vector access in eight banks and in a register window (LocalAccesses). -/
theorem witness_vector_bytes : vecByte 0x1000 0 = 0x1000 ∧ vecByte 0x1000 511 = 0x7_103F ∧ windowOf 0x1000 < 5 ∧
    windowOf 0xA0_0000 = 5 ∧ vecByte 0xA0_0000 511 = 0xA0_01FF ∧ wide6.localFault 0 0 0x7_103F 1 = none := by decide +kernel

/-- Ranges of no bytes, too long ones, and one that runs past the aperture (GlobalAccesses). -/
theorem witness_maintenance : here.me.readS 7 = 0 ∧ here.Clear (viewOf (.cinv 7 (r 6) 0)) ∧
    2 ^ 32 < ((regsOf [(7, 2 ^ 33)]).me.readS 7).toNat ∧
    0xFFFF_FFFF_0000_0000 < (srcS (regsOf [(6, 0xFFFF_FFFE_FFFF_FFFF), (7, 2)]) (r 6)).toNat + 2 := by
  and_intros <;> decide +kernel

/-- A binding to a local object, and objects that are not usable (Synchronisation, BarrierUpdates). -/
theorem witness_objects : (gen 0x1000).toNat % 8 = 0 ∧ inAperture (gen 0x1000) = true ∧ windowOf ((gen 0x1000).toNat % 2 ^ 32) = 0 ∧
    here.localFault 0 0 ((gen 0x1000).toNat % 2 ^ 32) 8 = none ∧ (0 : Word).toNat + (0x40 : Word).toNat ≤ 0xFFFF_FFFF_0000_0000 ∧
    (barAt (regsOf [(6, gen 0x1000)]) 0x1000).usable = false ∧ (0 : BarObj).usable = false := by decide +kernel

/-- Two faults that one cycle detects, of the operand log and of stream 2 (LateFaults). -/
theorem witness_same_cycle : (let p : Pending := ⟨0x40, 1, 0, 7, 5⟩
    let q : Pending := ⟨0x41, 8, 2, 8, 5⟩
    p.seen = q.seen ∧ p.rank < q.rank ∧ p.src < 8 ∧ q.src = 8) := by decide +kernel

/-- The remap that takes the last spare (CrossbarWork). -/
theorem witness_last_spare : (let e := xbarEntryOf (.xremap ⟨3, r 7, 0⟩) 255 0
    let s := { ((tiled.upd (fun c => { c with xq := [e] })).updArray 3 (fun a => { a with retired := List.replicate 15 0 })) with cycle := 1 }
    s.nextXbar 0 = some 0 ∧ s.xbarStartBad 0 0 (.xremap ⟨3, r 7, 0⟩) e = none ∧ (s.array 3).spused = 15 ∧ s.action 9 5 ≠ 3) := by
  decide +kernel

/-- Traffic to forward while no port carries it, and a link up by which a window may be reached (LinksAndWindows). -/
theorem witness_transit : (let s := here.updRegs (fun g => { g with route := [(5, 4 + 2 ^ 18)] })
     s.forwards 5 = true ∧ s.portsTo 5 = [] ∧ (∀ p < 18, s.portCarries p = false)) ∧ (∃ p < 18, linked.portCarries p = true) := by
  and_intros <;> decide +kernel

/-- A pass that unmaps a queue which was notified earlier in its cycle (QueuesAndDistributor). -/
theorem witness_heard : (let s : State := { queued with cycle := 19000, sched := { Sched.reset with heard := [1] } }
    s.sched.passing = none ∧ s.sched.due ≤ s.cycle ∧ 1 ∈ s.sched.heard ∧ s.regs.booted = true) := by decide +kernel

/-- Registers that running application cores write, and a device that may restart, resume and restore (TimeAndEthernet, PowerEvents,
BootAndAttestation, HostAccesses, Translation). -/
theorem witness_booted : (booted here).regs.booted = true ∧ (booted here).regs.sdBusy = false ∧ (booted here).regs.pfDone = false ∧
    (booted here).regs.imgvalid = false ∧ ((booted here).updRegs (fun g => { g with fatal := true, jready := true })).regs.booted = true ∧
    (booted ported).regs.booted = true ∧ ((booted ported).eth 1).stamps = [5] ∧ here.attRoom here.attLength = true ∧
    here.attLength ≤ slotRoom ∧ slotRoom < (here.homeStore 8 [0, 0, 0, 0x40]).attLength := by decide +kernel

/-! ## Numbers for the statements about formats -/

/-- 3 halves to the nearest, ties to even; 5 quarters upwards; and a value that lies between two of the grid (VectorFloats). -/
theorem witness_rounding : RoundsTo .rne false 3 0 1 2 ∧ RoundsTo .rup false 5 0 2 2 ∧ RoundsTo .rdn true 5 0 2 2 ∧ RoundsTo .rtz true 7 1 0 14 ∧
    Between 3 0 1 ∧ ¬Between 4 0 2 ∧ Exceeds 3 0 1 1 ∧ ¬Exceeds 1 1 2 0 := by
  unfold Between Exceeds RoundsTo
  and_intros <;> first | decide | (intro _; and_intros <;> decide) | omega

/-- The grids of a normal value, of a subnormal one and of one that overflows, in FP16 (VectorFloats): 2049 rounds to 2048; 3 × 2^−25 is
subnormal; 65520 is too big, in units of 2^−24. -/
theorem witness_grids : (1 ≠ 0) ∧ ((2049 : Nat).log2 + 0 - fp16.fb : Int) = 1 ∧ RoundsTo .rne false 2049 0 1 1024 ∧
    (1 - (2 ^ (fp16.eb - 1) - 1) - fp16.fb : Int) = -24 ∧ RoundsTo .rne false 3 (-25) (-24) 2 ∧ Exceeds 2048 5 (largest fp16) (-24) ∧
    RoundsTo .rne false 65520 0 5 2048 := by
  unfold Exceeds RoundsTo
  and_intros <;> first | decide | omega | (intro _; and_intros <;> decide)

/-- Operands of every kind in FP32 (VectorFloats): 1.5 and −2, a quiet and a signalling NaN, the two infinities and the two zeros. -/
theorem witness_numbers : fp32.unpack 0x3FC0_0000 = .fin false 0xC0_0000 (-23) ∧ fp32.unpack 0xC000_0000 = .fin true 0x80_0000 (-22) ∧
    fp32.unpack 0x7FC0_0000 = .nan false ∧ fp32.unpack 0x7F80_0001 = .nan true ∧ fp32.unpack 0x7F80_0000 = .inf false ∧
    fp32.unpack 0xFF80_0000 = .inf true ∧ fp32.unpack 0x8000_0000 = .fin true 0 (-149) ∧ fp32.unpack 0 = .fin false 0 (-149) ∧
    inUnits false 0xC0_0000 (-23) (-23) = 0xC0_0000 := by decide +kernel

/-- Operands of the special functions at their bounds (SpecialAndConvert): −1, −127, 128, 8 and 2^127. -/
theorem witness_special : fp32.unpack 0xBF80_0000 = .fin true 0x80_0000 (-23) ∧ fp32.unpack 0xC2FE_0000 = .fin true 0xFE_0000 (-17) ∧
    Exceeds 0xFE_0000 (-17) 126 0 ∧ fp32.unpack 0x4300_0000 = .fin false 0x80_0000 (-16) ∧ ¬Exceeds 128 0 0x80_0000 (-16) ∧
    (2 ^ 23 : Nat) = 2 ^ (2 ^ 23 : Nat).log2 ∧ fp32.unpack 0x7F00_0000 = .fin false 0x80_0000 104 ∧ Exceeds 0x80_0001 104 1 126 := by
  unfold Exceeds
  decide +kernel

/-- A block of the value 1.5 and zeros, whose top is 0, and a block that holds an infinity (SpecialAndConvert). -/
theorem witness_block_top : IsTop (.fin false 3 (-1) :: List.replicate 31 (.fin false 0 0)) 0 ∧
    (Machine.Num.inf true ∈ [Machine.Num.inf true]) ∧ ¬∃ s m e, Machine.Num.inf true = .fin s m e := by
  and_intros
  · exact ⟨false, 3, -1, by simp, by decide, by decide⟩
  · intro s m e h hm
    simp at h
    obtain ⟨rfl, rfl, rfl⟩ | ⟨_, rfl, _⟩ := h
    · decide
    · exact absurd rfl hm
  · simp
  · simp

/-! ## Effects: the spec's worked values, and hand calculation from its rules -/

/-- Scalars that wrap, compare and divide at their corners (R166, R167). -/
theorem test_scalar : gives (.add s3) rich [1] = true ∧ gives (.sub s3) rich [0xFFFF_FFFF_FFFF_FFFD] = true ∧
    gives (.slt s3) rich [1] = true ∧ gives (.sltu s3) rich [0] = true ∧ gives (.min s3) rich [0xFFFF_FFFF_FFFF_FFFF] = true ∧
    gives (.maxu s3) rich [0xFFFF_FFFF_FFFF_FFFF] = true ∧ gives (.mulh s3) rich [0xFFFF_FFFF_FFFF_FFFF] = true ∧
    gives (.mulhu s3) rich [1] = true ∧ gives (.sra s3) rich [0xFFFF_FFFF_FFFF_FFFF] = true ∧ gives (.lea s3) rich [0xFFFF_FFFF_0000_0001] = true := by
  decide +kernel

/-- Division by zero, and the most negative number by −1 (R167). -/
theorem test_division : gives (.div ⟨false, 5, false, r 7, r 0, 0⟩) rich [0xFFFF_FFFF_FFFF_FFFF] = true ∧
    gives (.rem ⟨false, 5, false, r 7, r 0, 0⟩) rich [2] = true ∧
    gives (.div ⟨false, 5, false, r 8, r 6, 0⟩) (rich.upd (fun c => { c with regs := [(6, 0xFFFF_FFFF_FFFF_FFFF), (8, 2 ^ 63)] })) [2 ^ 63] = true ∧
    gives (.remu ⟨false, 5, false, r 6, r 7, 0⟩) rich [1] = true := by decide +kernel

/-- Immediates are sign-extended, counts of bits end at 64, and constants are joined (R169 to R171). -/
theorem test_immediates : gives (.addi ⟨false, 5, false, r 7, 0x7F, 0⟩) rich [1] = true ∧
    gives (.andi ⟨false, 5, false, r 6, 0x40, 0⟩) rich [0xFFFF_FFFF_FFFF_FFC0] = true ∧ gives (.slli ⟨false, 5, false, r 7, 62, 0⟩) rich [2 ^ 63] = true ∧
    gives (.clz ⟨false, 5, false, r 0, 0⟩) rich [64] = true ∧ gives (.ctz ⟨false, 5, false, r 7, 0⟩) rich [1] = true ∧
    gives (.sext ⟨false, 5, false, r 9, 0⟩ 0) (rich.upd (fun c => { c with regs := [(9, 0x180)] })) [0xFFFF_FFFF_FFFF_FF80] = true ∧
    gives (.li false 5 0x1_FFFF) rich [0xFFFF_FFFF_FFFF_FFFF] = true ∧ gives (.lih false 7 0x8000) rich [0x2_8000] = true := by decide +kernel

/-- A source that is a latch, a stream's head and the destination itself (R91, R104). -/
theorem test_sources : gives (.add ⟨false, 5, false, lat 0, r 7, 0⟩) rich [13] = true ∧ gives (.add ⟨false, 5, false, pop 2, r 7, 0⟩) rich [0x9_0000_0009] = true ∧
    gives (.add ⟨false, 7, false, r 7, r 7, 0⟩) rich [4] = true := by decide +kernel

/-- Vector integers: wrap in 8-bit elements, and the largest magnitude of an absolute value and a saturation (R190, R193). -/
theorem test_vector_integers :
    (let s := (rich.writeV 0 0 6 (vec [0x0080_7FFF])).writeV 0 0 7 (vec [0x0101_0101])
     let t := s.upd (fun c => { c with vmode := 0x8 + 0x8 })
     lanes (.vadd v3) s 0 [0x0181_8100, 0] 0 = true ∧ lanes (.vabs v1) (s.writeV 0 0 6 (vec [0x8000_0000, 0xFFFF_FFFF])) 0 [0x7FFF_FFFF, 1] 0 = true ∧
       t.me.iw = 8 ∧ lanes (.vadd v3) t 0 [0x0181_8000] 0 = true) := by decide +kernel

/-- Floats round to the nearest, ties to even, raise their flags and make the canonical NaN (R118, R124, R195). -/
theorem test_floats : lanes (.vfadd v3) ((rich.writeV 0 0 6 (vec [0x3F80_0000, 0x7F7F_FFFF, 0x7F80_0000, 0x3F80_0000])).writeV 0 0 7
      (vec [0x3380_0000, 0x7F7F_FFFF, 0xFF80_0000, 0x33C0_0000])) 0 [0x3F80_0000, 0x7F80_0000, 0x7FC0_0000, 0x3F80_0001] 0x15 = true := by
  decide +kernel

/-- The four scores of chapter 10: powers of two with UF and NX, their sum, its reciprocal and the weights. -/
theorem test_scores_exp : lanes (.vexp2 ⟨false, 2, false, r 1, 0⟩) ((With (fun c => { c with preds := [(1, 15)], vmode := 1 }) ).writeV 0 0 1
    (vec [0, 0xBF80_0000, 0xC000_0000, 0xC348_0000])) 0 [0x3F80_0000, 0x3F00_0000, 0x3E80_0000, 0] 3 = true := by decide +kernel

theorem test_scores_sum : lanes (.vred 3 false (r 2) 0 true 0) ((With (fun c => { c with preds := [(1, 15)], vmode := 1 })).writeV 0 0 2
    (vec [0x3F80_0000, 0x3F00_0000, 0x3E80_0000, 0])) 0 [0x3FE0_0000, 0x3FE0_0000, 0x3FE0_0000, 0x3FE0_0000] 0 = true := by decide +kernel

theorem test_scores_reciprocal : lanes (.vrcp ⟨false, 4, false, r 3, 0⟩) ((With (fun c => { c with preds := [(1, 1)], vmode := 1 })).writeV 0 0 3
    (vec [0x3FE0_0000])) 0 [0x3F12_5000] 1 = true := by decide +kernel

theorem test_scores_weights : lanes (.vfmul ⟨false, 5, false, r 2, r 4, 0⟩) (((With (fun c => { c with preds := [(1, 15)], vmode := 1 })).writeV 0 0 2
    (vec [0x3F80_0000, 0x3F00_0000, 0x3E80_0000, 0])).writeV 0 0 4 (vec [0x3F12_5000, 0x3F12_5000, 0x3F12_5000, 0x3F12_5000])) 0
    [0x3F12_5000, 0x3E92_5000, 0x3E12_5000, 0] 0 = true := by decide +kernel

/-- The FP32 values of the block that R123 works out. -/
def block123 : List Machine.Num := ([0x3FC0_0000, 0xBF40_0000, 0x3E80_0000, 0x3E00_0000, 0, 0x3E99_999A] ++ List.replicate 10 0).map fp32.unpack

/-- R123's block in IB8 and IB5, with NX, and the example of R120. -/
theorem test_blocks : quantIb 10 (List.replicate 16 .rne) block123 =
      ([0x7F, 0xFE, 0x60, 0xB0, 0x20, 0x10, 0x00, 0x26] ++ List.replicate 10 0, 1) ∧
    (quantIb 11 (List.replicate 16 .rne) block123).1 = [0x7F, 0xFE, 0xCC, 0x12, 0x01, 0x0A] ++ List.replicate 6 0 ∧
    ((quantMx 9 (List.replicate 32 .rne) (List.replicate 32 (fp32.unpack 0x3FC0_0000))).1.getD 0 0 = 0x60) ∧
    (quantMx 9 (List.replicate 32 .rne) (List.replicate 32 (fp32.unpack 0x3FC0_0000))).1.getD 32 0 = 0x7F := by decide +kernel

/-- Conversions of 1.5 by the table of R118, and −10 and −7 as integers read from bytes and nibbles (R201). -/
theorem test_conversions : (cvtLane 0 0 .rne 0x3FC0_0000 0).1 = 0x3FC0 ∧ (cvtLane 1 1 .rne 0x3FC0_0000 0xAAAA_5555).1 = 0x3E00_5555 ∧
    (cvtLane 2 0 .rne 0x3FC0_0000 0).1 = 0x3C ∧ (cvtLane 3 0 .rne 0x3FC0_0000 0).1 = 0x3E := by decide +kernel

/-- Moves and predicates: cluster 1 receives cluster 0 by `vxcl` with 7, indices, and the first set bit (R206 to R213). -/
theorem test_moves : lanes (.vxcl p3) ((With (fun c => { c with regs := [(7, 7)] })).writeV 0 0 6 (vec [21, 22])) 16 [21, 22] 0 = true ∧
    lanes (.viota 5 false false 0) here 126 [126, 127] 0 = true ∧ lanes (.viota 5 false true 0) here 126 [14, 15] 0 = true ∧
    gives (.pfirst 5 false 1 0) (With (fun c => { c with preds := [(1, 0x50)] })) [4] = true ∧ gives (.ppop 5 false 0 0) here [128] = true := by decide +kernel

/-- A branch that is taken, a jump back by 3 bundles and the link it leaves, and a jump to no bundle (R102, R173 to R175). -/
theorem test_jumps : after (.bcc 2 (r 6) 3) (rich.updIss (fun i => { i with pc := 0x1000 })) (fun t => t.iss.target == some 0x1030) = true ∧
    after (.bcc 4 (r 6) 3) rich (fun t => t.iss.target == none) = true ∧
    after (.jal 1 (-3)) (rich.updIss (fun i => { i with pc := 0x1000 })) (fun t => t.iss.target == some 0xFD0 && t.me.flight.map (fun f => lo64 f.val) == [0x1010]) = true ∧
    stops (.jr 0 (r 7) 0) rich 0x07 = true ∧ stops (.jrGd 0 (r 6) 0 0) (rich.upd (fun c => { c with latches := [(0, 1), (1, 2)] })) 0xA0 = true := by decide +kernel

/-- The walker of chapter 9: tile 9, then −1 once every victim has refused; coordinate 1 of tile 11 of 4 by 3 (R181). -/
theorem test_walker : gives (.wnext 10) (walking ⟨⟨9, 12, 0⟩, none, .none, false⟩) [9] = true ∧
    blocks (.wnext 10) (walking ⟨⟨12, 12, 0⟩, some 11, .none, false⟩) = true ∧
    gives (.wnext 10) (walking ⟨⟨12, 12, 0⟩, some 11, .refused, false⟩) [0xFFFF_FFFF_FFFF_FFFF] = true ∧
    gives (.wpos 11 1) { walking ⟨⟨12, 12, 0⟩, some 11, .none, false⟩ with
      launches := [(1, { probeLaunch with rcd := { probeLaunch.rcd with ext := [4, 3, 1, 1], order := 0xE4 } })] } [2] = true := by decide +kernel

/-- The launch of chapter 15: its tiles' coordinates with a serpentine, its lines, and the split of [5, 15). -/
theorem test_launch : (let q := recordOf record15
    q.tiles = 30 ∧ (q.coord 5 0, q.coord 5 1) = (1, 4) ∧ (q.coord 10 0, q.coord 10 1) = (2, 0) ∧ (q.coord 14 0, q.coord 14 1) = (2, 4) ∧
    ({ probeLaunch with rcd := q, crews := 1 } : Launch).lineRange 1 = ⟨15, 30, 1⟩ ∧
    (match ({ split15 with launches := [(1, { probeLaunch with rcd := q })] }).scanIsland { probeLaunch with rcd := q } 1 0 with
      | some (g, t) => g.next == 10 && g.fin == 15 && t.me.walker.range == ⟨5, 10, 0⟩
      | none => false) = true) := by decide +kernel

/-- A store and a load of the scratchpad, in the middle of what was there; misaligned and outside (R57, R139). -/
theorem test_scratchpad : after (.st ⟨7, r 6, 1, 0⟩) (regsOf [(6, gen 0x1000), (7, 0x1122_3344_5566_7788)]) (fun t =>
      (t.localBytes 0 0 0x1006 4).1 == [0, 0, 0x88, 0x77]) = true ∧
    gives (.ld ⟨5, false, r 6, 0, 0⟩) (holding local6 0x1000 [0x25, 0x80, 0, 0, 6]) [0x6_0000_8025] = true ∧
    stops (.ld ⟨5, false, r 6, 0, 0⟩) (regsOf [(6, gen 0x1004)]) 0x4B = true ∧ stops (.ld ⟨5, false, r 6, 0, 0⟩) (regsOf [(6, gen 0x4_0000)]) 0x49 = true ∧
    after (.amo ⟨5, false, r 6, r 7, 0⟩) (holding (regsOf [(6, gen 0x1001), (7, 0x40)]) 0x1000 [2]) (fun t =>
      (t.localBytes 0 0 0x1000 1).1 == [0x42] && t.me.flight.map (fun f => lo64 f.val) == [2]) = true := by decide +kernel

/-- The stores of chapter 8 wait in the operand log, and memory does not change (R147); an address that is not canonical stops (R20). -/
theorem test_store_log : after (.stg ⟨5, r 6, 1, 0⟩) (regsOf [(5, 0x22), (6, 0x2000_0000_0040)]) (fun t => t.mem == here.mem &&
      t.me.log.map (fun e => (e.addr, lo64 e.data)) == [(0x2000_0000_0048, 0x22)]) = true ∧
    stops (.stg ⟨5, r 6, 0, 0⟩) (regsOf [(6, 0x0200_0000_0000_0000)]) 0x44 = true := by decide +kernel

/-- The barrier of chapter 4: `binit`, EXPECT, two LANDs and two ARRIVEs, and a LAND too many (R63). -/
theorem test_barrier : (BarObj.ofInit 0x25).apply (.expect 0x600 0) = (barrier4, none) ∧
    (let a := (barrier4.apply (.land 0x200)).1
     let b := (a.apply .arrive).1
     let c := ((b.apply (.land 0x400)).1.apply .arrive).1
     (a.gen, a.arrv, a.inb) = (5, 2, 0x400) ∧ (b.gen, b.arrv, b.inb) = (5, 1, 0x400) ∧ c = ((b.apply .arrive).1.apply (.land 0x400)).1 ∧
       c = 0x0002_0000_0000_0000_0000_0000_0000_8026 ∧ (c.apply (.land 0x200)).2 = some 0x66 ∧ ((c.apply (.land 0x200)).1.ufl, (c.apply (.land 0x200)).1.inb) = (true, 0)) := by
  decide +kernel

/-- A wait on generation 5 while the object shows 5 blocks, and completes when it shows 6 (R73). -/
theorem test_bwait : blocks (.bwait 0 false (r 6) (r 7) 0) (synced.upd (fun c => { c with regs := [(6, gen 0x1000), (7, 5)] })) = true ∧
    after (.bwait 0 false (r 6) (r 7) 0) (synced.upd (fun c => { c with regs := [(6, gen 0x1000), (7, 6)] })) (fun t => t.slotEnd == .commit) = true := by
  decide +kernel

/-- The products of chapter 11: 32 elements of 64 and 32 with scales 127 and 128, and of 64 and 64 with scales 127 and 126 (R223). -/
theorem test_product : (let b := fun (v s : Nat) => blocksOf 9 (List.replicate 32 (.ofNat 8 v)) (.ofNat 8 s)
    (stepElem false (b 64 127) (b 32 128) 0).1 = 0x4200_0000 ∧ (stepElem false (b 64 127) (b 64 126) 0).1 = 0x4180_0000 ∧
      (stepElem false (b 64 127) (b 32 128) 0).2.1 = 0) := by decide +kernel

/-- The column of chapter 12: 18 times 0.25 times 0.5, and the depths of R237 at which a conversion clips. -/
theorem test_column : columnOut 18 0x3E80_0000 0x3F00_0000 = (0x4010_0000, 0) ∧ columnOut 19 0x3E80_0000 0x3F00_0000 = (0x4018_0000, 0) ∧
    (let a := { XArray.reset with cells := [(0, 2 ^ 1024 - 1)], shadow := [(0, 2 ^ 1024 - 1)] }
     (idealCount (a.committed 0) (List.replicate 64 0xFF ++ List.replicate 192 0) 64 0 3 = 960)) := by decide +kernel

/-- The places of chapters 2 and 3: stacks of the eight lines, home slices, and the area of chapter 16. -/
theorem test_places : (List.range 8).map (fun l => stackOf (0x12_3420_0000 + 512 * l)) = [1, 0, 3, 2, 1, 0, 3, 2] ∧
    [0x40_0080_0000, 0x40_0080_0200, 0x40_0080_1000, 0x40_0080_1200].map sliceOf = [0, 1, 8, 9] ∧ homeDie 0x40_0080_0000 = 1 ∧
    placePa 1 1 0 0 0x2468 1 0 = 0x12_3420_0800 ∧ areaSize 2 4 2 = 4936832 ∧ areaSize 0 1 0 = 209536 := by decide +kernel

/-- A combine of chapter 14: rank 0's and rank 1's triples with NORM give 4.0, 1.375 and 2.0 (R290). -/
theorem test_combine : (let row := fun (m l o : Nat) => record 576 [(0, m), (4, l), (64, o)]
    let v := (reduceRow 0xA4 576 [(row 0x4000_0000 0x3FC0_0000 0x4040_0000, []), (row 0x4080_0000 0x3F80_0000 0x4000_0000, []), (row 0xFF80_0000 0 0, [])]).1
    (v.take 8 = [0, 0, 0x80, 0x40, 0, 0, 0xB0, 0x3F]) ∧ (v.drop 64).take 8 = [0, 0, 0, 0x40, 0, 0, 0, 0]) := by decide +kernel

/-- An instruction that traps takes its handler (R324), and the return resumes at EPC (R329). -/
theorem test_trap : stepped ((State.reset.withFetchWord 32 0x218A_0C00).upd (fun c => { c with regs := [(6, 1)], tvec := 0x8000 + 1 })) (fun t =>
      t.me.hnd && t.me.pc == 0x8000 && t.me.epc == 0x10000 && t.me.ecause &&& 0xFF == 0x4B) = true ∧
    stepped ((State.reset.withFetchWord 32 0x0C80_001C).upd (fun c => { c with hnd := true, epc := 0x5000 })) (fun t => !t.me.hnd && t.me.pc == 0x5000) = true := by
  decide +kernel

/-- A step fetches, decodes and commits the placed instruction (R84). -/
theorem test_step : stepped (ready.upd (fun c => { c with regs := [(6, 40), (7, 2)] })) (fun t =>
    t.me.pc == 0x10010 && t.me.flight.map (fun f => (f.dest, lo64 f.val)) == [(.s 5, 42)]) = true := by decide +kernel

end Sys2Proof.Tests
end

section
/-! SUPPORT. Bytes and packed fields: what a packed number, a merged sector, the bytes of a list and a sector of a stack hold at
each place. -/

namespace Sys2Proof.Machine

/-! ## Packed fields -/

/-- A list of fields with one more at its top. -/
theorem packed_concat (w : Nat) (l : List Nat) (x : Nat) :
    packed w (l ++ [x]) = packed w l + x % 2 ^ w * 2 ^ (w * l.length) := by
  induction l with
  | nil => simp [packed]
  | cons y t ih =>
    have hp : ∀ z u, packed w (z :: u) = z % 2 ^ w + 2 ^ w * packed w u := fun _ _ => rfl
    rw [List.cons_append, hp, hp, ih, List.length_cons, Nat.mul_succ, Nat.pow_add]
    ring

theorem packNat_eq_packed (w : Nat) (f : Nat → Nat) (n : Nat) : packNat w f n = packed w ((List.range n).map f) := by
  induction n with
  | zero => rfl
  | succ n ih => simp [packNat, List.range_succ, packed_concat, ih]

theorem packNat_lt (w : Nat) (f : Nat → Nat) (n : Nat) : packNat w f n < 2 ^ (w * n) := by
  simpa [packNat_eq_packed] using packed_lt w ((List.range n).map f)

/-- Field `k` of a packed number. -/
theorem packNat_field (w : Nat) (f : Nat → Nat) {n k : Nat} (h : k < n) : packNat w f n / 2 ^ (w * k) % 2 ^ w = f k % 2 ^ w := by
  rw [packNat_eq_packed, packed_field w _ k (by simpa using h)]
  simp [List.getD_eq_getElem?_getD, h]

/-- Field `k` of a value packed from `n` fields. -/
theorem extractLsb'_packNat {W w n k : Nat} (f : Nat → Nat) (hW : w * n ≤ W) (h : k < n) :
    (BitVec.ofNat W (packNat w f n)).extractLsb' (w * k) w = BitVec.ofNat w (f k) := by
  have hlt : packNat w f n < 2 ^ W := lt_of_lt_of_le (packNat_lt w f n) (Nat.pow_le_pow_right (by decide) hW)
  apply BitVec.eq_of_toNat_eq
  rw [BitVec.extractLsb'_toNat, BitVec.toNat_ofNat, Nat.mod_eq_of_lt hlt, Nat.shiftRight_eq_div_pow, packNat_field w f h,
    BitVec.toNat_ofNat]

/-- Bit `k` of a value packed from `n` bits. -/
theorem getLsbD_packNat {W n k : Nat} (f : Nat → Bool) (hW : n ≤ W) (h : k < n) :
    (BitVec.ofNat W (packNat 1 (fun i => (f i).toNat) n)).getLsbD k = f k := by
  have e := congrArg (fun v => BitVec.getLsbD v 0) (extractLsb'_packNat (W := W) (w := 1) (fun i => (f i).toNat) (by omega) h)
  simp only [Nat.one_mul, BitVec.getLsbD_extractLsb', Nat.add_zero] at e
  cases hf : f k <;> simpa [hf] using e

/-! ## Bytes -/

theorem getLsbD_byteOf {w : Nat} (v : BitVec w) (k i : Nat) : (byteOf v k).getLsbD i = (decide (i < 8) && v.getLsbD (8 * k + i)) := by
  simp [byteOf]

/-- Two values of `n` bytes that agree at every byte are equal. -/
theorem eq_of_byteOf {w : Nat} (n : Nat) {u v : BitVec w} (hw : w = 8 * n) (h : ∀ k < n, byteOf u k = byteOf v k) : u = v := by
  apply BitVec.eq_of_getLsbD_eq
  intro i hi
  have e := congrArg (fun b => BitVec.getLsbD b (i % 8)) (h (i / 8) (by omega))
  have h8 : i % 8 < 8 := Nat.mod_lt _ (by decide)
  simpa only [getLsbD_byteOf, h8, decide_true, Bool.true_and, Nat.div_add_mod] using e

theorem natOfBytes_byte (l : List Byte) (k : Nat) : natOfBytes l / 2 ^ (8 * k) % 2 ^ 8 = (l.getD k 0).toNat := by
  induction l generalizing k with
  | nil => simp [natOfBytes]
  | cons b t ih =>
    have hb : b.toNat < 256 := b.isLt
    cases k with
    | zero => simp only [natOfBytes, List.getD_cons_zero, Nat.mul_zero, Nat.pow_zero, Nat.div_one]; omega
    | succ k =>
      have hd : natOfBytes (b :: t) / 2 ^ 8 = natOfBytes t := by simp only [natOfBytes]; omega
      rw [Nat.mul_succ, Nat.add_comm, Nat.pow_add, ← Nat.div_div_eq_div_mul, hd, List.getD_cons_succ, ih]

/-- Byte `k` of the value of a list of bytes. -/
theorem byteOf_ofBytes {w k : Nat} (l : List Byte) (h : 8 * k + 8 ≤ w) : byteOf (ofBytes w l) k = l.getD k 0 := by
  apply BitVec.eq_of_toNat_eq
  have hp : (2 : Nat) ^ w = 2 ^ (8 * k) * 2 ^ (w - 8 * k) := by rw [← Nat.pow_add]; congr 1; omega
  rw [byteOf, BitVec.extractLsb'_toNat, ofBytes, BitVec.toNat_ofNat, Nat.shiftRight_eq_div_pow, hp,
    Nat.mod_mul_right_div_self, Nat.mod_mod_of_dvd _ (Nat.pow_dvd_pow 2 (by omega)), natOfBytes_byte]

theorem byteOf_setWidth {w u k : Nat} (v : BitVec w) (h : 8 * k + 8 ≤ u) : byteOf (v.setWidth u) k = byteOf v k := by
  apply BitVec.eq_of_getLsbD_eq
  intro i hi
  have h1 : 8 * k + i < u := by omega
  simp [getLsbD_byteOf, h1]

@[simp] theorem length_bytesOf {w : Nat} (v : BitVec w) (n : Nat) : (bytesOf v n).length = n := by simp [bytesOf]

theorem getD_bytesOf {w : Nat} (v : BitVec w) {n k : Nat} (h : k < n) : (bytesOf v n).getD k 0 = byteOf v k := by
  simp [bytesOf, List.getD_eq_getElem?_getD, h]

/-- The bytes of a value give it back. -/
theorem ofBytes_bytesOf {w : Nat} (v : BitVec w) (n : Nat) (h : w = 8 * n) : ofBytes w (bytesOf v n) = v :=
  eq_of_byteOf n h (fun k hk => by rw [byteOf_ofBytes _ (by omega), getD_bytesOf v hk])

/-! ## Masks and merges -/

/-- Byte `k` of a merge: the new one where the mask is set. -/
theorem byteOf_mergeBytes (mask : BitVec 64) (new old : Sector) {k : Nat} (h : k < 64) :
    byteOf (mergeBytes mask new old) k = if mask.getLsbD k then byteOf new k else byteOf old k := by
  have hm : byteOf (byteMask mask) k = BitVec.ofNat 8 (if mask.getLsbD k then 255 else 0) :=
    extractLsb'_packNat (W := 512) (w := 8) _ (by decide) h
  have hb : byteOf (mergeBytes mask new old) k =
      (byteOf new k &&& byteOf (byteMask mask) k) ||| (byteOf old k &&& ~~~byteOf (byteMask mask) k) := by
    apply BitVec.eq_of_getLsbD_eq
    intro i hi
    have h1 : 8 * k + i < 512 := by omega
    simp only [mergeBytes, BitVec.getLsbD_or, BitVec.getLsbD_and, BitVec.getLsbD_not, getLsbD_byteOf, hi, h1, decide_true,
      Bool.true_and]
  have h255 : BitVec.ofNat 8 255 = BitVec.allOnes 8 := rfl
  rw [hb, hm]
  cases mask.getLsbD k <;> simp only [if_true, if_false, Bool.false_eq_true, h255]
  · simp only [BitVec.and_zero, BitVec.zero_or, BitVec.not_zero, BitVec.and_allOnes]
  · simp only [BitVec.and_allOnes, BitVec.not_allOnes, BitVec.and_zero, BitVec.or_zero]

@[simp] theorem mergeBytes_zero (new old : Sector) : mergeBytes 0 new old = old :=
  eq_of_byteOf 64 rfl (fun k hk => by
    rw [byteOf_mergeBytes 0 new old hk, if_neg (by simp)])

theorem getLsbD_byteRange {lo n k : Nat} (h : k < 64) : (byteRange lo n).getLsbD k = decide (lo ≤ k ∧ k < lo + n) := by
  rw [byteRange, BitVec.getLsbD_ofNat]
  simp only [h, decide_true, Bool.true_and, Nat.testBit_mul_two_pow, Nat.testBit_two_pow_sub_one]
  by_cases h1 : lo ≤ k
  · have : k - lo < n ↔ k < lo + n := by omega
    simp [h1, this]
  · simp [h1]

/-- The bytes of a piece of a string written at `a` that a sector takes. -/
theorem getLsbD_pieceOf (a : Nat) (b : List Byte) {sec k : Nat} (h : k < 64) :
    (pieceOf a b [] sec).1.getLsbD k = decide (a ≤ 64 * sec + k ∧ 64 * sec + k < a + b.length) := by
  have e := getLsbD_packNat (W := 64) (n := 64)
    (fun i => decide ((if 64 * sec + i < a then b.length else 64 * sec + i - a) < b.length)) (le_refl _) h
  have hp : (pieceOf a b [] sec).1 = BitVec.ofNat 64 (packNat 1
      (fun i => (decide ((if 64 * sec + i < a then b.length else 64 * sec + i - a) < b.length)).toNat) 64) := by
    dsimp only [pieceOf]
    congr 2
    funext i
    simp only [List.getD_nil, Bool.and_true]
    cases decide ((if 64 * sec + i < a then b.length else 64 * sec + i - a) < b.length) <;> rfl
  rw [hp, e]
  apply decide_eq_decide.mpr
  split <;> omega

theorem byteOf_pieceOf (a : Nat) (b : List Byte) {sec k : Nat} (h : k < 64) (ha : a ≤ 64 * sec + k) :
    byteOf (pieceOf a b [] sec).2 k = b.getD (64 * sec + k - a) 0 := by
  have e : byteOf (pieceOf a b [] sec).2 k =
      BitVec.ofNat 8 (b.getD (if 64 * sec + k < a then b.length else 64 * sec + k - a) 0).toNat :=
    extractLsb'_packNat (W := 512) (w := 8) _ (by decide) h
  rw [e, if_neg (by omega), BitVec.ofNat_toNat, BitVec.setWidth_eq]

/-! ## Sectors of the stacks -/

theorem byteOf_stackSector (m : Memory) (sec : Nat) {k : Nat} (h : k < 64) : byteOf (stackSector m sec) k = Mem.read m (64 * sec + k) := by
  have e : stackSector m sec = ofBytes 512 ((List.range 64).map (fun k => Mem.read m (64 * sec + k))) := rfl
  rw [e, byteOf_ofBytes _ (by omega)]
  simp [List.getD_eq_getElem?_getD, h]

/-- What a byte of memory reads as after the first `n` bytes of a sector have been stored. -/
theorem read_storeBytes (m : Memory) (sec : Nat) (v : Sector) (n a : Nat) :
    Mem.read ((List.range n).foldl (fun m k => Mem.write m (64 * sec + k) (byteOf v k)) m) a =
      if 64 * sec ≤ a ∧ a < 64 * sec + n then byteOf v (a - 64 * sec) else Mem.read m a := by
  induction n with
  | zero => rw [if_neg (by omega)]; rfl
  | succ n ih =>
    rw [List.range_succ, List.foldl_append]
    by_cases h : a = 64 * sec + n
    · subst h
      simp
    · rw [List.foldl_cons, List.foldl_nil, read_write_other _ _ h, ih]
      congr 1
      simp only [eq_iff_iff]
      omega

/-- A stored sector reads back, and every other one as before. -/
theorem stackSector_storeStack (m : Memory) (sec k : Nat) (v : Sector) :
    stackSector (storeStack m sec v) k = if k = sec then v else stackSector m k := by
  apply eq_of_byteOf 64 rfl
  intro j hj
  rw [byteOf_stackSector _ _ hj, storeStack, read_storeBytes]
  by_cases h : k = sec
  · subst h
    simp [hj]
  · rw [if_neg h, if_neg (by omega), byteOf_stackSector _ _ hj]

/-- The sectors of a few bytes within one sector. -/
theorem sectorsOf_within {pa n : Nat} (hn : 0 < n) (h : pa % 64 + n ≤ 64) : sectorsOf pa n = [pa / 64] := by
  have e : (pa + n - 1) / 64 - pa / 64 = 0 := by omega
  simp [sectorsOf, Nat.ne_of_gt hn, e]

theorem mem_lineSectors {line sec : Nat} : sec ∈ lineSectors line ↔ sec / 8 = line := by
  simp only [lineSectors, List.mem_map, List.mem_range]
  constructor
  · rintro ⟨k, hk, rfl⟩
    omega
  · intro h
    exact ⟨sec % 8, by omega, by omega⟩

end Sys2Proof.Machine
end

section
/-! SUPPORT. The home slices: what their operations change, and what a sector holds after them (R32, R36 to R39). -/

namespace Sys2Proof.Machine

/-! ## What the operations of the home slices may change -/

/-- `t` is `s` but for what an operation of the home slices may change: the slices with their counters, the bytes and poison of the
stacks, and what is known of their use. -/
def HomeStep (s t : State) : Prop :=
  ∃ use wb m p l2 lru pmc, t = { s with
    stackUse := use, writeBacks := wb, mem := m, poison := p, l2 := l2, l2use := lru, regs := { s.regs with pmc := pmc } }

namespace HomeStep

variable {s t u : State}

theorem refl (s : State) : HomeStep s s := ⟨_, _, _, _, _, _, _, rfl⟩

theorem trans (h : HomeStep s t) (g : HomeStep t u) : HomeStep s u := by
  obtain ⟨_, _, _, _, _, _, _, rfl⟩ := h
  obtain ⟨_, _, _, _, _, _, _, rfl⟩ := g
  exact ⟨_, _, _, _, _, _, _, rfl⟩

/-- A fold of operations of the home slices is one. -/
theorem foldl {α : Type} (f : State → α → State) (hf : ∀ s a, HomeStep s (f s a)) (l : List α) (s : State) :
    HomeStep s (l.foldl f s) := by
  induction l generalizing s with
  | nil => exact refl s
  | cons a l ih => exact (hf s a).trans (ih _)

theorem ctxs (h : HomeStep s t) : t.ctxs = s.ctxs := by obtain ⟨_, _, _, _, _, _, _, rfl⟩ := h; rfl
theorem rdc (h : HomeStep s t) : t.rdc = s.rdc := by obtain ⟨_, _, _, _, _, _, _, rfl⟩ := h; rfl
theorem hbm (h : HomeStep s t) : t.hbm = s.hbm := by obtain ⟨_, _, _, _, _, _, _, rfl⟩ := h; rfl
theorem linePins (h : HomeStep s t) : t.linePins = s.linePins := by obtain ⟨_, _, _, _, _, _, _, rfl⟩ := h; rfl
theorem replies (h : HomeStep s t) : t.replies = s.replies := by obtain ⟨_, _, _, _, _, _, _, rfl⟩ := h; rfl

/-- A change of the slices alone is an operation of theirs. -/
theorem of_slices (s : State) (l2 : Map L2Sector) (lru : List Nat) : HomeStep s { s with l2 := l2, l2use := lru } :=
  ⟨_, _, _, _, _, _, _, rfl⟩

/-- The contexts are as they were. -/
theorem ctx (h : HomeStep s t) (core x : Nat) : t.ctx core x = s.ctx core x := by rw [State.ctx, State.ctx, h.ctxs]

/-- The registers and logs of the stacks are as they were. -/
theorem stack (h : HomeStep s t) (n : Nat) : t.stack n = s.stack n := by rw [State.stack, State.stack, h.hbm]

theorem linePinned (h : HomeStep s t) (die line : Nat) : t.linePinned die line = s.linePinned die line := by
  rw [State.linePinned, State.linePinned, h.linePins]

end HomeStep

/-! ## What a read at the home slice returns -/

variable {s t : State} {sec k line : Nat}

/-- A sector reads alike in states that agree on its slice, its bytes and its poison. -/
theorem homeSector_congr (hl : mfind t.l2 k = mfind s.l2 k) (hm : stackSector t.mem k = stackSector s.mem k)
    (hp : t.poison.contains k = s.poison.contains k) : t.homeSector k = s.homeSector k := by
  simp only [State.homeSector, hl, hm, hp]

theorem homeSector_held {e : L2Sector} (h : mfind s.l2 k = some e) : s.homeSector k = (e.data, e.poison) := by
  simp only [State.homeSector, h]

theorem homeSector_absent (h : mfind s.l2 k = none) : s.homeSector k = (stackSector s.mem k, s.poison.contains k) := by
  simp only [State.homeSector, h]

theorem backed_iff {pa : Nat} : backed pa = true ↔ pa < 2 ^ 39 := by simp [backed]

/-! ## Write-backs -/

/-- The poison mark that a write-back leaves is that of what it wrote. -/
theorem toStack_poison (s : State) (sec : Nat) (v : Sector) (bad : Bool) (k : Nat) :
    (s.toStack sec v bad).poison.contains k = if k = sec then bad else s.poison.contains k := by
  cases bad with
  | false => by_cases h : k = sec <;> simp [State.toStack, h]
  | true =>
    by_cases hc : sec ∈ s.poison
    · by_cases h : k = sec <;> simp [State.toStack, hc, h]
    · by_cases h : k = sec <;> simp [State.toStack, hc, h]

/-- What cleaning a line does to one of its sectors: it is written back if it is Dirty (R39). -/
def State.cleanSector (s : State) (sec : Nat) : State :=
  match mfind s.l2 sec with
  | some e => if e.dirty then { (s.toStack sec e.data e.poison) with l2 := mset s.l2 sec { e with dirty := false } } else s
  | none => s

/-- A line is cleaned sector by sector. -/
theorem cleanLine_eq (s : State) (line : Nat) : s.cleanLine line = (lineSectors line).foldl State.cleanSector s := rfl

theorem cleanSector_dirty {e : L2Sector} (h : mfind s.l2 sec = some e) (hd : e.dirty = true) :
    s.cleanSector sec = { (s.toStack sec e.data e.poison) with l2 := mset s.l2 sec { e with dirty := false } } := by
  simp only [State.cleanSector, h, hd, if_true]

theorem cleanSector_clean (h : ∀ e, mfind s.l2 sec = some e → e.dirty = false) : s.cleanSector sec = s := by
  cases hf : mfind s.l2 sec with
  | none => simp only [State.cleanSector, hf]
  | some e => simp only [State.cleanSector, hf, h e hf, Bool.false_eq_true, if_false]

/-- Either a sector is Dirty and is written back, or cleaning it changes nothing. -/
theorem cleanSector_cases (s : State) (sec : Nat) :
    (∃ e, mfind s.l2 sec = some e ∧ e.dirty = true ∧
      s.cleanSector sec = { (s.toStack sec e.data e.poison) with l2 := mset s.l2 sec { e with dirty := false } }) ∨
    (∀ e, mfind s.l2 sec = some e → e.dirty = false) ∧ s.cleanSector sec = s := by
  by_cases h : ∃ e, mfind s.l2 sec = some e ∧ e.dirty = true
  · obtain ⟨e, he, hd⟩ := h
    exact .inl ⟨e, he, hd, cleanSector_dirty he hd⟩
  · have hc : ∀ e, mfind s.l2 sec = some e → e.dirty = false := fun e he => by
      simpa using fun hd => h ⟨e, he, hd⟩
    exact .inr ⟨hc, cleanSector_clean hc⟩

theorem homeStep_cleanSector (s : State) (sec : Nat) : HomeStep s (s.cleanSector sec) := by
  obtain ⟨e, -, -, h⟩ | ⟨-, h⟩ := cleanSector_cases s sec <;> rw [h]
  · exact ⟨_, _, _, _, _, _, _, rfl⟩
  · exact HomeStep.refl s

/-- Cleaning a sector leaves it in its slice, no longer Dirty, and every other as it was. -/
theorem mfind_cleanSector (s : State) (sec k : Nat) : mfind (s.cleanSector sec).l2 k =
    if k = sec then (mfind s.l2 k).map (fun e => { e with dirty := false }) else mfind s.l2 k := by
  obtain ⟨e, he, -, h⟩ | ⟨hc, h⟩ := cleanSector_cases s sec <;> rw [h] <;> by_cases hk : k = sec
  · subst hk
    simp [he]
  · simp [hk, mfind_mset_other]
  · subst hk
    cases hf : mfind s.l2 k with
    | none => simp
    | some e => simp [← hc e hf]
  · simp [hk]

/-- Cleaning a sector changes no sector of the stacks but that one, and that one only where it is Dirty. -/
theorem stackSector_cleanSector (s : State) (sec k : Nat) (h : k = sec → ∀ e, mfind s.l2 k = some e → e.dirty = false) :
    stackSector (s.cleanSector sec).mem k = stackSector s.mem k := by
  obtain ⟨e, he, hd, hs⟩ | ⟨-, hs⟩ := cleanSector_cases s sec <;> rw [hs]
  have hk : k ≠ sec := fun q => by simp [h q e (q ▸ he)] at hd
  simp [State.toStack, stackSector_storeStack, hk]

/-- A read at the home slice returns the same before and after a sector is cleaned. -/
theorem homeSector_cleanSector (s : State) (sec k : Nat) : (s.cleanSector sec).homeSector k = s.homeSector k := by
  obtain ⟨e, he, hd, h⟩ | ⟨-, h⟩ := cleanSector_cases s sec <;> rw [h]
  by_cases hk : k = sec
  · subst hk
    rw [homeSector_held he, homeSector_held (e := { e with dirty := false })]
    exact mfind_mset_same _ _ _
  · refine homeSector_congr (mfind_mset_other _ _ hk) ?_ ?_
    · simp [State.toStack, stackSector_storeStack, hk]
    · simpa [hk] using toStack_poison s sec e.data e.poison k

theorem mem_writeBacks_cleanSector {w : WriteBack} (h : w ∈ s.writeBacks) (hw : w.sec ≠ sec) : w ∈ (s.cleanSector sec).writeBacks := by
  obtain ⟨e, -, -, hs⟩ | ⟨-, hs⟩ := cleanSector_cases s sec <;> rw [hs]
  · simp [State.toStack, h, hw]
  · exact h

theorem homeStep_cleanLine (s : State) (line : Nat) : HomeStep s (s.cleanLine line) :=
  HomeStep.foldl _ homeStep_cleanSector _ s

theorem homeSector_cleanLine (s : State) (line k : Nat) : (s.cleanLine line).homeSector k = s.homeSector k := by
  rw [cleanLine_eq]
  induction lineSectors line generalizing s with
  | nil => rfl
  | cons a l ih => rw [List.foldl_cons, ih, homeSector_cleanSector]

theorem mfind_cleanSectors (l : List Nat) (s : State) (k : Nat) : mfind (l.foldl State.cleanSector s).l2 k =
    if k ∈ l then (mfind s.l2 k).map (fun e => { e with dirty := false }) else mfind s.l2 k := by
  induction l generalizing s with
  | nil => simp
  | cons a l ih =>
    rw [List.foldl_cons, ih, mfind_cleanSector]
    by_cases ha : k = a
    · subst ha
      simp [Option.map_map, Function.comp_def]
    · simp [ha]

/-- Cleaning a line leaves its sectors in the slice, none of them Dirty, and those of other lines as they were. -/
theorem mfind_cleanLine (s : State) (line k : Nat) : mfind (s.cleanLine line).l2 k =
    if k ∈ lineSectors line then (mfind s.l2 k).map (fun e => { e with dirty := false }) else mfind s.l2 k :=
  mfind_cleanSectors _ s k

/-- Once a sector is not Dirty, cleaning others does not write it to its stack. -/
theorem stackSector_cleanSectors (l : List Nat) {s : State} (h : ∀ e, mfind s.l2 k = some e → e.dirty = false) :
    stackSector (l.foldl State.cleanSector s).mem k = stackSector s.mem k := by
  induction l generalizing s with
  | nil => rfl
  | cons a l ih =>
    rw [List.foldl_cons, ih, stackSector_cleanSector s a k (fun _ => h)]
    intro e he
    rw [mfind_cleanSector] at he
    split at he
    · obtain ⟨f, -, rfl⟩ := Option.map_eq_some_iff.mp he
      rfl
    · exact h e he

/-- A Dirty sector of a line that is cleaned goes to its stack. -/
theorem stackSector_cleanLine {e : L2Sector} (hk : k ∈ lineSectors line) (he : mfind s.l2 k = some e) (hd : e.dirty = true) :
    stackSector (s.cleanLine line).mem k = e.data := by
  rw [cleanLine_eq]
  revert hk
  induction lineSectors line generalizing s with
  | nil => simp
  | cons a l ih =>
    intro hk
    rw [List.foldl_cons]
    by_cases ha : k = a
    · subst ha
      rw [stackSector_cleanSectors, cleanSector_dirty he hd]
      · simp [State.toStack, stackSector_storeStack]
      · intro f hf
        rw [mfind_cleanSector, if_pos rfl, he] at hf
        cases hf
        rfl
    · exact ih (by rw [mfind_cleanSector, if_neg ha, he]) ((List.mem_cons.mp hk).resolve_left ha)

theorem mem_writeBacks_cleanLine {w : WriteBack} (h : w ∈ s.writeBacks) (hw : w.sec / 8 ≠ line) : w ∈ (s.cleanLine line).writeBacks := by
  have hl : ∀ a ∈ lineSectors line, w.sec ≠ a := fun a ha q => hw (mem_lineSectors.mp (q ▸ ha))
  rw [cleanLine_eq]
  revert hl
  induction lineSectors line generalizing s with
  | nil => exact fun _ => h
  | cons a l ih => exact fun hl => ih (mem_writeBacks_cleanSector h (hl a (by simp))) (fun b hb => hl b (by simp [hb]))

/-! ## Evictions and the order of use -/

theorem mfind_merases {α : Type} (l : List Nat) (m : Map α) (k : Nat) :
    mfind (l.foldl (fun m a => merase m a) m) k = if k ∈ l then none else mfind m k := by
  induction l generalizing m with
  | nil => simp
  | cons a l ih =>
    rw [List.foldl_cons, ih]
    by_cases ha : k = a
    · subst ha
      simp [mfind_merase_same]
    · simp [ha, mfind_merase_other]

theorem evictLine_eq (s : State) (line : Nat) : s.evictLine line = { s.cleanLine line with
    l2 := (lineSectors line).foldl (fun m a => merase m a) (s.cleanLine line).l2
    l2use := (s.cleanLine line).l2use.filter (fun a => a != line) } := rfl

theorem homeStep_evictLine (s : State) (line : Nat) : HomeStep s (s.evictLine line) := by
  rw [evictLine_eq]
  exact (homeStep_cleanLine s line).trans (HomeStep.of_slices _ _ _)

theorem mfind_evictLine (h : k / 8 ≠ line) : mfind (s.evictLine line).l2 k = mfind s.l2 k := by
  have hk : k ∉ lineSectors line := fun q => h (mem_lineSectors.mp q)
  rw [evictLine_eq, mfind_merases, if_neg hk, mfind_cleanLine, if_neg hk]

/-- An eviction leaves what every other line reads as. -/
theorem homeSector_evictLine (h : k / 8 ≠ line) : (s.evictLine line).homeSector k = s.homeSector k := by
  have hk : k ∉ lineSectors line := fun q => h (mem_lineSectors.mp q)
  have hf : mfind (s.evictLine line).l2 k = mfind (s.cleanLine line).l2 k := by rw [mfind_evictLine h, mfind_cleanLine, if_neg hk]
  rw [← homeSector_cleanLine s line k]
  refine homeSector_congr hf ?_ ?_ <;> rw [evictLine_eq]

/-- Using a line evicts no other line, or one other line, and changes the order of use. -/
theorem useLine_cases (s : State) (line : Nat) :
    ∃ u lru, s.useLine line = { u with l2use := lru } ∧ (u = s ∨ ∃ v, v ≠ line ∧ u = s.evictLine v) := by
  unfold State.useLine
  by_cases hc : s.l2use.contains line = true
  · exact ⟨s, _, if_pos hc, .inl rfl⟩
  · rw [if_neg hc]
    dsimp only
    split
    · exact ⟨s, _, rfl, .inl rfl⟩
    · split
      · rename_i v hv
        have hm : v ∈ s.l2use := (List.mem_filter.mp (List.mem_of_find?_eq_some hv)).1
        exact ⟨_, _, rfl, .inr ⟨v, fun q => hc (by simpa [q] using hm), rfl⟩⟩
      · exact ⟨s, _, rfl, .inl rfl⟩

/-- What using a line leaves as it was, whatever it evicts: the sectors of the line and what is to be written back of them. -/
theorem useLine_keeps (s : State) (line : Nat) :
    ∃ u lru, s.useLine line = { u with l2use := lru } ∧ HomeStep s u ∧
      (∀ k, k / 8 = line → mfind u.l2 k = mfind s.l2 k ∧ u.homeSector k = s.homeSector k) ∧
      ∀ w ∈ s.writeBacks, w.sec / 8 = line → w ∈ u.writeBacks := by
  obtain ⟨u, lru, h, hu | ⟨v, hv, hu⟩⟩ := useLine_cases s line
  · exact ⟨u, lru, h, hu ▸ HomeStep.refl s, fun k _ => hu ▸ ⟨rfl, rfl⟩, fun w hw _ => hu ▸ hw⟩
  · have hn : ∀ k, k / 8 = line → k / 8 ≠ v := fun k hk => hk ▸ hv.symm
    refine ⟨u, lru, h, hu ▸ homeStep_evictLine s v, fun k hk => ?_, fun w hw hl => ?_⟩
    · rw [hu]
      exact ⟨mfind_evictLine (hn k hk), homeSector_evictLine (hn k hk)⟩
    · rw [hu, evictLine_eq]
      have hc : w ∈ (s.cleanLine v).writeBacks := mem_writeBacks_cleanLine hw (hn _ hl)
      exact hc

theorem homeStep_useLine (s : State) (line : Nat) : HomeStep s (s.useLine line) := by
  obtain ⟨u, lru, h, hs, -, -⟩ := useLine_keeps s line
  rw [h]
  exact hs.trans (HomeStep.of_slices u u.l2 lru)

/-- Using a line leaves what it reads as. -/
theorem homeSector_useLine (h : k / 8 = line) : (s.useLine line).homeSector k = s.homeSector k := by
  obtain ⟨u, lru, hu, -, hk, -⟩ := useLine_keeps s line
  rw [hu, ← (hk k h).2]
  rfl

theorem mem_writeBacks_useLine {w : WriteBack} (hw : w ∈ s.writeBacks) (h : w.sec / 8 = line) : w ∈ (s.useLine line).writeBacks := by
  obtain ⟨u, lru, hu, -, -, hm⟩ := useLine_keeps s line
  rw [hu]
  exact hm w hw h

/-! ## Fills and writes -/

theorem fillHome_unbacked (h : backed (64 * sec) = false) : s.fillHome sec = s := by simp [State.fillHome, h]

theorem fillHome_held {e : L2Sector} (hb : backed (64 * sec) = true) (h : mfind s.l2 sec = some e) :
    s.fillHome sec = s.useLine (sec / 8) := by
  simp [State.fillHome, hb, h]

theorem fillHome_absent (hb : backed (64 * sec) = true) (h : mfind s.l2 sec = none) :
    ∃ u, u = (s.useLine (sec / 8)).count (16 * homeDie (64 * sec) + sliceOf (64 * sec)) 7 1 ∧ s.fillHome sec = { u with
      l2 := mset u.l2 sec { data := (s.homeSector sec).1, dirty := false, poison := (s.homeSector sec).2 }
      stackUse := u.stackUse ++ [(sec, false)] } :=
  ⟨_, rfl, by simp only [State.fillHome, hb, h, Bool.not_true, Bool.false_eq_true, if_false]⟩

theorem homeStep_fillHome (s : State) (sec : Nat) : HomeStep s (s.fillHome sec) := by
  cases hb : backed (64 * sec) with
  | false => rw [fillHome_unbacked hb]; exact HomeStep.refl s
  | true =>
    cases hf : mfind s.l2 sec with
    | some e => rw [fillHome_held hb hf]; exact homeStep_useLine s _
    | none =>
      obtain ⟨u, rfl, h⟩ := fillHome_absent hb hf
      rw [h]
      exact (homeStep_useLine s _).trans ⟨_, _, _, _, _, _, _, rfl⟩

/-- A fill brings a sector that the slice does not hold, as a read returns it. -/
theorem mfind_fillHome (hb : backed (64 * sec) = true) (h : mfind s.l2 sec = none) : mfind (s.fillHome sec).l2 sec =
    some { data := stackSector s.mem sec, dirty := false, poison := s.poison.contains sec } := by
  obtain ⟨u, -, hu⟩ := fillHome_absent hb h
  rw [hu, homeSector_absent h]
  exact mfind_mset_same _ _ _

theorem mem_writeBacks_fillHome {w : WriteBack} (hw : w ∈ s.writeBacks) (h : w.sec / 8 = sec / 8) : w ∈ (s.fillHome sec).writeBacks := by
  cases hb : backed (64 * sec) with
  | false => rwa [fillHome_unbacked hb]
  | true =>
    cases hf : mfind s.l2 sec with
    | some e => rw [fillHome_held hb hf]; exact mem_writeBacks_useLine hw h
    | none =>
      obtain ⟨u, rfl, hu⟩ := fillHome_absent hb hf
      rw [hu]
      exact mem_writeBacks_useLine hw h

/-- A fill leaves what its sector reads as. -/
theorem homeSector_fillHome (s : State) (sec : Nat) : (s.fillHome sec).homeSector sec = s.homeSector sec := by
  cases hb : backed (64 * sec) with
  | false => rw [fillHome_unbacked hb]
  | true =>
    cases hf : mfind s.l2 sec with
    | some e => rw [fillHome_held hb hf]; exact homeSector_useLine rfl
    | none =>
      obtain ⟨u, -, hu⟩ := fillHome_absent hb hf
      rw [hu]
      exact homeSector_held (e := { data := _, dirty := _, poison := _ }) (mfind_mset_same _ _ _)

theorem homeWrite_none (mask : BitVec 64) (v : Sector) (bad : Bool) (h : mask = 0 ∨ backed (64 * sec) = false) :
    s.homeWrite sec mask v bad = s := by
  simp only [State.homeWrite, Bool.not_eq_true']
  exact if_pos h

/-- A write at the home slice puts into the slice what the sector read as before with the bytes of the mask replaced (R38). -/
theorem homeWrite_some {mask : BitVec 64} (v : Sector) (bad : Bool) (hm : mask ≠ 0) (hb : backed (64 * sec) = true) :
    ∃ u, HomeStep s u ∧ u.homeSector sec = s.homeSector sec ∧ s.homeWrite sec mask v bad = 
      { u with l2 := mset u.l2 sec { data := mergeBytes mask v (s.homeSector sec).1, dirty := true,
                                     poison := bad || ((s.homeSector sec).2 && mask != allBytes) } } := by
  have hn : ¬(mask = 0 ∨ (!backed (64 * sec)) = true) := by simp only [hm, hb, Bool.not_true, Bool.false_eq_true, or_self, not_false_eq_true]
  have hu : ∀ u, u = (if mask = allBytes then s.useLine (sec / 8) else s.fillHome sec) →
      HomeStep s u ∧ u.homeSector sec = s.homeSector sec := by
    rintro u rfl
    split
    · exact ⟨homeStep_useLine s _, homeSector_useLine rfl⟩
    · exact ⟨homeStep_fillHome s _, homeSector_fillHome s sec⟩
  obtain ⟨h1, h2⟩ := hu _ rfl
  refine ⟨_, h1, h2, ?_⟩
  rw [← h2]
  unfold State.homeWrite
  exact if_neg hn

theorem homeStep_homeWrite (s : State) (sec : Nat) (mask : BitVec 64) (v : Sector) (bad : Bool) :
    HomeStep s (s.homeWrite sec mask v bad) := by
  by_cases h : mask = 0 ∨ backed (64 * sec) = false
  · rw [homeWrite_none mask v bad h]
    exact HomeStep.refl s
  · rw [not_or, Bool.not_eq_false] at h
    obtain ⟨u, hu, -, he⟩ := homeWrite_some (s := s) v bad h.1 h.2
    rw [he]
    exact hu.trans ⟨_, _, _, _, _, _, _, rfl⟩

/-- A write at the home slice reads back: its bytes laid over what was there (R38, R40). -/
theorem homeSector_homeWrite (mask : BitVec 64) (v : Sector) (bad : Bool) (hb : backed (64 * sec) = true) :
    ((s.homeWrite sec mask v bad).homeSector sec).1 = mergeBytes mask v (s.homeSector sec).1 := by
  by_cases h : mask = 0
  · rw [homeWrite_none mask v bad (.inl h), h, mergeBytes_zero]
  · obtain ⟨u, -, -, he⟩ := homeWrite_some (s := s) v bad h hb
    rw [he, homeSector_held (mfind_mset_same _ _ _)]

theorem homeStep_homeStore (s : State) (pa : Nat) (b : List Byte) : HomeStep s (s.homeStore pa b) :=
  HomeStep.foldl _ (fun s _ => homeStep_homeWrite s _ _ _ _) _ s

theorem homeStep_touchBytes (s : State) (pa n : Nat) : HomeStep s (s.touchBytes pa n) :=
  HomeStep.foldl _ homeStep_fillHome _ s

/-! ## Bytes within one sector -/

theorem homeBytes_within {pa n : Nat} (hn : 0 < n) (h : pa % 64 + n ≤ 64) :
    s.homeBytes pa n = (((bytesOf (s.homeSector (pa / 64)).1 64).drop (pa % 64)).take n, (s.homeSector (pa / 64)).2) := by
  simp [State.homeBytes, sectorsOf_within hn h]

/-- Bytes `lo` to `lo + n - 1` of a list of the bytes of a sector. -/
theorem take_drop_bytesOf (v : Sector) {lo n : Nat} (h : lo + n ≤ 64) :
    ((bytesOf v 64).drop lo).take n = (List.range n).map (fun i => byteOf v (lo + i)) := by
  apply List.ext_getElem
  · simp; omega
  · intro i h1 h2
    simp [bytesOf]

/-- The bytes that a merge of a piece within its sector holds where the piece lies. -/
theorem bytes_mergePiece {pa : Nat} (b : List Byte) (old : Sector) (h : pa % 64 + b.length ≤ 64) :
    ((bytesOf (mergeBytes (pieceOf pa b [] (pa / 64)).1 (pieceOf pa b [] (pa / 64)).2 old) 64).drop (pa % 64)).take b.length = b := by
  rw [take_drop_bytesOf _ h]
  apply List.ext_getElem
  · simp
  · intro i h1 h2
    have hk : pa % 64 + i < 64 := by omega
    have hd : decide (pa ≤ 64 * (pa / 64) + (pa % 64 + i) ∧ 64 * (pa / 64) + (pa % 64 + i) < pa + b.length) = true := by
      rw [decide_eq_true_eq]; omega
    have hi : 64 * (pa / 64) + (pa % 64 + i) - pa = i := by omega
    rw [List.getElem_map, List.getElem_range, byteOf_mergeBytes _ _ _ hk, getLsbD_pieceOf pa b hk, hd, if_pos rfl,
      byteOf_pieceOf pa b hk (by omega), hi, List.getD_eq_getElem?_getD, List.getElem?_eq_getElem h2, Option.getD_some]

theorem homeStore_within {pa : Nat} {b : List Byte} (hn : 0 < b.length) (h : pa % 64 + b.length ≤ 64) :
    s.homeStore pa b = s.homeWrite (pa / 64) (pieceOf pa b [] (pa / 64)).1 (pieceOf pa b [] (pa / 64)).2 false := by
  rw [State.homeStore, sectorsOf_within hn h, List.foldl_cons, List.foldl_nil]

/-- Bytes stored within one sector at the home slice read back. -/
theorem homeBytes_homeStore {pa : Nat} (b : List Byte) (hn : 0 < b.length) (h : pa % 64 + b.length ≤ 64)
    (hb : backed (64 * (pa / 64)) = true) : ((s.homeStore pa b).homeBytes pa b.length).1 = b := by
  rw [homeBytes_within hn h, homeStore_within hn h, homeSector_homeWrite _ _ _ hb]
  exact bytes_mergePiece b _ h

/-- A word stored at the home slice reads back. -/
theorem homeWord_homeStore {pa : Nat} (w : Word) (h : pa % 8 = 0) (hb : backed (64 * (pa / 64)) = true) :
    (s.homeStore pa (bytesOf w 8)).homeWord pa = w := by
  have e := homeBytes_homeStore (s := s) (bytesOf w 8) (by simp) (by simp; omega) hb
  rw [length_bytesOf] at e
  rw [State.homeWord, e, ofBytes_bytesOf w 8 rfl]

end Sys2Proof.Machine
end

section
/-! SUPPORT. Reports: what offering an event to the severity matrix may change (R344 to R347), and the unwind of a containment
region (R162, R349). -/

namespace Sys2Proof.Machine

open Sys2Proof.Spec

/-- `t` is `s` but for what a report may change: the records that are due, the counts of corrected events, the interrupts that are
pending, the resets that are asked for, and REPLACE. -/
def Reported (s t : State) : Prop :=
  ∃ due ints imsic isl rep counts logged, t = { s with
    logDue := due, interrupts := ints, imsic := imsic, islands := isl, regs := { s.regs with replace := rep },
    errCounts := counts, errLogged := logged }

namespace Reported

variable {s t u : State}

theorem refl (s : State) : Reported s s := ⟨_, _, _, _, _, _, _, rfl⟩

theorem trans (h : Reported s t) (g : Reported t u) : Reported s u := by
  obtain ⟨_, _, _, _, _, _, _, rfl⟩ := h
  obtain ⟨_, _, _, _, _, _, _, rfl⟩ := g
  exact ⟨_, _, _, _, _, _, _, rfl⟩

theorem ctxs (h : Reported s t) : t.ctxs = s.ctxs := by obtain ⟨_, _, _, _, _, _, _, rfl⟩ := h; rfl
theorem l2 (h : Reported s t) : t.l2 = s.l2 := by obtain ⟨_, _, _, _, _, _, _, rfl⟩ := h; rfl
theorem mem (h : Reported s t) : t.mem = s.mem := by obtain ⟨_, _, _, _, _, _, _, rfl⟩ := h; rfl
theorem poison (h : Reported s t) : t.poison = s.poison := by obtain ⟨_, _, _, _, _, _, _, rfl⟩ := h; rfl
theorem hbm (h : Reported s t) : t.hbm = s.hbm := by obtain ⟨_, _, _, _, _, _, _, rfl⟩ := h; rfl

/-- The contexts are as they were. -/
theorem ctx (h : Reported s t) (core x : Nat) : t.ctx core x = s.ctx core x := by rw [State.ctx, State.ctx, h.ctxs]

/-- The registers and logs of the stacks are as they were. -/
theorem stack (h : Reported s t) (n : Nat) : t.stack n = s.stack n := by rw [State.stack, State.stack, h.hbm]

end Reported

theorem reported_elog (s : State) (e : Event) (repl : Bool) (act : Nat) : Reported s (s.elog e repl act) :=
  ⟨_, _, _, _, _, _, _, rfl⟩

theorem reported_interrupt (s : State) (id : Nat) : Reported s (s.interrupt id) := ⟨_, _, _, _, _, _, _, rfl⟩

theorem reported_askReset (s : State) (n : Nat) : Reported s (s.askReset n) := by
  unfold State.askReset
  split
  · exact Reported.refl s
  · exact ⟨_, _, _, _, _, _, _, rfl⟩

theorem reported_logEvent (s : State) (e : Event) (repl : Bool) : Reported s (s.logEvent e repl) := by
  have h1 : Reported s (if s.applied e = 0 then s else s.elog e repl (s.applied e)) := by
    split
    · exact Reported.refl s
    · exact reported_elog s e repl _
  have h2 : ∀ u : State, Reported u (if s.applied e ≥ 2 then u.interrupt 1 else u) := fun u => by
    split
    · exact reported_interrupt u 1
    · exact Reported.refl u
  have h3 : ∀ u : State, Reported u (if s.applied e = 4 then e.island.elim u u.askReset else u) := fun u => by
    split
    · cases e.island with
      | none => exact Reported.refl u
      | some n => exact reported_askReset u n
    · exact Reported.refl u
  exact (h1.trans (h2 _)).trans (h3 _)

theorem reported_offer (s : State) (e : Event) : Reported s (s.offer e) := by
  unfold State.offer
  dsimp only
  split
  · have hr : Reported (s.logEvent e (e.forced || s.repl e.cls e.src))
        ((s.logEvent e (e.forced || s.repl e.cls e.src)).updRegs (fun r => { r with replace := true })) := ⟨_, _, _, _, _, _, _, rfl⟩
    exact ((reported_logEvent s e _).trans hr).trans (reported_logEvent _ _ _)
  · exact reported_logEvent s e _

theorem reported_corrected (s : State) (i loc : Nat) (e : Event) : Reported s (s.corrected i loc e) := by
  have hc : Reported s (s.countError i loc).1 := ⟨_, _, _, _, _, _, _, rfl⟩
  unfold State.corrected
  dsimp only
  split
  · exact hc.trans (reported_offer _ _)
  · exact hc

/-! ## Causes of contexts -/

/-- A cause of a context that the matrix neither makes a kill nor a reset is only reported, and is still to be delivered (R345). -/
theorem report_delivers {s : State} {core x cause src : Nat} {info : Word} (h : s.action (classOf cause) src < 3) :
    ∃ u, s.report core x cause src info = (u, true) ∧ Reported s u := by
  unfold State.report State.reportEvent
  dsimp only
  generalize hg : ({ ev cause src 1 core with
    launch := (s.ctx core x).task.elim 0 (·.launch), task := (s.ctx core x).task.elim 0 (·.task), info := info,
    ctx := (s.ctx core x).task.isSome, island := if (ev cause src 1 core).lkind = 6 then none else some (coreIsland core) } : Event) = e
  have ha : s.action e.cls e.src < 3 := by rw [← hg]; exact h
  have hl : s.applied e < 3 := by
    unfold State.applied
    dsimp only
    split <;> omega
  refine ⟨s.offer e, ?_, reported_offer s e⟩
  rw [if_neg (by omega), Bool.eq_iff_iff.mpr ⟨fun _ => rfl, fun _ => bne_iff_ne.mpr (by omega)⟩]

/-- Reading a context after its own change. -/
@[simp] theorem ctx_updCtx_same (s : State) (core x : Nat) (f : Ctx → Ctx) : (s.updCtx core x f).ctx core x = f (s.ctx core x) := by
  simp [State.ctx]

/-- Poison that is to be delivered unwinds the innermost containment region (R32, R162). -/
theorem ctx_poisoned_region {s : State} {core x src snum agent : Nat} {info : Word} {g : Region} {rest : List Region}
    (h : s.action 5 agent < 3) (hg : (s.ctx core x).regions = g :: rest) :
    (s.poisoned core x src snum info agent).ctx core x = (s.ctx core x).unwound g rest := by
  obtain ⟨u, hu, hr⟩ := report_delivers (s := s) (core := core) (x := x) (cause := 0x47) (src := agent) (info := info) h
  unfold State.poisoned
  rw [hu]
  simp [hr.ctx, hg]

/-- Outside every region it is a late fault that is pending (R349). -/
theorem ctx_poisoned_outside {s : State} {core x src snum agent : Nat} {info : Word}
    (h : s.action 5 agent < 3) (hg : (s.ctx core x).regions = []) :
    (s.poisoned core x src snum info agent).ctx core x = { s.ctx core x with pending := (s.ctx core x).pending ++
      [{ cause := 0x47, src := src, snum := snum, info := info, seen := s.cycle }] } := by
  obtain ⟨u, hu, hr⟩ := report_delivers (s := s) (core := core) (x := x) (cause := 0x47) (src := agent) (info := info) h
  unfold State.poisoned
  rw [hu]
  simp [hr.ctx, hg]

/-- The registers after an unwind: those of the region's opening, with 0x47 in D (R162). -/
theorem readS_unwound (c : Ctx) (g : Region) (rest : List Region) :
    (g.d ≠ 0 → (c.unwound g rest).readS g.d = 0x47) ∧ ∀ r ≠ g.d, r ≠ 0 → (c.unwound g rest).readS r = mget 0 g.regs r := by
  constructor
  · intro hd
    simp [Ctx.unwound, Ctx.readS, hd]
  · intro r hr h0
    by_cases hd : g.d = 0
    · simp [Ctx.unwound, Ctx.readS, h0, hd]
    · simp [Ctx.unwound, Ctx.readS, h0, hd, mget_mset_other _ _ _ hr]

/-- Settles O59: the cause is only reported, so the context unwinds its innermost region or has the fault pending. -/
theorem regionUnwind : Obligations.RegionUnwind := by
  unfold Obligations.RegionUnwind
  rintro s core x src snum info agent t ha rfl
  constructor
  · intro g rest hg
    rw [ctx_poisoned_region ha hg]
    obtain ⟨h47, hregs⟩ := readS_unwound (s.ctx core x) g rest
    exact ⟨rfl, rfl, rfl, rfl, rfl, rfl, h47, hregs⟩
  · intro hg
    rw [ctx_poisoned_outside ha hg]
    exact ⟨rfl, rfl, rfl⟩

end Sys2Proof.Machine
end

section
/-! SUPPORT. What happens to the stacks from below: reads and writes of codewords with what is logged of them, spoilt lines, and evictions
from the remote-data caches (R30 to R35, R41). -/

namespace Sys2Proof.Machine

variable {s t : State} {sec k : Nat}

/-! ## The logs of a stack -/

@[simp] theorem stack_updStack_same (s : State) (n : Nat) (f : Stack → Stack) : (s.updStack n f).stack n = f (s.stack n) := by
  simp [State.stack, State.updStack]

/-- A record moves the HEAD of its ring on by one, whether or not it loses an old one (R369). -/
theorem ringPush_head (n : Nat) (head tail : BitVec 32) : (ringPush n head tail).1 = head + 1 := by
  unfold ringPush
  split <;> rfl

/-- `t` is `s` but for the registers and logs of the stacks and what a report changes. -/
def StackLogged (s t : State) : Prop := ∃ hbm, Reported { s with hbm := hbm } t

namespace StackLogged

theorem l2 (h : StackLogged s t) : t.l2 = s.l2 := by obtain ⟨_, h⟩ := h; exact h.l2
theorem mem (h : StackLogged s t) : t.mem = s.mem := by obtain ⟨_, h⟩ := h; exact h.mem
theorem poison (h : StackLogged s t) : t.poison = s.poison := by obtain ⟨_, h⟩ := h; exact h.poison

end StackLogged

theorem reported_arrayEvent (s : State) (c : Codeword) (origin : Nat) (fixed : Bool) (synd : BitVec 32) :
    ∃ r, Reported (s.arrayLog c.stack r) (s.arrayEvent c origin fixed synd) := by
  refine ⟨s.wordRecord c (if fixed then 1 else 2) origin 0 0xFF 0xFF synd, ?_⟩
  unfold State.arrayEvent
  dsimp only
  split
  · exact (reported_offer _ _).trans (reported_corrected _ _ _ _)
  · exact reported_offer _ _

/-- An array error moves the array log on, leaves WBCOR, and is otherwise only reported (R33). -/
theorem arrayEvent_logs (s : State) (c : Codeword) (origin : Nat) (fixed : Bool) (synd : BitVec 32) :
    StackLogged s (s.arrayEvent c origin fixed synd) ∧
      ((s.arrayEvent c origin fixed synd).stack c.stack).ahead = (s.stack c.stack).ahead + 1 ∧
      ((s.arrayEvent c origin fixed synd).stack c.stack).wbcor = (s.stack c.stack).wbcor := by
  obtain ⟨r, h⟩ := reported_arrayEvent s c origin fixed synd
  rw [h.stack]
  exact ⟨⟨_, h⟩, by simp [State.arrayLog, ringPush_head], by simp [State.arrayLog]⟩

/-- A recovered transfer error moves the transfer log on and is otherwise only reported (R33). -/
theorem transferEvent_logs (s : State) (c : Codeword) (origin kind tries lane spare : Nat) (last : Bool) :
    StackLogged s (s.transferEvent c origin kind tries lane spare last) ∧
      ((s.transferEvent c origin kind tries lane spare last).stack c.stack).thead = (s.stack c.stack).thead + 1 := by
  have h : Reported (s.transferLog c.stack (s.wordRecord c kind origin tries lane spare 0))
      (s.transferEvent c origin kind tries lane spare last) := (reported_offer _ _).trans (reported_corrected _ _ _ _)
  rw [h.stack]
  exact ⟨⟨_, h⟩, by simp [State.transferLog, ringPush_head]⟩

theorem transferLost_logs (s : State) (c : Codeword) (origin lane tries : Nat) : StackLogged s (s.transferLost c origin lane tries) := by
  have h : Reported (s.transferLog c.stack (s.wordRecord c 5 origin tries lane 0xFF 0)) (s.transferLost c origin lane tries) := by
    unfold State.transferLost State.stackEvent
    exact reported_offer _ _
  exact ⟨_, h⟩

/-! ## Codewords that are read -/

/-- The state in which a codeword that ECC corrects has been read: it is logged, and to be written back after a scrub or with WBCOR. -/
def State.correctedRead (s : State) (c : Codeword) (origin : Nat) (synd : BitVec 32) : State :=
  let t := s.arrayEvent c origin true synd
  if origin = 2 ∨ (t.stack c.stack).wbcor then
    { t with writeBacks := t.writeBacks ++ [{ sec := c.sec, half := c.half, origin := if origin = 2 then 2 else 1 }] }
  else t

/-- A read of a codeword that ECC corrects: it is logged, and to be written back after a scrub or with WBCOR. One that ECC miscorrects
differs in the stored bytes alone (R30, R32). -/
theorem readWord_corrected (s : State) (c : Codeword) (origin : Nat) (synd : BitVec 32) :
    ∃ t, s.readWord c origin { transfer := .clean, ecc := .corrected synd } = (t, true) ∧
      s.readWord c origin { transfer := .clean, ecc := .miscorrected synd } = (t.unknownWord c, true) ∧
      t.l2 = s.l2 ∧ t.mem = s.mem ∧ t.poison = s.poison ∧ (t.stack c.stack).ahead = (s.stack c.stack).ahead + 1 ∧
      (origin = 2 ∨ (s.stack c.stack).wbcor = true →
        { sec := c.sec, half := c.half, origin := if origin = 2 then 2 else 1 } ∈ t.writeBacks) := by
  obtain ⟨hl, ha, hw⟩ := arrayEvent_logs s c origin true synd
  refine ⟨s.correctedRead c origin synd, rfl, rfl, ?_⟩
  unfold State.correctedRead
  dsimp only
  rw [hw]
  by_cases h : origin = 2 ∨ (s.stack c.stack).wbcor = true
  · rw [if_pos h]
    exact ⟨hl.l2, hl.mem, hl.poison, ha, fun _ => List.mem_append_right _ (List.mem_singleton.mpr rfl)⟩
  · rw [if_neg h]
    exact ⟨hl.l2, hl.mem, hl.poison, ha, fun q => absurd q h⟩

/-- A read of a codeword whose transfer is repeated (R31). -/
theorem readWord_retried (s : State) (c : Codeword) (origin : Nat) (n : Nat) :
    ∃ t, s.readWord c origin { transfer := .retried n, ecc := .clean } = (t, true) ∧ StackLogged s t ∧
      (t.stack c.stack).thead = (s.stack c.stack).thead + 1 :=
  ⟨_, rfl, transferEvent_logs s c origin 3 _ 0xFF 0xFF false⟩

/-- A codeword that is not corrected, or whose transfer fails for good, is not delivered (R31). -/
theorem readWord_undelivered (s : State) (c : Codeword) (origin : Nat) {o : ReadOutcome}
    (h : (∃ w, o = { transfer := .clean, ecc := .uncorrectable w }) ∨ ∃ e, o = { transfer := .failed 0xFF, ecc := e }) :
    (s.readWord c origin o).2 = false := by
  obtain ⟨w, rfl⟩ | ⟨e, rfl⟩ := h <;> rfl

/-- A fill whose codewords are delivered brings the sector as its stack then holds it (R38). -/
theorem hbmSectorFill_delivered {u : State} {c0 c1 : ReadOutcome} (hb : backed (64 * sec) = true) (hn : mfind s.l2 sec = none)
    (h0 : s.readWord { sec := sec, half := 0 } 0 c0 = (t, true)) (h1 : t.readWord { sec := sec, half := 1 } 0 c1 = (u, true)) :
    exec (.hbmSectorFill sec c0 c1) s = .next (u.fillHome sec) := by
  change execHbmSectorFill sec c0 c1 s = _
  unfold execHbmSectorFill
  dsimp only
  rw [h0, h1, hn, hb]
  rfl

/-- A fill one of whose codewords is not delivered leaves the sector poisoned (R31, R32). -/
theorem hbmSectorFill_spoilt {c0 c1 : ReadOutcome} (hb : backed (64 * sec) = true) (hn : mfind s.l2 sec = none)
    (h1 : ((s.readWord { sec := sec, half := 0 } 0 c0).1.readWord { sec := sec, half := 1 } 0 c1).2 = false) :
    ∃ t e, exec (.hbmSectorFill sec c0 c1) s = .next t ∧ mfind t.l2 sec = some e ∧ e.dirty = false ∧ e.poison = true := by
  change ∃ t e, execHbmSectorFill sec c0 c1 s = _ ∧ _
  unfold execHbmSectorFill
  dsimp only
  rw [hn, hb, h1]
  cases (s.readWord { sec := sec, half := 0 } 0 c0).2 <;> exact ⟨_, _, rfl, mfind_mset_same _ _ _, rfl, rfl⟩

/-- What is unknown of a codeword leaves the other half of its sector as it was. -/
theorem byteOf_unknownWord (s : State) (sec : Nat) {j : Nat} (h : j < 32) :
    byteOf (stackSector (s.unknownWord { sec := sec, half := 1 }).mem sec) j = byteOf (stackSector s.mem sec) j := by
  have hm : (s.unknownWord { sec := sec, half := 1 }).mem =
    storeStack s.mem sec (mergeBytes (byteRange 32 32) (freeSector s.free) (stackSector s.mem sec)) := rfl
  rw [hm, stackSector_storeStack, if_pos rfl, byteOf_mergeBytes _ _ _ (by omega), getLsbD_byteRange (by omega), if_neg]
  simp [h]

/-! ## Codewords that are written -/

/-- A fold of steps that each put one sector among the poisoned. -/
theorem mem_poison_foldl (f : State → Nat → State) (hf : ∀ s a k, k ∈ (f s a).poison ↔ k ∈ s.poison ∨ k = a) (l : List Nat)
    (s : State) (k : Nat) : k ∈ (l.foldl f s).poison ↔ k ∈ s.poison ∨ k ∈ l := by
  induction l generalizing s with
  | nil => simp
  | cons a l ih => rw [List.foldl_cons, ih, hf, List.mem_cons, or_assoc]

/-- A spoilt codeword poisons its line and no other sector (R31). -/
theorem mem_poison_spoil (s : State) (c : Codeword) (k : Nat) : k ∈ (s.spoil c).poison ↔ k ∈ s.poison ∨ k ∈ lineSectors (c.sec / 8) := by
  refine mem_poison_foldl _ (fun s a k => ?_) _ (s.unknownWord c) k
  dsimp only
  split
  · rename_i h
    have : a ∈ s.poison := by simpa using h
    constructor
    · exact .inl
    · rintro (h | rfl) <;> assumption
  · simp

/-- A write that fails for good poisons the line of its codeword, and the sectors poisoned before stay so (R31). -/
theorem mem_poison_writeWord_failed (s : State) (c : Codeword) (origin : Nat) (k : Nat) :
    k ∈ (s.writeWord c origin (.failed 0xFF)).poison ↔ k ∈ s.poison ∨ k ∈ lineSectors (c.sec / 8) := by
  have h : s.writeWord c origin (.failed 0xFF) = (s.transferLost c origin 0xFF 4).spoil c := rfl
  rw [h, mem_poison_spoil, (transferLost_logs s c origin 0xFF 4).poison]

/-- Write-backs of a sector's codewords of which one of the first half fails for good poison its line. -/
theorem mem_poison_writeBacks (hk : k ∈ lineSectors (sec / 8)) (l : List WriteBack) (s : State)
    (h : k ∈ s.poison ∨ ∃ w ∈ l, w.half = 0) :
    k ∈ (l.foldl (fun s w => s.writeWord { sec := sec, half := w.half } w.origin (if w.half = 0 then .failed 0xFF else .clean)) s).poison := by
  induction l generalizing s with
  | nil => simpa using h
  | cons w l ih =>
    rw [List.foldl_cons]
    apply ih
    by_cases hw : w.half = 0
    · rw [if_pos hw, mem_poison_writeWord_failed]
      exact .inl (.inr hk)
    · rw [if_neg hw]
      obtain h | ⟨v, hv, h0⟩ := h
      · exact .inl h
      · exact .inr ⟨v, (List.mem_cons.mp hv).resolve_left (fun q => hw (q ▸ h0)), h0⟩

/-- Write-backs that meet no error only come off the list of what is to be written back (R32). -/
theorem correctedWriteback_clean (sec : Nat) (s : State) : exec (.correctedWriteback sec .clean .clean) s =
    .next { s with writeBacks := s.writeBacks.filter (fun w => w.sec != sec) } := by
  change execCorrectedWriteback sec .clean .clean s = _
  unfold execCorrectedWriteback
  dsimp only
  congr 1
  induction s.writeBacks.filter (fun w => w.sec == sec) with
  | nil => rfl
  | cons w l ih => rw [List.foldl_cons, ite_self]; exact ih

/-! ## The scrub -/

/-- A scrub reads the next codeword of its pass and moves on (R34). -/
theorem patrolScrub_reads {k : Nat} (hk : k < 8) (hs : (s.stack k).scrubh ≠ 0) (hu : s.regs.hwUp = true) (c : ReadOutcome) :
    exec (.patrolScrub k c) s = .next ((s.readWord (scrubWord k (s.stack k).scrubAt) 2 c).1.updStack k
      (fun q => { q with scrubAt := (q.scrubAt + 1) % 2 ^ 31 })) := by
  change execPatrolScrub k c s = _
  unfold execPatrolScrub
  dsimp only
  rw [if_neg (not_or.mpr ⟨by simp [hu], not_or.mpr ⟨hs, by omega⟩⟩)]

/-! ## The remote-data caches -/

/-- The write-back of a sector of a remote-data cache touches no other sector of the caches. -/
theorem mfind_rdcClean_other {die key : Nat} (h : key ≠ rdcKey die sec) : mfind (s.rdcClean die sec).rdc key = mfind s.rdc key := by
  unfold State.rdcClean
  split
  · rename_i e _
    split
    · rfl
    · dsimp only
      rw [(homeStep_homeWrite s sec e.mask e.data e.poison).rdc]
      split
      · exact mfind_mset_other _ _ h
      · exact mfind_merase_other _ h
  · rfl

/-- A sector that is dropped leaves its cache, and no other does (R41). -/
theorem mfind_rdcDrop (s : State) (die sec key : Nat) :
    mfind (s.rdcDrop die sec).rdc key = if key = rdcKey die sec then none else mfind s.rdc key := by
  have hd : (s.rdcDrop die sec).rdc = merase (s.rdcClean die sec).rdc (rdcKey die sec) := rfl
  rw [hd]
  by_cases h : key = rdcKey die sec
  · rw [if_pos h, h, mfind_merase_same]
  · rw [if_neg h, mfind_merase_other _ h, mfind_rdcClean_other h]

/-- An evicted line leaves its cache (R41). -/
theorem mfind_rdcEvict (s : State) (die line : Nat) (h : k ∈ lineSectors line) : mfind (s.rdcEvict die line).rdc (rdcKey die k) = none := by
  have hl : ∀ (l : List Nat) (s : State) (key : Nat), mfind (l.foldl (fun s a => s.rdcDrop die a) s).rdc key =
      if ∃ a ∈ l, key = rdcKey die a then none else mfind s.rdc key := by
    intro l
    induction l with
    | nil => simp
    | cons a l ih =>
      intro s key
      rw [List.foldl_cons, ih, mfind_rdcDrop]
      by_cases ha : key = rdcKey die a <;> simp [ha]
  exact (hl _ s _).trans (if_pos ⟨k, h, rfl⟩)

end Sys2Proof.Machine
end

section
/-! SUPPORT. The events of the stacks settled (O28). -/

namespace Sys2Proof.Machine

variable {s : State} {sec k : Nat}

/-- A sector that a fill brings, with what its stack still holds of it. -/
def stackCopy (s : State) (sec : Nat) : L2Sector := { data := stackSector s.mem sec, dirty := false, poison := s.poison.contains sec }

/-- A fill in a state with the stacks of another, whose slice does not hold the sector, brings what the other's stack holds. -/
theorem mfind_fillHome_of {t : State} (hb : backed (64 * sec) = true) (hn : mfind s.l2 sec = none)
    (hl : t.l2 = s.l2) (hm : t.mem = s.mem) (hp : t.poison = s.poison) : mfind (t.fillHome sec).l2 sec = some (stackCopy s sec) := by
  rw [mfind_fillHome hb (by rw [hl, hn]), hm, hp]
  rfl

/-- A fill whose second codeword ECC corrects (R30, R32, R33). -/
theorem fill_corrected (hb : backed (64 * sec) = true) (hn : mfind s.l2 sec = none) (w : BitVec 32) :
    ∃ t, exec (.hbmSectorFill sec { transfer := .clean, ecc := .clean } { transfer := .clean, ecc := .corrected w }) s = .next t ∧
      mfind t.l2 sec = some (stackCopy s sec) ∧
      (t.stack (stackOf (64 * sec))).ahead = (s.stack (stackOf (64 * sec))).ahead + 1 ∧
      ((s.stack (stackOf (64 * sec))).wbcor = true → { sec := sec, half := 1, origin := 1 } ∈ t.writeBacks) := by
  obtain ⟨t, hr, -, hl, hm, hp, ha, hw⟩ := readWord_corrected s { sec := sec, half := 1 } 0 w
  refine ⟨_, hbmSectorFill_delivered hb hn rfl hr, mfind_fillHome_of hb hn hl hm hp, ?_, fun h => ?_⟩
  · rw [(homeStep_fillHome t sec).stack]
    exact ha
  · exact mem_writeBacks_fillHome (hw (.inr h)) rfl

/-- A fill whose second codeword ECC miscorrects brings the first half as it is stored, without a mark (R31). -/
theorem fill_miscorrected (hb : backed (64 * sec) = true) (hn : mfind s.l2 sec = none) (w : BitVec 32) :
    ∃ t e, exec (.hbmSectorFill sec { transfer := .clean, ecc := .clean } { transfer := .clean, ecc := .miscorrected w }) s = .next t ∧
      mfind t.l2 sec = some e ∧ e.dirty = false ∧ e.poison = s.poison.contains sec ∧
      ∀ j < 32, byteOf e.data j = byteOf (stackSector s.mem sec) j := by
  obtain ⟨t, -, hr, hl, hm, hp, -, -⟩ := readWord_corrected s { sec := sec, half := 1 } 0 w
  have hn' : mfind (t.unknownWord { sec := sec, half := 1 }).l2 sec = none := (congrArg (fun m => mfind m sec) hl).trans hn
  refine ⟨_, _, hbmSectorFill_delivered hb hn rfl hr, mfind_fillHome hb hn', rfl, ?_, fun j hj => ?_⟩
  · exact congrArg (fun p => List.contains p sec) hp
  · exact (byteOf_unknownWord t sec hj).trans (by rw [hm])

/-- A fill whose second codeword is transferred again (R31). -/
theorem fill_retried (hb : backed (64 * sec) = true) (hn : mfind s.l2 sec = none) (n : Nat) :
    ∃ t, exec (.hbmSectorFill sec { transfer := .clean, ecc := .clean } { transfer := .retried n, ecc := .clean }) s = .next t ∧
      mfind t.l2 sec = some (stackCopy s sec) ∧
      (t.stack (stackOf (64 * sec))).thead = (s.stack (stackOf (64 * sec))).thead + 1 := by
  obtain ⟨t, hr, hl, ht⟩ := readWord_retried s { sec := sec, half := 1 } 0 n
  refine ⟨_, hbmSectorFill_delivered hb hn rfl hr, mfind_fillHome_of hb hn hl.l2 hl.mem hl.poison, ?_⟩
  rw [(homeStep_fillHome t sec).stack]
  exact ht

/-- A write that meets no error logs nothing. -/
theorem writeWord_clean (s : State) (c : Codeword) (origin : Nat) : s.writeWord c origin .clean = s := rfl

/-- Write-backs that fail for good, or a write of a sector that does, poison the line (R31, R32). -/
theorem failed_writes_poison (s : State) (hk : k ∈ lineSectors (sec / 8)) :
    ((∃ w ∈ s.writeBacks, w.sec = sec ∧ w.half = 0) →
      ∃ t, exec (.correctedWriteback sec (.failed 0xFF) .clean) s = .next t ∧ k ∈ t.poison) ∧
    ((sec, true) ∈ s.stackUse → k ∈ (s.stackWrite sec (.failed 0xFF) .clean).poison) := by
  constructor
  · rintro ⟨w, hw, hs, h0⟩
    have hdue : w ∈ s.writeBacks.filter (fun w => w.sec == sec) := List.mem_filter.mpr ⟨hw, beq_iff_eq.mpr hs⟩
    exact ⟨_, rfl, mem_poison_writeBacks hk _ _ (.inr ⟨w, hdue, h0⟩)⟩
  · intro hu
    have hc : s.stackUse.contains (sec, true) = true := List.contains_iff_mem.mpr hu
    have hs : s.stackWrite sec (.failed 0xFF) .clean = s.writeWord { sec := sec, half := 0 } 1 (.failed 0xFF) := by
      unfold State.stackWrite
      rw [if_pos hc, writeWord_clean]
    rw [hs, mem_poison_writeWord_failed]
    exact .inr hk

/-- A scrub whose codeword is corrected has it written back (R34). -/
theorem patrolScrub_corrected (hk : k < 8) (hs : (s.stack k).scrubh ≠ 0) (hu : s.regs.hwUp = true) (w : BitVec 32) :
    ∃ t, exec (.patrolScrub k { transfer := .clean, ecc := .corrected w }) s = .next t ∧
      { sec := (scrubWord k (s.stack k).scrubAt).sec, half := (scrubWord k (s.stack k).scrubAt).half, origin := 2 } ∈ t.writeBacks := by
  obtain ⟨t, hr, -, -, -, -, -, hw⟩ := readWord_corrected s (scrubWord k (s.stack k).scrubAt) 2 w
  refine ⟨_, patrolScrub_reads hk hs hu _, ?_⟩
  rw [hr]
  exact hw (.inl rfl)

/-- An activation alert counts the row, makes the accesses to its bank wait and is logged (R35). -/
theorem activationAlert_logs {chan bank row : Nat} {n : BitVec 32} (hk : k < 8) (ha : (s.stack k).alertth.toNat ≤ n.toNat)
    (hn : mfind (s.stack k).acts (rowOf chan bank row) = none) :
    ∃ t, exec (.activationAlert k chan bank row n) s = .next t ∧ 16 * chan + bank ∈ (t.stack k).bankWait ∧
      mget 0 (t.stack k).acts (rowOf chan bank row) = n.toNat ∧ (t.stack k).ahead = (s.stack k).ahead + 1 := by
  have hg : ¬(8 ≤ k ∨ n.toNat < (s.stack k).alertth.toNat ∨ (s.stack k).alertth.toNat ≤ mget 0 (s.stack k).acts (rowOf chan bank row) ∧
      (mfind (s.stack k).acts (rowOf chan bank row)).isSome = true) := by
    rw [hn]
    simp only [Option.isSome_none, Bool.false_eq_true, and_false, or_false]
    omega
  refine ⟨_, if_neg hg, ?_⟩
  unfold State.stackEvent
  rw [(reported_offer _ _).stack]
  refine ⟨?_, by simp [State.arrayLog], by simp [State.arrayLog, ringPush_head]⟩
  simp only [State.arrayLog, stack_updStack_same]
  split
  · rename_i h
    exact List.contains_iff_mem.mp h
  · exact List.mem_append_right _ (List.mem_singleton.mpr rfl)

/-- A line that may be evicted leaves its remote-data cache (R41). -/
theorem rdcEviction_evicts {die line : Nat} (hl : line ∈ s.rdcLines die) (hp : s.linePinned die line = false) :
    ∃ t, exec (.rdcEviction die line) s = .next t ∧ ∀ k ∈ lineSectors line, mfind t.rdc (rdcKey die k) = none := by
  refine ⟨s.rdcEvict die line, ?_, fun k hk => mfind_rdcEvict s die line hk⟩
  change execRdcEviction die line s = _
  unfold execRdcEviction
  rw [if_pos (by rw [hp, List.contains_iff_mem.mpr hl]; rfl)]

/-- Settles O28, event by event; the codewords of a fill are read one after the other, and the fill then brings the sector. -/
theorem stackEvents : Obligations.StackEvents := by
  unfold Obligations.StackEvents
  refine ⟨fun sec s hb hn => ?_, fun sec k s => ⟨correctedWriteback_clean sec s, failed_writes_poison s⟩,
    fun k s w hk hs hu => ?_, fun k chan bank row n s => activationAlert_logs, fun die line s => rdcEviction_evicts,
    fun k b s => ⟨rfl, _, rfl, ?_⟩, fun s h => ?_, fun s sec mask v bad j hb hj => ?_⟩
  · have hb' := backed_iff.mpr hb
    refine ⟨⟨_, hbmSectorFill_delivered hb' hn rfl rfl, mfind_fillHome hb' hn⟩, fill_corrected hb' hn, fill_retried hb' hn,
      fill_miscorrected hb' hn, fun c d h => ?_⟩
    exact hbmSectorFill_spoilt hb' hn (readWord_undelivered _ _ _ h)
  · exact ⟨patrolScrub_reads hk hs hu _, patrolScrub_reads hk hs hu _, patrolScrub_corrected hk hs hu w⟩
  · simp
  · exact congrArg Host.Outcome.next (if_pos (decide_eq_true h))
  · rw [homeSector_homeWrite mask v bad (backed_iff.mpr hb)]
    exact byteOf_mergeBytes mask v _ hj

end Sys2Proof.Machine
end

section
/-! SUPPORT. Page walks and shootdowns (R22 to R25, R28, R29), settled (O29). -/

namespace Sys2Proof.Machine

open Sys2Proof.Spec

variable {s : State}

/-! ## Page walks -/

theorem core_updCore_same (s : State) (n : Nat) (f : Core → Core) : (s.updCore n f).core n = f (s.core n) := by
  simp [State.core]

/-- AC, and DY for a write, are set in the leaf's entry at its home slice (R24). -/
theorem homeWord_setAcDy {pte : Nat} (w : Bool) (h8 : pte % 8 = 0) (hb : backed (64 * (pte / 64)) = true) :
    (s.setAcDy pte w).homeWord pte = s.homeWord pte ||| (if w then 0xC0 else 0x40) := by
  unfold State.setAcDy
  dsimp only
  generalize s.homeWord pte ||| (if w then 0xC0 else 0x40) = new
  by_cases h : new = s.homeWord pte
  · rw [if_pos h, h]
  · rw [if_neg h, homeWord_homeStore _ h8 hb]

/-- A leaf that a core keeps is the first of its TLB, and memory is as it was (R25). -/
theorem tlbFill_core (s : State) (core asn va : Nat) (e : TlbEntry) (pte : Nat) :
    ((s.tlbFill (.core core) asn va e).core core).tlb.head? = some e ∧
      (s.tlbFill (.core core) asn va e).homeWord pte = s.homeWord pte := by
  refine ⟨?_, rfl⟩
  simp [State.tlbFill, core_updCore_same]

/-- A walk that finds a leaf which allows the access keeps it and sets its bits (R22 to R25). -/
theorem pageWalk_leaf {core x pte : Nat} {va : Word} {k : AccessKind} {w : State} {e : TlbEntry} (hc : canonical va = true)
    (hmiss : (s.core core).tlb.find? (fun f => f.covers (s.asnOf core x) (va.toNat % 2 ^ 57) && (f.dy || !accWrites k)) = none)
    (hw : s.walk (some (coreIsland core)) (s.asnOf core x) (va.toNat % 2 ^ 57) (s.rootOf core x / 4096 * 4096) 4 = (.leaf e pte, w))
    (hp : permFault e k = none) :
    exec (.pageWalk core x va k) s = .next ((w.setAcDy pte (accWrites k)).tlbFill (.core core) (s.asnOf core x) (va.toNat % 2 ^ 57)
      { e with dy := e.dy || accWrites k }) := by
  have ht : s.tlbHit (.core core) (s.asnOf core x) (va.toNat % 2 ^ 57) (some k) = none := hmiss
  change Host.Outcome.next (s.translateBy (.core core) (s.asnOf core x) (s.rootOf core x) va k).2 = _
  unfold State.translateBy State.leafFor
  dsimp only
  rw [hc, ht, show Asker.walker (.core core) = some (coreIsland core) from rfl, hw]
  simp only [Option.bind_some, hp]
  rfl

/-! ## Shootdowns -/

/-- The page range of the shootdown registers (R28). -/
theorem inRange_eq (s : State) (va len : Nat) : s.regs.inRange va len = inShootdown s va len := by
  have h : bits s.regs.sdva.toNat 56 12 * 4096 = s.regs.sdva.toNat / 4096 * 4096 % 2 ^ 57 := by
    simp only [bits]
    omega
  simp only [Regs.inRange, inShootdown, h, Nat.mul_comm 4096]

theorem mget_map {α : Type} (f : α → α) (d : α) (hd : f d = d) (m : Map α) (k : Nat) :
    mget d (m.map (fun e => (e.1, f e.2))) k = f (mget d m k) := by
  induction m with
  | nil => exact hd.symm
  | cons e t ih =>
    by_cases h : e.1 = k
    · simp [mget, mfind, h]
    · simpa [mget, mfind, h] using ih

/-- A core without what the shootdown in progress covers. -/
theorem core_dropCovered (s : State) (n : Nat) : s.dropCovered.core n = (s.core n).dropCovered s.regs :=
  mget_map (Core.dropCovered · s.regs) Core.reset rfl s.cores n

theorem island_dropCovered (s : State) (n : Nat) : s.dropCovered.island n = (s.island n).dropCovered s.regs :=
  mget_map (Island.dropCovered · s.regs) Island.reset rfl s.islands n

/-- Every translation, instruction byte and walker entry that a shootdown covers is dropped, and no other (R29). -/
theorem dropped_dropCovered (s : State) : Dropped s s.dropCovered s.regs.sdAsn s.regs.sdAll := by
  refine ⟨fun core => ?_, fun n => ?_⟩
  · rw [core_dropCovered]
    simp only [Core.dropCovered, Regs.covers, inRange_eq, and_self]
  · rw [island_dropCovered]
    simp only [Island.dropCovered, Regs.covers, inRange_eq, Bool.or_false]

/-- A write of TLBSD with GO, while no shootdown is in progress (R28, R29). -/
theorem shootdown_starts {v : BitVec 64} (hr : s.regs.booted = true) (hi : s.regs.sdBusy = false) (hg : v.getLsbD 13 = true) :
    exec (.shootdown v) s = .next (s.updRegs (fun r => { r with
      sdBusy := true, sdAsn := bits v.toNat 11 0, sdAll := v.getLsbD 12 })).dropCovered := by
  change s.ifBooted (s.shootdown v) = _
  simp only [State.ifBooted, State.shootdown, hr, hi, hg, Bool.not_true, Bool.or_self, Bool.false_eq_true, if_true, if_false]

/-- A shootdown completes when no pin is on a page of its range, and stays in progress until then (R29). -/
theorem shootdownComplete_cases (hi : s.regs.sdBusy = true) :
    ((∀ p ∈ s.pins, inShootdown s p.page.va (2 ^ (12 + p.page.k)) = false) →
      exec .shootdownComplete s = .next (s.dropCovered.updRegs (fun r => { r with sdBusy := false }))) ∧
    ((∃ p ∈ s.pins, inShootdown s p.page.va (2 ^ (12 + p.page.k)) = true) → exec .shootdownComplete s = .next s) := by
  have hd : s.shootdownDone = !s.pins.any (fun p => inShootdown s p.page.va (2 ^ (12 + p.page.k))) := by
    simp only [State.shootdownDone, hi, Bool.true_and]
    congr 2
    funext p
    exact inRange_eq s p.page.va _
  change (_ → execShootdownComplete s = _) ∧ (_ → execShootdownComplete s = _)
  unfold execShootdownComplete
  rw [hd]
  constructor
  · intro h
    rw [if_pos (by simpa using h)]
  · rintro ⟨p, hp, h⟩
    rw [if_neg]
    simpa using ⟨p, hp, h⟩

/-- Settles O29. -/
theorem translation : Obligations.Translation := by
  unfold Obligations.Translation
  refine ⟨fun core x va k s w e pte hc hmiss hw hp h8 hb => ?_, fun v s hr hi hg => ?_, fun s hi => ?_⟩
  · obtain ⟨hhead, hword⟩ := tlbFill_core (w.setAcDy pte (accWrites k)) core (s.asnOf core x) (va.toNat % 2 ^ 57)
      { e with dy := e.dy || accWrites k } pte
    exact ⟨_, pageWalk_leaf hc hmiss hw hp, hhead, hword.trans (homeWord_setAcDy _ h8 (backed_iff.mpr hb))⟩
  · have hasn : bits v.toNat 11 0 = v.toNat % 4096 := by simp [bits]
    refine ⟨_, shootdown_starts hr hi hg, rfl, hasn, rfl, ?_⟩
    rw [← hasn]
    exact dropped_dropCovered (s.updRegs _)
  · obtain ⟨hdone, hwait⟩ := shootdownComplete_cases hi
    exact ⟨fun h => ⟨_, hdone h, rfl, dropped_dropCovered s⟩, hwait⟩

end Sys2Proof.Machine
end

section
/-! SUPPORT. The cache of the application cores: what a fill and a store in it change, and what a store reads back as (R65, R363). -/

namespace Sys2Proof.Machine

variable {s t : State} {sec k : Nat}

/-! ## The home slices do not depend on the cache of the application cores -/

theorem homeSector_appCache (s : State) (c : Map AppSector) (k : Nat) :
    ({ s with appCache := c } : State).homeSector k = s.homeSector k := rfl

theorem cleanSector_appCache (s : State) (c : Map AppSector) (k : Nat) :
    ({ s with appCache := c } : State).cleanSector k = { s.cleanSector k with appCache := c } := by
  obtain ⟨e, he, hd, h⟩ | ⟨hc, h⟩ := cleanSector_cases s k <;> rw [h]
  · exact cleanSector_dirty (s := { s with appCache := c }) he hd
  · exact cleanSector_clean (s := { s with appCache := c }) hc

theorem cleanLine_appCache (s : State) (c : Map AppSector) (line : Nat) :
    ({ s with appCache := c } : State).cleanLine line = { s.cleanLine line with appCache := c } := by
  rw [cleanLine_eq, cleanLine_eq]
  induction lineSectors line generalizing s with
  | nil => rfl
  | cons a l ih => rw [List.foldl_cons, List.foldl_cons, cleanSector_appCache, ih]

theorem evictLine_appCache (s : State) (c : Map AppSector) (line : Nat) :
    ({ s with appCache := c } : State).evictLine line = { s.evictLine line with appCache := c } := by
  rw [evictLine_eq, evictLine_eq, cleanLine_appCache]

theorem useLine_appCache (s : State) (c : Map AppSector) (line : Nat) :
    ({ s with appCache := c } : State).useLine line = { s.useLine line with appCache := c } := by
  unfold State.useLine
  dsimp only [State.linePinned]
  split
  · rfl
  · split
    · rfl
    · split
      · rw [evictLine_appCache]
      · rfl

theorem fillHome_appCache (s : State) (c : Map AppSector) (k : Nat) :
    ({ s with appCache := c } : State).fillHome k = { s.fillHome k with appCache := c } := by
  cases hb : backed (64 * k) with
  | false => rw [fillHome_unbacked hb, fillHome_unbacked hb]
  | true =>
    cases hf : mfind s.l2 k with
    | some e => rw [fillHome_held hb hf, fillHome_held (s := { s with appCache := c }) hb hf, useLine_appCache]
    | none =>
      obtain ⟨u, hu, h⟩ := fillHome_absent hb hf
      obtain ⟨u', hu', h'⟩ := fillHome_absent (s := { s with appCache := c }) hb hf
      have he : u' = { u with appCache := c } := by rw [hu', hu, useLine_appCache]; rfl
      rw [h, h', he, homeSector_appCache]

/-! ## Fills and stores -/

theorem length_mset_le {α : Type} (m : Map α) (k : Nat) (v : α) : (mset m k v).length ≤ m.length + 1 := by
  have hi : ∀ m : Map α, (minsert m k v).length = m.length + 1 := by
    intro m
    induction m with
    | nil => rfl
    | cons e t ih =>
      simp only [minsert]
      split
      · rfl
      · simp [ih]
  rw [mset, hi]
  exact Nat.succ_le_succ (List.length_filter_le _ _)

theorem isSome_mset {α : Type} (m : Map α) (k j : Nat) (v : α) : (mfind (mset m k v) j).isSome = (decide (j = k) || (mfind m j).isSome) := by
  by_cases h : j = k
  · simp [h]
  · simp [h, mfind_mset_other]

/-- A sector that the cache holds is not filled. -/
theorem appFill_held (h : (mfind s.appCache k).isSome = true) : s.appFill k = s := by
  unfold State.appFill
  rw [if_pos h]

/-- A sector that the cache does not hold, and has room for, is filled from its home slice. -/
theorem appFill_room (h : (mfind s.appCache k).isSome = false) (hr : s.appCache.length < 524288) :
    s.appFill k = { s.fillHome k with appCache := mset s.appCache k (s.appSector k) } := by
  unfold State.appFill
  rw [if_neg (by simp [h]), if_pos hr]

/-- What a store in the cache does to one of its sectors: it is filled, and takes the bytes that fall in it. -/
def State.appPut (s : State) (pa : Nat) (b : List Byte) (k : Nat) : State :=
  let e := (s.appFill k).appSector k
  let p := pieceOf pa b [] k
  { s.appFill k with appCache := mset (s.appFill k).appCache k { data := mergeBytes p.1 p.2 e.data, dirty := e.dirty ||| p.1 } }

/-- A store in the cache goes sector by sector. -/
theorem appStore_eq (s : State) (pa : Nat) (b : List Byte) :
    s.appStore pa b = (sectorsOf pa b.length).foldl (fun s k => s.appPut pa b k) s := rfl

/-- Two states that differ in the cache of the application cores alone, which holds the same sectors in both. -/
def SameButApp (s t : State) : Prop :=
  t = { s with appCache := t.appCache } ∧ ∀ j, (mfind t.appCache j).isSome = (mfind s.appCache j).isSome

/-- With room in the cache, a store in a sector does what its fill does, but for the contents of the cache. -/
theorem appPut_sameButApp (h : SameButApp s t) (hs : s.appCache.length < 524288) (ht : t.appCache.length < 524288)
    (pa : Nat) (b : List Byte) (k : Nat) : SameButApp (s.appFill k) (t.appPut pa b k) ∧
      (s.appFill k).appCache.length ≤ s.appCache.length + 1 ∧ (t.appPut pa b k).appCache.length ≤ t.appCache.length + 1 := by
  obtain ⟨he, hk⟩ := h
  unfold State.appPut
  cases hf : (mfind s.appCache k).isSome with
  | true =>
    have hf' : (mfind t.appCache k).isSome = true := by rw [hk, hf]
    rw [appFill_held hf, appFill_held hf']
    refine ⟨⟨?_, fun j => ?_⟩, Nat.le_succ _, length_mset_le _ _ _⟩
    · dsimp only
      rw [he]
    · dsimp only
      rw [isSome_mset, hk]
      by_cases hj : j = k <;> simp [hj, hf]
  | false =>
    have hf' : (mfind t.appCache k).isSome = false := by rw [hk, hf]
    rw [appFill_room hf hs, appFill_room hf' ht]
    dsimp only
    rw [mset_mset]
    refine ⟨⟨?_, fun j => ?_⟩, length_mset_le _ _ _, length_mset_le _ _ _⟩
    · dsimp only
      rw [he, fillHome_appCache]
    · dsimp only
      rw [isSome_mset, isSome_mset, hk]

/-- A store over sectors that all have room in the cache changes but the cache as the fills of them do. -/
theorem appPuts_sameButApp (pa : Nat) (b : List Byte) (l : List Nat) {s t : State} (h : SameButApp s t)
    (hs : s.appCache.length + l.length ≤ 524288) (ht : t.appCache.length + l.length ≤ 524288) :
    SameButApp (l.foldl State.appFill s) (l.foldl (fun s k => s.appPut pa b k) t) := by
  induction l generalizing s t with
  | nil => exact h
  | cons a l ih =>
    rw [List.length_cons] at hs ht
    obtain ⟨h1, h2, h3⟩ := appPut_sameButApp h (by omega) (by omega) pa b a
    exact ih h1 (by omega) (le_trans (Nat.add_le_add_right h3 _) (by omega))

/-- A store in the cache that finds room changes memory as the fills of its sectors do. -/
theorem appStore_fills (s : State) (pa : Nat) (b : List Byte) (h : s.appCache.length + (sectorsOf pa b.length).length ≤ 524288) :
    s.appStore pa b = { (sectorsOf pa b.length).foldl State.appFill s with appCache := (s.appStore pa b).appCache } := by
  rw [appStore_eq]
  exact (appPuts_sameButApp pa b _ ⟨rfl, fun _ => rfl⟩ h h).1

/-- A store within one sector reads back through the cache. -/
theorem appBytes_appStore (s : State) {pa : Nat} (b : List Byte) (hn : 0 < b.length) (h : pa % 64 + b.length ≤ 64) :
    (s.appStore pa b).appBytes pa b.length = b := by
  have hs : s.appStore pa b = s.appPut pa b (pa / 64) := by
    rw [appStore_eq, sectorsOf_within hn h, List.foldl_cons, List.foldl_nil]
  have hd : ((s.appPut pa b (pa / 64)).appSector (pa / 64)).data =
      mergeBytes (pieceOf pa b [] (pa / 64)).1 (pieceOf pa b [] (pa / 64)).2 ((s.appFill (pa / 64)).appSector (pa / 64)).data := by
    simp [State.appSector, State.appPut]
  rw [State.appBytes, sectorsOf_within hn h, hs, List.flatMap_cons, List.flatMap_nil, List.append_nil, hd]
  exact bytes_mergePiece b _ h

theorem length_sectorsOf_le {pa n : Nat} (hn : n ≤ 64) : (sectorsOf pa n).length ≤ 2 := by
  unfold sectorsOf
  split
  · simp
  · rw [List.length_map, List.length_range]
    omega

/-- A cleaned sector is written back, its bytes laid over what was there, and stays in the cache (R363). -/
theorem appClean_held {e : AppSector} (h : mfind s.appCache k = some e) (hb : backed (64 * k) = true) :
    ((s.appClean k).homeSector k).1 = mergeBytes e.dirty e.data (s.homeSector k).1 ∧
      mfind (s.appClean k).appCache k = some { e with dirty := 0 } := by
  have hc : s.appClean k = { s.homeWrite k e.dirty e.data false with appCache := mset s.appCache k { e with dirty := 0 } } := by
    simp only [State.appClean, h]
  rw [hc, homeSector_appCache, homeSector_homeWrite _ _ _ hb]
  exact ⟨rfl, mfind_mset_same _ _ _⟩

end Sys2Proof.Machine
end

section
/-! SUPPORT. Accesses of the control complex and of PCIe (R65, R344, R363 to R367, R373), settled (O46). -/

namespace Sys2Proof.Machine

open Sys2Proof.Spec

variable {s : State} {hart pa n off : Nat}

/-! ## Memory -/

/-- An access of a released application core to an address that the stacks back is one through its cache. -/
theorem appCoreAccess_memory {op : HostAccess} (h : hart < 16) (hr : s.regs.booted = true) (hb : backed pa = true)
    (hop : op ≠ .claim) (d : BitVec 64) : exec (.applicationCoreAccess hart op pa n d) s = s.hostMemory op pa n d := by
  change execApplicationCoreAccess hart op pa n d s = _
  simp only [execApplicationCoreAccess, State.hartRuns, hr, Bool.or_true, Bool.not_true, Bool.false_eq_true, if_false, hop, hb, h,
    if_true]

theorem appCoreAccess_load (h : hart < 16) (hr : s.regs.booted = true) (hb : backed pa = true)
    (hn : n = 1 ∨ n = 2 ∨ n = 4 ∨ n = 8) (d : BitVec 64) : exec (.applicationCoreAccess hart .load pa n d) s =
      .next (if backed (pa + n - 1) then { (sectorsOf pa n).foldl State.appFill s with hostData := some (ofBytes 64 (s.appBytes pa n)) }
        else { s with hostData := none }) := by
  rw [appCoreAccess_memory h hr hb (by decide)]
  simp only [State.hostMemory, hn, true_and]

/-- A store that finds room in the cache stays in it: memory changes as the fills of its sectors change it, and the bytes read back. -/
theorem appCoreAccess_store (h : hart < 16) (hr : s.regs.booted = true) (hb : backed pa = true)
    (hn : n = 1 ∨ n = 2 ∨ n = 4 ∨ n = 8) (he : backed (pa + n - 1) = true) (hc : s.appCache.length + 2 ≤ 524288) (d : BitVec 64) :
    ∃ t, exec (.applicationCoreAccess hart .store pa n d) s = .next t ∧
      t = { (sectorsOf pa n).foldl State.appFill s with appCache := t.appCache, hostData := some 0 } ∧
      (pa % 64 + n ≤ 64 → t.appBytes pa n = bytesOf d n) := by
  have h2 : (sectorsOf pa n).length ≤ 2 := length_sectorsOf_le (by omega)
  have hf := appStore_fills s pa (bytesOf d n) (by rw [length_bytesOf]; omega)
  rw [length_bytesOf] at hf
  refine ⟨{ s.appStore pa (bytesOf d n) with hostData := some 0 }, ?_, ?_, fun hw => ?_⟩
  · rw [appCoreAccess_memory h hr hb (by decide)]
    simp only [State.hostMemory, hn, he, and_self, if_true]
  · exact congrArg (fun u : State => { u with hostData := some 0 }) hf
  · have hl := length_bytesOf d n
    have hb := appBytes_appStore s (pa := pa) (bytesOf d n) (by omega) (by omega)
    rwa [hl] at hb

/-- Atomics are performed at the home slice, once their sector has left the cache. -/
theorem appCoreAccess_amo (h : hart < 16) (hr : s.regs.booted = true) (hb : backed pa = true) (h8 : pa % 8 = 0) (d : BitVec 64)
    {u : State} {w : Word} (hu : u = s.appEvict (pa / 64)) (hw : w = ofBytes 64 (u.homeBytes pa 8).1) :
    exec (.applicationCoreAccess hart .amoAdd pa 8 d) s =
        .next { u.homeStore pa (bytesOf (u.amoStored pa 8 w (w + d)) 8) with hostData := some w } ∧
      exec (.applicationCoreAccess hart .amoSwap pa 8 d) s =
        .next { u.homeStore pa (bytesOf (u.amoStored pa 8 w d) 8) with hostData := some w } := by
  subst hu hw
  rw [appCoreAccess_memory h hr hb (by decide), appCoreAccess_memory h hr hb (by decide)]
  simp only [State.hostMemory, h8, or_true, and_self, if_true, hostAmo]

/-- A clean writes the bytes that the cache holds written of a sector to its home slice. -/
theorem appCoreAccess_clean (h : hart < 16) (hr : s.regs.booted = true) (hb : backed pa = true) (d : BitVec 64) :
    ∃ t, exec (.applicationCoreAccess hart .cboClean pa n d) s = .next t ∧
      ∀ e, mfind s.appCache (pa / 64) = some e → (t.homeSector (pa / 64)).1 = mergeBytes e.dirty e.data (s.homeSector (pa / 64)).1 ∧
        mfind t.appCache (pa / 64) = some { e with dirty := 0 } := by
  refine ⟨{ s.appClean (pa / 64) with hostData := some 0 }, by rw [appCoreAccess_memory h hr hb (by decide)]; rfl, fun e he => ?_⟩
  have hp : backed (64 * (pa / 64)) = true := by
    rw [backed_iff] at hb ⊢
    omega
  exact appClean_held he hp

/-- A store of security core 0 is performed at the home slices. -/
theorem secureCoreAccess_store (hb : backed pa = true) (he : backed (pa + 7) = true) (d : BitVec 64) :
    exec (.applicationCoreAccess 16 .store pa 8 d) s = .next { s.homeStore pa (bytesOf d 8) with hostData := some 0 } := by
  have he' : backed (pa + 8 - 1) = true := he
  change execApplicationCoreAccess 16 .store pa 8 d s = _
  simp only [execApplicationCoreAccess, State.hartRuns, State.secureMemory, hb, he', beq_self_eq_true, Bool.true_or, Bool.not_true,
    Bool.false_eq_true, reduceCtorEq, Nat.lt_irrefl, if_true, if_false, or_true, and_self]

/-- What an atomic leaves in the STATE word of a queue's descriptor, and beyond the table (R300, R301). -/
theorem amoStored_state (s : State) {q : Nat} (old new : Word) (hp : pa = s.regs.qtbase.toNat + 64 * q + 0x14) :
    (q < 4096 → s.amoStored pa 4 old new =
      ((old.setWidth 32 &&& 0xFE ||| new.setWidth 32 &&& 0x101 ||| old.setWidth 32 &&& ~~~(new.setWidth 32) &&& 0x200 : BitVec 32)).setWidth 64) ∧
    (4096 ≤ q → s.amoStored pa n old new = new) := by
  unfold State.amoStored
  dsimp only
  constructor
  · intro hq
    rw [if_neg (by omega), if_pos ⟨rfl, by omega⟩]
    rfl
  · intro hq
    rw [if_pos (.inr (by omega))]

/-! ## Registers -/

/-- An access of a released core to a device register. -/
theorem appCoreAccess_register {op : HostAccess} (hr : s.regs.booted = true) (ho : off < 0x200)
    (hop : op ≠ .claim) (d : BitVec 64) :
    exec (.applicationCoreAccess hart op (0xF_0000_0000_0000 + off) n d) s = s.registerAccess hart op off n d := by
  have hb : backed (0xF_0000_0000_0000 + off) = false := by
    rw [Bool.eq_false_iff, ne_eq, backed_iff]
    omega
  have hi : inRegisters (0xF_0000_0000_0000 + off) = true := decide_eq_true (by omega)
  change execApplicationCoreAccess hart op _ n d s = _
  simp only [execApplicationCoreAccess, State.hartRuns, hr, Bool.or_true, Bool.not_true, Bool.false_eq_true, if_false, hop, hb, hi,
    if_true, Nat.add_sub_cancel_left]

/-- The single registers are loaded as they read, but for PTPLO. -/
theorem loadReg_low (s : State) (hart : Nat) (ho : off < 0x200) (hp : off ≠ 0xB8) :
    s.loadReg hart off = .next { s.touchJrd off with hostData := some (s.readReg hart off) } := by
  have hi : indexOf 0x3300 0x40 4 off = none := if_neg (by omega)
  simp only [State.loadReg, hp, if_false, hi]

/-- A store to a device register is a write of it. -/
theorem registerWrite_writeReg (hr : s.regs.booted = true) (ho : off % 8 = 0) (v : BitVec 64) :
    exec (.registerWrite off v) s = s.writeReg off v := by
  change execRegisterWrite off v s = _
  rw [execRegisterWrite, if_pos hr, show off / 8 * 8 = off by omega]

/-- Device registers take aligned accesses of eight bytes alone (R366). -/
theorem appCoreAccess_registers (h : hart < 16) (hr : s.regs.booted = true) (h8 : off % 8 = 0) (ho : off < 0x200) (d : BitVec 64) :
    (off ≠ 0xB8 → exec (.applicationCoreAccess hart .load (0xF_0000_0000_0000 + off) 8 d) s =
      .next { s.touchJrd off with hostData := some (s.readReg hart off) }) ∧
    exec (.applicationCoreAccess hart .store (0xF_0000_0000_0000 + off) 8 d) s =
      exec (.registerWrite off d) { s with hostData := some 0 } ∧
    exec (.applicationCoreAccess hart .load (0xF_0000_0000_0000 + off) 4 d) s = .next { s with hostData := none } := by
  have h8' : ¬((8 : Nat) ≠ 8 ∨ off % 8 ≠ 0) := by omega
  refine ⟨fun hp => ?_, ?_, ?_⟩
  · rw [appCoreAccess_register hr ho (by decide), State.registerAccess, if_neg h8']
    exact loadReg_low s hart ho hp
  · rw [appCoreAccess_register hr ho (by decide), State.registerAccess, if_neg h8', registerWrite_writeReg (by exact hr) h8]
    exact if_pos h
  · rw [appCoreAccess_register hr ho (by decide), State.registerAccess, if_pos (.inl (by decide))]

/-- A field of the number that a write of a severity register leaves. -/
theorem sevcWritten_field (old v : Word) {f : Nat} (hf : f < 8) :
    (sevcWritten old v).toNat / 2 ^ (8 * f) % 2 ^ 8 = 8 * (v.getLsbD (8 * f + 3)).toNat +
      (if bits v.toNat (8 * f + 2) (8 * f) < 5 then bits v.toNat (8 * f + 2) (8 * f) else bits old.toNat (8 * f + 2) (8 * f)) := by
  have hb : ∀ w : Nat, bits w (8 * f + 2) (8 * f) < 8 := fun w => by
    have h3 : 8 * f + 2 + 1 - 8 * f = 3 := by omega
    rw [bits, h3]
    exact Nat.mod_lt _ (by decide)
  have h1 := hb v.toNat
  have h2 := hb old.toNat
  have hm := Bool.toNat_le (v.getLsbD (8 * f + 3))
  unfold sevcWritten
  rw [BitVec.toNat_ofNat, Nat.mod_eq_of_lt (packNat_lt 8 _ 8), packNat_field 8 _ hf]
  dsimp only
  split <;> omega

/-- A write of a severity register sets REPL, and the action but for its three reserved codes (R344). -/
theorem sevcWrite (s : State) (k : Nat) (v : Word) {t : State}
    (ht : t = s.updRegs (fun r => { r with sevc := mset r.sevc k (sevcWritten (s.sevc k) v) })) {f : Nat} (hf : f < 8) :
    t.repl k f = v.getLsbD (8 * f + 3) ∧ t.action k f =
      if bits v.toNat (8 * f + 2) (8 * f) < 5 then bits v.toNat (8 * f + 2) (8 * f) else s.action k f := by
  have hs : t.sevc k = sevcWritten (s.sevc k) v := by
    rw [ht]
    exact mget_mset_same _ _ _ _
  have hfield := sevcWritten_field (s.sevc k) v hf
  have h3 : 8 * f + 2 + 1 - 8 * f = 3 := by omega
  have hb : bits v.toNat (8 * f + 2) (8 * f) < 8 ∧ bits (s.sevc k).toNat (8 * f + 2) (8 * f) < 8 := by
    simp only [bits, h3]
    omega
  rw [State.repl, State.action, State.action, hs]
  generalize bits v.toNat (8 * f + 2) (8 * f) = a at *
  generalize bits (s.sevc k).toNat (8 * f + 2) (8 * f) = b at *
  constructor
  · rw [BitVec.getLsbD, Nat.testBit_eq_decide_div_mod_eq, Nat.pow_add, ← Nat.div_div_eq_div_mul]
    cases hv : v.getLsbD (8 * f + 3) <;> rw [hv] at hfield <;> simp only [Bool.toNat_true, Bool.toNat_false] at hfield
    · rw [decide_eq_false_iff_not]
      split at hfield <;> omega
    · rw [decide_eq_true_eq]
      split at hfield <;> omega
  · rw [bits, h3]
    by_cases ha : a < 5 <;> simp only [ha, if_true, if_false] at hfield ⊢ <;> omega

/-- Writes of registers that hold a value (R344, R366 to R368). -/
theorem registerWrites (v : BitVec 64) (hr : s.regs.booted = true) :
    exec (.registerWrite 0x0018 v) s = .next (s.updRegs (fun r => { r with qtbase := .ofNat 64 (v.toNat % 2 ^ 52 / 64 * 64) })) ∧
    exec (.registerWrite 0x0130 v) s = .next (s.updRegs (fun r => { r with errth := v })) ∧
    (v ≠ 0 → exec (.registerWrite 0x0090 v) s = .next (s.updRegs (fun r => { r with ftimeout := v }))) ∧
    exec (.registerWrite 0x0090 0) s = .next s ∧
    ∀ k < 16, ∃ t, exec (.registerWrite (0x0200 + 8 * k) v) s = .next t ∧ ∀ f < 8,
      t.repl k f = v.getLsbD (8 * f + 3) ∧
      t.action k f = if bits v.toNat (8 * f + 2) (8 * f) < 5 then bits v.toNat (8 * f + 2) (8 * f) else s.action k f := by
  have hp : physical 6 v = .ofNat 64 (v.toNat % 2 ^ 52 / 64 * 64) := by
    have hm : v.toNat % 2 ^ 52 % 2 ^ 64 = v.toNat % 2 ^ 52 := by omega
    rw [physical, aligned, BitVec.toNat_ofNat, hm]
    rfl
  refine ⟨?_, registerWrite_writeReg hr rfl v, fun hv => ?_, ?_, fun k hk => ?_⟩
  · rw [registerWrite_writeReg hr rfl, ← hp]
    rfl
  · rw [registerWrite_writeReg hr rfl]
    change Host.Outcome.next (s.updRegs (fun r => { r with ftimeout := if v = 0 then r.ftimeout else v })) = _
    simp only [hv, if_false]
  · rw [registerWrite_writeReg hr rfl]
    rfl
  · have hi : indexOf 0x0200 8 16 (0x0200 + 8 * k) = some (k, 0) := by
      rw [indexOf, if_pos (by omega), Nat.add_sub_cancel_left, Nat.mul_div_cancel_left _ (by decide), Nat.mul_mod_right]
    refine ⟨_, ?_, fun f hf => sevcWrite s k v rfl hf⟩
    rw [registerWrite_writeReg hr (by omega), State.writeReg, if_neg (by omega), hi]

/-! ## Claims and PCIe -/

/-- A claim takes the pending interrupt of the lowest identity (R365). -/
theorem appCoreAccess_claim (hh : s.hartRuns hart = true) (d : BitVec 64) :
    (mget [] s.imsic hart = [] → exec (.applicationCoreAccess hart .claim pa n d) s = .next { s with hostData := some 0 }) ∧
    (mget [] s.imsic hart ≠ [] → ∃ t k, exec (.applicationCoreAccess hart .claim pa n d) s = .next t ∧
      t.hostData = some (.ofNat 64 k) ∧ k ∈ mget [] s.imsic hart ∧ (∀ j ∈ mget [] s.imsic hart, k ≤ j) ∧
      ∀ j, j ∈ mget [] t.imsic hart ↔ j ∈ mget [] s.imsic hart ∧ j ≠ k) := by
  have he : exec (.applicationCoreAccess hart .claim pa n d) s = .next (s.claimInterrupt hart) := by
    change execApplicationCoreAccess hart .claim pa n d s = _
    simp only [execApplicationCoreAccess, hh, Bool.not_true, Bool.false_eq_true, if_false, if_true]
  rw [he]
  unfold State.claimInterrupt
  cases hl : mget [] s.imsic hart with
  | nil => exact ⟨fun _ => rfl, fun h => absurd rfl h⟩
  | cons a l =>
    have hm : (a :: l).min? = some (l.foldl Nat.min a) := List.min?_cons'
    obtain ⟨hmem, hle⟩ := List.min?_eq_some_iff.mp hm
    refine ⟨fun h => absurd h (List.cons_ne_nil a l), fun _ => ⟨_, _, rfl, rfl, hmem, hle, fun j => ?_⟩⟩
    dsimp only
    rw [mget_mset_same, List.mem_filter, bne_iff_ne]

/-- DMA from PCIe is performed at the home slices, or refused (R358, R373). -/
theorem pcieDma_cases (s : State) (pa : Nat) (b : List (BitVec 8)) :
    (s.regs.pcieOff = false → backed (pa + b.length - 1) = true →
      exec (.pcieDma pa true b) s = .next { s.homeStore pa b with replies := s.replies ++ [.done none] } ∧
      exec (.pcieDma pa false b) s = .next { s.touchBytes pa b.length with
        replies := (s.touchBytes pa b.length).replies ++ [.bytes ((s.homeBytes pa b.length).1,
          (s.homeBytes pa b.length).1.map (fun _ => (s.homeBytes pa b.length).2))] }) ∧
    (s.regs.pcieOff = true ∨ backed (pa + b.length - 1) = false →
      ∀ w, exec (.pcieDma pa w b) s = .next { s with replies := s.replies ++ [.refused] }) := by
  change (_ → _ → execPcieDma pa true b s = _ ∧ execPcieDma pa false b s = _) ∧ (_ → ∀ w, execPcieDma pa w b s = _)
  unfold execPcieDma
  constructor
  · intro ho hb
    simp only [ho, hb, Bool.not_true, Bool.or_self, Bool.false_eq_true, if_false, if_true, State.readHome,
      (homeStep_touchBytes s pa b.length).replies, and_self]
  · intro h w
    rw [if_pos (by rcases h with h | h <;> simp [h])]

/-- Settles O46, access by access. -/
theorem hostAccesses : Obligations.HostAccesses := by
  unfold Obligations.HostAccesses
  refine ⟨fun hart pa n op d s h16 hr => ?_, fun hart pa n d s h hr hb => ⟨fun hn => ⟨fun he hc => ⟨?_, ?_⟩, fun he => ?_⟩,
      fun h8 u w hu hw => appCoreAccess_amo h hr hb h8 d hu hw, ?_, appCoreAccess_clean h hr hb d⟩,
    fun s q pa n old new hp => ⟨fun hq _ => (amoStored_state s (n := n) old new hp).1 hq, (amoStored_state s old new hp).2⟩,
    fun hart off d s h hr h8 ho => appCoreAccess_registers h hr h8 ho d, fun pa d s hb he => ?_,
    fun hart pa n d s hh => appCoreAccess_claim hh d, fun v s hr => registerWrites v hr, fun pa b s => pcieDma_cases s pa b⟩
  · have hh : s.hartRuns hart = false := by simp [State.hartRuns, h16, hr]
    change execApplicationCoreAccess hart op pa n d s = _
    rw [execApplicationCoreAccess, hh]
    rfl
  · rw [appCoreAccess_load h hr hb hn, if_pos he]
  · exact appCoreAccess_store h hr hb hn he hc d
  · rw [appCoreAccess_load h hr hb hn, he, if_neg Bool.false_ne_true]
  · exact ⟨_, appCoreAccess_memory h hr hb (by decide) d, rfl, rfl⟩
  · exact secureCoreAccess_store hb he d

end Sys2Proof.Machine
end

section
/-! SUPPORT. Lanes, and the head of an operand log: when it is performed, and what each operation then does (R142 to R153). -/

namespace Sys2Proof.Machine

open Sys2Proof.Spec

/-! ## Lanes -/

theorem lane_ofLanes (f : Nat → Lane) {j : Nat} (h : j < 128) : lane (ofLanes f) j = f j := by
  have e : lane (ofLanes f) j = BitVec.ofNat 32 (f j).toNat := extractLsb'_packNat (W := 4096) (fun j => (f j).toNat) (by decide) h
  rw [e, BitVec.ofNat_toNat, BitVec.setWidth_eq]

theorem lane_setLane (v : Vec) (i : Nat) (l : Lane) {j : Nat} (h : j < 128) : lane (setLane v i l) j = if j = i then l else lane v j :=
  lane_ofLanes _ h

theorem nodup_activeLanes (mask : Pred) : (activeLanes mask).Nodup := List.nodup_range.filter _

theorem lt_of_mem_activeLanes {mask : Pred} {j : Nat} (h : j ∈ activeLanes mask) : j < 128 := List.mem_range.mp (List.mem_filter.mp h).1

section Folds

variable {τ : Type} (F : τ → Nat × Nat → τ) (vec : τ → Vec) (bad : τ → Bool) (get : τ → Nat → Lane × Bool)

/-- A run over lanes that gathers a value for each has met poison where one of the values it took was poisoned. -/
theorem lanes_foldl_bad (hb : ∀ a p, bad (F a p) = (bad a || (get a p.2).2)) (z : List (Nat × Nat)) (a : τ) :
    bad (z.foldl F a) = true ↔ bad a = true ∨ ∃ i p, z[i]? = some p ∧ (get ((z.take i).foldl F a) p.2).2 = true := by
  induction z generalizing a with
  | nil => simp
  | cons q z ih =>
    rw [List.foldl_cons, ih, hb, Bool.or_eq_true, or_assoc]
    refine or_congr Iff.rfl ⟨?_, ?_⟩
    · rintro (h | ⟨i, p, hp, h⟩)
      · exact ⟨0, q, rfl, h⟩
      · exact ⟨i + 1, p, hp, h⟩
    · rintro ⟨_ | i, p, hp, h⟩
      · rw [List.getElem?_cons_zero, Option.some.injEq] at hp
        exact .inl (hp ▸ h)
      · exact .inr ⟨i, p, hp, h⟩

/-- A lane that a run does not take keeps its value. -/
theorem lanes_foldl_other (hv : ∀ a p, vec (F a p) = setLane (vec a) p.1 (get a p.2).1) (z : List (Nat × Nat)) (a : τ) {j : Nat}
    (hj : j < 128) (h : j ∉ z.map (·.1)) : lane (vec (z.foldl F a)) j = lane (vec a) j := by
  induction z generalizing a with
  | nil => rfl
  | cons q z ih =>
    rw [List.map_cons, List.mem_cons, not_or] at h
    rw [List.foldl_cons, ih _ h.2, hv, lane_setLane _ _ _ hj, if_neg h.1]

/-- Each lane that a run takes once receives the value that it found there. -/
theorem lanes_foldl_lane (hv : ∀ a p, vec (F a p) = setLane (vec a) p.1 (get a p.2).1) (z : List (Nat × Nat)) (a : τ)
    (hd : (z.map (·.1)).Nodup) (hl : ∀ j ∈ z.map (·.1), j < 128) {i : Nat} {p : Nat × Nat} (hp : z[i]? = some p) :
    lane (vec (z.foldl F a)) p.1 = (get ((z.take i).foldl F a) p.2).1 := by
  induction z generalizing a i with
  | nil => simp at hp
  | cons q z ih =>
    rw [List.map_cons, List.nodup_cons] at hd
    rw [List.map_cons, List.forall_mem_cons] at hl
    cases i with
    | zero =>
      rw [List.getElem?_cons_zero, Option.some.injEq] at hp
      subst hp
      rw [List.foldl_cons, lanes_foldl_other F vec get hv z _ hl.1 hd.1, hv, lane_setLane _ _ _ hl.1, if_pos rfl]
      rfl
    | succ i => exact ih _ hd.2 hl.2 hp

end Folds

variable {s t u : State} {core x : Nat} {e : LogEntry} {rest : List LogEntry}

/-- As many addresses as are translated. -/
theorem length_translateAll {asn root : Nat} {k : AccessKind} {vas : List Word} {l : List Nat}
    (h : s.translateAll core asn root k vas = (.ok l, u)) : l.length = vas.length := by
  induction vas generalizing s l with
  | nil => cases h; rfl
  | cons va vas ih =>
    unfold State.translateAll at h
    split at h
    · cases h
    · split at h
      · rename_i hr
        cases h
        exact congrArg Nat.succ (ih hr)
      · cases h

theorem length_laneTr {k : AccessKind} {l : List Nat} (h : s.laneTr core x e k = (.ok l, u)) : l.length = (activeLanes e.mask).length := by
  rw [length_translateAll h, List.length_map]

/-- The lanes of an entry with the addresses they were translated to. -/
theorem zip_lanes_fst {l : List Nat} (h : l.length = (activeLanes e.mask).length) :
    (((activeLanes e.mask).zip l).map (·.1)).Nodup ∧ ∀ j ∈ ((activeLanes e.mask).zip l).map (·.1), j < 128 := by
  have hz : ((activeLanes e.mask).zip l).map (·.1) = activeLanes e.mask := List.map_fst_zip (le_of_eq h.symm)
  rw [hz]
  exact ⟨nodup_activeLanes _, fun j => lt_of_mem_activeLanes⟩

/-- A run over the active lanes and their addresses: it meets poison where a lane does, and otherwise each lane receives the value that
the run found when it came to it. -/
theorem lanes_foldl_zip {τ : Type} {F : τ → Nat × Nat → τ} {vec : τ → Vec} {bad : τ → Bool} {get : τ → Nat → Lane × Bool}
    (hv : ∀ a p, vec (F a p) = setLane (vec a) p.1 (get a p.2).1) (hb : ∀ a p, bad (F a p) = (bad a || (get a p.2).2))
    {l : List Nat} (hlen : l.length = (activeLanes e.mask).length) {a : τ} (ha : bad a = false) {z : List (Nat × Nat)}
    (hz : z = (activeLanes e.mask).zip l) :
    ((∀ i pa : Nat, l[i]? = some pa → (get ((z.take i).foldl F a) pa).2 = false) → bad (z.foldl F a) = false ∧
      ∀ i j pa : Nat, (activeLanes e.mask)[i]? = some j → l[i]? = some pa → lane (vec (z.foldl F a)) j = (get ((z.take i).foldl F a) pa).1) ∧
    ((∃ i pa : Nat, l[i]? = some pa ∧ (get ((z.take i).foldl F a) pa).2 = true) → bad (z.foldl F a) = true) := by
  have hbad := lanes_foldl_bad F bad get hb z a
  obtain ⟨hnd, hlt⟩ := zip_lanes_fst hlen
  have hget : ∀ {i j pa : Nat}, (activeLanes e.mask)[i]? = some j → l[i]? = some pa → z[i]? = some (j, pa) := fun hj hpa =>
    hz ▸ List.getElem?_zip_eq_some.mpr ⟨hj, hpa⟩
  refine ⟨fun q => ⟨?_, fun i j pa hj hpa => ?_⟩, fun ⟨i, pa, hpa, hg⟩ => ?_⟩
  · rw [Bool.eq_false_iff]
    intro hc
    obtain hc | ⟨i, p, hp, hg⟩ := hbad.mp hc
    · exact absurd hc (by rw [ha]; exact Bool.false_ne_true)
    · rw [hz] at hp
      rw [q i p.2 (List.getElem?_zip_eq_some.mp hp).2] at hg
      exact Bool.false_ne_true hg
  · exact lanes_foldl_lane F vec get hv z a (hz ▸ hnd) (hz ▸ hlt) (hget hj hpa)
  · obtain ⟨hi, -⟩ := List.getElem?_eq_some_iff.mp hpa
    exact hbad.mpr (.inr ⟨i, _, hget (List.getElem?_eq_getElem (hlen ▸ hi)) hpa, hg⟩)

/-! ## When the head is performed -/

/-- Whether an operation waits for the accesses of the regions bound to its object (R72). -/
def LogOp.awaitsRegions : LogOp → Bool
  | .rel _ => true
  | .barrive release => release
  | _ => false

/-- An entry that is ready is performed, and no watchpoint of a core that has none is met (R148, R367). -/
theorem performs_head (h : HeadReady core x s e rest)
    (hr : e.op.awaitsRegions = true → (s.ctx core x).regionsDone e.addr e.num = true) :
    exec (.operandLogPerform core x 0) s = .next (s.performEntry core x e) := by
  obtain ⟨hlog, hcause, hpush, hwatch⟩ := h
  have hlast : (match e.op with
      | .rel _ => (s.ctx core x).regionsDone e.addr e.num
      | .barrive true => (s.ctx core x).regionsDone e.addr e.num
      | _ => true) = true := by
    split
    · rename_i hop
      exact hr (by rw [hop]; rfl)
    · rename_i hop
      exact hr (by rw [hop]; rfl)
    · rfl
  have h0 : (s.ctx core x).log[0]? = some e := by rw [hlog]; rfl
  have hready : s.entryReady core x 0 = true := by
    unfold State.entryReady
    dsimp only
    rw [h0]
    dsimp only
    rw [hcause, hpush, List.take_zero, List.any_nil]
    exact hlast
  have hw : s.watched core e = false := by
    unfold State.watched
    rw [hwatch]
    rfl
  change execOperandLogPerform core x 0 s = _
  unfold execOperandLogPerform
  dsimp only
  rw [h0]
  dsimp only
  rw [hready, hw]
  rfl

/-- The head of the log is performed, where its operation waits for no region. -/
theorem performs_op (h : HeadReady core x s e rest) {op : LogOp} (hop : e.op = op) (hf : op.awaitsRegions = false)
    (ht : s.performEntry core x e = t) : exec (.operandLogPerform core x 0) s = .next t := by
  rw [performs_head h (fun q => by rw [hop, hf] at q; cases q), ht]

end Sys2Proof.Machine
end

section
/-! SUPPORT. What each operation of the operand log does when it is performed (R142 to R153), settled (O26). -/

namespace Sys2Proof.Machine

open Sys2Proof.Spec

variable {s t u : State} {core x : Nat} {e : LogEntry} {rest : List LogEntry}

/-! ## Loads -/

/-- Whether what was taken was poisoned decides between the result and 0x47 (R32, R148). -/
theorem performs_loaded {v : Vec} {bad : Bool} (h : exec (.operandLogPerform core x 0) s = .next (t.loaded core x e v bad)) :
    (bad = false → exec (.operandLogPerform core x 0) s = .next ((t.releaseEntry core x e.num).writeDest core x e.d v e.mask)) ∧
    (bad = true → exec (.operandLogPerform core x 0) s = .next ((t.releaseEntry core x e.num).poisoned core x 1 0 0 0)) := by
  constructor <;> rintro rfl <;> exact h

theorem performs_load {b : List Byte} {p : List Bool} {lines : List Nat} (h : HeadReady core x s e rest) (hop : e.op = .load)
    (hb : s.globalBytes core x e.addr 8 = (.ok (b, p, lines), u)) :
    ((∀ q ∈ p, q = false) → exec (.operandLogPerform core x 0) s =
      .next ((u.releaseEntry core x e.num).writeDest core x e.d (wide (le64 b)) e.mask)) ∧
    (true ∈ p → exec (.operandLogPerform core x 0) s = .next ((u.releaseEntry core x e.num).poisoned core x 1 0 0 0)) := by
  have hp : s.performEntry core x e = u.loaded core x e (wide (le64 b)) (p.any id) := by
    rw [State.performEntry, hop]
    dsimp only
    rw [hb]
    rfl
  obtain ⟨hok, hbad⟩ := performs_loaded (performs_op h hop rfl hp)
  exact ⟨fun q => hok (by simpa using q), fun q => hbad (by simpa using q)⟩

theorem byteOf_ofVecBytes (b : List Byte) {i : Nat} (h : i < 512) : byteOf (ofVecBytes b) i = b.getD i 0 := by
  rw [ofVecBytes, byteOf_ofBytes _ (by omega)]
  simp [List.getD_eq_getElem?_getD, h]

theorem performs_vload {b : List Byte} {p : List Bool} {lines : List Nat} (h : HeadReady core x s e rest) (hop : e.op = .vload)
    (hb : s.globalBytes core x e.addr 512 = (.ok (b, p, lines), u)) :
    ((∀ i < 512, e.mask.getLsbD (i / 4) = true → p.getD i false = false) →
      ∃ v, exec (.operandLogPerform core x 0) s = .next ((u.releaseEntry core x e.num).writeDest core x e.d v e.mask) ∧
        ∀ i < 512, byteOf v i = b.getD i 0) ∧
    ((∃ i < 512, e.mask.getLsbD (i / 4) = true ∧ p.getD i false = true) →
      exec (.operandLogPerform core x 0) s = .next ((u.releaseEntry core x e.num).poisoned core x 1 0 0 0)) := by
  have hp : s.performEntry core x e =
      u.loaded core x e (ofVecBytes b) ((List.range 512).any (fun i => e.mask.getLsbD (i / 4) && p.getD i false)) := by
    rw [State.performEntry, hop]
    dsimp only
    rw [hb]
    rfl
  obtain ⟨hok, hbad⟩ := performs_loaded (performs_op h hop rfl hp)
  refine ⟨fun q => ⟨_, hok ?_, fun i hi => byteOf_ofVecBytes b hi⟩, fun ⟨i, hi, hm, hq⟩ => hbad ?_⟩
  · rw [List.any_eq_false]
    intro i hi
    simpa using q i (List.mem_range.mp hi)
  · rw [List.any_eq_true]
    exact ⟨i, List.mem_range.mpr hi, by rw [hm, hq]; rfl⟩

/-- What a gather takes at an address: the word and whether it is poisoned (R142). -/
def gatherSeen (u : State) (die pa : Nat) : Lane × Bool :=
  ((u.viewSector die (pa / 64)).1.extractLsb' (8 * (pa % 64)) 32, (u.viewSector die (pa / 64)).2)

/-- One lane of a gather. -/
def gatherStep (u : State) (die : Nat) (v : Vec × Bool) (p : Nat × Nat) : Vec × Bool :=
  (setLane v.1 p.1 (gatherSeen u die p.2).1, v.2 || (gatherSeen u die p.2).2)

/-- Each active lane of a gather receives the word at its address (R142). -/
theorem performs_gather {l : List Nat} (h : HeadReady core x s e rest) (hop : e.op = .gather)
    (hl : s.laneTr core x e .read = (.ok l, u)) :
    let t := l.foldl (fun w pa => w.touchSector (coreDie core) (pa / 64)) u
    let seen := fun (pa : Nat) => u.viewSector (coreDie core) (pa / 64)
    ((∀ pa ∈ l, (seen pa).2 = false) →
      ∃ v, exec (.operandLogPerform core x 0) s = .next ((t.releaseEntry core x e.num).writeDest core x e.d v e.mask) ∧
        ∀ i j pa : Nat, (activeLanes e.mask)[i]? = some j → l[i]? = some pa → lane v j = (seen pa).1.extractLsb' (8 * (pa % 64)) 32) ∧
    ((∃ pa ∈ l, (seen pa).2 = true) →
      exec (.operandLogPerform core x 0) s = .next ((t.releaseEntry core x e.num).poisoned core x 1 0 0 0)) := by
  intro t seen
  have hp : s.performEntry core x e =
      t.loaded core x e (((activeLanes e.mask).zip l).foldl (gatherStep u (coreDie core)) (0, false)).1
        (((activeLanes e.mask).zip l).foldl (gatherStep u (coreDie core)) (0, false)).2 := by
    rw [State.performEntry, hop]
    dsimp only
    rw [hl]
    rfl
  obtain ⟨hclean, hbad⟩ := lanes_foldl_zip (F := gatherStep u (coreDie core)) (vec := (·.1)) (bad := (·.2))
    (get := fun _ pa => gatherSeen u (coreDie core) pa) (fun _ _ => rfl) (fun _ _ => rfl) (length_laneTr hl) (a := (0, false)) rfl rfl
  obtain ⟨hok, hsp⟩ := performs_loaded (performs_op h hop rfl hp)
  constructor
  · intro q
    obtain ⟨hf, hlanes⟩ := hclean (fun i pa hpa => q pa (List.mem_of_getElem? hpa))
    exact ⟨_, hok hf, hlanes⟩
  · rintro ⟨pa, hpa, hg⟩
    obtain ⟨i, hi⟩ := List.getElem?_of_mem hpa
    exact hsp (hbad ⟨i, pa, hi, hg⟩)

/-! ## Stores -/

theorem performs_store (h : HeadReady core x s e rest) (hop : e.op = .store)
    (hb : s.globalStore core x e.addr (bytesOf (lo64 e.data) 8) [] = (.ok (), u)) :
    exec (.operandLogPerform core x 0) s = .next (u.releaseEntry core x e.num) := by
  refine performs_op h hop rfl ?_
  rw [State.performEntry, hop]
  dsimp only
  rw [hb]
  rfl

/-- The bytes of sector `k` that the active lanes of a vector store cover. -/
def laneBytes (mask : Pred) (k : Nat) : BitVec 64 := BitVec.ofNat 64 (packNat 1 (fun i => (mask.getLsbD (16 * k + i / 4)).toNat) 64)

theorem clusterOn_eq (mask : Pred) : clusterOn mask = fun k => decide (mask.extractLsb' (16 * k) 16 ≠ 0) := by
  funext k
  rw [clusterOn, Bool.eq_iff_iff, bne_iff_ne, decide_eq_true_eq]

theorem performs_vstore {ks l : List Nat} (h : HeadReady core x s e rest) (hop : e.op = .vstore)
    (hk : ks = (List.range 8).filter (fun k => decide (e.mask.extractLsb' (16 * k) 16 ≠ 0)))
    (hl : s.translateAll core (s.asnOf core x) (s.rootOf core x) .write (ks.map (fun k => e.addr + .ofNat 64 (64 * k))) = (.ok l, u)) :
    exec (.operandLogPerform core x 0) s = .next (((ks.zip l).foldl (fun w p =>
      w.coreWrite (coreDie core) (p.2 / 64) (laneBytes e.mask p.1) (e.data.extractLsb' (512 * p.1) 512)) u).releaseEntry core x e.num) := by
  refine performs_op h hop rfl ?_
  rw [State.performEntry, hop]
  dsimp only
  rw [clusterOn_eq, ← hk, hl]
  rfl

theorem performs_scatter {l : List Nat} (h : HeadReady core x s e rest) (hop : e.op = .scatter)
    (hl : s.laneTr core x e .write = (.ok l, u)) :
    exec (.operandLogPerform core x 0) s = .next ((((activeLanes e.mask).zip l).foldl (fun w p =>
      let q := pieceOf p.2 (bytesOf (lane e.data p.1) 4) [] (p.2 / 64)
      w.coreWrite (coreDie core) (p.2 / 64) q.1 q.2) u).releaseEntry core x e.num) := by
  refine performs_op h hop rfl ?_
  rw [State.performEntry, hop]
  dsimp only
  rw [hl]
  rfl

/-! ## Atomics -/

theorem performs_amo {op : BitVec 3} {pa : Nat} (h : HeadReady core x s e rest) (hop : e.op = .amo op)
    (hl : s.entryTr core x e.addr .atomic = (.ok pa, u)) :
    let t := u.homeStore pa (bytesOf (amoWord op (u.homeWord pa) (lo64 e.data) e.cmp) 8)
    ((u.homeBytes pa 8).2 = false → exec (.operandLogPerform core x 0) s =
      .next ((t.releaseEntry core x e.num).writeDest core x e.d (wide (u.homeWord pa)) e.mask)) ∧
    ((u.homeBytes pa 8).2 = true → exec (.operandLogPerform core x 0) s = .next ((t.releaseEntry core x e.num).poisoned core x 1 0 0 0)) := by
  intro t
  have hp : s.performEntry core x e = t.loaded core x e (wide (u.homeWord pa)) (u.homeBytes pa 8).2 := by
    rw [State.performEntry, hop]
    dsimp only
    rw [hl]
    rfl
  exact performs_loaded (performs_op h hop rfl hp)

/-- What one lane of a vector atomic leaves at its address (R144). -/
def vamoStore (op : BitVec 2) (data : Vec) (w : State) (p : Nat × Nat) : State :=
  w.homeStore p.2 (bytesOf (vamoLane op (w.homeLane p.2).1 (lane data p.1)) 4)

/-- One lane of a vector atomic. -/
def vamoStep (op : BitVec 2) (data : Vec) (v : State × Vec × Bool) (p : Nat × Nat) : State × Vec × Bool :=
  (vamoStore op data v.1 p, setLane v.2.1 p.1 (v.1.homeLane p.2).1, v.2.2 || (v.1.homeLane p.2).2)

/-- The state between the lanes of a vector atomic is that of its stores. -/
theorem foldl_vamoStep (op : BitVec 2) (data : Vec) (u : State) (z : List (Nat × Nat)) :
    (z.foldl (vamoStep op data) (u, 0, false)).1 = z.foldl (vamoStore op data) u :=
  (List.foldl_hom Prod.fst (fun _ _ => rfl)).symm

/-- The lanes of a vector atomic act one after the other, each on what those before it have left (R144). -/
theorem performs_vamo {op : BitVec 2} {l : List Nat} (h : HeadReady core x s e rest) (hop : e.op = .vamo op)
    (hl : s.laneTr core x e .atomic = (.ok l, u)) :
    let at_ := fun (n : Nat) => (((activeLanes e.mask).zip l).take n).foldl (vamoStore op e.data) u
    let t := at_ (activeLanes e.mask).length
    ((∀ i pa : Nat, l[i]? = some pa → ((at_ i).homeLane pa).2 = false) →
      ∃ v, exec (.operandLogPerform core x 0) s = .next ((t.releaseEntry core x e.num).writeDest core x e.d v e.mask) ∧
        ∀ i j pa : Nat, (activeLanes e.mask)[i]? = some j → l[i]? = some pa → lane v j = ((at_ i).homeLane pa).1) ∧
    ((∃ i pa : Nat, l[i]? = some pa ∧ ((at_ i).homeLane pa).2 = true) →
      exec (.operandLogPerform core x 0) s = .next ((t.releaseEntry core x e.num).poisoned core x 1 0 0 0)) := by
  intro at_ t
  have hst : ∀ n, ((((activeLanes e.mask).zip l).take n).foldl (vamoStep op e.data) (u, 0, false)).1 = at_ n :=
    fun n => foldl_vamoStep op e.data u _
  have hall : ((activeLanes e.mask).zip l).take (activeLanes e.mask).length = (activeLanes e.mask).zip l :=
    List.take_of_length_le (by rw [List.length_zip]; omega)
  have hp : s.performEntry core x e = t.loaded core x e (((activeLanes e.mask).zip l).foldl (vamoStep op e.data) (u, 0, false)).2.1
      (((activeLanes e.mask).zip l).foldl (vamoStep op e.data) (u, 0, false)).2.2 := by
    have ht : t = (((activeLanes e.mask).zip l).foldl (vamoStep op e.data) (u, 0, false)).1 :=
      (hst _).symm.trans (by rw [hall])
    rw [State.performEntry, hop, ht]
    dsimp only
    rw [hl]
    rfl
  obtain ⟨hclean, hbad⟩ := lanes_foldl_zip (F := vamoStep op e.data) (vec := (·.2.1)) (bad := (·.2.2))
    (get := fun v pa => v.1.homeLane pa) (fun _ _ => rfl) (fun _ _ => rfl) (length_laneTr hl) (a := (u, 0, false)) rfl rfl
  simp only [hst] at hclean hbad
  obtain ⟨hok, hsp⟩ := performs_loaded (performs_op h hop rfl hp)
  exact ⟨fun q => ⟨_, hok (hclean q).1, (hclean q).2⟩, fun q => hsp (hbad q)⟩

/-- The eight updates of an atomic (R143). -/
theorem amoWord_cases (w b c : Word) : amoWord 0 w b c = b ∧ amoWord 1 w b c = .ofNat 64 (w.toNat + b.toNat) ∧ amoWord 2 w b c = w &&& b ∧
    amoWord 3 w b c = w ||| b ∧ amoWord 4 w b c = w ^^^ b ∧ amoWord 5 w b c = (if w.toInt ≤ b.toInt then b else w) ∧
    amoWord 6 w b c = (if w.toNat ≤ b.toNat then b else w) ∧ amoWord 7 w b c = (if w = c then b else w) := by
  refine ⟨rfl, rfl, rfl, rfl, rfl, ?_, ?_, rfl⟩
  · change (if w.slt b then b else w) = _
    rw [BitVec.slt]
    rcases lt_trichotomy w.toInt b.toInt with h | h | h
    · rw [if_pos (decide_eq_true h), if_pos h.le]
    · rw [BitVec.toInt_inj.mp h, ite_self, ite_self]
    · rw [if_neg (by simpa using h.le), if_neg (not_le.mpr h)]
  · change (if w.ult b then b else w) = _
    rw [BitVec.ult]
    rcases lt_trichotomy w.toNat b.toNat with h | h | h
    · rw [if_pos (decide_eq_true h), if_pos h.le]
    · rw [BitVec.toNat_inj.mp h, ite_self, ite_self]
    · rw [if_neg (by simpa using h.le), if_neg (not_le.mpr h)]

/-- The four updates of a vector atomic (R144). -/
theorem vamoLane_cases (w b : Lane) : vamoLane 0 w b = .ofNat 32 (w.toNat + b.toNat) ∧ vamoLane 1 w b = (if w.toInt < b.toInt then b else w) ∧
    vamoLane 2 w b = .ofNat 32 (fp32.add .rne w.toNat b.toNat).1 ∧ vamoLane 3 w b = b := by
  refine ⟨rfl, ?_, rfl, rfl⟩
  change (if w.slt b then b else w) = _
  simp only [BitVec.slt, decide_eq_true_eq]

/-! ## Releases, barriers and maintenance -/

theorem performs_rel {k pa : Nat} (h : HeadReady core x s e rest) (hop : e.op = .rel k)
    (hr : (s.ctx core x).regionsDone e.addr e.num = true) (hl : s.entryTr core x e.addr .atomic = (.ok pa, u)) :
    exec (.operandLogPerform core x 0) s =
      .next (((u.releaseRegions core x e.addr).homeStore pa (bytesOf (lo64 e.data) 8)).releaseEntry core x e.num) := by
  rw [performs_head h (fun _ => hr), State.performEntry, hop]
  dsimp only
  rw [hl]
  rfl

theorem performs_binit {pa : Nat} (h : HeadReady core x s e rest) (hop : e.op = .binit)
    (hl : s.entryTr core x e.addr .atomic = (.ok pa, u)) :
    exec (.operandLogPerform core x 0) s = .next ((u.setGlobalBar pa (e.data.setWidth 128)).releaseEntry core x e.num) := by
  refine performs_op h hop rfl ?_
  rw [State.performEntry, hop]
  dsimp only
  rw [hl]
  rfl

/-- An update of a barrier object is made at its home slice, one in poison raises 0x47 (R63, R153). -/
theorem performs_barrier {w : State} {up : BarOp} {pa : Nat} (h : HeadReady core x s e rest)
    (hw : (w = u ∧ e.op = .barrive false ∧ up = .arrive) ∨
      (w = u.releaseRegions core x e.addr ∧ e.op = .barrive true ∧ up = .arrive ∧ (s.ctx core x).regionsDone e.addr e.num = true) ∨
      (w = u ∧ e.op = .bxpect ∧ up = .expect (lo64 e.data).toNat e.cmp.toNat))
    (hl : s.entryTr core x e.addr .atomic = (.ok pa, u)) :
    exec (.operandLogPerform core x 0) s = .next (if (w.homeBytes pa 16).2 then
        ((w.touchBytes pa 16).releaseEntry core x e.num).poisoned core x 1 0 0 0
      else ((w.updGlobalBar pa up).1.releaseEntry core x e.num).entryCause core x (w.updGlobalBar pa up).2) := by
  have hr : e.op.awaitsRegions = true → (s.ctx core x).regionsDone e.addr e.num = true := fun q => by
    obtain ⟨-, hop, -⟩ | ⟨-, -, -, hr⟩ | ⟨-, hop, -⟩ := hw
    · rw [hop] at q; cases q
    · exact hr
    · rw [hop] at q; cases q
  rw [performs_head h hr, State.performEntry]
  obtain ⟨rfl, hop, rfl⟩ | ⟨rfl, hop, rfl, -⟩ | ⟨rfl, hop, rfl⟩ := hw
  all_goals
    rw [hop]
    dsimp only
    rw [hl]
    rfl

theorem performs_maintenance (h : HeadReady core x s e rest) {inval : Bool} (hop : e.op = (if inval then .cinv else .cwb)) :
    exec (.operandLogPerform core x 0) s = .next ((s.maintain core x inval e.addr e.cmp.toNat).releaseEntry core x e.num) := by
  cases inval with
  | false => exact performs_op h hop rfl (by rw [State.performEntry, hop]; rfl)
  | true => exact performs_op h hop rfl (by rw [State.performEntry, hop]; rfl)

/-- What `cwb` and `cinv` do to a line at its home (R150). -/
theorem maintHome_cases {line sec : Nat} (hs : sec ∈ lineSectors line) (e : L2Sector) :
    (mfind (s.maintHome false line).l2 sec = some e → e.dirty = false) ∧
    (s.linePinned (homeDie (512 * line)) line = false → mfind (s.maintHome true line).l2 sec = none) ∧
    ∀ d : L2Sector, mfind s.l2 sec = some { d with dirty := true } → stackSector (s.maintHome false line).mem sec = d.data := by
  have hc : s.maintHome false line = s.cleanLine line := rfl
  rw [hc, mfind_cleanLine, if_pos hs]
  refine ⟨fun he => ?_, fun hp => ?_, fun d hd => ?_⟩
  · obtain ⟨f, -, rfl⟩ := Option.map_eq_some_iff.mp he
    rfl
  · unfold State.maintHome
    dsimp only
    rw [(homeStep_cleanLine s line).linePinned, hp, if_pos (show (true && !false) = true from rfl), mfind_merases, if_pos hs]
  · exact stackSector_cleanLine (e := { d with dirty := true }) hs hd rfl

/-! ## Reads for waiting bundles -/

theorem updCtx_congr {f g : Ctx → Ctx} (h : f (s.ctx core x) = g (s.ctx core x)) : s.updCtx core x f = s.updCtx core x g := by
  rw [State.updCtx, State.updCtx, h]

/-- The read reaches the bundle that waits for it (R152, R153). -/
theorem syncArrive_waiting {f : LogEntry} {a : Word} {v : Vec} (hb : (s.ctx core x).blocked = .syncLoad f) (ha : f.addr = a) :
    s.syncArrive core x a v false = s.updCtx core x (fun c => { c with syncRead := some (a, v) }) := by
  unfold State.syncArrive
  rw [if_neg Bool.false_ne_true]
  apply updCtx_congr
  rw [hb]
  exact if_pos ha

theorem performs_syncRead {n pa : Nat} {f : LogEntry} (h : HeadReady core x s e rest)
    (hn : (n = 8 ∧ e.op = .acqRead) ∨ (n = 16 ∧ e.op = .bwaitRead)) (hl : s.entryTr core x e.addr .atomic = (.ok pa, u))
    (hb : (u.ctx core x).blocked = .syncLoad f) (ha : f.addr = e.addr) :
    ((u.homeBytes pa n).2 = false → ∃ v, exec (.operandLogPerform core x 0) s =
        .next (((u.touchBytes pa n).releaseEntry core x e.num).updCtx core x (fun c => { c with syncRead := some (e.addr, v) })) ∧
      ∀ i < n, byteOf v i = (u.homeBytes pa n).1.getD i 0) ∧
    ((u.homeBytes pa n).2 = true →
      exec (.operandLogPerform core x 0) s = .next (((u.touchBytes pa n).releaseEntry core x e.num).poisoned core x 1 0 0 0)) := by
  have hblocked : (((u.touchBytes pa n).releaseEntry core x e.num).ctx core x).blocked = .syncLoad f := by
    rw [State.releaseEntry, ctx_updCtx_same, (homeStep_touchBytes u pa n).ctx]
    exact hb
  have hv : ∃ v : Vec, (∀ i < n, byteOf v i = (u.homeBytes pa n).1.getD i 0) ∧ exec (.operandLogPerform core x 0) s =
      .next (((u.touchBytes pa n).releaseEntry core x e.num).syncArrive core x e.addr v (u.homeBytes pa n).2) := by
    obtain ⟨rfl, hop⟩ | ⟨rfl, hop⟩ := hn
    · refine ⟨wide (ofBytes 64 (u.homeBytes pa 8).1), fun i hi => ?_, performs_op h hop rfl ?_⟩
      · rw [wide, byteOf_setWidth _ (by omega), byteOf_ofBytes _ (by omega)]
      · rw [State.performEntry, hop]
        dsimp only
        rw [hl]
        rfl
    · refine ⟨(u.globalBar pa).setWidth 4096, fun i hi => ?_, performs_op h hop rfl ?_⟩
      · rw [byteOf_setWidth _ (by omega), State.globalBar, byteOf_ofBytes _ (by omega)]
      · rw [State.performEntry, hop]
        dsimp only
        rw [hl]
        rfl
  obtain ⟨v, hbytes, hexec⟩ := hv
  constructor
  · intro hok
    rw [hok, syncArrive_waiting hblocked ha] at hexec
    exact ⟨v, hexec, hbytes⟩
  · intro hbad
    rw [hbad] at hexec
    exact hexec

/-! ## Faults -/

/-- An entry one of whose addresses cannot be translated keeps its place with the cause (R148). -/
theorem performs_fault {f : Byte × Word} (h : HeadReady core x s e rest)
    (hf : (e.op = .load ∧ s.globalBytes core x e.addr 8 = (.error f, u)) ∨
      (e.op = .vload ∧ s.globalBytes core x e.addr 512 = (.error f, u)) ∨
      (e.op = .store ∧ s.globalStore core x e.addr (bytesOf (lo64 e.data) 8) [] = (.error f, u)) ∨
      (e.op = .gather ∧ s.laneTr core x e .read = (.error f, u)) ∨ (e.op = .scatter ∧ s.laneTr core x e .write = (.error f, u)) ∨
      ((∃ op, e.op = .vamo op) ∧ s.laneTr core x e .atomic = (.error f, u)) ∨
      (((∃ op, e.op = .amo op) ∨ e.op = .binit ∨ e.op = .bxpect ∨ e.op = .barrive false) ∧
        s.entryTr core x e.addr .atomic = (.error f, u)) ∨
      (((∃ k, e.op = .rel k) ∨ e.op = .barrive true) ∧ (s.ctx core x).regionsDone e.addr e.num = true ∧
        s.entryTr core x e.addr .atomic = (.error f, u)) ∨
      (e.op = .vstore ∧ s.translateAll core (s.asnOf core x) (s.rootOf core x) .write
        (((List.range 8).filter (fun k => decide (e.mask.extractLsb' (16 * k) 16 ≠ 0))).map (fun k => e.addr + .ofNat 64 (64 * k))) =
          (.error f, u)) ∨
      ((e.op = .acqRead ∨ e.op = .bwaitRead) ∧ s.entryTr core x e.addr .atomic = (.error f, u))) :
    exec (.operandLogPerform core x 0) s = .next (u.entryFault core x e f) := by
  rw [← clusterOn_eq] at hf
  rcases hf with ⟨hop, hf⟩ | ⟨hop, hf⟩ | ⟨hop, hf⟩ | ⟨hop, hf⟩ | ⟨hop, hf⟩ | ⟨⟨op, hop⟩, hf⟩ |
    ⟨⟨op, hop⟩ | hop | hop | hop, hf⟩ | ⟨⟨k, hop⟩ | hop, hr, hf⟩ | ⟨hop, hf⟩ | ⟨hop | hop, hf⟩
  all_goals
    rw [performs_head h (by simp [LogOp.awaitsRegions, *]), State.performEntry, hop]
    dsimp only
    rw [hf]
    rfl

/-- Settles O26: the head is ready, so it is performed, and what is performed follows from its operation. -/
theorem logPerformed : Obligations.LogPerformed := by
  unfold Obligations.LogPerformed
  refine ⟨fun core x s u e rest h => ⟨?_, ?_, ?_, ?_, ?_, ?_, ?_, ?_, ?_, ?_, ?_, ?_, ?_, ?_⟩, fun w b c => amoWord_cases w b c,
    vamoLane_cases, fun s line sec e hs => maintHome_cases hs e⟩
  · exact fun b p lines hop hb => performs_load h hop hb
  · exact fun b p lines hop hb => performs_vload h hop hb
  · exact fun l hop hl => performs_gather h hop hl
  · exact fun hop hb => performs_store h hop hb
  · exact fun ks l hop hk hl => ⟨laneBytes e.mask, fun k _ i hi => getLsbD_packNat _ (le_refl 64) hi, performs_vstore h hop hk hl⟩
  · exact fun l hop hl => performs_scatter h hop hl
  · exact fun op pa hop hl => performs_amo h hop hl
  · exact fun op l hop hl => performs_vamo h hop hl
  · exact fun k pa hop hr hl => performs_rel h hop hr hl
  · exact fun pa hop hl => performs_binit h hop hl
  · intro w up pa hw hl
    have he := performs_barrier h hw hl
    refine ⟨fun hbad => ?_, fun hok => ⟨fun hn => ?_, fun c hc => ?_⟩⟩
    · rwa [if_pos hbad] at he
    · rwa [hok, if_neg Bool.false_ne_true, hn] at he
    · rwa [hok, if_neg Bool.false_ne_true, hc] at he
  · exact fun inval hop => performs_maintenance h hop
  · exact fun n pa f hn hl hb ha => performs_syncRead h hn hl hb ha
  · exact fun f hf => performs_fault h hf

end Sys2Proof.Machine
end

section
/-! SUPPORT. Memory in its canonical form: which entries it lists, and that two memories that read alike are the same (O51). -/

namespace Sys2Proof.Machine

/-- An entry of a memory in canonical form is what its address reads as. -/
theorem read_of_mem {m : Memory} (h : Mem.wf m) {e : Nat × Byte} (he : e ∈ m) : Mem.read m e.1 = e.2 := by
  induction m with
  | nil => cases he
  | cons f t ih =>
    have hleast := wf_head_least h
    have ht : Mem.wf t := ⟨(List.pairwise_cons.mp h.1).2, fun g hg => h.2 g (List.mem_cons_of_mem _ hg)⟩
    rcases List.mem_cons.mp he with rfl | he'
    · simp [Mem.read, mget, mfind]
    · rw [← ih ht he']
      simp [Mem.read, mget, mfind, Nat.ne_of_lt (hleast e he')]

/-- What an address of a memory reads as, where it is not what an unlisted one does, is listed. -/
theorem mem_of_read {m : Memory} {a : Nat} (h : Mem.read m a ≠ unlistedByte) : (a, Mem.read m a) ∈ m := by
  induction m with
  | nil => exact absurd rfl h
  | cons f t ih =>
    by_cases hf : f.1 = a
    · subst hf
      simp [Mem.read, mget, mfind]
    · have hr : Mem.read (f :: t) a = Mem.read t a := by simp [Mem.read, mget, mfind, hf]
      rw [hr] at h ⊢
      exact List.mem_cons_of_mem _ (ih h)

/-- The entries of a memory in canonical form are the bytes that do not read as an unlisted one does. -/
theorem mem_iff_read {m : Memory} (h : Mem.wf m) (e : Nat × Byte) : e ∈ m ↔ Mem.read m e.1 = e.2 ∧ e.2 ≠ unlistedByte :=
  ⟨fun he => ⟨read_of_mem h he, h.2 e he⟩, fun ⟨hr, hn⟩ => by
    obtain ⟨a, b⟩ := e
    obtain rfl : Mem.read m a = b := hr
    exact mem_of_read hn⟩

/-- Two memories in canonical form that read alike are equal: they list the same entries, in the same order. -/
theorem eq_of_read {m n : Memory} (hm : Mem.wf m) (hn : Mem.wf n) (h : ∀ a, Mem.read m a = Mem.read n a) : m = n := by
  have : Std.Irrefl (fun e f : Nat × Byte => e.1 < f.1) := ⟨fun _ => Nat.lt_irrefl _⟩
  have : Std.Antisymm (fun e f : Nat × Byte => e.1 < f.1) := ⟨fun _ _ hef hfe => absurd hef (Nat.lt_asymm hfe)⟩
  exact hm.1.eq_of_mem_iff hn.1 (fun e => by rw [mem_iff_read hm, mem_iff_read hn, h])

/-! ## Operations -/

/-- Writing every Dirty sector of the device back keeps the canonical form. -/
theorem wf_cleanAll {s : State} (h : Mem.wf s.mem) : Mem.wf s.cleanAll.mem :=
  wf_foldl _ (fun _ _ hs => wf_cleanLine hs _) _ (wf_foldl _ (fun _ _ hs => wf_rdcClean hs _ _) _ h)

/-- Dropping entries keeps the canonical form. -/
theorem wf_filter {m : Memory} (h : Mem.wf m) (p : Nat × Byte → Bool) : Mem.wf (m.filter p) :=
  ⟨h.1.filter p, fun e he => h.2 e (List.mem_filter.mp he).1⟩

/-- A copy of a part of the flash into memory keeps the canonical form. -/
theorem wf_flashRestore {s : State} (h : Mem.wf s.mem) (a pa n : Nat) : Mem.wf (s.flashRestore a pa n).mem :=
  wf_foldl_write _ _ _ (wf_filter h _)

theorem wf_rdcEviction {s : State} (h : Mem.wf s.mem) (die line : Nat) :
    ∃ t, exec (.rdcEviction die line) s = .next t ∧ Mem.wf t.mem := by
  refine ⟨_, rfl, ?_⟩
  split
  · exact wf_rdcEvict h die line
  · exact h

/-- Settles O51: a write reads back, reading determines a memory in canonical form, and each operation writes byte by byte. -/
theorem memoryForm : Obligations.MemoryForm := by
  unfold Obligations.MemoryForm
  refine ⟨fun m a c b => ?_, fun m n => eq_of_read, fun s h => ⟨fun pa b => wf_homeStore h pa b, fun sec v bad => wf_toStack h sec v bad,
    fun l => wf_evictLine h l, wf_cleanAll h, fun a pa n => wf_flashRestore h a pa n, fun die line => wf_rdcEviction h die line⟩⟩
  split
  · next hc => rw [hc, read_write_same]
  · next hc => exact read_write_other m b hc

end Sys2Proof.Machine
end

section
/-! SUPPORT. Operands of slots in the local memory: the address and the record that pass their checks (R57, R61, R137, R160), and what a
slot that passes its own checks answers. -/

namespace Sys2Proof.Machine

open Sys2Proof.Spec

variable {s t : State} {a : Word} {n l : Nat}

/-! ## Slots that pass their own checks -/

/-- A clear slot whose own checks pass answers what its effect makes of the noted state. -/
theorem gives_of_issue {i : Instr} {pre own : State → Vals → SlotEnd} {act : Vals → State → State}
    (he : exec i s = issuePre (viewOf i) pre own act s) (ho : own s (s.vals (viewOf i)) = .commit)
    (ht : act (s.vals (viewOf i)) (s.noted (viewOf i)) = t) : Gives i s t := fun h => by
  rw [he, issuePre_clear h ho, begin_eq, ht]

/-- The fields of a clear slot hold assigned values. -/
theorem encOk_of_clear {v : View} (h : s.Clear v) : v.encOk = true := by
  obtain ⟨hc, -, -⟩ := h
  by_contra hn
  have hf : v.fields = some (2, 0x00) := if_pos (by simpa using hn)
  rw [State.slotCheck, State.slotRules, hf] at hc
  cases hc

/-- A check of a slot that finds what it needs passes. -/
theorem need_ok {ok : Bool} (c : Byte) (h : ok = true) : need ok c = .commit := if_pos h

theorem commit_and (e : SlotEnd) : SlotEnd.and .commit e = e := rfl

theorem hold_free (h : s.heldBack l n = false) : s.hold l n = .commit := by rw [State.hold, h]; rfl

/-! ## Local addresses -/

theorem checkLocal_ok (ha : localOf a = some l) (hf : s.localFault s.cur s.x l n = none) : s.checkLocal a n = .ok l := by
  simp only [State.checkLocal, ha, hf]

theorem checkOwn_ok (ha : localOf a = some l) (hw : windowOf l = 0) (hf : s.localFault s.cur s.x l n = none) :
    s.checkOwn a n = .ok l := by
  simp only [State.checkOwn, checkLocal_ok ha hf, hw, if_true]

/-! ## Records -/

/-- The checks of the address of a record that is there to be read pass, and those of the record itself follow. -/
theorem recordEnd_ok {align : Nat} (cause : Byte) (k : List Byte → SlotEnd) (h : ownAt s a n l) (ha : a.toNat % align = 0) :
    s.recordEnd a align n cause k = k (s.localBytes s.cur s.x l n).1 := by
  obtain ⟨hl, hw, hf, hh, hb⟩ := h
  simp only [State.recordEnd, need_ok cause (beq_iff_eq.mpr ha), checkOwn_ok hl hw hf, withAddr, hold_free hh, hb, commit_and,
    Bool.false_eq_true, if_false]

/-- The bytes of a record that is there to be read. -/
theorem recordBytes_ok (h : ownAt s a n l) : s.recordBytes a n = some (s.localBytes s.cur s.x l n).1 := by
  obtain ⟨hl, hw, hf, -, hb⟩ := h
  have hb' : (s.localBytes s.cur s.x (addrOf (s.checkOwn a n)) n).2 = false := by rw [checkOwn_ok hl hw hf]; exact hb
  rw [State.recordBytes, hb', checkOwn_ok hl hw hf]
  rfl

/-- A queue with room is not full. -/
theorem queueFull_of_room {sound : Bool} {q : Nat} (h : room s sound q) : s.me.queueFull sound q = false :=
  decide_eq_false (Nat.not_le.mpr h)

end Sys2Proof.Machine
end

section
/-! SUPPORT. Streams described, started, closed and pushed to, and the commands of the engines (R44, R145, R156 to R158, R160, R286),
settled (O19). -/

namespace Sys2Proof.Machine

open Sys2Proof.Spec

variable {s t : State} {k : BitVec 4} {p : BitVec 2}

/-! ## Streams -/

theorem gives_sdesc {o : KA} {l : Nat} {b : List Byte} (hl : localOf (srcS s o.a) = some l) (hf : s.localFault s.cur s.x l 32 = none)
    (hh : s.heldBack l 32 = false) (hb : s.localBytes s.cur s.x l 32 = (b, false)) (ha : (srcS s o.a).toNat % 32 = 0)
    (hd : descOk b = true) (hc : (s.me.stream o.k.toNat).cfg = false) :
    Gives (.sdesc o) s ((s.noted (viewOf (.sdesc o))).upd (fun c => c.setStream o.k.toNat (streamOf b))) := by
  have hr : s.checkLocal (srcS s o.a) 32 = .ok l := checkLocal_ok hl hf
  have hbytes : s.localBytes s.cur s.x (addrOf (s.checkLocal (srcS s o.a) 32)) 32 = (b, false) := by rw [hr]; exact hb
  refine gives_of_issue rfl ?_ ?_
  · change (withAddr (s.checkLocal (srcS s o.a) 32) (fun _ => .commit)).and ((need (!(s.me.stream o.k.toNat).cfg) 0x6A).and
      ((withAddr (s.checkLocal (srcS s o.a) 32) (fun l => s.hold l 32)).and (need ((srcS s o.a).toNat % 32 == 0 &&
        ((s.localBytes s.cur s.x (addrOf (s.checkLocal (srcS s o.a) 32)) 32).2 ||
          descOk (s.localBytes s.cur s.x (addrOf (s.checkLocal (srcS s o.a) 32)) 32).1)) 0x69))) = _
    rw [hbytes, hr, ha, hd, hc]
    exact congrArg (fun e => SlotEnd.and e (need true 0x69)) (hold_free hh)
  · change (if (s.localBytes s.cur s.x (addrOf (s.checkLocal (srcS s o.a) 32)) 32).2 then _ else State.upd _ (fun c =>
      c.setStream o.k.toNat (streamOf (s.localBytes s.cur s.x (addrOf (s.checkLocal (srcS s o.a) 32)) 32).1))) = _
    rw [hbytes]
    rfl

theorem gives_sbind (hc : (s.me.stream k.toNat).cfg = true) (hs : (s.me.stream k.toNat).started = false) :
    Gives (.sbind k p) s ((s.noted (viewOf (.sbind k p))).upd (fun c =>
      c.setStream k.toNat { c.stream k.toNat with started := true, after := c.logNext })) := by
  refine gives_of_issue rfl ?_ rfl
  exact need_ok _ (by rw [hc, hs]; rfl)

/-- A stream that is described closes, unless a ferry still writes it or its drain has halted or has entries left (R55, R157). -/
theorem gives_sclose (hc : (s.me.stream k.toNat).cfg = true)
    (hb : ¬((s.me.stream k.toNat).kind = 3 ∧ s.me.ferryBound k.toNat = true))
    (hd : (s.me.stream k.toNat).kind = 5 → (s.me.stream k.toNat).halt = false ∧ (s.me.stream k.toNat).entries = []) :
    Gives (.sclose k p) s ((s.noted (viewOf (.sclose k p))).closeStream s.cur s.x k.toNat) := by
  refine gives_of_issue rfl ?_ (if_pos hc)
  have hbound : (!((s.me.stream k.toNat).kind == 3 && s.me.ferryBound k.toNat)) = true := by
    rwa [Bool.not_eq_true', ← Bool.not_eq_true, Bool.and_eq_true, beq_iff_eq]
  dsimp only
  rw [hc, hbound]
  by_cases h5 : (s.me.stream k.toNat).kind = 5
  · obtain ⟨hh, he⟩ := hd h5
    simp [h5, hh, he, need, SlotEnd.and]
  · simp [h5, need, SlotEnd.and]

/-- Closing a stream that is not described does nothing (R157). -/
theorem gives_sclose_none (hc : (s.me.stream k.toNat).cfg = false) : Gives (.sclose k p) s (s.noted (viewOf (.sclose k p))) :=
  gives_of_issue rfl (if_pos (congrArg not hc)) (if_neg (fun h => Bool.false_ne_true (hc.symm.trans h)))

/-! ## Pushes -/

/-- A write stream with a free entry takes a push (R158). -/
theorem pushEnd_ok {n : Nat} (hc : (s.me.stream n).cfg = true) (h5 : (s.me.stream n).kind = 5) (hs : (s.me.stream n).started = true)
    (hn : (s.me.stream n).entries.length < 8) : s.pushEnd n = .commit := by
  simp [State.pushEnd, hc, h5, hs, hn, need, SlotEnd.and]

/-- The stream that a push target names. -/
theorem pushTarget (x : Src) : (x.f.setWidth 4 : BitVec 4).toNat = x.f.toNat % 16 := BitVec.toNat_setWidth ..

/-- The partner of a latch that a guarded form names is that of R145. -/
theorem partner_eq_twinLatch {l : BitVec 4} (h : guardOk l = true) : partner l.toNat = twinLatch l.toNat := by
  simp only [guardOk, Bool.or_eq_true, beq_iff_eq] at h
  obtain ((rfl | rfl) | rfl) | rfl := h <;> rfl

/-- A twin comparison of two latches that hold the same passes. -/
theorem twinCheck_ok {l m : Nat} (h : latchValue s l = latchValue s m) : s.twinCheck l m = .commit := if_pos h

theorem gives_vstgGd_push {l : BitVec 4} {x y : Src} (hx : popped x = true) (hk : k = x.f.setWidth 4)
    (hl : latchValue s l.toNat = latchValue s (twinLatch l.toNat)) (hp : s.pushEnd k.toNat = .commit) :
    Gives (.vstgGd l x y p) s ((s.noted (viewOf (.vstgGd l x y p))).push k.toNat (s.guardData l true)) := by
  intro h
  have hg : guardOk l = true := by
    have he := encOk_of_clear h
    simp only [viewOf, hx, if_true, Bool.and_eq_true] at he
    exact he.1.1
  rw [hk, pushTarget] at hp ⊢
  refine gives_of_issue rfl ?_ (if_pos hx) h
  change (s.twinCheck l.toNat (partner l.toNat)).and (if popped x then s.pushEnd (x.f.toNat % 16) else _) = _
  rw [partner_eq_twinLatch hg, twinCheck_ok hl, hx, if_pos rfl, hp]
  rfl

/-! ## Ferries -/

/-- The command that an engine slot puts into a ferry queue: it keeps its bank set without the banks that the task does not have, and
holds those that are left (R49, assumption 29). -/
theorem gives_ferry {i : Instr} {x : Src} {q : Nat} {gather : Bool} {l : Nat} {b : List Byte} {t : Task} {set : BitVec 32}
    (he : exec i s = ferryIssue (viewOf i) q gather s) (hv : lo64 (s.vals (viewOf i)).a = srcS s x) (ht : s.me.task = some t)
    (hl : ownAt s (srcS s x) 64 l) (ha : (srcS s x).toNat % 64 = 0) (hb : b = (s.localBytes s.cur s.x l 64).1) (hr : room s false q)
    (hset : set = (ferryOf b).bankset &&& .ofNat 32 (2 ^ t.banks - 1)) (hok : s.ferryBad (ferryOf b) gather (field b 0x3C 4) = none) :
    Gives i s (((s.noted (viewOf i)).reserveAll ((bankList t.b0 set).map (fun k => (s.cur, k))) true).upd (fun c => c.enqueue false q
      (.ferry { ferryOf b with bankset := set, held := (bankList t.b0 set).map (fun k => (s.cur, k)) }))) := by
  subst hset hb
  refine gives_of_issue he ?_ ?_
  · rw [hv, recordEnd_ok _ _ hl ha, hok, queueFull_of_room hr]
    rfl
  · have hbytes : (s.noted (viewOf i)).recordBytes (lo64 (s.vals (viewOf i)).a) 64 = some (s.localBytes s.cur s.x l 64).1 :=
      (congrArg (s.recordBytes · 64) hv).trans (recordBytes_ok hl)
    have htask : (s.noted (viewOf i)).me.task = some t := ht
    dsimp only
    rw [hbytes, htask]
    rfl

/-! ## Groups -/

/-- Reading an entry of a node with no walker only reads at the home slices. -/
theorem homeStep_readNode (s : State) (asn va node level : Nat) : HomeStep s (s.readNode none asn va node level).2 := by
  have hr : HomeStep s (s.readHome (node + 8 * bits va (12 + 9 * level + 8) (12 + 9 * level)) 8).2 := homeStep_touchBytes s _ _
  unfold State.readNode
  dsimp only [State.cachedNode, Option.bind_none]
  split
  · exact HomeStep.refl s
  · split_ifs <;> exact hr

/-- A walk of no walker only reads at the home slices. -/
theorem homeStep_walk (s : State) (asn va node l : Nat) : HomeStep s (s.walk none asn va node l).2 := by
  induction l generalizing s node with
  | zero =>
    unfold State.walk
    have h := homeStep_readNode s asn va node 0
    split <;> (next he => rw [he] at h; exact h)
  | succ l ih =>
    unfold State.walk
    have h := homeStep_readNode s asn va node (l + 1)
    split
    · next he => rw [he] at h; exact h
    · next he => rw [he] at h; exact h.trans (ih _ _)

theorem homeStep_setAcDy (s : State) (pte : Nat) (w : Bool) : HomeStep s (s.setAcDy pte w) := by
  unfold State.setAcDy
  dsimp only
  generalize s.homeWord pte ||| (if w then 0xC0 else 0x40) = new
  split
  · exact HomeStep.refl s
  · exact homeStep_homeStore s _ _

/-- A translation without a TLB and a walker works at the home slices alone. -/
theorem homeStep_translateBare (s : State) (asn root : Nat) (va : Word) (k : AccessKind) :
    HomeStep s (s.translateBare asn root va k).2 := by
  have hl : HomeStep s (s.leafFor .bare asn root va (some k)).2 := by
    have hw := homeStep_walk s asn (va.toNat % 2 ^ 57) (root / 4096 * 4096) 4
    unfold State.leafFor
    dsimp only [State.tlbHit, Asker.walker]
    split
    · exact HomeStep.refl s
    · split
      · next he => rw [he] at hw; exact hw
      · next he =>
        rw [he] at hw
        split
        · exact hw
        · exact hw.trans (homeStep_setAcDy _ _ _)
  unfold State.translateBare State.translateBy
  split <;> (next he => rw [he] at hl; exact hl)

theorem homeStep_translateBareAll (s : State) (asn root : Nat) (k : AccessKind) (l : List Word) :
    HomeStep s (s.translateBareAll asn root k l).2 := by
  induction l generalizing s with
  | nil => exact HomeStep.refl s
  | cons va l ih =>
    have h := homeStep_translateBare s asn root va k
    unfold State.translateBareAll
    split
    · next he => rw [he] at h; exact h
    · next u he =>
      rw [he] at h
      have hl := h.trans (ih u)
      split <;> (next he' => rw [he'] at hl; exact hl)

/-- A read of global bytes for an address space works at the home slices alone (R65). -/
theorem homeStep_bareRead (s : State) (asn root : Nat) (a : Word) (n : Nat) : HomeStep s (s.bareRead asn root a n).2 := by
  have h := homeStep_translateBareAll s asn root .read (vaSectors a n)
  unfold State.bareRead
  split
  · next he => rw [he] at h; exact h
  · next he =>
    rw [he] at h
    exact h.trans (HomeStep.foldl _ (fun s _ => homeStep_fillHome s _) _ _)

/-- Reading the descriptor of a group works at the home slices alone (R283, R286). -/
theorem homeStep_withGroup (s : State) (c : SoundCmd) : HomeStep s (s.withGroup c).2 := by
  have h := homeStep_bareRead s (s.asnOf s.cur s.x) (s.rootOf s.cur s.x) (s.regs.grpbase + BitVec.ofNat 64 (1088 * c.target)) 1088
  unfold State.withGroup
  split
  · exact HomeStep.refl s
  · dsimp only
    unfold State.groupAt
    split <;> (next he => rw [he] at h; exact h)

/-- The home slices know of no core's turn, no context and no command. -/
theorem HomeStep.turn (h : HomeStep s t) : t.cur = s.cur ∧ t.x = s.x ∧ t.me = s.me ∧ t.soundSeq = s.soundSeq := by
  obtain ⟨_, _, _, _, _, _, _, rfl⟩ := h
  exact ⟨rfl, rfl, rfl, rfl⟩

/-! ## The Sound engine -/

/-- The command that an engine slot puts into a queue of the Sound engine, with its group and the banks of its rows (R286). -/
theorem gives_sound {i : Instr} {x : Src} {kind q l : Nat} {b : List Byte} {t : Task} {r : SoundCmd × State} {set : BitVec 32}
    (he : exec i s = soundIssue (viewOf i) kind q s) (hv : lo64 (s.vals (viewOf i)).a = srcS s x) (ht : s.me.task = some t)
    (hl : ownAt s (srcS s x) 64 l) (ha : (srcS s x).toNat % 64 = 0) (hb : b = (s.localBytes s.cur s.x l 64).1)
    (hr : r = (s.noted (viewOf i)).withGroup (soundOf kind b)) (hset : set = r.1.nearBanks ||| r.1.farBanks)
    (hok : s.soundEnd (soundOf kind b) q = .commit) :
    Gives i s { (r.2.reserve s.cur (bankList t.b0 set) true).upd (fun k =>
      k.enqueue true q (.sound { r.1 with held := set, seq := s.soundSeq })) with soundSeq := s.soundSeq + 1 } := by
  subst hset hb
  refine gives_of_issue he ?_ ?_
  · rw [hv, recordEnd_ok _ _ hl ha, hok]
  · have hbytes : (s.noted (viewOf i)).recordBytes (lo64 (s.vals (viewOf i)).a) 64 = some (s.localBytes s.cur s.x l 64).1 :=
      (congrArg (s.recordBytes · 64) hv).trans (recordBytes_ok hl)
    obtain ⟨hcur, -, hme, hseq⟩ := (homeStep_withGroup (s.noted (viewOf i)) (soundOf kind (s.localBytes s.cur s.x l 64).1)).turn
    rw [← hr] at hcur hme hseq
    have htask : r.2.me.task = some t := hme ▸ ht
    have hreserved : (r.2.reserve s.cur (bankList t.b0 (r.1.nearBanks ||| r.1.farBanks)) true).soundSeq = s.soundSeq := hseq
    dsimp only
    rw [hbytes]
    dsimp only
    rw [← hr, htask, show r.2.cur = s.cur from hcur]
    dsimp only [Option.elim]
    rw [hreserved]

/-- Settles O19, instruction by instruction. -/
theorem streamsAndEngines : Obligations.StreamsAndEngines := by
  unfold Obligations.StreamsAndEngines
  refine ⟨fun o s l b hl hf hh hb ha hd hc => gives_sdesc hl hf hh hb ha hd hc,
    fun k p s hc => ⟨fun hs => gives_sbind hc hs, fun hb hd => gives_sclose hc hb hd⟩,
    fun k p s hc => gives_sclose_none hc, ?_, ?_, ?_⟩
  · rintro k p s q rfl hc h5 hs hn
    have hp := pushEnd_ok hc h5 hs hn
    exact ⟨fun d => gives_of_issue rfl hp rfl, fun l x y hx hk hl => gives_vstgGd_push hx hk hl hp⟩
  · exact fun o s l b t ht hl ha hb hr => ⟨fun hok => gives_ferry rfl rfl ht hl ha hb hr rfl hok,
      fun hok => gives_ferry rfl rfl ht hl ha hb hr rfl hok⟩
  · exact fun o s l b t ht hl ha hb hr => ⟨fun hok => gives_sound rfl rfl ht hl ha hb rfl rfl hok,
      fun hok => gives_sound rfl rfl ht hl ha hb rfl rfl hok, fun hok => gives_sound rfl rfl ht hl ha hb rfl rfl hok,
      fun hok => gives_sound rfl rfl ht hl ha hb rfl rfl hok⟩

end Sys2Proof.Machine
end

section
/-! SUPPORT. HALT written to a stream that is not halted (R159), against what O30 says of it. -/

namespace Sys2Proof.Machine

/-- HALT written to a stream of a context that the state does not list lists the context, as it was (R159). -/
theorem resumeStream_reset : (State.reset.resumeStream 0 0 0).ctxs = [(0, Ctx.reset)] := rfl

/-- Refutes O30: it says that HALT written to a stream that is not halted answers the same state. After reset no context is listed and
no stream is halted, and HALT written to stream 0 of context 0 of core 0 answers a state that lists that context. The context reads as
before, so no read of the device tells the two apart, but the states are not equal. -/
theorem not_streamsAtWork : ¬ Obligations.StreamsAtWork := by
  unfold Obligations.StreamsAtWork
  rintro ⟨-, -, -, hhalt, -, -⟩
  obtain ⟨-, hidle, -⟩ := hhalt 0 0 0 State.reset Stream.reset rfl
  have hsame : State.reset.resumeStream 0 0 0 = State.reset := Host.Outcome.next.inj (hidle rfl)
  have hctxs : [(0, Ctx.reset)] = ([] : Map Ctx) := resumeStream_reset.symm.trans (congrArg State.ctxs hsame)
  cases hctxs

end Sys2Proof.Machine
end

section
/-! SUPPORT. The bytes of a task's local memory: what a read returns place by place, and what a write of bytes leaves there (R32, R56 to
R58). -/

namespace Sys2Proof.Machine

variable {s t : State} {core x : Nat}

/-! ## Reads -/

/-- The byte at a local address of a task. -/
def State.localByte (s : State) (core x j : Nat) : Byte := byteOf (s.readPlace (s.place core x (64 * (j / 64)))).1 (j % 64)

/-- The bytes of `m` consecutive sectors from `k`, one after the other. -/
theorem flatMap_bytesOf (g : Nat → Sector) (k m : Nat) :
    ((List.range m).map (fun i => k + i)).flatMap (fun i => bytesOf (g i) 64) =
      (List.range (64 * m)).map (fun i => byteOf (g (k + i / 64)) (i % 64)) := by
  induction m with
  | zero => rfl
  | succ m ih =>
    have hlast : bytesOf (g (k + m)) 64 = (List.range 64).map (fun i => byteOf (g (k + (64 * m + i) / 64)) ((64 * m + i) % 64)) := by
      apply List.map_congr_left
      intro i hi
      have hi := List.mem_range.mp hi
      congr 2 <;> omega
    rw [List.range_succ, List.map_append, List.flatMap_append, ih, Nat.mul_succ, List.range_add, List.map_append, List.map_map]
    simp [hlast]

/-- A read of local memory takes the bytes of its addresses. -/
theorem localBytes_eq (s : State) (core x a n : Nat) :
    (s.localBytes core x a n).1 = (List.range n).map (fun i => s.localByte core x (a + i)) := by
  by_cases hn : n = 0
  · subst hn
    simp [State.localBytes]
  · have hs : sectorsOf a n = (List.range ((a + n - 1) / 64 - a / 64 + 1)).map (fun k => a / 64 + k) := if_neg hn
    dsimp only [State.localBytes]
    rw [hs, flatMap_bytesOf (fun k => (s.readPlace (s.place core x (64 * k))).1)]
    apply List.ext_getElem
    · simp
      omega
    · intro i h1 h2
      have hd : a / 64 + (a % 64 + i) / 64 = (a + i) / 64 := by omega
      have hm : (a % 64 + i) % 64 = (a + i) % 64 := by omega
      simp [State.localByte, hd, hm]

@[simp] theorem length_localBytes (s : State) (core x a n : Nat) : (s.localBytes core x a n).1.length = n := by
  simp [localBytes_eq]

/-- A part of the bytes of a longer read. -/
theorem take_drop_localBytes (s : State) (core x a : Nat) {k n m : Nat} (h : k + m ≤ n) :
    (((s.localBytes core x a n).1.drop k).take m) = (s.localBytes core x (a + k) m).1 := by
  rw [localBytes_eq, localBytes_eq]
  apply List.ext_getElem
  · simp
    omega
  · intro i h1 h2
    simp [Nat.add_assoc]

/-- Reads of local memory see the scratchpad, the vector registers and the task of the context alone. -/
theorem localBytes_congr (hs : t.spad = s.spad) (hv : t.vregs = s.vregs) (ht : (t.ctx core x).task = (s.ctx core x).task) (a n : Nat) :
    (t.localBytes core x a n).1 = (s.localBytes core x a n).1 := by
  have hp : ∀ b, t.place core x b = s.place core x b := fun b => by
    simp only [State.place, State.lender, ht]
  have hr : ∀ p, (t.readPlace p).1 = (s.readPlace p).1 := fun p => by
    cases p <;> simp only [State.readPlace, State.row, hs, hv]
  simp only [localBytes_eq, State.localByte, hp, hr]

/-! ## Rows of the own window -/

/-- The own window is the first 2 MiB (R57). -/
theorem windowOf_own {a : Nat} : windowOf a = 0 ↔ a < 0x20_0000 := by
  unfold windowOf
  split_ifs with h1 h2
  · omega
  · omega
  · exact ⟨fun h => absurd h (by decide), fun h => by omega⟩

/-- What an access of the own window that raises no cause tells: the task, whose allocation holds the bytes, and where they end (R57). -/
theorem own_of_localFault {a n : Nat} (hf : s.localFault core x a n = none) (hw : windowOf a = 0) :
    windowOf (a + n - 1) = 0 ∧ (0 < n → ∃ u, (s.ctx core x).task = some u) := by
  have hend : windowOf a = windowOf (a + n - 1) := by
    by_contra hne
    rw [State.localFault, if_pos (.inr hne)] at hf
    cases hf
  have hlimit : a + n ≤ 65536 * (s.ctx core x).task.elim 0 (·.banks) := by
    by_contra hgt
    rw [State.localFault, if_neg (by omega), if_pos hw, if_neg hgt] at hf
    cases hf
  refine ⟨hend ▸ hw, fun hn => ?_⟩
  cases hu : (s.ctx core x).task with
  | some u => exact ⟨u, rfl⟩
  | none =>
    rw [hu] at hlimit
    simp only [Option.elim] at hlimit
    omega

/-- A sector of the own window is a row of the task's banks (R56). -/
theorem place_own {u : Task} (hu : (s.ctx core x).task = some u) {k : Nat} (hk : 64 * k < 0x20_0000) :
    s.place core x (64 * k) = .row core (u.b0 + k / 1024) (k % 1024) := by
  have hb : 64 * k / 65536 = k / 1024 := by omega
  have hr : 64 * k % 65536 / 64 = k % 1024 := by omega
  simp only [State.place, windowOf_own.mpr hk, hu, hb, hr]

/-- A byte of the own window lies in a row of the task's banks. -/
theorem localByte_own {u : Task} (hu : (s.ctx core x).task = some u) {j : Nat} (hj : j < 0x20_0000) :
    s.localByte core x j = byteOf (s.row core (u.b0 + j / 64 / 1024) (j / 64 % 1024)).data (j % 64) := by
  rw [State.localByte, place_own hu (by omega)]
  rfl

/-- The rows of a core's banks lie in the order of their sectors. -/
theorem rowKey_eq (core b k : Nat) : rowKey core (b + k / 1024) (k % 1024) = 32768 * core + 1024 * b + k := by
  unfold rowKey
  omega

theorem row_writePlace (s : State) (core' bank r c b q : Nat) (mask : BitVec 64) (v : Sector) (bad : Bool) :
    ((s.writePlace (.row c b q) mask v bad).row core' bank r).data =
      if rowKey core' bank r = rowKey c b q then mergeBytes mask v (s.row c b q).data else (s.row core' bank r).data := by
  by_cases hm : mask = 0
  · subst hm
    have hw : s.writePlace (.row c b q) 0 v bad = s := rfl
    rw [hw, mergeBytes_zero]
    split
    · next h => simp only [State.row, h]
    · rfl
  · have hw : (s.writePlace (.row c b q) mask v bad).spad = mset s.spad (rowKey c b q)
        ⟨mergeBytes mask v (s.row c b q).data, bad || ((s.row c b q).poison && mask != allBytes)⟩ := by
      simp only [State.writePlace, hm, if_false]
    rw [State.row, hw]
    split
    · next h => rw [h, mget_mset_same]
    · next h => rw [mget_mset_other _ _ _ h, State.row]

/-! ## Copies -/

/-- A write of a row changes the scratchpad alone. -/
theorem writePlace_row (s : State) (c b q : Nat) (mask : BitVec 64) (v : Sector) (bad : Bool) :
    ∃ m, s.writePlace (.row c b q) mask v bad = { s with spad := m } := by
  by_cases hm : mask = 0
  · exact ⟨s.spad, if_pos hm⟩
  · exact ⟨_, if_neg hm⟩

/-- One sector of a copy into local memory (R32). -/
def State.copySector (s : State) (core x a : Nat) (v : Piece) (k : Nat) : State :=
  s.writePlace (s.place core x (64 * k)) (pieceOf a v.1 [] k).1 (pieceOf a v.1 [] k).2
    ((List.range 64).any (fun i => decide (a ≤ 64 * k + i) && v.2.getD (64 * k + i - a) false))

/-- A copy into local memory goes sector by sector. -/
theorem copyLocal_eq (s : State) (core x a : Nat) (v : Piece) :
    s.copyLocal core x a v = (sectorsOf a v.1.length).foldl (fun s k => s.copySector core x a v k) s := rfl

/-- A copy into one sector of the own window: a byte of the window reads afterwards as the one that was copied there, or else as before. -/
theorem copySector_own {u : Task} (a : Nat) (v : Piece) {k : Nat} (hk : 64 * k < 0x20_0000) (hu : (s.ctx core x).task = some u) :
    ∃ m, s.copySector core x a v k = { s with spad := m } ∧ ∀ j < 0x20_0000, ({ s with spad := m } : State).localByte core x j =
      if j / 64 = k ∧ a ≤ j ∧ j < a + v.1.length then v.1.getD (j - a) 0 else s.localByte core x j := by
  obtain ⟨m, hm⟩ := writePlace_row s core (u.b0 + k / 1024) (k % 1024) (pieceOf a v.1 [] k).1 (pieceOf a v.1 [] k).2
    ((List.range 64).any (fun i => decide (a ≤ 64 * k + i) && v.2.getD (64 * k + i - a) false))
  refine ⟨m, by rw [State.copySector, place_own hu hk, hm], fun j hj => ?_⟩
  have hb : j % 64 < 64 := Nat.mod_lt _ (by decide)
  have hrow := row_writePlace s core (u.b0 + j / 64 / 1024) (j / 64 % 1024) core (u.b0 + k / 1024) (k % 1024) (pieceOf a v.1 [] k).1
    (pieceOf a v.1 [] k).2 ((List.range 64).any (fun i => decide (a ≤ 64 * k + i) && v.2.getD (64 * k + i - a) false))
  rw [hm, rowKey_eq, rowKey_eq] at hrow
  rw [localByte_own (s := { s with spad := m }) hu hj, localByte_own hu hj, hrow]
  by_cases hjk : j / 64 = k
  · subst hjk
    rw [if_pos rfl, byteOf_mergeBytes _ _ _ hb, getLsbD_pieceOf _ _ hb, Nat.div_add_mod]
    by_cases hin : a ≤ j ∧ j < a + v.1.length
    · rw [if_pos (decide_eq_true hin), if_pos ⟨rfl, hin⟩, byteOf_pieceOf _ _ hb (by omega), Nat.div_add_mod]
    · rw [if_neg (by simpa using hin), if_neg (fun h => hin h.2)]
  · rw [if_neg (by omega), if_neg (fun h => hjk h.1)]

/-- A copy into sectors of the own window changes the scratchpad alone, and a byte of the window reads afterwards as the one that was
copied there, or else as before. -/
theorem copySectors_own {u : Task} (a : Nat) (v : Piece) (l : List Nat) (hl : ∀ k ∈ l, 64 * k < 0x20_0000) {s : State}
    (hu : (s.ctx core x).task = some u) :
    ∃ m, l.foldl (fun s k => s.copySector core x a v k) s = { s with spad := m } ∧ ∀ j < 0x20_0000,
      ({ s with spad := m } : State).localByte core x j =
        if j / 64 ∈ l ∧ a ≤ j ∧ j < a + v.1.length then v.1.getD (j - a) 0 else s.localByte core x j := by
  induction l generalizing s with
  | nil => exact ⟨s.spad, rfl, fun j _ => (if_neg (fun h => by cases h.1)).symm⟩
  | cons k l ih =>
    obtain ⟨m, hm, hfirst⟩ := copySector_own a v (hl k (List.mem_cons_self ..)) hu
    obtain ⟨m', hm', hrest⟩ := ih (fun k hk => hl k (List.mem_cons_of_mem _ hk)) (s := { s with spad := m }) hu
    refine ⟨m', by rw [List.foldl_cons, hm, hm'], fun j hj => ?_⟩
    refine (hrest j hj).trans ?_
    rw [hfirst j hj]
    by_cases hin : a ≤ j ∧ j < a + v.1.length
    · by_cases h1 : j / 64 ∈ l <;> by_cases h2 : j / 64 = k <;> simp [h1, h2, hin]
    · simp only [hin, and_false, if_false]

theorem mem_sectorsOf {a n k : Nat} (hn : 0 < n) : k ∈ sectorsOf a n ↔ a / 64 ≤ k ∧ k ≤ (a + n - 1) / 64 := by
  simp only [sectorsOf, Nat.ne_of_gt hn, if_false, List.mem_map, List.mem_range]
  constructor
  · rintro ⟨i, hi, rfl⟩
    omega
  · intro h
    exact ⟨k - a / 64, by omega, by omega⟩

/-- Bytes copied into the own window, where no cause is raised, read back, and nothing but the scratchpad changes (R32, R57). -/
theorem copyLocal_own {a : Nat} (v : Piece) (hn : 0 < v.1.length) (hf : s.localFault core x a v.1.length = none) (hw : windowOf a = 0) :
    ∃ m, s.copyLocal core x a v = { s with spad := m } ∧ ((s.copyLocal core x a v).localBytes core x a v.1.length).1 = v.1 := by
  obtain ⟨hend, htask⟩ := own_of_localFault hf hw
  obtain ⟨u, hu⟩ := htask hn
  have hend := windowOf_own.mp hend
  obtain ⟨m, hm, hread⟩ := copySectors_own a v (sectorsOf a v.1.length)
    (fun k hk => by have := (mem_sectorsOf hn).mp hk; omega) hu
  refine ⟨m, hm, ?_⟩
  rw [copyLocal_eq, hm, localBytes_eq]
  apply List.ext_getElem
  · simp
  · intro i h1 h2
    have hsec : (a + i) / 64 ∈ sectorsOf a v.1.length := (mem_sectorsOf hn).mpr ⟨by omega, by omega⟩
    rw [List.getElem_map, List.getElem_range, hread _ (by omega), if_pos ⟨hsec, by omega, by omega⟩, Nat.add_sub_cancel_left,
      List.getD_eq_getElem _ _ h2]

end Sys2Proof.Machine
end

section
/-! SUPPORT. Ferry commands: starting, one transfer of a local copy, its end, and the hand-on of a follow-on (R44, R47 to R53), settled
(O32). -/

namespace Sys2Proof.Machine

open Sys2Proof.Spec

variable {s t : State} {core x n : Nat} {f : FerryCmd}

/-! ## What the end of a command leaves alone -/

/-- Entering banks in the reservation tables, or taking them out, changes the cores and what is remembered of freed banks alone (R49). -/
theorem reserveAll_eq (l : List (Nat × Nat)) (add : Bool) (s : State) :
    ∃ freed cores, s.reserveAll l add = { s with freedBanks := freed, cores := cores } := by
  refine List.foldlRecOn (motive := fun t : State => ∃ freed cores, t = { s with freedBanks := freed, cores := cores }) l _ ⟨_, _, rfl⟩ ?_
  rintro _ ⟨freed, cores, rfl⟩ p -
  unfold State.reserve
  dsimp only
  split <;> exact ⟨_, _, rfl⟩

theorem task_setAnyQ (c : Ctx) (sound : Bool) (q : Nat) (v : Queue) : (c.setAnyQ sound q v).task = c.task := by
  cases sound <;> rfl

/-- Completed joins leave the task of their context. -/
theorem task_settleJoins (c : Ctx) : c.settleJoins.task = c.task := by
  have hone : ∀ c : Ctx, c.settleJoin.task = c.task := fun c => by
    unfold Ctx.settleJoin
    dsimp only
    split
    · rfl
    · exact List.foldlRecOn (motive := fun d : Ctx => d.task = c.task) _ _ rfl (fun d hd k _ => (task_setAnyQ d _ _ _).trans hd)
  exact List.foldlRecOn (motive := fun d : Ctx => d.task = c.task) _ _ rfl (fun d hd _ _ => (hone d).trans hd)

/-- The state in which a command has given up its banks and the pins of its queue (R27, R49). -/
theorem givenUp_eq (s : State) (f : FerryCmd) : ∃ freed cores,
    (s.unreserveFerry f).dropFerryPins core x n =
      { s with freedBanks := freed, cores := cores, pins := s.pins.filter (fun p => !(ferryHolder core x n).has p) } := by
  obtain ⟨freed, cores, h⟩ := reserveAll_eq f.held false s
  exact ⟨freed, cores, by rw [State.dropFerryPins, State.unreserveFerry, h]; rfl⟩

/-- No pin of a queue that has dropped its pins is left. -/
theorem has_of_mem_dropFerryPins {p : Pin} (h : p ∈ (s.dropFerryPins core x n).pins) : (ferryHolder core x n).has p = false := by
  simpa using (List.mem_filter.mp h).2

/-! ## The head of a queue -/

@[simp] theorem ferryHead_setFerryHead (c : Ctx) (n : Nat) (f : FerryCmd) : (c.setFerryHead n f).ferryHead n = some f := by
  simp [Ctx.ferryHead, Ctx.setFerryHead, Ctx.ferryQ, Ctx.setFerryQ]

/-- The next transfer of a queue with a head command (R44, R49). -/
theorem ferryNext_eq {q : Nat} (hf : (s.ctx core (q / 2)).ferryHead (q % 2) = some f) : s.ferryNext core q =
    if s.ferryMay core (q / 2) (q % 2) f then
      (let u := if f.owed = [] then s.updCore core (fun k => { k with ferryLast := q }) else s
       (if f.started then u else u.startFerry core (q / 2) (q % 2) f).ferryStep core (q / 2) (q % 2)
         (if f.started then f else { f with started := true, held := f.held ++ s.farHolds core (q / 2) f }))
    else none := by
  simp only [State.ferryNext, hf, List.isEmpty_iff]
  cases s.ferryMay core (q / 2) (q % 2) f <;> cases f.started <;> rfl

/-! ## The bytes of a transfer -/

theorem toNat_ofNat64 {a : Nat} (h : a < 2 ^ 32) : (BitVec.ofNat 64 a).toNat = a := by
  rw [BitVec.toNat_ofNat, Nat.mod_eq_of_lt (by omega)]

/-- The row that a local copy holds while it transfers it: what it has read of a row that overlaps its destination (R47). -/
def State.heldRow (s : State) (core x : Nat) (f : FerryCmd) (a : Nat) : List Byte :=
  if f.rowbuf = [] then (if f.overlapping (.ofNat 64 a) then (s.localBytes core x a f.rowlen).1 else []) else f.rowbuf

/-- The bytes of the next transfer of a local copy, from the row it holds or from its source. -/
def State.nextBytes (s : State) (core x : Nat) (f : FerryCmd) (a len : Nat) : List Byte :=
  if f.rowbuf = [] then (s.localBytes core x (a + f.off) len).1 else (f.rowbuf.drop f.off).take len

theorem ferryGet_local (s : State) (core x n : Nat) (a : Word) (len : Nat) :
    s.ferryGet core x n true a len = (.ok (s.localBytes core x a.toNat len).1 (s.localPoison core x a.toNat len) [], s) := rfl

/-- The bytes that a local copy reads, and what it then holds: a row that overlaps its destination is read whole first (R47). -/
theorem ferryPiece_local {a len : Nat} (hl : f.fromLocal = true) (ha : a < 2 ^ 32) (hr : f.rowlen < 2 ^ 32) (hle : f.off + len ≤ f.rowlen)
    (ho : f.rowbuf = [] → f.overlapping (.ofNat 64 a) = true → f.off = 0) :
    ∃ rp bad, s.ferryPiece core x n f (.ofNat 64 a) len =
      ((.ok (s.nextBytes core x f a len) bad [], { f with rowbuf := s.heldRow core x f a, rowpoison := rp }), s) := by
  unfold State.ferryPiece State.nextBytes State.heldRow
  by_cases hb : f.rowbuf = []
  · by_cases hov : f.overlapping (.ofNat 64 a) = true
    · have h0 := ho hb hov
      have htake := take_drop_localBytes s core x a hle
      exact ⟨_, _, by simp only [hb, hov, hl, ferryGet_local, toNat_ofNat64 ha, htake, List.isEmpty_nil, Bool.not_true, Bool.false_eq_true,
        if_true, if_false]; rfl⟩
    · have hadd : (BitVec.ofNat 64 a + BitVec.ofNat 64 f.off).toNat = a + f.off := by
        rw [BitVec.toNat_add, toNat_ofNat64 ha, toNat_ofNat64 (by omega), Nat.mod_eq_of_lt (by omega)]
      refine ⟨f.rowpoison, s.localPoison core x (a + f.off) len, ?_⟩
      simp only [hb, hov, hl, ferryGet_local, hadd, List.isEmpty_nil, Bool.not_true, Bool.false_eq_true, if_true, if_false]
      rw [← hb]
  · have he : f.rowbuf.isEmpty = false := by simpa using hb
    exact ⟨f.rowpoison, _, by simp only [hb, he, Bool.not_false, if_true, if_false]; rfl⟩

/-- The next bytes of a local copy are as many as the transfer takes. -/
theorem length_nextBytes {a len : Nat} (hb : f.rowbuf = [] ∨ f.rowbuf.length = f.rowlen) (hle : f.off + len ≤ f.rowlen) :
    (s.nextBytes core x f a len).length = len := by
  unfold State.nextBytes
  split
  · exact length_localBytes ..
  · next hne =>
    rw [List.length_take, List.length_drop, hb.resolve_left hne]
    omega

/-! ## One transfer -/

/-- A copy within local memory, without table, stream, multicast and barrier, that owes no counts. -/
structure FerryCmd.LocalCopy (f : FerryCmd) : Prop where
  sloc : f.sloc = true
  dloc : f.dloc = true
  gather : f.gather = false
  bound : f.bound = false
  mcast : f.mcast = 0
  owed : f.owed = []
  bar : f.bar = 0

/-- One transfer of a local copy: its next bytes land at the destination, and the command goes on (R44, R47, R48). -/
theorem ferryStep_local (hc : f.LocalCopy) {a b len : Nat} (hlen : len = min 512 (f.rowlen - f.off))
    (hsrc : rowAddr f.src f.sstr f.row = .ofNat 64 a) (hdst : rowAddr f.dst f.dstr f.row = .ofNat 64 b) (ha : a < 2 ^ 32) (hb : b < 2 ^ 32)
    (hr : f.rowlen < 2 ^ 32) (hoff : f.off < f.rowlen) (ho : f.rowbuf = [] → f.overlapping (.ofNat 64 a) = true → f.off = 0) :
    ∃ rp bad, s.ferryStep core x n f = some ((s.copyLocal core x (b + f.off) (s.nextBytes core x f a len, bad)).ferryMoved core x n
      { f with rowbuf := s.heldRow core x f a, rowpoison := rp } len) := by
  obtain ⟨hsloc, hdloc, hgather, hbound, hmcast, howed, -⟩ := hc
  have hfrom : f.fromLocal = true := by simp [FerryCmd.fromLocal, hsloc, hgather]
  obtain ⟨rp, bad, hpiece⟩ := ferryPiece_local (s := s) (core := core) (x := x) (n := n) (a := a) (len := len) hfrom ha hr (by omega) ho
  refine ⟨rp, bad, ?_⟩
  have hrow : s.ferryRow core x n f = (.known (.ofNat 64 a), s) := by
    rw [State.ferryRow, hgather, ← hsrc]
    rfl
  have hknown : s.rowKnown f (.ofNat 64 a) = (f, s) := by
    rw [State.rowKnown, hgather]
    rfl
  have hferry : (s.ctx core x).ferryLen f = len := by
    rw [Ctx.ferryLen, hbound, hlen]
    rfl
  have hland : ∀ v, s.ferryLand core x n { f with rowbuf := s.heldRow core x f a, rowpoison := rp } v =
      (.ok [], s.copyLocal core x (b + f.off) v) := fun v => by
    have hd : ({ f with rowbuf := s.heldRow core x f a, rowpoison := rp } : FerryCmd).destRow.toNat = b := by
      rw [FerryCmd.destRow, hdst, toNat_ofNat64 hb]
    have hto : s.ferryTargets core x { f with rowbuf := s.heldRow core x f a, rowpoison := rp } = [(core, x)] := if_pos hmcast
    unfold State.ferryLand
    rw [if_neg (by simpa [FerryCmd.bound] using hbound), if_pos (by exact hdloc), hto, hd]
    rfl
  have hnone : f.owed.isEmpty = true := by rw [howed]; rfl
  unfold State.ferryStep
  simp only [hnone, hrow, hknown, hferry, hpiece, hland, Bool.not_true, Bool.false_eq_true, if_false]

/-! ## The end of a transfer -/

/-- A command that counts nothing goes on after a transfer: with the last one its banks and pins are given up (R27, R49). -/
theorem ferryMoved_eq (hbar : f.bar = 0) (len : Nat) : s.ferryMoved core x n f len =
    if (f.moved len).row = (f.moved len).nrows then (((s.unreserveFerry (f.moved len)).dropFerryPins core x n).finishFerry core x n
      { f.moved len with held := [], owed := [] })
    else s.updCtx core x (fun c => c.setFerryHead n { f.moved len with owed := [] }) := by
  have howes : ∀ last, s.ferryOwes core x f len last = [] := fun last => if_pos hbar
  unfold State.ferryMoved
  simp only [howes, List.isEmpty_nil, if_true]
  by_cases h : (f.moved len).row = (f.moved len).nrows <;> simp only [h, if_true, if_false, State.payFerry]

/-- A change of a context that keeps its task leaves the bytes of local memory. -/
theorem localBytes_updCtx (s : State) {g : Ctx → Ctx} (hg : (g (s.ctx core x)).task = (s.ctx core x).task) (a m : Nat) :
    ((s.updCtx core x g).localBytes core x a m).1 = (s.localBytes core x a m).1 :=
  localBytes_congr (s := s) (t := s.updCtx core x g) rfl rfl (by rw [ctx_updCtx_same, hg]) a m

theorem localBytes_setFerryHead (s : State) (f : FerryCmd) (a m : Nat) :
    ((s.updCtx core x (fun c => c.setFerryHead n f)).localBytes core x a m).1 = (s.localBytes core x a m).1 :=
  localBytes_updCtx s (by rfl) a m

theorem localBytes_popFerry (s : State) (a m : Nat) : ((s.popFerry core x n).localBytes core x a m).1 = (s.localBytes core x a m).1 :=
  localBytes_updCtx s (by rw [task_settleJoins]; rfl) a m

theorem localBytes_givenUp (s : State) (f : FerryCmd) (a m : Nat) :
    (((s.unreserveFerry f).dropFerryPins core x n).localBytes core x a m).1 = (s.localBytes core x a m).1 := by
  obtain ⟨freed, cores, h⟩ := givenUp_eq (core := core) (x := x) (n := n) s f
  rw [h]
  exact localBytes_congr rfl rfl rfl a m

theorem localBytes_finishFerry (s : State) (f : FerryCmd) (a m : Nat) :
    ((s.finishFerry core x n f).localBytes core x a m).1 = (s.localBytes core x a m).1 := by
  unfold State.finishFerry
  dsimp only
  split
  · rw [localBytes_popFerry, localBytes_givenUp]
  · rw [localBytes_setFerryHead, localBytes_givenUp]

/-- The end of a transfer that counts nothing leaves the bytes of local memory. -/
theorem localBytes_ferryMoved (hbar : f.bar = 0) (len a m : Nat) :
    ((s.ferryMoved core x n f len).localBytes core x a m).1 = (s.localBytes core x a m).1 := by
  rw [ferryMoved_eq hbar]
  split
  · rw [localBytes_finishFerry, localBytes_givenUp]
  · rw [localBytes_setFerryHead]

theorem moved_within {len : Nat} (h : f.off + len < f.rowlen) : f.moved len = { f with off := f.off + len } := if_neg (Nat.ne_of_lt h)

theorem moved_end {len : Nat} (h : f.off + len = f.rowlen) :
    f.moved len = { f with row := f.row + 1, off := 0, rowsrc := none, rowbuf := [], rowpoison := [] } := if_pos h

/-- A command that has more to transfer stays at the head of its queue. -/
theorem ferryHead_ferryMoved {len : Nat} (hbar : f.bar = 0) (hrow : (f.moved len).row ≠ (f.moved len).nrows) :
    ((s.ferryMoved core x n f len).ctx core x).ferryHead n = some { f.moved len with owed := [] } := by
  rw [ferryMoved_eq hbar, if_neg hrow, ctx_updCtx_same, ferryHead_setFerryHead]

/-- The end of a command: no pin of its queue is left, and it leaves the queue or waits to hand on its word (R27, R49, R51). -/
theorem finishFerry_spec (s : State) (core x n : Nat) (f : FerryCmd) :
    (∀ p ∈ (s.finishFerry core x n f).pins, (ferryHolder core x n).has p = false) ∧
    (f.mword = 0 → ∃ v : State, s.finishFerry core x n f = v.popFerry core x n) ∧
    (f.mword ≠ 0 → ((s.finishFerry core x n f).ctx core x).ferryHead n = some { f with held := [], handing := true }) := by
  unfold State.finishFerry
  dsimp only
  split
  · next h => exact ⟨fun p hp => has_of_mem_dropFerryPins hp, fun _ => ⟨_, rfl⟩, fun hn => absurd h hn⟩
  · next h =>
    refine ⟨fun p hp => has_of_mem_dropFerryPins hp, fun h0 => absurd h0 h, fun _ => ?_⟩
    rw [ctx_updCtx_same, ferryHead_setFerryHead]

/-! ## Follow-ons -/

/-- What a follow-on finds where its group table would be: it has none, or one that is there and readable (R51). -/
def FollowTable (s : State) (core x : Nat) (f : FerryCmd) (i : Instr) (table : List Word) : Prop :=
  ((productOf i).any (·.grouped) = false ∧ table = []) ∨
    ((productOf i).any (·.grouped) = true ∧ s.localFault core x f.mopb.toNat 128 = none ∧
      (s.localBytes core x f.mopb.toNat 128).2 = false ∧ table = s.groupTable core x (f.mopb.setWidth 64))

/-- A context with one more entry in its matrix queue that is no `zst.r`. -/
theorem joinMatrix_counted (c : Ctx) (e : UnitEntry) (reason : Nat) :
    c.joinMatrix e false reason = { c with mq := c.mq ++ [e], stepCount := c.stepCount + e.steps } := by
  unfold Ctx.joinMatrix
  cases c.save <;> rfl

/-- The hand-on of a follow-on: it joins the matrix queue, or its checks fail and a late fault of the unit follows (R51). -/
theorem followOnHandoff_spec {q : Nat} {i : Instr} {table : List Word} (hr : s.followReady core q = true)
    (hf : (s.ctx core (q / 2)).ferryHead (q % 2) = some f) (hi : decodeWord (f.mword.toNat % 2 ^ 31) = .ok i)
    (ht : FollowTable s core (q / 2) f i table) :
    (s.matrixBad core (q / 2) i (f.mopa.setWidth 64) (f.mopb.setWidth 64) table true = none →
      exec (.followOnHandoff core q) s = .next ((s.updCtx core (q / 2) (fun c => c.joinMatrix
        (s.matrixEntry core (q / 2) f.mword i (f.mopa.setWidth 64) (f.mopb.setWidth 64) table true) false 0)).popFerry core (q / 2) (q % 2))) ∧
    (∀ rank c, s.matrixBad core (q / 2) i (f.mopa.setWidth 64) (f.mopb.setWidth 64) table true = some (rank, c) →
      exec (.followOnHandoff core q) s =
        .next ((s.lateFault core (q / 2) c 6 0 (f.mword.setWidth 64) 1).popFerry core (q / 2) (q % 2))) := by
  have hinstr : followInstr f.mword = i := by rw [followInstr, hi]
  have hexec : exec (.followOnHandoff core q) s = execFollowOnHandoff core q s := rfl
  rw [hexec, execFollowOnHandoff]
  simp only [hr, hf, hinstr, Bool.not_true, Bool.false_eq_true, if_false]
  obtain ⟨hg, rfl⟩ | ⟨hg, hfault, hbad, rfl⟩ := ht
  · exact ⟨fun hok => by simp [hg, hok], fun rank c hno => by simp [hg, hno]⟩
  · exact ⟨fun hok => by simp [hg, hfault, hbad, hok], fun rank c hno => by simp [hg, hfault, hbad, hno]⟩

/-- Settles O32: the transfer of a local copy is `ferryStep_local`, its bytes `copyLocal_own`, its end `ferryMoved_eq` and `finishFerry_spec`. -/
theorem ferryWork : Obligations.FerryWork := by
  unfold Obligations.FerryWork
  refine ⟨?_, ?_, fun core x n s => rfl, ?_, ?_⟩
  · rintro core q _ _ s _ _ f _ rfl rfl hf rfl rfl rfl
    have hexec : exec (.ferryTransfer core q) s = .next ((s.ferryNext core q).getD s) := rfl
    rw [hexec, ferryNext_eq hf]
    exact ⟨fun hmay => by rw [hmay]; rfl, fun hmay => ⟨fun t ht => by rw [hmay, if_pos rfl, ht]; rfl,
      fun hnone => by rw [hmay, if_pos rfl, hnone]; rfl⟩⟩
  · rintro core q _ _ s f i _ _ table _ rfl rfl hr hf hi rfl rfl ht rfl
    have htable : FollowTable s core (q / 2) f i table := by
      obtain ⟨rfl, hplain⟩ | ⟨hgrouped, hfault, hbad, rfl⟩ := ht
      · exact .inl ⟨by obtain ⟨e, t, p, rfl⟩ | ⟨t, u, p, rfl⟩ | ⟨o, rfl | rfl⟩ := hplain <;> rfl, rfl⟩
      · exact .inr ⟨by obtain ⟨o, rfl | rfl⟩ := hgrouped <;> rfl, hfault, hbad, rfl⟩
    obtain ⟨hjoin, hlate⟩ := followOnHandoff_spec hr hf hi htable
    exact ⟨fun hok => by rw [hjoin hok]; simp only [joinMatrix_counted], hlate⟩
  · intro core x n s f hh hf
    change Host.Outcome.next (s.discardFerry core x n) = _
    rw [State.discardFerry, hh, hf]
    rfl
  · rintro core x n s f a b len _ - hsloc hdloc hgather hbound hmcast howed hbar hrow hoff hr hlen hsrc hdst ha hb - hfd - hwd ho hbuf rfl
    have hle : f.off + len ≤ f.rowlen := by omega
    obtain ⟨rp, bad, hstep⟩ := ferryStep_local (s := s) (core := core) (x := x) (n := n)
      ⟨hsloc, hdloc, hgather, hbound, hmcast, howed, hbar⟩ hlen hsrc hdst ha hb hr hoff ho
    have hcount : (s.nextBytes core x f a len).length = len := length_nextBytes hbuf hle
    obtain ⟨m, -, hread⟩ := copyLocal_own (s := s) (core := core) (x := x) (a := b + f.off) (s.nextBytes core x f a len, bad)
      (by rw [hcount]; omega) (by rw [hcount]; exact hfd) hwd
    rw [hcount] at hread
    refine ⟨_, hstep, ?_, fun hin => ?_, fun hend hmore => ?_, fun hend hlast => ?_⟩
    · rw [localBytes_ferryMoved (by exact hbar), hread]
      rfl
    · refine ⟨s.heldRow core x f a, rp, ?_, rfl⟩
      have hmoved := moved_within (f := { f with rowbuf := s.heldRow core x f a, rowpoison := rp }) hin
      rw [ferryHead_ferryMoved (by exact hbar) (by rw [hmoved]; exact Nat.ne_of_lt hrow), hmoved, ← howed]
    · have hmoved := moved_end (f := { f with rowbuf := s.heldRow core x f a, rowpoison := rp }) hend
      rw [ferryHead_ferryMoved (by exact hbar) (by rw [hmoved]; exact Nat.ne_of_lt hmore), hmoved, ← howed]
    · have hmoved := moved_end (f := { f with rowbuf := s.heldRow core x f a, rowpoison := rp }) hend
      rw [ferryMoved_eq (by exact hbar), if_pos (by rw [hmoved]; exact hlast), hmoved]
      obtain ⟨hpins, hpop, hhand⟩ := finishFerry_spec (((s.copyLocal core x (b + f.off) (s.nextBytes core x f a len, bad)).unreserveFerry
        { f with row := f.row + 1, off := 0, rowsrc := none, rowbuf := [], rowpoison := [] }).dropFerryPins core x n) core x n
        { f with row := f.row + 1, off := 0, rowsrc := none, rowbuf := [], rowpoison := [], held := [], owed := [] }
      refine ⟨hpins, hpop, fun hw => ?_⟩
      rw [hhand hw, ← howed]

end Sys2Proof.Machine
end

section
/-! SUPPORT. Barrier objects: the fields of an object that is built from its fields, and what the end of a phase and the four updates do
to them (R62, R63), settled (O18). -/

namespace Sys2Proof.Machine

open Sys2Proof.Spec

/-- Fields of a barrier object that are in range: generation, arrivals per phase, pending arrivals, bytes and transfers (R62). -/
structure BarFields (gen quota arrv inb outb : Nat) : Prop where
  gen : gen < 16
  quota : quota < 2 ^ 10
  arrv : arrv < 2 ^ 10
  inb : inb < 2 ^ 56
  outb : outb < 2 ^ 32

section fields

variable {gen quota arrv inb outb : Nat} {relw ufl : Bool}

/-- The number of an object whose fields are in range. -/
theorem toNat_mkBar (h : BarFields gen quota arrv inb outb) :
    (mkBar gen quota arrv inb outb relw true ufl).toNat = gen + quota * 2 ^ 4 + arrv * 2 ^ 14 + inb * 2 ^ 24 + outb * 2 ^ 80 +
      relw.toNat * 2 ^ 112 + 2 ^ 113 + ufl.toNat * 2 ^ 114 := by
  obtain ⟨hg, hq, ha, hi, ho⟩ := h
  have hr := Bool.toNat_le relw
  have hu := Bool.toNat_le ufl
  rw [mkBar, BitVec.toNat_ofNat, Bool.toNat_true]
  omega

theorem getLsbD_eq_bits {w : Nat} (o : BitVec w) (k : Nat) : o.getLsbD k = decide (o.toNat / 2 ^ k % 2 = 1) := by
  rw [BitVec.getLsbD, Nat.testBit_eq_decide_div_mod_eq]

/-- Every field of an object reads back as it was given, and the object is usable (R62). -/
theorem mkBar_fields (h : BarFields gen quota arrv inb outb) (o : BarObj) (ho : o = mkBar gen quota arrv inb outb relw true ufl) :
    o.usable = true ∧ o.gen = gen ∧ o.quota = quota ∧ o.arrv = arrv ∧ o.inb = inb ∧ o.outb = outb ∧ o.relw = relw ∧ o.ufl = ufl := by
  have hn := toNat_mkBar (relw := relw) (ufl := ufl) h
  rw [← ho] at hn
  obtain ⟨hg, hq, ha, hi, ho⟩ := h
  have hr := Bool.toNat_le relw
  have hu := Bool.toNat_le ufl
  have bit : ∀ b : Bool, decide (b.toNat = 1) = b := by decide
  have hrelw : o.relw = relw := by
    rw [BarObj.relw, getLsbD_eq_bits, ← bit relw, decide_eq_decide]
    omega
  have hufl : o.ufl = ufl := by
    rw [BarObj.ufl, getLsbD_eq_bits, ← bit ufl, decide_eq_decide]
    omega
  have husable : o.usable = true := by
    rw [BarObj.usable, Bool.and_eq_true, getLsbD_eq_bits, decide_eq_true_iff, beq_iff_eq, BarObj.get, bits]
    omega
  simp only [husable, hrelw, hufl, BarObj.gen, BarObj.quota, BarObj.arrv, BarObj.inb, BarObj.outb, BarObj.get, bits, true_and, and_true]
  omega

end fields

/-- The fields of any object are in range. -/
theorem barFields (o : BarObj) : BarFields o.gen o.quota o.arrv o.inb o.outb :=
  ⟨Nat.mod_lt _ (by decide), Nat.mod_lt _ (by decide), Nat.mod_lt _ (by decide), Nat.mod_lt _ (by decide), Nat.mod_lt _ (by decide)⟩

/-- What an update leaves of an object, from the counts and the sticky underflow it comes to: its arrivals per phase and its kind stay,
and where the counts are used up the phase ends (R63). -/
def BarObj.After (o : BarObj) (arrv inb outb : Nat) (ufl : Bool) (r : BarObj) : Prop :=
  r.usable = true ∧ r.quota = o.quota ∧ r.relw = o.relw ∧ r.ufl = ufl ∧
    (if arrv = 0 ∧ inb = 0 ∧ (o.relw = false ∨ outb = 0)
      then r.gen = (o.gen + 1) % 16 ∧ r.arrv = o.quota ∧ r.inb = 0 ∧ r.outb = 0
      else r.gen = o.gen ∧ r.arrv = arrv ∧ r.inb = inb ∧ r.outb = outb)

/-- The end of a phase is checked of the object with the counts that an update comes to (R63). -/
theorem settle_after (o : BarObj) {arrv inb outb : Nat} (ufl : Bool) (ha : arrv < 2 ^ 10) (hi : inb < 2 ^ 56) (ho : outb < 2 ^ 32) :
    o.After arrv inb outb ufl (mkBar o.gen o.quota arrv inb outb o.relw true ufl).settle := by
  obtain ⟨hgen, hquota, -, -, -⟩ := barFields o
  obtain ⟨husable, hg, hq, harrv, hinb, houtb, hrelw, hufl⟩ := mkBar_fields (relw := o.relw) (ufl := ufl)
    ⟨hgen, hquota, ha, hi, ho⟩ _ rfl
  rw [BarObj.After, BarObj.settle, hg, hq, harrv, hinb, houtb, hrelw, hufl]
  split_ifs with hend
  · have hmod : mkBar (o.gen + 1) o.quota o.quota 0 0 o.relw true ufl = mkBar ((o.gen + 1) % 16) o.quota o.quota 0 0 o.relw true ufl := by
      rw [mkBar, mkBar, Nat.mod_mod]
    obtain ⟨husable, hg, hq, harrv, hinb, houtb, hrelw, hufl⟩ := mkBar_fields (relw := o.relw) (ufl := ufl)
      ⟨Nat.mod_lt (o.gen + 1) (by decide), hquota, hquota, by decide, by decide⟩ _ hmod
    exact ⟨husable, hq, hrelw, hufl, hg, harrv, hinb, houtb⟩
  · exact ⟨husable, hq, hrelw, hufl, hg, harrv, hinb, houtb⟩

/-- An object that is not usable is refused and stays as it is (R62). -/
theorem apply_unusable {o : BarObj} (u : BarOp) (h : o.usable = false) : o.apply u = (o, some 0x67) := by
  unfold BarObj.apply
  exact if_pos (by rw [h]; rfl)

/-- Settles O18: each update of a usable object is `settle_after` of the counts it comes to. -/
theorem barrierUpdates : Obligations.BarrierUpdates := by
  unfold Obligations.BarrierUpdates
  refine ⟨fun o u h => apply_unusable u h, fun o husable u => ?_⟩
  obtain ⟨-, -, harrv, hinb, houtb⟩ := barFields o
  unfold BarObj.apply
  simp only [husable, Bool.not_true, Bool.false_eq_true, if_false]
  cases u with
  | arrive =>
    exact ⟨settle_after o _ (by omega) hinb houtb, rfl⟩
  | expect i n =>
    exact fun _ _ => ⟨settle_after o _ harrv (Nat.lt_succ_of_le (Nat.min_le_right _ _)) (Nat.lt_succ_of_le (Nat.min_le_right _ _)), rfl⟩
  | land n =>
    exact ⟨settle_after o _ harrv (by omega) houtb, rfl⟩
  | outdone =>
    exact ⟨settle_after o _ harrv hinb (by omega), rfl⟩

end Sys2Proof.Machine
end

section
/-! SUPPORT. Stores into the own scratchpad (R57, R58), settled (O52). -/

namespace Sys2Proof.Machine

open Sys2Proof.Spec

variable {s : State} {core x a : Nat} {b : List Byte}

/-- A store of every byte of a list is a copy of bytes none of which is poisoned. -/
theorem localStore_eq_copyLocal (s : State) (core x a : Nat) (b : List Byte) :
    s.localStore core x a b [] false = s.copyLocal core x a (b, []) := by
  have hnone : ∀ k, ((List.range 64).any fun i => decide (a ≤ 64 * k + i) && ([] : List Bool).getD (64 * k + i - a) false) = false :=
    fun k => by simp
  simp only [copyLocal_eq, State.copySector, State.localStore, hnone]

/-- A store into the own window, where no cause is raised, changes the scratchpad alone: a byte of the window reads afterwards as the one
that was stored there, or else as before (R57). -/
theorem localStore_own (hn : 0 < b.length) (hf : s.localFault core x a b.length = none) (hw : windowOf a = 0) :
    ∃ m, s.localStore core x a b [] false = { s with spad := m } ∧ ∀ j < 0x20_0000, ({ s with spad := m } : State).localByte core x j =
      if a ≤ j ∧ j < a + b.length then b.getD (j - a) 0 else s.localByte core x j := by
  obtain ⟨hend, htask⟩ := own_of_localFault hf hw
  obtain ⟨u, hu⟩ := htask hn
  have hend := windowOf_own.mp hend
  obtain ⟨m, hm, hread⟩ := copySectors_own a (b, []) (sectorsOf a b.length)
    (fun k hk => by have := (mem_sectorsOf hn).mp hk; omega) hu
  refine ⟨m, by rw [localStore_eq_copyLocal, copyLocal_eq, hm], fun j hj => ?_⟩
  rw [hread j hj]
  refine if_congr ⟨fun h => h.2, fun h => ⟨(mem_sectorsOf hn).mpr ⟨by omega, by omega⟩, h⟩⟩ rfl rfl

/-- A read of one byte. -/
theorem localBytes_one (s : State) (core x c : Nat) : (s.localBytes core x c 1).1 = [s.localByte core x c] := by
  rw [localBytes_eq]
  rfl

/-- Settles O52: the bytes of a store into the own window are those of `localStore_own`. -/
theorem localStores : Obligations.LocalStores := by
  unfold Obligations.LocalStores
  intro s core x a c b hn hf hw _ hwc
  obtain ⟨m, hm, hread⟩ := localStore_own hn hf hw
  refine ⟨?_, m, hm⟩
  rw [hm, localBytes_one, localBytes_one, hread c (windowOf_own.mp hwc)]
  rfl

end Sys2Proof.Machine
end

section
/-! SUPPORT. The end of a task (R179): what its storage reads as once it is freed (R58), and that the retirement of its launch leaves it so
(R319, R353), settled (O27). -/

namespace Sys2Proof.Machine

open Sys2Proof.Spec

variable {s t : State} {core x : Nat}

/-! ## Storage that is freed -/

/-- A map without the keys that a condition does not keep. -/
theorem mfind_filter {α : Type} (m : Map α) (keep : Nat → Bool) (k : Nat) :
    mfind (m.filter (fun e => keep e.1)) k = if keep k then mfind m k else none := by
  induction m with
  | nil => simp [mfind]
  | cons e m ih =>
    by_cases he : keep e.1 = true
    · rw [List.filter_cons_of_pos (p := fun e : Nat × α => keep e.1) he, mfind, mfind, ih]
      by_cases hk : e.1 = k
      · rw [if_pos hk, if_pos hk, if_pos (hk ▸ he)]
      · rw [if_neg hk, if_neg hk]
    · rw [List.filter_cons_of_neg (p := fun e : Nat × α => keep e.1) he, ih]
      by_cases hk : keep k = true
      · have hne : e.1 ≠ k := fun h => he (h ▸ hk)
        rw [if_pos hk, if_pos hk, mfind, if_neg hne]
      · rw [if_neg hk, if_neg hk]

/-- What is not written in `s` (its written bit is clear, R58) is not written in `t`: rows, accumulator rows and vector registers. -/
structure Clears (s t : State) : Prop where
  rows : ∀ k, mfind s.spad k = none → mfind t.spad k = none
  tiles : ∀ k, mfind s.acc k = none → mfind t.acc k = none
  vregs : ∀ k, mfind s.vregs k = none → mfind t.vregs k = none

theorem Clears.refl (s : State) : Clears s s := ⟨fun _ h => h, fun _ h => h, fun _ h => h⟩

theorem Clears.trans {u : State} (h : Clears s t) (g : Clears t u) : Clears s u :=
  ⟨fun k hk => g.rows k (h.rows k hk), fun k hk => g.tiles k (h.tiles k hk), fun k hk => g.vregs k (h.vregs k hk)⟩

/-- A fold of steps that each write nothing writes nothing. -/
theorem Clears.foldl {α : Type} (f : State → α → State) (hf : ∀ s a, Clears s (f s a)) (l : List α) (s : State) :
    Clears s (l.foldl f s) := by
  induction l generalizing s with
  | nil => exact refl s
  | cons a l ih => exact (hf s a).trans (ih _)

theorem mfind_clearBanks (s : State) (core b0 n k : Nat) : mfind (s.clearBanks core b0 n).spad k =
    if !(decide (rowKey core b0 0 ≤ k) && decide (k < rowKey core (b0 + n) 0)) then mfind s.spad k else none :=
  mfind_filter s.spad (fun k => !(decide (rowKey core b0 0 ≤ k) && decide (k < rowKey core (b0 + n) 0))) k

theorem mfind_clearTile (s : State) (core z k : Nat) : mfind (s.clearTile core z).acc k =
    if !(decide (accKey core z 0 ≤ k) && decide (k < accKey core z 0 + 64)) then mfind s.acc k else none :=
  mfind_filter s.acc (fun k => !(decide (accKey core z 0 ≤ k) && decide (k < accKey core z 0 + 64))) k

theorem mfind_clearVregs (s : State) (core x k : Nat) : mfind (s.clearVregs core x).vregs k =
    if !(decide (vkey core x 0 ≤ k) && decide (k < vkey core x 0 + 64)) then mfind s.vregs k else none :=
  mfind_filter s.vregs (fun k => !(decide (vkey core x 0 ≤ k) && decide (k < vkey core x 0 + 64))) k

theorem clears_clearBanks (s : State) (core b0 n : Nat) : Clears s (s.clearBanks core b0 n) :=
  ⟨fun k hk => by rw [mfind_clearBanks, hk, ite_self], fun _ h => h, fun _ h => h⟩

theorem clears_clearTile (s : State) (core z : Nat) : Clears s (s.clearTile core z) :=
  ⟨fun _ h => h, fun k hk => by rw [mfind_clearTile, hk, ite_self], fun _ h => h⟩

theorem clears_clearVregs (s : State) (core x : Nat) : Clears s (s.clearVregs core x) :=
  ⟨fun _ h => h, fun _ h => h, fun k hk => by rw [mfind_clearVregs, hk, ite_self]⟩

/-- Clearing some tiles leaves none of their rows written. -/
theorem mfind_clearTiles {l : List Nat} {z r : Nat} (hz : z ∈ l) (hr : r < 64) (s : State) :
    mfind (l.foldl (fun s z => s.clearTile core z) s).acc (accKey core z r) = none := by
  induction l generalizing s with
  | nil => cases hz
  | cons y l ih =>
    rcases List.mem_cons.mp hz with rfl | hz
    · refine (Clears.foldl _ (fun s z => clears_clearTile s core z) l _).tiles _ ?_
      have hin : accKey core z 0 ≤ accKey core z r ∧ accKey core z r < accKey core z 0 + 64 := by unfold accKey; omega
      rw [mfind_clearTile, decide_eq_true hin.1, decide_eq_true hin.2]
      rfl
    · exact ih hz _

/-- A task's banks, tiles and vector registers, and those of its lenders, hold nothing once they are freed (R58, R179). -/
structure Freed (core x : Nat) (t : Task) (s : State) : Prop where
  rows : ∀ b r, t.b0 ≤ b → b < t.b0 + t.banks → r < 1024 → mfind s.spad (rowKey core b r) = none
  tiles : ∀ z ∈ t.tiles, ∀ r < 64, mfind s.acc (accKey core z r) = none
  vregs : ∀ r < 64, mfind s.vregs (vkey core x r) = none

theorem Freed.clears {k : Task} (h : Freed core x k s) (g : Clears s t) : Freed core x k t :=
  ⟨fun b r h1 h2 h3 => g.rows _ (h.rows b r h1 h2 h3), fun z hz r hr => g.tiles _ (h.tiles z hz r hr),
    fun r hr => g.vregs _ (h.vregs r hr)⟩

theorem freed_freeStorage (s : State) (core x : Nat) (t : Task) : Freed core x t (s.freeStorage core x t) := by
  have hbanks : ∀ b r, t.b0 ≤ b → b < t.b0 + t.banks → r < 1024 →
      mfind (s.clearBanks core t.b0 t.banks).spad (rowKey core b r) = none := fun b r h1 h2 h3 => by
    have hin : rowKey core t.b0 0 ≤ rowKey core b r ∧ rowKey core b r < rowKey core (t.b0 + t.banks) 0 := by unfold rowKey; omega
    rw [mfind_clearBanks, decide_eq_true hin.1, decide_eq_true hin.2]
    rfl
  have htiles : Clears (s.clearBanks core t.b0 t.banks) (t.tiles.foldl (fun s z => s.clearTile core z) (s.clearBanks core t.b0 t.banks)) :=
    Clears.foldl _ (fun s z => clears_clearTile s core z) _ _
  have hvregs : ∀ (u : State) (r : Nat), r < 64 → mfind (u.clearVregs core x).vregs (vkey core x r) = none := fun u r hr => by
    have hin : vkey core x 0 ≤ vkey core x r ∧ vkey core x r < vkey core x 0 + 64 := by unfold vkey; omega
    rw [mfind_clearVregs, decide_eq_true hin.1, decide_eq_true hin.2]
    rfl
  have hown : Freed core x t ((t.tiles.foldl (fun s z => s.clearTile core z) (s.clearBanks core t.b0 t.banks)).clearVregs core x) :=
    ⟨fun b r h1 h2 h3 => htiles.rows _ (hbanks b r h1 h2 h3), fun z hz r hr => mfind_clearTiles hz hr _, fun r hr => hvregs _ r hr⟩
  refine hown.clears (Clears.foldl _ (fun u lease => ?_) t.leases _)
  cases lease with
  | none => exact Clears.refl u
  | some n =>
    have h := (clears_clearBanks u n 0 32).trans (Clears.foldl _ (fun s y => clears_clearVregs s n y) (List.range 4) _)
    exact ⟨h.rows, h.tiles, h.vregs⟩

/-! ## The retirement of a launch -/

/-- `t` has the contexts, the rows, the accumulators and the vector registers of `s`. -/
structure KeepsCores (s t : State) : Prop where
  ctxs : t.ctxs = s.ctxs
  spad : t.spad = s.spad
  acc : t.acc = s.acc
  vregs : t.vregs = s.vregs

theorem KeepsCores.refl (s : State) : KeepsCores s s := ⟨rfl, rfl, rfl, rfl⟩

theorem KeepsCores.trans {u : State} (h : KeepsCores s t) (g : KeepsCores t u) : KeepsCores s u :=
  ⟨g.ctxs.trans h.ctxs, g.spad.trans h.spad, g.acc.trans h.acc, g.vregs.trans h.vregs⟩

theorem HomeStep.keepsCores (h : HomeStep s t) : KeepsCores s t := by
  obtain ⟨_, _, _, _, _, _, _, rfl⟩ := h
  exact ⟨rfl, rfl, rfl, rfl⟩

theorem Reported.keepsCores (h : Reported s t) : KeepsCores s t := by
  obtain ⟨_, _, _, _, _, _, _, rfl⟩ := h
  exact ⟨rfl, rfl, rfl, rfl⟩

theorem keepsCores_updLaunch (s : State) (n : Nat) (f : Launch → Launch) : KeepsCores s (s.updLaunch n f) := by
  unfold State.updLaunch
  split <;> exact ⟨rfl, rfl, rfl, rfl⟩

/-- A journal entry is written at the home slices, and what is lost of the journal is reported (R353 to R355). -/
theorem keepsCores_journal (s : State) (l : Launch) (st : LaunchState) : KeepsCores s (s.journal l st) := by
  unfold State.journal
  dsimp only
  have h : ∀ (a : Nat) (b : List Byte) (f : Regs → Regs) (g : Launch → Launch),
      KeepsCores s (((s.homeStore a b).updRegs f).updLaunch l.id g) := fun a b f g =>
    (homeStep_homeStore s a b).keepsCores.trans
      ((⟨rfl, rfl, rfl, rfl⟩ : KeepsCores (s.homeStore a b) ((s.homeStore a b).updRegs f)).trans (keepsCores_updLaunch _ _ _))
  split
  · exact (h _ _ _ _).trans (reported_offer _ _).keepsCores
  · exact h _ _ _ _

/-- An update of a barrier object at its home reads or writes there (R38, R63). -/
theorem homeStep_updGlobalBar (s : State) (pa : Nat) (u : BarOp) : HomeStep s (s.updGlobalBar pa u).1 := by
  unfold State.updGlobalBar
  dsimp only
  split
  · exact homeStep_touchBytes s pa 16
  · exact homeStep_homeStore s pa _

theorem keepsCores_retire (s : State) (l : Launch) : KeepsCores s (s.retire l) := by
  unfold State.retire
  split
  · split
    · exact KeepsCores.refl s
    · exact keepsCores_journal s l _
  · have hjournal : KeepsCores s (if l.rcd.heat = 2 then { s.journal l .retired with
        hotRetired := l.dies.foldl (fun m d => mset m d true) (s.journal l .retired).hotRetired } else s.journal l .retired) := by
      have h := keepsCores_journal s l .retired
      split
      · exact ⟨h.ctxs, h.spad, h.acc, h.vregs⟩
      · exact h
    dsimp only
    generalize (if l.rcd.heat = 2 then { s.journal l .retired with
        hotRetired := l.dies.foldl (fun m d => mset m d true) (s.journal l .retired).hotRetired } else s.journal l .retired) = u at hjournal ⊢
    split
    · exact hjournal
    · have htr := (homeStep_translateBare u l.asn l.ptroot l.rcd.done .atomic).keepsCores
      split
      · next he =>
        rw [he] at htr
        exact (hjournal.trans htr).trans (reported_offer _ _).keepsCores
      · next pa v he =>
        rw [he] at htr
        have hbar := (homeStep_updGlobalBar v pa .arrive).keepsCores
        split
        · next he' =>
          rw [he'] at hbar
          exact ((hjournal.trans htr).trans hbar).trans (reported_offer _ _).keepsCores
        · next he' =>
          rw [he'] at hbar
          exact (hjournal.trans htr).trans hbar

theorem keepsCores_taskEnded (s : State) (core : Nat) (t : Task) (w : Walker) (killed : Bool) :
    KeepsCores s (s.taskEnded core t w killed) := by
  unfold State.taskEnded
  dsimp only
  split
  · split
    · exact (keepsCores_updLaunch _ _ _).trans (keepsCores_retire _ _)
    · exact keepsCores_updLaunch _ _ _
  · exact keepsCores_updLaunch _ _ _

/-! ## The end of a task -/

/-- The last that a task's leaving does is to free its storage and its context (R179). -/
theorem vacate_eq (s : State) (core x : Nat) (t : Task) :
    ∃ u : State, s.vacate core x t = (u.freeStorage core x t).updCtx core x (fun _ => Ctx.reset) := ⟨_, rfl⟩

/-- A context that its task leaves is free, and what the task held is clear (R179). -/
theorem vacate_spec (s : State) (core x : Nat) (t : Task) :
    (s.vacate core x t).ctx core x = Ctx.reset ∧ Freed core x t (s.vacate core x t) := by
  obtain ⟨u, hu⟩ := vacate_eq s core x t
  obtain ⟨hrows, htiles, hvregs⟩ := freed_freeStorage u core x t
  rw [hu]
  exact ⟨ctx_updCtx_same .., hrows, htiles, hvregs⟩

/-- Settles O27: what `vacate_spec` says of the context and its storage outlives the retirement of the launch. -/
theorem taskEnds : Obligations.TaskEnds := by
  unfold Obligations.TaskEnds
  intro core x s t ht hblocked hpending hdrained
  have hready : s.endReady core x = true := by simp [State.endReady, ht, hblocked, hpending, hdrained]
  have hend : s.endTask core x false = (s.vacate core x t).taskEnded core t (s.ctx core x).walker false := by
    rw [State.endTask, ht]
  obtain ⟨hctx, hrows, htiles, hvregs⟩ := vacate_spec s core x t
  obtain ⟨hctxs, hspad, hacc, hregs⟩ := keepsCores_taskEnded (s.vacate core x t) core t (s.ctx core x).walker false
  refine ⟨s.endTask core x false, congrArg Host.Outcome.next (if_pos hready), ?_⟩
  rw [hend]
  refine ⟨?_, fun b r h1 h2 h3 => ?_, fun z hz r hr => ?_, fun r hr => ?_⟩
  · rw [State.ctx, hctxs, ← State.ctx, hctx]
  · rw [State.row, hspad, mget, hrows b r h1 h2 h3]
    rfl
  · rw [hacc, htiles z hz r hr]
  · rw [State.readV, hregs, mget, hvregs r hr]
    rfl

end Sys2Proof.Machine
end

section
/-! SUPPORT. Events of the surroundings, and failures of storage and of results (R59, R327, R343 to R348, R361, R365), settled (O43). -/

namespace Sys2Proof.Machine

open Sys2Proof.Spec

variable {s t : State} {core x : Nat} {e : Event}

/-! ## The severity matrix -/

/-- A kill without a context and a reset without an island act as an interrupt (R345, assumption 141). -/
theorem applied_eq (s : State) (e : Event) : s.applied e =
    if s.action e.cls e.src = 3 ∧ e.ctx = false ∨ s.action e.cls e.src = 4 ∧ e.island = none then 2 else s.action e.cls e.src := by
  simp only [State.applied, Bool.not_eq_true', Option.isNone_iff_eq_none]

/-- The record of an event in the error log (R347). -/
def State.elogRecord (s : State) (e : Event) (repl : Bool) (act : Nat) : List Byte :=
  s.stamp ++ le 1 e.cause ++ le 1 (e.cls + 16 * e.src + 128 * repl.toNat) ++ le 1 act ++ le 1 e.lkind ++ le 2 e.lidx ++
    le 4 e.launch ++ le 4 e.task ++ bytesOf e.info 8

theorem elog_eq (s : State) (e : Event) (repl : Bool) (act : Nat) :
    s.elog e repl act = { s with logDue := s.logDue ++ [(e.src, s.elogRecord e repl act)] } := rfl

@[simp] theorem le_length (n v : Nat) : (le n v).length = n := length_bytesOf _ _

@[simp] theorem length_stamp (s : State) : s.stamp.length = 10 := by
  rw [State.stamp, List.length_append, length_bytesOf, length_bytesOf]

theorem length_elogRecord (s : State) (e : Event) (repl : Bool) (act : Nat) : (s.elogRecord e repl act).length = 32 := by
  simp only [State.elogRecord, List.length_append, length_stamp, le_length, length_bytesOf]

/-- A number of one byte. -/
theorem le_one_byte (v : Nat) : le 1 v = [.ofNat 8 v] :=
  congrArg (fun b => [b]) (BitVec.extractLsb'_eq_self (x := BitVec.ofNat 8 v))

/-- Cause, class with source, and action follow the time in a record (R347). -/
theorem drop_elogRecord (s : State) (e : Event) (act : Nat) :
    ((s.elogRecord e false act).drop 10).take 3 = [.ofNat 8 e.cause, .ofNat 8 (e.cls + 16 * e.src), .ofNat 8 act] := by
  simp only [State.elogRecord, List.append_assoc, le_one_byte]
  rw [List.drop_left' (length_stamp s)]
  rfl

/-- Asking for the reset of an island changes the islands alone. -/
theorem askReset_eq (s : State) (n : Nat) : ∃ isl, s.askReset n = { s with islands := isl } := by
  unfold State.askReset
  split <;> exact ⟨_, rfl⟩

/-- What logging an event does: a record is due unless the action is 0, and the core that INTTGT names is interrupted from action 2
on (R345, R346, R365). -/
theorem logEvent_eq (s : State) (e : Event) (repl : Bool) : ∃ imsic isl, s.logEvent e repl = { s with
    logDue := s.logDue ++ (if s.applied e = 0 then [] else [(e.src, s.elogRecord e repl (s.applied e))])
    interrupts := s.interrupts ++ (if 2 ≤ s.applied e then [(s.regs.inttgt.toNat, 1)] else [])
    imsic := imsic, islands := isl } := by
  have hask : ∀ u : State, ∃ isl, (if s.applied e = 4 then e.island.elim u u.askReset else u) = { u with islands := isl } := fun u => by
    split
    · cases e.island with
      | none => exact ⟨u.islands, rfl⟩
      | some n => exact askReset_eq u n
    · exact ⟨u.islands, rfl⟩
  obtain ⟨isl, hisl⟩ := hask (if s.applied e ≥ 2 then (if s.applied e = 0 then s else s.elog e repl (s.applied e)).interrupt 1
    else if s.applied e = 0 then s else s.elog e repl (s.applied e))
  have hlog : s.logEvent e repl = _ := hisl
  rw [hlog]
  by_cases h0 : s.applied e = 0
  · exact ⟨s.imsic, isl, by simp [h0]⟩
  · by_cases h2 : 2 ≤ s.applied e
    · exact ⟨_, isl, by simp only [h0, h2, if_true, if_false]; rfl⟩
    · exact ⟨s.imsic, isl, by simp only [h0, h2, if_false, List.append_nil]; rfl⟩

/-- An action of 4 asks for the reset of the event's island (R346, R348). -/
theorem asked_logEvent {n : Nat} (repl : Bool) (h4 : s.applied e = 4) (hi : e.island = some n) (hr : (s.island n).resetting = false) :
    ((s.logEvent e repl).island n).asked = true := by
  have hlog : s.logEvent e repl = ((s.elog e repl 4).interrupt 1).askReset n := by
    simp [State.logEvent, h4, hi]
  have hask : ((s.elog e repl 4).interrupt 1).askReset n =
      ((s.elog e repl 4).interrupt 1).updIsland n (fun i => { i with asked := true }) :=
    if_neg (fun h => Bool.false_ne_true (hr.symm.trans h))
  rw [hlog, hask, State.island, State.updIsland, mget_mset_same]

/-- An event that sets no REPLACE is only logged. -/
theorem offer_plain (hf : e.forced = false) (hr : s.repl e.cls e.src = false) : s.offer e = s.logEvent e false := by
  simp only [State.offer, hf, hr, Bool.or_self, Bool.false_eq_true, if_false]

/-- An event that sets REPLACE does so, and logs it (R361). -/
theorem offer_replaces (h : e.forced = true ∨ s.repl e.cls e.src = true) : (s.offer e).regs.replace = true := by
  have hrepl : (e.forced || s.repl e.cls e.src) = true := by rcases h with h | h <;> simp [h]
  simp only [State.offer, hrepl, if_true]
  obtain ⟨_, _, hlog⟩ := logEvent_eq ((s.logEvent e true).updRegs (fun r => { r with replace := true }))
    { e with cause := 0xB0, cls := 15, launch := 0, task := 0, info := 0, forced := false, ctx := false } false
  rw [hlog]
  rfl

/-! ## The records of a cycle -/

/-- The records of two sources enter the log by increasing source (R346). -/
theorem inOrder_pair {a b : Nat} (x y : List Byte) (hab : b < a) (ha : a < 8) : inOrder [(a, x), (b, y)] = [y, x] := by
  interval_cases a <;> interval_cases b <;> rfl

theorem flushLogs_pair {a b : Nat} {x y : List Byte} (ht : s.traceDue = []) (hl : s.logDue = [(a, x), (b, y)]) (hab : b < a) (ha : a < 8) :
    s.flushLogs = (({ s with logDue := [] } : State).appendElog y).appendElog x := by
  have hs : ({ s with logDue := [], traceDue := [] } : State) = { s with logDue := [] } := by rw [← ht]
  rw [State.flushLogs, hl, ht, inOrder_pair x y hab ha, hs]
  rfl

theorem eloghead_appendElog (s : State) (r : List Byte) : (s.appendElog r).regs.eloghead = s.regs.eloghead + 1 := by
  have h := homeStep_homeStore s ((s.regs.elogbase.toNat + 32 * (s.regs.eloghead.toNat % 65536)) % 2 ^ 52) r
  have he : (s.homeStore ((s.regs.elogbase.toNat + 32 * (s.regs.eloghead.toNat % 65536)) % 2 ^ 52) r).regs.eloghead =
      s.regs.eloghead := by
    obtain ⟨_, _, _, _, _, _, _, h⟩ := h
    rw [h]
  exact congrArg (· + 1) he

/-! ## Failures -/

theorem mem_badPieces {r q : Nat} : q ∈ s.badPieces core x r ↔ q < 8 ∧ 8 * vkey core x r + q ∈ s.vpoison := by
  simp [State.badPieces]

/-- A bad piece of a register is marked, and no value changes (R59, assumption 114). -/
theorem badPieces_markV {r p q : Nat} (hq : q < 8) :
    q ∈ (s.markV (8 * vkey core x r + p) true).badPieces core x r ↔ q = p ∨ q ∈ s.badPieces core x r := by
  have hmark : 8 * vkey core x r + q ∈ (s.markV (8 * vkey core x r + p) true).vpoison ↔
      8 * vkey core x r + q ∈ s.vpoison ∨ q = p := by
    simp only [State.markV, if_true, List.contains_iff_mem]
    split
    · next hin =>
      refine ⟨.inl, fun h => h.elim id (fun hqp => ?_)⟩
      rwa [hqp]
    · rw [List.mem_append, List.mem_singleton, Nat.add_left_cancel_iff]
  rw [mem_badPieces, mem_badPieces, hmark, or_comm, and_iff_right hq, and_iff_right hq]

/-- The causes of failed checks of results are of class 6 (R327, R343). -/
theorem classOf_of_checkFits {n : Nat} {f : InFlight} (h : checkFits n f = true) : classOf n = 6 := by
  have hrange : (0x26 ≤ n ∧ n ≤ 0x2F) ∨ (0x3B ≤ n ∧ n ≤ 0x3F) := by
    rw [checkFits, Bool.or_eq_true, Bool.and_eq_true, decide_eq_true_iff, decide_eq_true_iff] at h
    refine h.elim .inr (fun h => .inl ?_)
    split at h <;> simp only [Bool.or_eq_true, beq_iff_eq, Bool.false_eq_true] at h <;> omega
  rw [classOf, if_neg (by omega), if_neg (by omega), if_neg (by omega), if_neg (by omega), if_neg (by omega), if_pos (by omega)]

/-- A result that goes elsewhere leaves a vector register as it was. -/
theorem readV_writeResult {f : InFlight} {r : Nat} (h : f.dest ≠ .v r) : (s.writeResult core x f).readV core x r = s.readV core x r := by
  unfold State.writeResult
  cases hd : f.dest with
  | none => rfl
  | s k => rfl
  | p k => rfl
  | ctl n => rfl
  | v k =>
    have hne : vkey core x r ≠ vkey core x k := fun hk => h (by rw [hd, Nat.add_left_cancel hk])
    exact mget_mset_other _ _ _ hne

/-- A vector register that no result due is bound for is left as it was. -/
theorem readV_writeAll {r : Nat} (h : ∀ g ∈ (s.ctx core x).flight, g.left = 0 → g.dest ≠ .v r) :
    (s.writeAll core x).readV core x r = s.readV core x r := by
  have hfold : ∀ (l : List InFlight) (u : State), (∀ g ∈ l, g.dest ≠ .v r) →
      (l.foldl (fun u g => u.writeResult core x g) u).readV core x r = u.readV core x r := fun l => by
    induction l with
    | nil => exact fun _ _ => rfl
    | cons g l ih =>
      intro u hl
      rw [List.foldl_cons, ih _ (fun g hg => hl g (List.mem_cons_of_mem _ hg)), readV_writeResult (hl g (List.mem_cons_self ..))]
  unfold State.writeAll
  dsimp only
  rw [hfold]
  · rfl
  · intro g hg
    have hdue : g ∈ (s.ctx core x).due := (List.mem_append.mp hg).elim (List.mem_of_mem_filter ·) (List.mem_of_mem_filter ·)
    obtain ⟨hin, hleft⟩ := List.mem_filter.mp hdue
    exact h g hin (beq_iff_eq.mp hleft)

/-- The trap registers that a trap writes, whether its handler runs or it escalates (R324). -/
theorem trapped_regs (c : Ctx) (k : Trap) (now : Word) :
    (c.trapped k now).ecause = ecauseOf k.cause k.late k.src k.snum ∧ (c.trapped k now).einfo = k.info := by
  unfold Ctx.trapped
  dsimp only
  split <;> exact ⟨rfl, rfl⟩

/-- A cause that the severity matrix has had already traps (R324). -/
theorem enterTrap_reported (s : State) (core x : Nat) (k : Trap) :
    s.enterTrap core x k true = s.updCtx core x (fun c => c.trapped k s.now) := rfl

/-- A failed check of a result that is due traps with its cause; a vector register that no other result due is bound for, that of the
failed one among them, keeps its value (R91, R327, assumption 115). -/
theorem resultCheck_spec {i : Nat} {f : InFlight} {cause : Byte} (hf : (s.ctx core x).flight[i]? = some f) (hl : f.left = 0)
    (hh : (s.ctx core x).save.halted = false) (hc : checkFits cause.toNat f = true) (ha : s.action 6 0 < 3) :
    ((s.resultCheck core x i cause).ctx core x).ecause = ecauseOf cause true 10 0 ∧
      ((s.resultCheck core x i cause).ctx core x).einfo = .ofNat 64 (destCode f.dest) ∧
      ∀ r, (∀ g ∈ (s.ctx core x).flight.eraseIdx i, g.left = 0 → g.dest ≠ .v r) →
        (s.resultCheck core x i cause).readV core x r = s.readV core x r := by
  have hact : (s.updCtx core x (fun c => { c with flight := c.flight.eraseIdx i })).action (classOf cause.toNat) 0 < 3 := by
    rw [classOf_of_checkFits hc]
    exact ha
  obtain ⟨u, hu, hrep⟩ := report_delivers (core := core) (x := x) (info := .ofNat 64 (destCode f.dest)) hact
  have hpass : ¬(f.left ≠ 0 ∨ (s.ctx core x).save.halted = true ∨ (!checkFits cause.toNat f) = true) := by simp [hl, hh, hc]
  unfold State.resultCheck
  simp only [hf, if_neg hpass, hu, Bool.not_true, Bool.false_eq_true, if_false, enterTrap_reported, ctx_updCtx_same]
  refine ⟨(trapped_regs _ _ _).1, (trapped_regs _ _ _).2, fun r hr => ?_⟩
  have hflight : (u.ctx core x).flight = (s.ctx core x).flight.eraseIdx i := by rw [hrep.ctx, ctx_updCtx_same]
  have hkept : (u.writeAll core x).readV core x r = s.readV core x r := by
    rw [readV_writeAll (by rwa [hflight]), State.readV, hrep.keepsCores.vregs]
    rfl
  rw [← hkept]
  split <;> rfl

/-- Settles O43, event by event. -/
theorem surroundingsEvents : Obligations.SurroundingsEvents := by
  unfold Obligations.SurroundingsEvents
  refine ⟨fun s => ⟨rfl, rfl, rfl, rfl, fun _ => rfl⟩, ?_, fun s e h => offer_replaces h,
    fun s a b x y ht hl hab ha => ⟨flushLogs_pair ht hl hab ha, eloghead_appendElog s x⟩, ?_, ?_, ?_, ?_⟩
  · rintro s e act rfl
    refine ⟨applied_eq s e, fun hf hr => ?_⟩
    obtain ⟨imsic, isl, hlog⟩ := logEvent_eq s e false
    rw [offer_plain hf hr]
    refine ⟨fun h0 => ?_, fun h1 => ⟨_, length_elogRecord s e false (s.applied e), ?_, drop_elogRecord s e _⟩, ?_,
      fun n h4 hi hr => asked_logEvent false h4 hi hr⟩
    · simp [State.logEvent, h0]
    · rw [hlog, if_neg (by omega)]
    · rw [hlog]
  · intro s n hagenda hturn hdue
    simp only [step, hagenda, State.turn, hturn, hdue, if_true, thenAgenda]
  · intro s u rest hagenda hturn hdue hchance
    simp only [step, hagenda, State.turn, hturn, hdue, hchance, if_true, thenAgenda]
  · rintro s t core x r p hcore hx hr hp rfl
    have hmark : s.chance (.bits (.vreg core x r p) true) = s.markV (8 * vkey core x r + p) true := by
      simp [State.chance, Stored.valid, hcore, hx, hr, hp, State.spoilStored]
    rw [hmark]
    exact ⟨fun q hq => badPieces_markV hq, rfl⟩
  · rintro s t core x i f cause hx hf hl hh hc ha rfl
    have hcheck : s.chance (.result core x i cause) = s.resultCheck core x i cause := if_pos hx
    rw [hcheck]
    exact resultCheck_spec hf hl hh hc ha

end Sys2Proof.Machine
end

section
/-! SUPPORT. Generic addresses that pass their checks, of local bytes and of global ones (R20, R57, R137, R138), and slots that take an
entry of the operand log (R147). -/

namespace Sys2Proof.Machine

open Sys2Proof.Spec

variable {s : State} {a : Word} {n l : Nat} {i : Instr} {pre own : State → Vals → SlotEnd} {act : Vals → State → State}

theorem apertureAddr_eq (a : Word) : apertureAddr a = a.toNat % 2 ^ 32 := by
  rw [apertureAddr, bits, Nat.pow_zero, Nat.div_one]

theorem localOf_of_aperture (h : inAperture a = true) : localOf a = some (a.toNat % 2 ^ 32) := by
  rw [localOf, if_pos (.inr (beq_iff_eq.mp h)), ← apertureAddr, apertureAddr_eq]

theorem checkLocal_at (h : localAt s a n l) : s.checkLocal a n = .ok l := by
  obtain ⟨ha, rfl, hf, -⟩ := h
  exact checkLocal_ok (localOf_of_aperture ha) hf

/-- A local access that nothing holds back passes its checks (R57, R61). -/
theorem localEnd_ok (h : localAt s a n l) : s.localEnd a n = .commit := by
  rw [State.localEnd, checkLocal_at h]
  obtain ⟨-, -, -, hh⟩ := h
  exact hold_free hh

theorem globalOk_ok (h : globalAt a n) : globalOk a n = .commit := by
  obtain ⟨h1, h2⟩ := h
  rw [globalOk, h1, h2]
  rfl

/-- A slot that fails a check of its own stops with that check's cause. -/
theorem stops_of_issue {rank : Nat} {cause : Byte} (he : exec i s = issuePre (viewOf i) pre own act s) (hp : Passes i s)
    (ho : own s (s.vals (viewOf i)) = stopWith rank cause) : stopsWith i s cause := by
  obtain ⟨hk, hc⟩ := hp
  refine ⟨rank, none, 0, 0, ?_⟩
  rw [he, issuePre_own hk hc (by rw [ho]; exact nofun), ho]
  rfl

/-- A clear slot whose own checks pass where the log has room takes an entry of it. -/
theorem logs_of_issue {e : LogEntry} (he : exec i s = issuePre (viewOf i) pre own act s)
    (ho : s.logRoom = .commit → own s (s.vals (viewOf i)) = .commit)
    (ht : act (s.vals (viewOf i)) (s.noted (viewOf i)) = (s.noted (viewOf i)).logged e) : Logs i s e := fun hn =>
  gives_of_issue he (ho (if_neg (by simpa [Ctx.logFull] using hn))) ht

end Sys2Proof.Machine
end

section
/-! SUPPORT. Bindings, acquires, releases and barrier instructions (R62, R63, R70 to R73, R151 to R153), settled (O17). -/

namespace Sys2Proof.Machine

open Sys2Proof.Spec

variable {s : State} {a : Word} {m l : Nat} {bad : Bool}

/-! ## Sync objects -/

/-- A local object that nothing holds back passes the checks of its address (R62, R70). -/
theorem syncEnd_local (mis : Byte) (h : localObj s a m l bad) : s.syncEnd a m mis = .commit := by
  obtain ⟨hm, hw, hl, -⟩ := h
  have hend := localEnd_ok hl
  obtain ⟨ha, rfl, -, -⟩ := hl
  have hown : windowOf (bits a.toNat 31 0) = 0 := by rw [← apertureAddr, apertureAddr_eq, hw]
  simp only [State.syncEnd, need_ok mis (beq_iff_eq.mpr hm), commit_and, ha, if_true, hown, hend]
  rfl

theorem syncEnd_global (mis : Byte) (h : globalObj a m) : s.syncEnd a m mis = .commit := by
  obtain ⟨hm, ha, hg⟩ := h
  simp only [State.syncEnd, need_ok mis (beq_iff_eq.mpr hm), commit_and, ha, Bool.false_eq_true, if_false, globalOk_ok hg]

theorem aperture_local (h : localObj s a m l bad) : inAperture a = true ∧ apertureAddr a = l := by
  obtain ⟨-, -, ⟨ha, hl, -, -⟩, -⟩ := h
  exact ⟨ha, (apertureAddr_eq a).trans hl.symm⟩

theorem aperture_global (h : globalObj a m) : inAperture a = false := by
  obtain ⟨-, ha, -⟩ := h
  exact ha

theorem objectBad_local (h : localObj s a m l bad) : s.objectBad s.cur s.x a m = bad := by
  obtain ⟨ha, hl⟩ := aperture_local h
  obtain ⟨-, -, -, hb⟩ := h
  rw [State.objectBad, ha, hl, hb, Bool.true_and]

theorem objectBad_global (h : globalObj a m) : s.objectBad s.cur s.x a m = false := by
  rw [State.objectBad, aperture_global h, Bool.false_and]

/-- A local object in a poisoned row is left as it is and consumed (R32, assumption 128). -/
theorem onObject_bad {v : View} (act : State → State) (h : localObj s a m l true) : (s.noted v).onObject a m act = consuming s v := by
  have hb : (s.noted v).objectBad (s.noted v).cur (s.noted v).x a m = true := objectBad_local h
  rw [State.onObject, if_pos hb]
  rfl

theorem onObject_local {v : View} (act : State → State) (h : localObj s a m l false) : (s.noted v).onObject a m act = act (s.noted v) := by
  have hb : (s.noted v).objectBad (s.noted v).cur (s.noted v).x a m = false := objectBad_local h
  rw [State.onObject, hb, if_neg Bool.false_ne_true]

theorem onObject_global {v : View} (act : State → State) (h : globalObj a m) : (s.noted v).onObject a m act = act (s.noted v) := by
  have hb : (s.noted v).objectBad (s.noted v).cur (s.noted v).x a m = false := objectBad_global (s := s.noted v) h
  rw [State.onObject, hb, if_neg Bool.false_ne_true]

/-- The value that an atomic read of a global object has brought is taken (R152, R153). -/
theorem syncRead_some {op : LogOp} {r : Vec} (k : Vec → SlotEnd) (h : s.me.syncRead = some (a, r)) : s.syncRead op a k = k r := by
  simp only [State.syncRead, h, if_true]

/-! ## Acquires and releases -/

section acquire

variable {d : BitVec 6} {n : Bool} {x : Src} {scope : BitVec 3} {p : BitVec 2}

theorem acq_bad (h : localObj s (srcS s x) 8 l true) : Gives (.acq d n x scope p) s (consuming s (viewOf (.acq d n x scope p))) := by
  refine gives_of_issue rfl ?_ (onObject_bad _ h)
  have hA : lo64 (s.vals (viewOf (.acq d n x scope p))).a = srcS s x := rfl
  dsimp only
  rw [hA, syncEnd_local _ h, objectBad_local h]
  rfl

theorem acq_local (h : localObj s (srcS s x) 8 l false)
    (hv : (s.me.readS (d.toNat % 32)).toNat ≤ (le64 (s.localBytes s.cur s.x l 8).1).toNat) :
    Gives (.acq d n x scope p) s
      (((s.noted (viewOf (.acq d n x scope p))).upd (fun c => { c with syncRead := none })).acquireRegions s.cur s.x (srcS s x)) := by
  obtain ⟨ha, hl⟩ := aperture_local h
  refine gives_of_issue rfl ?_ (onObject_local _ h)
  have hA : lo64 (s.vals (viewOf (.acq d n x scope p))).a = srcS s x := rfl
  have hD : lo64 (s.vals (viewOf (.acq d n x scope p))).d = s.me.readS (d.toNat % 32) := lo64_wide _
  dsimp only
  rw [hA, hD, syncEnd_local _ h, objectBad_local h, ha, hl]
  exact if_pos (decide_eq_true hv)

theorem acq_global {r : Vec} (h : globalObj (srcS s x) 8) (hr : s.me.syncRead = some (srcS s x, r))
    (hv : (s.me.readS (d.toNat % 32)).toNat ≤ (lo64 r).toNat) :
    Gives (.acq d n x scope p) s
      (((s.noted (viewOf (.acq d n x scope p))).upd (fun c => { c with syncRead := none })).acquireRegions s.cur s.x (srcS s x)) := by
  refine gives_of_issue rfl ?_ (onObject_global _ h)
  have hA : lo64 (s.vals (viewOf (.acq d n x scope p))).a = srcS s x := rfl
  have hD : lo64 (s.vals (viewOf (.acq d n x scope p))).d = s.me.readS (d.toNat % 32) := lo64_wide _
  dsimp only
  rw [hA, hD, syncEnd_global _ h, objectBad_global h, syncRead_some _ hr, aperture_global h]
  exact if_pos (decide_eq_true hv)

theorem rel_local (h : localObj s (srcS s x) 8 l bad) (hdone : s.me.regionsDone (srcS s x) s.me.logNext = true) :
    Gives (.rel d n x scope p) s (((s.noted (viewOf (.rel d n x scope p))).releaseRegions s.cur s.x (srcS s x)).localStore s.cur s.x l
      (bytesOf (s.me.readS (d.toNat % 32)) 8) [] false) := by
  obtain ⟨ha, hl⟩ := aperture_local h
  have hA : lo64 (s.vals (viewOf (.rel d n x scope p))).a = srcS s x := rfl
  have hD : lo64 (s.vals (viewOf (.rel d n x scope p))).d = s.me.readS (d.toNat % 32) := lo64_wide _
  refine gives_of_issue rfl ?_ ?_
  · dsimp only
    rw [hA, syncEnd_local _ h, ha, hdone]
    rfl
  · dsimp only
    rw [hA, hD, ha, hl]
    rfl

theorem rel_global (h : globalObj (srcS s x) 8) :
    Logs (.rel d n x scope p) s { entry s (.rel scope.toNat) (srcS s x) true with data := wide (s.me.readS (d.toNat % 32)) } := by
  have hA : lo64 (s.vals (viewOf (.rel d n x scope p))).a = srcS s x := rfl
  have hD : lo64 (s.vals (viewOf (.rel d n x scope p))).d = s.me.readS (d.toNat % 32) := lo64_wide _
  refine logs_of_issue rfl (fun hroom => ?_) ?_
  · dsimp only
    rw [hA, syncEnd_global _ h, aperture_global h, hroom]
    rfl
  · dsimp only
    rw [hA, hD, aperture_global h]
    rfl

end acquire

/-! ## Bindings -/

theorem upd_congr {f g : Ctx → Ctx} (h : f s.me = g s.me) : s.upd f = s.upd g := by
  have hme : f (s.ctx s.cur s.x) = g (s.ctx s.cur s.x) := h
  rw [State.upd, State.upd, State.updCtx, State.updCtx, hme]

/-- The region and the object that a `bind` names (R151). -/
def boundBy (s : State) (o : DAB6) : Binding := ⟨srcS s o.a, srcS s o.b, s.me.readS (o.d.toNat % 32)⟩

/-- The object of a binding passes the checks of its address (R151). -/
theorem bindObject_ok {obj : Word} (h : globalObj obj 8 ∨ (obj.toNat % 8 = 0 ∧ inAperture obj = true ∧ windowOf (obj.toNat % 2 ^ 32) = 0 ∧
      s.localFault s.cur s.x (obj.toNat % 2 ^ 32) 8 = none)) :
    (need (obj.toNat % 8 == 0) 0x4B).and (if inAperture obj then
        if 1 ≤ windowOf (apertureAddr obj) ∧ windowOf (apertureAddr obj) ≤ 8 then stopWith 13 0x67
        else withAddr (s.checkLocal obj 8) (fun _ => .commit)
      else globalOk obj 8) = .commit := by
  obtain ⟨hm, ha, hg⟩ | ⟨hm, ha, hw, hf⟩ := h
  · rw [need_ok _ (beq_iff_eq.mpr hm), commit_and, ha, if_neg Bool.false_ne_true, globalOk_ok hg]
  · rw [need_ok _ (beq_iff_eq.mpr hm), commit_and, ha, if_pos rfl, apertureAddr_eq, hw, if_neg (by decide),
      checkLocal_ok (localOf_of_aperture ha) hf]
    rfl

theorem gives_bind {o : DAB6} {b : Binding} (hb : b = boundBy s o) (h0 : b.len ≠ 0) (h40 : b.len.toNat ≤ 2 ^ 40)
    (hr : b.base.toNat + b.len.toNat ≤ 0xFFFF_FFFF_0000_0000)
    (ho : globalObj b.obj 8 ∨ (b.obj.toNat % 8 = 0 ∧ inAperture b.obj = true ∧ windowOf (b.obj.toNat % 2 ^ 32) = 0 ∧
      s.localFault s.cur s.x (b.obj.toNat % 2 ^ 32) 8 = none)) (hroom : b ∈ s.me.bindings ∨ s.me.bindings.length < 16) :
    Gives (.bind o) s ((s.noted (viewOf (.bind o))).upd (fun c =>
      if c.bindings.contains b then c else { c with bindings := c.bindings ++ [b] })) := by
  have hA : lo64 (s.vals (viewOf (.bind o))).a = b.base := by rw [hb]; rfl
  have hB : lo64 (s.vals (viewOf (.bind o))).b = b.len := by rw [hb]; rfl
  have hD : lo64 (s.vals (viewOf (.bind o))).d = b.obj := by rw [hb]; exact lo64_wide _
  have hlen : need (b.len != 0 && decide (b.len.toNat ≤ 2 ^ 40)) 0x4C = .commit :=
    need_ok _ (by rw [Bool.and_eq_true]; exact ⟨bne_iff_ne.mpr h0, decide_eq_true h40⟩)
  have hrange : need (rangeOk b.base b.len) 0x4C = .commit :=
    need_ok _ (by rw [rangeOk, Bool.or_eq_true]; exact .inl (decide_eq_true hr))
  have hheld : need (s.me.bindings.contains b || decide (s.me.bindings.length < 16)) 0x4D = .commit :=
    need_ok _ (by rw [Bool.or_eq_true, List.contains_iff_mem, decide_eq_true_iff]; exact hroom)
  refine gives_of_issue rfl ?_ ?_
  · dsimp only
    rw [hA, hB, hD, hlen, hrange, bindObject_ok ho]
    exact hheld
  · have hsame : (⟨lo64 (s.vals (viewOf (.bind o))).a, lo64 (s.vals (viewOf (.bind o))).b,
        lo64 (s.vals (viewOf (.bind o))).d⟩ : Binding) = b := by rw [hA, hB, hD]
    simp only [hsame]

theorem gives_unbind {n : Bool} {x : Src} {p : BitVec 2} : Gives (.unbind n x p) s ((s.noted (viewOf (.unbind n x p))).upd (fun c =>
    { c with bindings := if srcS s x = 0 then [] else c.bindings.filter (fun b => b.obj ≠ srcS s x) })) := by
  refine gives_of_issue rfl rfl (upd_congr ?_)
  have hA : lo64 (s.vals (viewOf (.unbind n x p))).a = srcS s x := rfl
  have hne : (fun b : Binding => b.obj != srcS s x) = fun b => decide (b.obj ≠ srcS s x) :=
    funext fun b => by rw [Bool.eq_iff_iff, bne_iff_ne, decide_eq_true_iff]
  rw [hA, hne]

/-! ## Barriers -/

/-- An update that raises no cause is stored (R63). -/
theorem updLocalBar_ok {core x : Nat} {op : BarOp} {u : BarObj} (h : (s.localBar core x l).apply op = (u, none)) :
    s.updLocalBar core x l op = (s.localStore core x l (bytesOf u 16) [] false, none) := by
  simp only [State.updLocalBar, h]
  rfl

/-- An update that raises no cause found its object usable (R62). -/
theorem usable_of_apply {o u : BarObj} {op : BarOp} (h : o.apply op = (u, none)) : o.usable = true := by
  by_contra hn
  rw [apply_unusable op (Bool.not_eq_true _ ▸ hn)] at h
  cases h

theorem usableEnd_bad (h : localObj s a 16 l true) : s.usableEnd a = .commit := by
  rw [State.usableEnd, objectBad_local h]
  rfl

theorem usableEnd_local (h : localObj s a 16 l false) : s.usableEnd a = need (barAt s l).usable 0x67 := by
  rw [State.usableEnd, objectBad_local h, (aperture_local h).2]
  rfl

section barrier

variable {n y : Bool} {x z : Src} {scope : BitVec 3} {p : BitVec 2}

theorem binit_local (h : localObj s (srcS s x) 16 l bad) (hq : bits (srcS s z).toNat 13 4 ≠ 0) (hz : bits (srcS s z).toNat 63 15 = 0) :
    Gives (.binit n x z p) s
      ((s.noted (viewOf (.binit n x z p))).localStore s.cur s.x l (bytesOf (BarObj.ofInit (srcS s z)) 16) [] false) := by
  obtain ⟨ha, hl⟩ := aperture_local h
  have hA : lo64 (s.vals (viewOf (.binit n x z p))).a = srcS s x := rfl
  have hB : lo64 (s.vals (viewOf (.binit n x z p))).b = srcS s z := rfl
  refine gives_of_issue rfl ?_ ?_
  · dsimp only
    rw [hA, hB, syncEnd_local _ h, ha, need_ok _ (beq_iff_eq.mpr h.1), hz, need_ok _ (by simpa using hq)]
    rfl
  · dsimp only
    rw [hA, hB, ha, hl]
    rfl

theorem binit_global (h : globalObj (srcS s x) 16) (hq : bits (srcS s z).toNat 13 4 ≠ 0) (hz : bits (srcS s z).toNat 63 15 = 0) :
    Logs (.binit n x z p) s { entry s .binit (srcS s x) true with data := (BarObj.ofInit (srcS s z)).setWidth 4096 } := by
  have hA : lo64 (s.vals (viewOf (.binit n x z p))).a = srcS s x := rfl
  have hB : lo64 (s.vals (viewOf (.binit n x z p))).b = srcS s z := rfl
  refine logs_of_issue rfl (fun hroom => ?_) ?_
  · dsimp only
    rw [hA, hB, syncEnd_global _ h, aperture_global h, need_ok _ (beq_iff_eq.mpr h.1), hz, need_ok _ (by simpa using hq), hroom]
    rfl
  · dsimp only
    rw [hA, hB, aperture_global h]
    rfl

theorem barv_bad (h : localObj s (srcS s x) 16 l true) : Gives (.barv n x y p) s (consuming s (viewOf (.barv n x y p))) := by
  have hA : lo64 (s.vals (viewOf (.barv n x y p))).a = srcS s x := rfl
  refine gives_of_issue rfl ?_ (onObject_bad _ h)
  rw [hA, syncEnd_local _ h, usableEnd_bad h, (aperture_local h).1]
  rfl

theorem barv_local {u : BarObj} (h : localObj s (srcS s x) 16 l false) (hu : (barAt s l).apply .arrive = (u, none)) :
    Gives (.barv n x y p) s ((s.noted (viewOf (.barv n x y p))).localStore s.cur s.x l (bytesOf u 16) [] false) := by
  obtain ⟨ha, hl⟩ := aperture_local h
  have hA : lo64 (s.vals (viewOf (.barv n x y p))).a = srcS s x := rfl
  refine gives_of_issue rfl ?_ ((onObject_local _ h).trans ?_)
  · rw [hA, syncEnd_local _ h, usableEnd_local h, ha, usable_of_apply hu]
    rfl
  · rw [hA, ha, hl]
    have hupd := updLocalBar_ok (s := s.noted (viewOf (.barv n x y p))) (core := s.cur) (x := s.x) hu
    exact congrArg (fun r : State × Option Byte => r.1.barCause r.2) hupd

theorem barv_global (h : globalObj (srcS s x) 16) : Logs (.barv n x y p) s (entry s (.barrive false) (srcS s x) false) := by
  have hA : lo64 (s.vals (viewOf (.barv n x y p))).a = srcS s x := rfl
  refine logs_of_issue rfl (fun hroom => ?_) ((onObject_global _ h).trans ?_)
  · rw [hA, syncEnd_global _ h, aperture_global h, hroom]
    rfl
  · rw [hA, aperture_global h]
    rfl

theorem barv_unusable (h : localObj s (srcS s x) 16 l false) (hu : (barAt s l).usable = false) (hp : Passes (.barv n x y p) s) :
    stopsWith (.barv n x y p) s 0x67 := by
  have hA : lo64 (s.vals (viewOf (.barv n x y p))).a = srcS s x := rfl
  refine stops_of_issue rfl hp (rank := 13) ?_
  rw [hA, syncEnd_local _ h, usableEnd_local h, (aperture_local h).1, hu]
  rfl

theorem barvRel_bad (h : localObj s (srcS s x) 16 l true) :
    Gives (.barvRel scope n x y p) s (consuming s (viewOf (.barvRel scope n x y p))) := by
  have hA : lo64 (s.vals (viewOf (.barvRel scope n x y p))).a = srcS s x := rfl
  refine gives_of_issue rfl ?_ (onObject_bad _ h)
  dsimp only
  rw [hA, syncEnd_local _ h, usableEnd_bad h, (aperture_local h).1, objectBad_local h]
  rfl

theorem barvRel_local {t : State} {u : BarObj} (h : localObj s (srcS s x) 16 l false)
    (hdone : s.me.regionsDone (srcS s x) s.me.logNext = true)
    (ht : t = (s.noted (viewOf (.barvRel scope n x y p))).releaseRegions s.cur s.x (srcS s x)) (huse : (barAt s l).usable = true)
    (hu : (t.localBar s.cur s.x l).apply .arrive = (u, none)) :
    Gives (.barvRel scope n x y p) s (t.localStore s.cur s.x l (bytesOf u 16) [] false) := by
  subst ht
  obtain ⟨ha, hl⟩ := aperture_local h
  have hA : lo64 (s.vals (viewOf (.barvRel scope n x y p))).a = srcS s x := rfl
  refine gives_of_issue rfl ?_ ((onObject_local _ h).trans ?_)
  · dsimp only
    rw [hA, syncEnd_local _ h, usableEnd_local h, ha, huse, objectBad_local h, hdone]
    rfl
  · rw [hA, ha, hl]
    exact congrArg (fun r : State × Option Byte => r.1.barCause r.2) (updLocalBar_ok hu)

theorem barvRel_global (h : globalObj (srcS s x) 16) : Logs (.barvRel scope n x y p) s (entry s (.barrive true) (srcS s x) true) := by
  have hA : lo64 (s.vals (viewOf (.barvRel scope n x y p))).a = srcS s x := rfl
  refine logs_of_issue rfl (fun hroom => ?_) ((onObject_global _ h).trans ?_)
  · dsimp only
    rw [hA, syncEnd_global _ h, aperture_global h, hroom]
    rfl
  · rw [hA, aperture_global h]
    rfl

theorem barvRel_unusable (h : localObj s (srcS s x) 16 l false) (hu : (barAt s l).usable = false) (hp : Passes (.barvRel scope n x y p) s) :
    stopsWith (.barvRel scope n x y p) s 0x67 := by
  have hA : lo64 (s.vals (viewOf (.barvRel scope n x y p))).a = srcS s x := rfl
  refine stops_of_issue rfl hp (rank := 13) ?_
  dsimp only
  rw [hA, syncEnd_local _ h, usableEnd_local h, (aperture_local h).1, hu]
  rfl

theorem bwait_bad (h : localObj s (srcS s x) 16 l true) :
    Gives (.bwait scope n x z p) s (consuming s (viewOf (.bwait scope n x z p))) := by
  have hA : lo64 (s.vals (viewOf (.bwait scope n x z p))).a = srcS s x := rfl
  refine gives_of_issue rfl ?_ (onObject_bad _ h)
  dsimp only
  rw [hA, syncEnd_local _ h, objectBad_local h]
  rfl

theorem bwait_local (h : localObj s (srcS s x) 16 l false) (hg : (srcS s z).toNat % 16 ≠ (barAt s l).gen) :
    Gives (.bwait scope n x z p) s
      (((s.noted (viewOf (.bwait scope n x z p))).upd (fun c => { c with syncRead := none })).acquireRegions s.cur s.x (srcS s x)) := by
  obtain ⟨ha, hl⟩ := aperture_local h
  have hA : lo64 (s.vals (viewOf (.bwait scope n x z p))).a = srcS s x := rfl
  refine gives_of_issue rfl ?_ (onObject_local _ h)
  dsimp only
  rw [hA, syncEnd_local _ h, objectBad_local h, ha, hl]
  exact if_pos (Ne.symm hg)

theorem bwait_global {r : Vec} (h : globalObj (srcS s x) 16) (hr : s.me.syncRead = some (srcS s x, r))
    (hg : (srcS s z).toNat % 16 ≠ BarObj.gen (r.setWidth 128)) :
    Gives (.bwait scope n x z p) s
      (((s.noted (viewOf (.bwait scope n x z p))).upd (fun c => { c with syncRead := none })).acquireRegions s.cur s.x (srcS s x)) := by
  have hA : lo64 (s.vals (viewOf (.bwait scope n x z p))).a = srcS s x := rfl
  refine gives_of_issue rfl ?_ (onObject_global _ h)
  dsimp only
  rw [hA, syncEnd_global _ h, objectBad_global h, syncRead_some _ hr, aperture_global h]
  exact if_pos (Ne.symm hg)

end barrier

/-! ## Expected counts -/

section expect

variable {o : PRR}

/-- The values of a `bxpect` that are in range, and an aligned address, pass its checks; those of the object follow (R153). -/
theorem expectValues_ok {e : SlotEnd} (known : Bool) (ha : (srcS s o.a).toNat % 16 = 0) (hi : (srcS s o.b).toNat < 2 ^ 56)
    (hk : (s.me.readS (o.d.toNat % 32)).toNat < 2 ^ 32) :
    (need ((srcS s o.a).toNat % 16 == 0) 0x67).and (((need ((s.me.readS (o.d.toNat % 32)).toNat < 2 ^ 32) 0x68).and
      ((need ((srcS s o.b).toNat < 2 ^ 56) 0x68).early known)).and e) = e := by
  rw [need_ok _ (beq_iff_eq.mpr ha), need_ok _ (decide_eq_true hi), need_ok _ (decide_eq_true hk)]
  rfl

theorem bxpect_vals (s : State) (o : PRR) : lo64 (s.vals (viewOf (.bxpect o))).a = srcS s o.a ∧
    lo64 (s.vals (viewOf (.bxpect o))).b = srcS s o.b ∧ lo64 (s.vals (viewOf (.bxpect o))).d = s.me.readS (o.d.toNat % 32) :=
  ⟨rfl, rfl, lo64_wide _⟩

theorem bxpect_bad (h : localObj s (srcS s o.a) 16 l true) (hi : (srcS s o.b).toNat < 2 ^ 56)
    (hk : (s.me.readS (o.d.toNat % 32)).toNat < 2 ^ 32) : Gives (.bxpect o) s (consuming s (viewOf (.bxpect o))) := by
  obtain ⟨hA, hB, hD⟩ := bxpect_vals s o
  refine gives_of_issue rfl ?_ (onObject_bad _ h)
  dsimp only
  rw [hA, hB, hD, expectValues_ok _ h.1 hi hk, syncEnd_local _ h, usableEnd_bad h, (aperture_local h).1]
  rfl

theorem bxpect_local {u : BarObj} (h : localObj s (srcS s o.a) 16 l false) (hi : (srcS s o.b).toNat < 2 ^ 56)
    (hk : (s.me.readS (o.d.toNat % 32)).toNat < 2 ^ 32)
    (hu : (barAt s l).apply (.expect (srcS s o.b).toNat (s.me.readS (o.d.toNat % 32)).toNat) = (u, none)) :
    Gives (.bxpect o) s ((s.noted (viewOf (.bxpect o))).localStore s.cur s.x l (bytesOf u 16) [] false) := by
  obtain ⟨hA, hB, hD⟩ := bxpect_vals s o
  obtain ⟨ha, hl⟩ := aperture_local h
  refine gives_of_issue rfl ?_ ((onObject_local _ h).trans ?_)
  · dsimp only
    rw [hA, hB, hD, expectValues_ok _ h.1 hi hk, syncEnd_local _ h, usableEnd_local h, ha, usable_of_apply hu]
    rfl
  · rw [hA, hB, hD, ha, hl]
    have hupd := updLocalBar_ok (s := s.noted (viewOf (.bxpect o))) (core := s.cur) (x := s.x) hu
    exact congrArg (fun r : State × Option Byte => r.1.barCause r.2) hupd

theorem bxpect_unusable (h : localObj s (srcS s o.a) 16 l false) (hi : (srcS s o.b).toNat < 2 ^ 56)
    (hk : (s.me.readS (o.d.toNat % 32)).toNat < 2 ^ 32) (hu : (barAt s l).usable = false) (hp : Passes (.bxpect o) s) :
    stopsWith (.bxpect o) s 0x67 := by
  obtain ⟨hA, hB, hD⟩ := bxpect_vals s o
  refine stops_of_issue rfl hp (rank := 13) ?_
  dsimp only
  rw [hA, hB, hD, expectValues_ok _ h.1 hi hk, syncEnd_local _ h, usableEnd_local h, (aperture_local h).1, hu]
  rfl

theorem bxpect_global (h : globalObj (srcS s o.a) 16) (hi : (srcS s o.b).toNat < 2 ^ 56)
    (hk : (s.me.readS (o.d.toNat % 32)).toNat < 2 ^ 32) : Logs (.bxpect o) s (expectEntry s o) := by
  obtain ⟨hA, hB, hD⟩ := bxpect_vals s o
  refine logs_of_issue rfl (fun hroom => ?_) ((onObject_global _ h).trans ?_)
  · dsimp only
    rw [hA, hB, hD, expectValues_ok _ h.1 hi hk, syncEnd_global _ h, aperture_global h, hroom]
    rfl
  · rw [hA, hB, hD, aperture_global h]
    rfl

end expect

/-- Settles O17, instruction by instruction. -/
theorem synchronisation : Obligations.Synchronisation := by
  unfold Obligations.Synchronisation
  refine ⟨?_, fun n x p s => gives_unbind, ?_, ?_, ?_, ?_, ?_⟩
  · rintro o s b hb h0 h40 hr ho
    refine ⟨fun hin => ?_, fun hnew hroom => ?_⟩
    · rw [upd_congr (g := fun c => if c.bindings.contains b then c else { c with bindings := c.bindings ++ [b] })
        (if_pos (List.contains_iff_mem.mpr hin)).symm]
      exact gives_bind hb h0 h40 hr ho (.inl hin)
    · rw [upd_congr (g := fun c => if c.bindings.contains b then c else { c with bindings := c.bindings ++ [b] })
        (if_neg (fun h => hnew (List.contains_iff_mem.mp h))).symm]
      exact gives_bind hb h0 h40 hr ho (.inr hroom)
  · rintro d n x scope p s _ rfl
    exact ⟨fun l h => acq_bad h, fun l h => ⟨fun hv => acq_local h hv, fun hdone => rel_local h hdone⟩,
      fun h => ⟨fun r hr hv => acq_global h hr hv, rel_global h⟩⟩
  · exact fun n y x z scope p s l h => ⟨barv_bad h, barvRel_bad h, bwait_bad h⟩
  · exact fun n y x z scope p s l h => ⟨fun hq hz => binit_local h hq hz, fun u hu => barv_local h hu, fun hg => bwait_local h hg,
      fun hdone t u ht huse hu => barvRel_local h hdone ht huse hu, fun hu => ⟨barv_unusable h hu, barvRel_unusable h hu⟩⟩
  · exact fun n y x z scope p s h => ⟨fun hq hz => binit_global h hq hz, barv_global h, barvRel_global h,
      fun r hr hg => bwait_global h hr hg⟩
  · rintro o s _ _ rfl rfl hi hk
    exact ⟨fun l h => bxpect_bad h hi hk, fun l u h hu => bxpect_local h hi hk hu, fun l h hu hp => bxpect_unusable h hi hk hu hp,
      fun h => bxpect_global h hi hk⟩

end Sys2Proof.Machine
end

section
/-! SUPPORT. The windows of the local address map: where their sectors lie, and what a write of a sector leaves in the bytes of its window
(R56, R57, R140). -/

namespace Sys2Proof.Machine

variable {s t : State} {core x : Nat}

/-! ## Windows -/

/-- The windows of scratchpad rows are the first five of 2 MiB each (R57). -/
theorem windowOf_rows {a : Nat} (h : windowOf a < 5) : windowOf a = a / 0x20_0000 ∧ a < 0xA0_0000 := by
  unfold windowOf at h ⊢
  split_ifs at h ⊢ <;> omega

/-- The register windows are the four of 128 KiB each that follow (R57). -/
theorem windowOf_regs {a : Nat} (h : 5 ≤ windowOf a) (h9 : windowOf a < 9) :
    windowOf a = 5 + (a - 0xA0_0000) / 0x2_0000 ∧ 0xA0_0000 ≤ a ∧ a < 0xA8_0000 := by
  unfold windowOf at h h9 ⊢
  split_ifs at h h9 ⊢ <;> omega

/-- A sector lies in one window. -/
theorem windowOf_sector (a : Nat) : windowOf (64 * (a / 64)) = windowOf a := by
  unfold windowOf
  split_ifs <;> omega

/-- The task of a context has a window: its own, or that of a lender (R57, R64). -/
def State.holdsWindow (s : State) (core x w : Nat) : Prop :=
  if w = 0 then ∃ u, (s.ctx core x).task = some u else w < 9 ∧ ∃ n, s.lender core x ((w - 1) % 4) = some n

/-- An access that raises no cause lies in a window that the task has (R57). -/
theorem holdsWindow_of_localFault {a n : Nat} (hn : 0 < n) (h : s.localFault core x a n = none) : s.holdsWindow core x (windowOf a) := by
  unfold State.holdsWindow
  split
  · next h0 =>
    obtain ⟨-, htask⟩ := own_of_localFault h h0
    exact htask hn
  · next h0 =>
    have h9 : windowOf a ≠ 9 := fun h9 => by simp [State.localFault, h9] at h
    refine ⟨?_, ?_⟩
    · unfold windowOf at h9 ⊢
      split_ifs at h9 ⊢ <;> omega
    · by_contra hn
      have hnone : (s.lender core x ((windowOf a - 1) % 4)).isSome = false := by
        cases hl : s.lender core x ((windowOf a - 1) % 4) with
        | none => rfl
        | some n => exact absurd ⟨n, hl⟩ hn
      rw [State.localFault, if_neg h0, hnone] at h
      split at h <;> cases h

/-! ## Places -/

/-- The sectors of a window of rows are consecutive rows of one core (R56). -/
theorem place_rows {w : Nat} (hw : w < 5) (h : s.holdsWindow core x w) : ∃ base, ∀ k, windowOf (64 * k) = w →
    ∃ c b q, s.place core x (64 * k) = .row c b q ∧ rowKey c b q = base + k % 0x8000 := by
  by_cases h0 : w = 0
  · subst h0
    obtain ⟨u, hu⟩ : ∃ u, (s.ctx core x).task = some u := h
    refine ⟨32768 * core + 1024 * u.b0, fun k hk => ?_⟩
    have hlt := windowOf_own.mp hk
    exact ⟨_, _, _, place_own hu hlt, by rw [rowKey_eq, Nat.mod_eq_of_lt (by omega)]⟩
  · obtain ⟨-, n, hn⟩ : w < 9 ∧ ∃ n, s.lender core x ((w - 1) % 4) = some n := by simpa [State.holdsWindow, h0] using h
    refine ⟨32768 * n, fun k hk => ⟨n, 64 * k % 0x20_0000 / 65536, 64 * k % 65536 / 64, ?_, ?_⟩⟩
    · interval_cases w <;> simp_all [State.place]
    · unfold rowKey
      omega

/-- The sectors of a register window are consecutive pieces of the registers of one core (R57). -/
theorem place_regs {w : Nat} (h5 : 5 ≤ w) (h : s.holdsWindow core x w) : ∃ base, ∀ k, windowOf (64 * k) = w →
    ∃ key p, s.place core x (64 * k) = .reg key p ∧ p < 8 ∧ 8 * key + p = base + k % 0x800 := by
  obtain ⟨h9, n, hn⟩ : w < 9 ∧ ∃ n, s.lender core x ((w - 1) % 4) = some n := by
    simpa [State.holdsWindow, show w ≠ 0 by omega] using h
  refine ⟨2048 * n, fun k hk => ⟨vkey n (64 * k % 0x2_0000 / 0x8000) (64 * k % 0x8000 / 0x200), 64 * k % 0x200 / 64, ?_, ?_, ?_⟩⟩
  · interval_cases w <;> simp_all [State.place]
  · omega
  · unfold vkey cid
    omega

/-- A vector with one of its eight pieces replaced, read in pieces. -/
theorem extractLsb'_replacePiece (old : Vec) (new : Sector) {p q : Nat} (hp : p < 8) (hq : q < 8) :
    ((old &&& ~~~(((BitVec.allOnes 512).setWidth 4096 : Vec) <<< (512 * p))) ||| (new.setWidth 4096 <<< (512 * p))).extractLsb'
      (512 * q) 512 = if q = p then new else old.extractLsb' (512 * q) 512 := by
  apply BitVec.eq_of_getLsbD_eq
  intro i hi
  have hj : 512 * q + i < 4096 := by omega
  simp only [BitVec.getLsbD_extractLsb', BitVec.getLsbD_or, BitVec.getLsbD_and, BitVec.getLsbD_not, BitVec.getLsbD_shiftLeft,
    BitVec.getLsbD_setWidth, BitVec.getLsbD_allOnes, hi, hj, decide_true, Bool.true_and]
  obtain hlt | rfl | hgt := Nat.lt_trichotomy q p
  · have hbelow : 512 * q + i < 512 * p := by omega
    simp [hbelow, Nat.ne_of_lt hlt, hi]
  · simp [hi, show i < 4096 by omega]
  · have habove : ¬512 * q + i < 512 * p := by omega
    have hpast : 512 ≤ 512 * q + i - 512 * p := by omega
    simp [habove, Nat.ne_of_gt hgt, hi, Nat.not_lt.mpr hpast, BitVec.getLsbD_of_ge new _ hpast]

/-- A write of a piece of a register, read back in pieces. -/
theorem readPlace_writePlace_reg {k p k' p' : Nat} (hp : p < 8) (hp' : p' < 8) (mask : BitVec 64) (v : Sector) (bad : Bool) :
    ((s.writePlace (.reg k p) mask v bad).readPlace (.reg k' p')).1 =
      if 8 * k' + p' = 8 * k + p then mergeBytes mask v (s.readPlace (.reg k p)).1 else (s.readPlace (.reg k' p')).1 := by
  by_cases hm : mask = 0
  · subst hm
    have hw : s.writePlace (.reg k p) 0 v bad = s := rfl
    rw [hw, mergeBytes_zero]
    split
    · next h =>
      obtain ⟨rfl, rfl⟩ : k' = k ∧ p' = p := by omega
      rfl
    · rfl
  · generalize hnew : mergeBytes mask v (s.readPlace (.reg k p)).1 = new
    have hw : (s.writePlace (.reg k p) mask v bad).vregs = mset s.vregs k
        ((mget 0 s.vregs k &&& ~~~(((BitVec.allOnes 512).setWidth 4096 : Vec) <<< (512 * p))) ||| (new.setWidth 4096 <<< (512 * p))) := by
      rw [← hnew]
      simp only [State.writePlace, hm, if_false]
      rfl
    change (mget 0 (s.writePlace (.reg k p) mask v bad).vregs k').extractLsb' (512 * p') 512 = _
    rw [hw]
    by_cases hk : k' = k
    · subst hk
      rw [mget_mset_same, extractLsb'_replacePiece _ _ hp hp']
      exact if_congr (by omega) rfl rfl
    · rw [mget_mset_other _ _ _ hk, if_neg (by omega)]
      rfl

/-- A write of one sector of a window that the task has, read back in the sectors of the window. -/
theorem readPlace_writePlace_window {w j k : Nat} (h : s.holdsWindow core x w) (hj : windowOf (64 * j) = w) (hk : windowOf (64 * k) = w)
    (mask : BitVec 64) (v : Sector) (bad : Bool) :
    ((s.writePlace (s.place core x (64 * k)) mask v bad).readPlace (s.place core x (64 * j))).1 =
      if j = k then mergeBytes mask v (s.readPlace (s.place core x (64 * k))).1 else (s.readPlace (s.place core x (64 * j))).1 := by
  by_cases h5 : w < 5
  · obtain ⟨base, hbase⟩ := place_rows h5 h
    obtain ⟨c, b, q, hplace, hkey⟩ := hbase k hk
    obtain ⟨c', b', q', hplace', hkey'⟩ := hbase j hj
    have hwk := (windowOf_rows (a := 64 * k) (by omega)).1
    have hwj := (windowOf_rows (a := 64 * j) (by omega)).1
    rw [hplace, hplace']
    exact (row_writePlace s c' b' q' c b q mask v bad).trans (if_congr (by omega) rfl rfl)
  · obtain ⟨base, hbase⟩ := place_regs (Nat.le_of_not_lt h5) h
    obtain ⟨key, p, hplace, hp, hnum⟩ := hbase k hk
    obtain ⟨key', p', hplace', hp', hnum'⟩ := hbase j hj
    have h9 : w < 9 := by
      rw [State.holdsWindow, if_neg (by omega)] at h
      exact h.1
    obtain ⟨hwk, hlk, huk⟩ := windowOf_regs (a := 64 * k) (by omega) (by omega)
    obtain ⟨hwj, hlj, huj⟩ := windowOf_regs (a := 64 * j) (by omega) (by omega)
    rw [hplace, hplace']
    exact (readPlace_writePlace_reg hp hp' mask v bad).trans (if_congr (by omega) rfl rfl)

/-! ## What a write in a window changes -/

/-- `t` is `s` but for the storage of a window: the scratchpad for a window of rows, the vector registers and their poison for a register
window (R57). -/
structure WindowStep (w : Nat) (s t : State) : Prop where
  rows : w < 5 → ∃ m, t = { s with spad := m }
  regs : 5 ≤ w → ∃ v q, t = { s with vregs := v, vpoison := q }

namespace WindowStep

variable {w : Nat} {u : State}

theorem refl (w : Nat) (s : State) : WindowStep w s s := ⟨fun _ => ⟨_, rfl⟩, fun _ => ⟨_, _, rfl⟩⟩

theorem trans (h : WindowStep w s t) (g : WindowStep w t u) : WindowStep w s u := by
  refine ⟨fun h5 => ?_, fun h5 => ?_⟩
  · obtain ⟨m, rfl⟩ := h.rows h5
    obtain ⟨n, rfl⟩ := g.rows h5
    exact ⟨n, rfl⟩
  · obtain ⟨v, q, rfl⟩ := h.regs h5
    obtain ⟨v', q', rfl⟩ := g.regs h5
    exact ⟨v', q', rfl⟩

/-- It changes no task and no core's turn. -/
theorem same (h : WindowStep w s t) : t.ctxs = s.ctxs ∧ t.cur = s.cur ∧ t.x = s.x := by
  by_cases h5 : w < 5
  · obtain ⟨m, rfl⟩ := h.rows h5
    exact ⟨rfl, rfl, rfl⟩
  · obtain ⟨v, q, rfl⟩ := h.regs (Nat.le_of_not_lt h5)
    exact ⟨rfl, rfl, rfl⟩

theorem place (h : WindowStep w s t) (core x a : Nat) : t.place core x a = s.place core x a := by
  obtain ⟨hctxs, -, -⟩ := h.same
  simp only [State.place, State.lender, State.ctx, hctxs]

theorem holdsWindow (h : WindowStep w s t) {v : Nat} (hv : s.holdsWindow core x v) : t.holdsWindow core x v := by
  obtain ⟨hctxs, -, -⟩ := h.same
  simpa only [State.holdsWindow, State.lender, State.ctx, hctxs] using hv

end WindowStep

/-- A write of a sector changes the storage of its window alone. -/
theorem windowStep_writePlace {w k : Nat} (h : s.holdsWindow core x w) (hk : windowOf (64 * k) = w) (mask : BitVec 64) (v : Sector)
    (bad : Bool) : WindowStep w s (s.writePlace (s.place core x (64 * k)) mask v bad) := by
  refine ⟨fun h5 => ?_, fun h5 => ?_⟩
  · obtain ⟨base, hbase⟩ := place_rows h5 h
    obtain ⟨c, b, q, hplace, -⟩ := hbase k hk
    rw [hplace]
    exact writePlace_row s c b q mask v bad
  · obtain ⟨base, hbase⟩ := place_regs h5 h
    obtain ⟨key, p, hplace, -⟩ := hbase k hk
    rw [hplace]
    unfold State.writePlace
    split
    · exact ⟨_, _, rfl⟩
    · exact ⟨_, _, rfl⟩

/-! ## Stores of a sector -/

/-- The bytes of a whole sector that its enables let through. -/
theorem getLsbD_pieceOf_sector {r : Nat} {b : List Byte} {en : List Bool} (hr : r % 64 = 0) (hb : b.length = 64) {i : Nat} (hi : i < 64) :
    (pieceOf r b en (r / 64)).1.getLsbD i = en.getD i true := by
  have hat : ∀ k, (if 64 * (r / 64) + k < r then 64 else 64 * (r / 64) + k - r) = k := fun k => by
    rw [if_neg (by omega)]
    omega
  have hp : (pieceOf r b en (r / 64)).1 = BitVec.ofNat 64 (packNat 1 (fun k => (decide (k < 64) && en.getD k true).toNat) 64) := by
    dsimp only [pieceOf]
    congr 2
    funext k
    simp only [hb, hat]
    cases decide (k < 64) && en.getD k true <;> rfl
  rw [hp, getLsbD_packNat _ (le_refl _) hi, decide_eq_true hi, Bool.true_and]

/-- A store of a whole sector writes its place. -/
theorem localStore_sector {r : Nat} {b : List Byte} {en : List Bool} (hr : r % 64 = 0) (hb : b.length = 64) :
    s.localStore core x r b en false =
      s.writePlace (s.place core x (64 * (r / 64))) (pieceOf r b en (r / 64)).1 (pieceOf r b en (r / 64)).2 false := by
  have hl : sectorsOf r b.length = [r / 64] := by
    rw [hb]
    exact sectorsOf_within (Nat.succ_pos 63) (by rw [hr, Nat.zero_add])
  rw [State.localStore, hl, List.foldl_cons, List.foldl_nil]

/-- A store of a whole sector changes the storage of its window alone; a byte of the window reads afterwards as the one that was stored
there, if it is enabled, or else as before (R140). -/
theorem localStore_window {r : Nat} {b : List Byte} {en : List Bool} (h : s.holdsWindow core x (windowOf r)) (hr : r % 64 = 0)
    (hb : b.length = 64) : WindowStep (windowOf r) s (s.localStore core x r b en false) ∧
      ∀ c, windowOf c = windowOf r → (s.localStore core x r b en false).localByte core x c =
        if c / 64 = r / 64 ∧ en.getD (c % 64) true = true then b.getD (c % 64) 0 else s.localByte core x c := by
  rw [localStore_sector hr hb]
  have hk : windowOf (64 * (r / 64)) = windowOf r := windowOf_sector r
  have hstep := windowStep_writePlace h hk (pieceOf r b en (r / 64)).1 (pieceOf r b en (r / 64)).2 false
  refine ⟨hstep, fun c hc => ?_⟩
  have hi : c % 64 < 64 := Nat.mod_lt _ (by decide)
  rw [State.localByte, State.localByte, hstep.place,
    readPlace_writePlace_window h ((windowOf_sector c).trans hc) hk]
  by_cases hs : c / 64 = r / 64
  · rw [if_pos hs, byteOf_mergeBytes _ _ _ hi, getLsbD_pieceOf_sector hr hb hi, hs]
    have hbyte : byteOf (pieceOf r b en (r / 64)).2 (c % 64) = b.getD (c % 64) 0 := by
      have h2 := byteOf_pieceOf r b (sec := r / 64) hi (by omega)
      rwa [show 64 * (r / 64) + c % 64 - r = c % 64 by omega] at h2
    simp only [hbyte, true_and]
  · rw [if_neg hs, if_neg (fun h => hs h.1)]

end Sys2Proof.Machine
end

section
/-! SUPPORT. Loads, stores and atomics on local memory (R57, R61, R139, R140, R143, R145), settled (O14). -/

namespace Sys2Proof.Machine

open Sys2Proof.Spec

variable {s t : State} {l : Nat}

/-! ## The rows of a vector access -/

/-- Where the 64 bytes of cluster `k` of a local vector access lie (R140). -/
def vecRow (l k : Nat) : Nat := if 5 ≤ windowOf l ∧ windowOf l < 9 then l + 64 * k else l + 0x1_0000 * k

theorem vecRows_eq (l : Nat) : vecRows l = (List.range 8).map (vecRow l) := rfl

theorem getD_vecRows (l : Nat) {k : Nat} (hk : k < 8) : (vecRows l).getD k 0 = vecRow l k := by
  simp [vecRows_eq, List.getD_eq_getElem?_getD, hk]

theorem vecByte_eq (l i : Nat) : vecByte l i = vecRow l (i / 64) + i % 64 := by
  unfold vecByte vecRow
  split <;> omega

theorem vecRow_aligned (hl : l % 64 = 0) (k : Nat) : vecRow l k % 64 = 0 := by
  unfold vecRow
  split <;> omega

theorem vecRow_injective {j k : Nat} (hl : l % 64 = 0) (h : vecRow l j / 64 = vecRow l k / 64) : j = k := by
  unfold vecRow at h
  split at h <;> omega

theorem and_eq_commit {a b : SlotEnd} : a.and b = .commit ↔ a = .commit ∧ b = .commit := by
  cases a <;> simp [SlotEnd.and]

theorem need_eq_commit {ok : Bool} {c : Byte} : need ok c = .commit ↔ ok = true := by
  cases ok <;> simp [need, stopWith]

/-- What the checks of a local vector access that passes tell (R57, R138, R140). -/
theorem vecEnd_commit {v : Word} (h : s.vecEnd v = .commit) (hl : l = v.toNat % 2 ^ 32) : localOf v = some l ∧ l % 64 = 0 ∧
    ∀ k < 8, windowOf (vecRow l k) = windowOf l ∧ s.localFault s.cur s.x (vecRow l k) 64 = none := by
  unfold State.vecEnd at h
  split at h
  · cases h
  · next a ha =>
    have hal : a = l := by
      rw [localOf] at ha
      split at ha
      · rw [hl, ← apertureAddr_eq, apertureAddr]
        exact (Option.some.inj ha).symm
      · cases ha
    subst hal
    obtain ⟨hunit, hwindows, hfaults⟩ := and_eq_commit.mp h |>.imp_right and_eq_commit.mp
    rw [need_eq_commit, beq_iff_eq] at hunit
    rw [need_eq_commit, List.all_eq_true] at hwindows
    split at hfaults
    · cases hfaults
    · next hnone =>
      rw [List.findSome?_eq_none_iff] at hnone
      refine ⟨ha, by split at hunit <;> omega, fun k hk => ?_⟩
      have hmem : vecRow a k ∈ vecRows a := List.mem_map.mpr ⟨k, List.mem_range.mpr hk, rfl⟩
      exact ⟨beq_iff_eq.mp (hwindows _ hmem), hnone _ hmem⟩

/-! ## Reads -/

variable {core x : Nat}

theorem localBytes_sector {r : Nat} (hr : r % 64 = 0) :
    (s.localBytes core x r 64).1 = bytesOf (s.readPlace (s.place core x r)).1 64 := by
  rw [localBytes_eq]
  refine List.map_congr_left (fun i hi => ?_)
  have hi := List.mem_range.mp hi
  rw [State.localByte, show 64 * ((r + i) / 64) = r by omega, show (r + i) % 64 = i by omega]

/-- A local vector read takes the byte at each of its places (R140). -/
theorem byteOf_vecRead (hl : l % 64 = 0) {i : Nat} (hi : i < 512) : byteOf (s.vecRead l) i = s.localByte s.cur s.x (vecByte l i) := by
  have hbytes : (vecRows l).flatMap (fun r => (s.localBytes s.cur s.x r 64).1) =
      (List.range 512).map (fun i => byteOf (s.readPlace (s.place s.cur s.x (vecRow l (i / 64)))).1 (i % 64)) := by
    have h := flatMap_bytesOf (fun k => (s.readPlace (s.place s.cur s.x (vecRow l k))).1) 0 8
    simp only [Nat.zero_add, List.map_id'] at h
    rw [← h, vecRows_eq, List.flatMap_map]
    exact List.flatMap_congr (fun k _ => localBytes_sector (vecRow_aligned hl k))
  have hrow := vecRow_aligned hl (i / 64)
  rw [State.vecRead, byteOf_ofVecBytes _ hi, hbytes, List.getD_eq_getElem _ _ (by simpa using hi), List.getElem_map, List.getElem_range,
    State.localByte, vecByte_eq, show 64 * ((vecRow l (i / 64) + i % 64) / 64) = vecRow l (i / 64) by omega,
    show (vecRow l (i / 64) + i % 64) % 64 = i % 64 by omega]

/-! ## Writes -/

theorem getD_laneEn (mask : Pred) (k : Nat) {i : Nat} (hi : i < 64) : (laneEn mask k).getD i true = mask.getLsbD (16 * k + i / 4) := by
  simp [laneEn, List.getD_eq_getElem?_getD, hi]

theorem length_clusterBytes (data : Vec) {k : Nat} (hk : k < 8) : (((vecBytes data).drop (64 * k)).take 64).length = 64 := by
  rw [List.length_take, List.length_drop, vecBytes, length_bytesOf]
  omega

theorem getD_clusterBytes (data : Vec) {k i : Nat} (hk : k < 8) (hi : i < 64) :
    (((vecBytes data).drop (64 * k)).take 64).getD i 0 = byteOf data (64 * k + i) := by
  rw [← getD_bytesOf data (n := 512) (show 64 * k + i < 512 by omega)]
  simp [List.getD_eq_getElem?_getD, hi, vecBytes]

/-- The first `n` rows of a local vector store. -/
def State.vecWriteRows (s : State) (l : Nat) (data : Vec) (mask : Pred) (n : Nat) : State :=
  (List.range n).foldl (fun s k => s.localStore s.cur s.x ((vecRows l).getD k 0) (((vecBytes data).drop (64 * k)).take 64)
    (laneEn mask k) false) s

theorem vecWrite_eq (s : State) (l : Nat) (data : Vec) (mask : Pred) : s.vecWrite l data mask = s.vecWriteRows l data mask 8 := rfl

/-- The rows of a local vector store that have been written change the storage of their window alone; a byte of one of them reads as the
byte of the data, where its lane is active, and every other byte of the window as before (R140). -/
theorem vecWriteRows_spec (hl : l % 64 = 0) (hw : ∀ k < 8, windowOf (vecRow l k) = windowOf l)
    (hheld : s.holdsWindow s.cur s.x (windowOf l)) (data : Vec) (mask : Pred) {n : Nat} (hn : n ≤ 8) :
    WindowStep (windowOf l) s (s.vecWriteRows l data mask n) ∧ ∀ c, windowOf c = windowOf l →
      (∀ k < n, c / 64 = vecRow l k / 64 → (s.vecWriteRows l data mask n).localByte s.cur s.x c =
        if mask.getLsbD (16 * k + c % 64 / 4) then byteOf data (64 * k + c % 64) else s.localByte s.cur s.x c) ∧
      ((∀ k < n, c / 64 ≠ vecRow l k / 64) → (s.vecWriteRows l data mask n).localByte s.cur s.x c = s.localByte s.cur s.x c) := by
  induction n with
  | zero => exact ⟨.refl _ _, fun c _ => ⟨fun k hk => absurd hk (Nat.not_lt_zero k), fun _ => rfl⟩⟩
  | succ n ih =>
    obtain ⟨hstep, hbytes⟩ := ih (by omega)
    obtain ⟨-, hcur, hx⟩ := hstep.same
    have hrow := getD_vecRows l (k := n) (by omega)
    have hnext : s.vecWriteRows l data mask (n + 1) = (s.vecWriteRows l data mask n).localStore s.cur s.x (vecRow l n)
        (((vecBytes data).drop (64 * n)).take 64) (laneEn mask n) false := by
      rw [State.vecWriteRows, List.range_succ, List.foldl_append, List.foldl_cons, List.foldl_nil, ← State.vecWriteRows, hrow, hcur, hx]
    have hwn := hw n (by omega)
    obtain ⟨hlast, hread⟩ := localStore_window (en := laneEn mask n) (by rw [hwn]; exact hstep.holdsWindow hheld) (vecRow_aligned hl n)
      (length_clusterBytes data (k := n) (by omega))
    rw [hwn] at hlast hread
    rw [hnext]
    refine ⟨hstep.trans hlast, fun c hc => ?_⟩
    obtain ⟨hhit, hmiss⟩ := hbytes c hc
    have hi : c % 64 < 64 := Nat.mod_lt _ (by decide)
    rw [hread c hc, getD_laneEn mask n hi, getD_clusterBytes data (by omega) hi]
    refine ⟨fun k hk hck => ?_, fun hno => ?_⟩
    · by_cases hkn : k = n
      · subst hkn
        have hother : ∀ j < k, c / 64 ≠ vecRow l j / 64 := fun j hj h => Nat.ne_of_lt hj (vecRow_injective hl (h.symm.trans hck))
        rw [hmiss hother]
        simp only [hck, true_and]
      · rw [if_neg (fun h => hkn (vecRow_injective hl (hck.symm.trans h.1)))]
        exact hhit k (by omega) hck
    · rw [if_neg (fun h => hno n (by omega) h.1)]
      exact hmiss (fun k hk => hno k (by omega))

/-- A vector access whose checks pass lies in a window that the task has. -/
theorem holdsWindow_of_vecEnd {v : Word} (h : s.vecEnd v = .commit) (hl : l = v.toNat % 2 ^ 32) : s.holdsWindow s.cur s.x (windowOf l) := by
  obtain ⟨-, -, hrows⟩ := vecEnd_commit h hl
  obtain ⟨hw, hf⟩ := hrows 0 (by decide)
  exact hw ▸ holdsWindow_of_localFault (by decide) hf

/-- The bytes that a local vector access reads and writes, and what a store leaves alone (R140). -/
theorem vecAccess_spec {v : Word} (h : s.vecEnd v = .commit) (hl : l = v.toNat % 2 ^ 32) (data : Vec) (mask : Pred) :
    WindowStep (windowOf l) s (s.vecWrite l data mask) ∧
    (∀ i < 512, byteOf (s.vecRead l) i = s.localByte s.cur s.x (vecByte l i)) ∧
    (∀ i < 512, (s.vecWrite l data mask).localByte s.cur s.x (vecByte l i) =
      if mask.getLsbD (i / 4) then byteOf data i else s.localByte s.cur s.x (vecByte l i)) ∧
    (∀ c, windowOf c = windowOf l → (∀ i < 512, vecByte l i ≠ c) →
      (s.vecWrite l data mask).localByte s.cur s.x c = s.localByte s.cur s.x c) := by
  obtain ⟨-, hal, hrows⟩ := vecEnd_commit h hl
  obtain ⟨hstep, hbytes⟩ := vecWriteRows_spec hal (fun k hk => (hrows k hk).1) (holdsWindow_of_vecEnd h hl) data mask (le_refl 8)
  rw [← vecWrite_eq] at hstep hbytes
  refine ⟨hstep, fun i hi => byteOf_vecRead hal hi, fun i hi => ?_, fun c hc hno => ?_⟩
  · have hrow := vecRow_aligned hal (i / 64)
    have hsec : vecByte l i / 64 = vecRow l (i / 64) / 64 := by
      rw [vecByte_eq]
      omega
    have hin : vecByte l i % 64 = i % 64 := by
      rw [vecByte_eq]
      omega
    have hwin : windowOf (vecByte l i) = windowOf l := by
      rw [← windowOf_sector, hsec, windowOf_sector, (hrows (i / 64) (by omega)).1]
    rw [(hbytes _ hwin).1 (i / 64) (by omega) hsec, hin, show 16 * (i / 64) + i % 64 / 4 = i / 4 by omega,
      Nat.div_add_mod]
  · refine (hbytes c hc).2 (fun k hk hck => hno (64 * k + c % 64) (by omega) ?_)
    have hrow := vecRow_aligned hal k
    rw [vecByte_eq, show (64 * k + c % 64) / 64 = k by omega]
    omega

/-! ## Addresses -/

theorem ofInt_offset (A : Word) (i : Int) (n : Nat) : A + BitVec.ofInt 64 (i * n) = .ofInt 64 (A.toNat + n * i) := by
  rw [BitVec.ofInt_add, Int.mul_comm i, BitVec.ofInt_natCast, BitVec.ofNat_toNat, BitVec.setWidth_eq]

theorem eaS_eq (s : State) (x : Src) (imm : BitVec 7) : eaS (srcS s x) imm = ea s x imm 8 := ofInt_offset _ _ 8

theorem eaV_eq (s : State) (x : Src) (imm : BitVec 7) : eaV (srcS s x) imm = ea s x imm 64 := ofInt_offset _ _ 64

theorem flightRoom_ok (h : s.me.inFlight < 24) : s.flightRoom = .commit := if_neg (Nat.not_le.mpr h)

theorem scalarEnd_local {a : Word} (h : localAt s a 8 l) (ha : a.toNat % 8 = 0) : s.scalarEnd a true = .commit := by
  rw [State.scalarEnd, need_ok _ (beq_iff_eq.mpr ha), h.1, localEnd_ok h]
  rfl

/-- A scalar store to local memory writes its eight bytes (R139). -/
theorem storeS_local {a : Word} (data : Word) (h : localAt s a 8 l) :
    storeS a data true s = s.localStore s.cur s.x l (bytesOf data 8) [] false := by
  rw [storeS, h.1, checkLocal_at h]
  rfl

/-! ## Scalar accesses -/

theorem gives_ld {o : LDI} (h : localAt s (ea s o.a o.imm 8) 8 l) (ha : (ea s o.a o.imm 8).toNat % 8 = 0) (hn : s.me.inFlight < 24)
    (hb : (s.localBytes s.cur s.x l 8).2 = false) :
    Flies (.ld o) s (loaded l (regD o.n o.d.toNat) (wide (le64 (s.localBytes s.cur s.x l 8).1)) (BitVec.allOnes 128)) := by
  have hA : eaS (lo64 (s.vals (viewOf (.ld o))).a) o.imm = ea s o.a o.imm 8 := eaS_eq s o.a o.imm
  have hl : (s.noted (viewOf (.ld o))).checkLocal (ea s o.a o.imm 8) 8 = .ok l := checkLocal_at h
  refine gives_of_issue rfl ?_ ?_
  · dsimp only
    rw [hA, scalarEnd_local h ha, h.1, flightRoom_ok hn]
    rfl
  · dsimp only
    rw [hA, h.1, hl]
    exact if_neg (fun hc => Bool.false_ne_true (hb.symm.trans hc))

theorem gives_st {o : STI} (h : localAt s (ea s o.a o.imm 8) 8 l) (ha : (ea s o.a o.imm 8).toNat % 8 = 0) :
    Gives (.st o) s ((s.noted (viewOf (.st o))).localStore s.cur s.x l (bytesOf (s.me.readS o.d.toNat) 8) [] false) := by
  have hA : eaS (lo64 (s.vals (viewOf (.st o))).a) o.imm = ea s o.a o.imm 8 := eaS_eq s o.a o.imm
  have hD : lo64 (s.vals (viewOf (.st o))).d = s.me.readS o.d.toNat := lo64_wide _
  refine gives_of_issue rfl ?_ ?_
  · rw [hA, scalarEnd_local h ha]
  · rw [hA, hD]
    exact storeS_local (s := s.noted (viewOf (.st o))) _ h

/-- The checks of a guarded form that finds its latches alike are those of the store (R145). -/
theorem guarded_ok {k : BitVec 4} {e : SlotEnd} (hg : guardOk k = true) (hk : latchValue s k.toNat = latchValue s (twinLatch k.toNat)) :
    (s.twinCheck k.toNat (partner k.toNat)).and e = e := by
  rw [partner_eq_twinLatch hg, twinCheck_ok hk, commit_and]

theorem gives_stGd {o : GSI} (h : localAt s (ea s o.a o.imm 8) 8 l) (ha : (ea s o.a o.imm 8).toNat % 8 = 0)
    (hk : latchValue s o.l.toNat = latchValue s (twinLatch o.l.toNat)) :
    Gives (.stGd o) s
      ((s.noted (viewOf (.stGd o))).localStore s.cur s.x l (bytesOf (lo64 (latchValue s o.l.toNat)) 8) [] false) := by
  intro hc
  have hA : eaS (lo64 (s.vals (viewOf (.stGd o))).a) o.imm = ea s o.a o.imm 8 := eaS_eq s o.a o.imm
  have hD : (s.noted (viewOf (.stGd o))).guardData o.l false = latchValue s o.l.toNat := by
    rw [State.guardData]
    exact if_neg (fun h => Bool.false_ne_true h.1)
  refine gives_of_issue rfl ?_ ?_ hc
  · rw [hA, guarded_ok (encOk_of_clear hc) hk, scalarEnd_local h ha]
  · rw [hA, hD]
    exact storeS_local (s := s.noted (viewOf (.stGd o))) _ h

/-! ## Vector accesses -/

theorem gives_vld {d : BitVec 6} {n : Bool} {x : Src} {imm : BitVec 7} {p : BitVec 2} (h : s.vecEnd (ea s x imm 64) = .commit)
    (hl : l = (ea s x imm 64).toNat % 2 ^ 32) (hn : s.me.inFlight < 24) (hb : s.vecBad l s.me.ap = false) :
    Flies (.vld d n x imm p) s (loaded l (vecD s n d.toNat) (maskLanes s.me.ap (s.vecRead l)) s.me.ap) := by
  have hA : eaV (lo64 (s.vals (viewOf (.vld d n x imm p))).a) imm = ea s x imm 64 := eaV_eq s x imm
  refine gives_of_issue rfl ?_ ?_
  · rw [hA, flightRoom_ok hn, h]
    rfl
  · dsimp only
    rw [hA, (vecEnd_commit h hl).1]
    exact if_neg (fun hc => Bool.false_ne_true (hb.symm.trans hc))

theorem gives_vst {d : BitVec 6} {x : Src} {imm : BitVec 7} {p : BitVec 2} (h : s.vecEnd (ea s x imm 64) = .commit)
    (hl : l = (ea s x imm 64).toNat % 2 ^ 32) :
    Gives (.vst d x imm p) s
      ((s.noted (viewOf (.vst d x imm p))).vecWrite l (s.readV s.cur s.x (s.me.vname d.toNat)) s.me.ap) := by
  have hA : eaV (lo64 (s.vals (viewOf (.vst d x imm p))).a) imm = ea s x imm 64 := eaV_eq s x imm
  refine gives_of_issue rfl ?_ ?_
  · rw [hA, h]
  · rw [hA, (vecEnd_commit h hl).1]
    rfl

theorem gives_vstGd {o : GSI} (h : s.vecEnd (ea s o.a o.imm 64) = .commit) (hl : l = (ea s o.a o.imm 64).toNat % 2 ^ 32)
    (hk : latchValue s o.l.toNat = latchValue s (twinLatch o.l.toNat)) :
    Gives (.vstGd o) s ((s.noted (viewOf (.vstGd o))).vecWrite l (s.guardData o.l true) s.me.ap) := by
  intro hc
  have hA : eaV (lo64 (s.vals (viewOf (.vstGd o))).a) o.imm = ea s o.a o.imm 64 := eaV_eq s o.a o.imm
  refine gives_of_issue rfl ?_ ?_ hc
  · rw [hA, guarded_ok (encOk_of_clear hc) hk, h]
  · rw [hA, (vecEnd_commit h hl).1]
    rfl

/-! ## Atomics -/

theorem gives_amo {o : SR3} (h : localAt s (srcS s o.a &&& ~~~7) 8 l) (hw : windowOf l < 5) (hn : s.me.inFlight < 24)
    (hb : (s.localBytes s.cur s.x l 8).2 = false) :
    Gives (.amo o) s (((s.noted (viewOf (.amo o))).localStore s.cur s.x l (bytesOf (amoWord ((srcS s o.a).setWidth 3)
      (le64 (s.localBytes s.cur s.x l 8).1) (srcS s o.b) (s.me.readS o.d.toNat)) 8) [] false).deliverAs (regD o.n o.d.toNat) (some 5)
        (loadLatency l) (wide (le64 (s.localBytes s.cur s.x l 8).1)) (BitVec.allOnes 128) 0) := by
  have hA : lo64 (s.vals (viewOf (.amo o))).a = srcS s o.a := rfl
  have hB : lo64 (s.vals (viewOf (.amo o))).b = srcS s o.b := rfl
  have hD : lo64 (s.vals (viewOf (.amo o))).d = s.me.readS o.d.toNat := lo64_wide _
  have ha : amoAddr (srcS s o.a) = srcS s o.a &&& ~~~7 := rfl
  have ⟨hin, _, _, hheld⟩ := h
  have hl : ∀ v, (s.noted v).checkLocal (srcS s o.a &&& ~~~7) 8 = .ok l := fun v => checkLocal_at (s := s.noted v) h
  have hend : s.amoLocalEnd (srcS s o.a &&& ~~~7) = .commit := by
    rw [State.amoLocalEnd, checkLocal_at h, withAddr, need_ok _ (decide_eq_true hw), commit_and, hold_free hheld]
  refine gives_of_issue rfl ?_ ?_
  · dsimp only
    rw [hA, ha, hin, if_pos rfl, flightRoom_ok hn, hend]
    rfl
  · dsimp only
    rw [hA, hB, hD, ha, hin, if_pos rfl, hl]
    exact if_neg (fun hc => Bool.false_ne_true (hb.symm.trans hc))

/-- Settles O14: the slots one by one, and the bytes of a vector access by `vecAccess_spec`. -/
theorem localAccesses : Obligations.LocalAccesses := by
  unfold Obligations.LocalAccesses
  refine ⟨fun o s l h ha hn hb => gives_ld h ha hn hb, fun o s l h ha => gives_st h ha, fun o s l h ha hk => gives_stGd h ha hk,
    fun d n x imm p s l h hl hn hb => gives_vld h hl hn hb, fun d x imm p s l h hl => gives_vst h hl,
    fun o s l h hl hk => gives_vstGd h hl hk, ?_, ?_⟩
  · rintro o s _ l rfl h hw hn hb
    exact gives_amo h hw hn hb
  · intro s v l data mask h hl
    have hbyte : ∀ (t : State) (c : Nat), ((t.localBytes s.cur s.x c 1).1).getD 0 0 = t.localByte s.cur s.x c := fun t c => by
      rw [localBytes_one, List.getD_cons_zero]
    obtain ⟨hstep, hread, hwrite, hother⟩ := vecAccess_spec h hl data mask
    simp only [hbyte]
    exact ⟨hread, hwrite, fun c hc _ hno => hother c hc hno, hstep.rows, hstep.regs⟩

end Sys2Proof.Machine
end

section
/-! SUPPORT. Fences, joins of queues, waits, twin checks, containment regions and the random state (R78, R80, R146, R149, R161, R163,
R288), settled (O16). -/

namespace Sys2Proof.Machine

open Sys2Proof.Spec

variable {s : State} {n : Bool} {a : Src} {p : BitVec 2}

/-! ## Fences and waits -/

/-- A fence that orders nothing, or whose later accesses have nothing outstanding before them, completes at once (R78, R149). -/
theorem gives_fence {scope : BitVec 3} {q r : BitVec 8} (h : q = 0 ∨ r = 0 ∨ s.outstanding s.cur s.x &&& r = 0) :
    Gives (.fence scope q r) s (s.noted (viewOf (.fence scope q r))) :=
  gives_of_issue rfl (if_pos h) rfl

/-- A wait for the Sound engine that finds no command in its queues completes at once (R288). -/
theorem gives_fwait {m : BitVec 2} (h : s.me.fwaitNames m = []) : Gives (.fwait m p) s (s.noted (viewOf (.fwait m p))) :=
  gives_of_issue rfl (if_pos (List.isEmpty_iff.mpr h)) rfl

theorem gives_tchk {l k : BitVec 4} (h : latchValue s l.toNat = latchValue s k.toNat) :
    Gives (.tchk l k p) s (s.noted (viewOf (.tchk l k p))) :=
  gives_of_issue rfl (twinCheck_ok h) rfl

/-! ## Joins of queues -/

/-- Of queues with room none is full. -/
theorem find_queueFull_of_room {l : List (Bool × Nat)} (h : ∀ k ∈ l, room s k.1 k.2) :
    l.find? (fun k => s.me.queueFull k.1 k.2) = none :=
  List.find?_eq_none.mpr fun k hk => by simp [queueFull_of_room (h k hk)]

/-- A join of no queue, or of one alone, joins nothing (R80). -/
theorem gives_qfence_one {m : BitVec 4} (h : (joinQueues m).length ≤ 1) : Gives (.qfence m) s (s.noted (viewOf (.qfence m))) :=
  gives_of_issue rfl (if_pos h) (if_pos h)

/-- A join of queues with room puts its entry at the tail of each, and those that are complete leave (R80, R149). -/
theorem gives_qfence_join {m : BitVec 4} (h : 2 ≤ (joinQueues m).length) (hroom : ∀ k ∈ joinQueues m, room s k.1 k.2) :
    Gives (.qfence m) s { (s.noted (viewOf (.qfence m))).upd (fun c =>
      ((joinQueues m).foldl (fun c k => c.enqueue k.1 k.2 (.join m s.joins)) c).settleJoins) with joins := s.joins + 1 } := by
  have hn : ¬(joinQueues m).length ≤ 1 := Nat.not_le.mpr h
  refine gives_of_issue rfl ?_ (if_neg hn)
  rw [if_neg hn, find_queueFull_of_room hroom]

/-! ## Containment regions -/

theorem gives_copen {d : BitVec 5} (ha : (srcS s a).toNat % 16 = 0) (hr : s.me.regions.length < 4) :
    Gives (.copen d n a p) s ((s.noted (viewOf (.copen d n a p))).upd (fun c => { c with
      regions := { regs := c.regs, fflags := c.fflags, handler := srcS s a, d := d.toNat } :: c.regions })) := by
  have hA : lo64 (s.vals (viewOf (.copen d n a p))).a = srcS s a := rfl
  refine gives_of_issue rfl ?_ rfl
  rw [hA, targetOk, need_ok _ (beq_iff_eq.mpr ha), commit_and, need_ok _ (decide_eq_true hr)]

theorem gives_cclose (h : s.me.regions ≠ []) :
    Gives (.cclose p) s ((s.noted (viewOf (.cclose p))).upd (fun c => { c with regions := c.regions.tail })) := by
  refine gives_of_issue rfl (need_ok _ (by simpa using h)) (upd_congr ?_)
  rw [List.drop_one]

/-! ## The random state -/

/-- The place of an image that is there to be read, aligned to 64 bytes, passes its checks (R163). -/
theorem imageEnd_ok {v : Word} {l : Nat} (h : ownAt s v 1088 l) (hv : v.toNat % 64 = 0) : s.imageEnd v = .commit := by
  obtain ⟨hl, hw, hf, hh, -⟩ := h
  rw [State.imageEnd, need_ok _ (beq_iff_eq.mpr hv), commit_and, checkOwn_ok hl hw hf]
  exact hold_free hh

/-- The local address that the effect of an image transfer computes again is that of its checks. -/
theorem addrOf_own {v : Word} {m l : Nat} (h : ownAt s v m l) : addrOf (s.checkOwn v m) = l := by
  obtain ⟨hl, hw, hf, -, -⟩ := h
  rw [checkOwn_ok hl hw hf]
  rfl

theorem gives_rseed {b : Src} : Gives (.rseed n a b p) s ((s.noted (viewOf (.rseed n a b p))).upd (fun c => { c with
    rand := { key := srcS s a, ctr := srcS s b, words := [] }, randAt := s.cycle })) :=
  gives_of_issue rfl rfl rfl

/-- The image is stored at the address its checks found, and the transfer takes 16 cycles (R163). -/
theorem gives_rsave {l : Nat} (h : ownAt s (srcS s a) 1088 l) (ha : (srcS s a).toNat % 64 = 0) :
    Gives (.rsave n a p) s (((s.noted (viewOf (.rsave n a p))).localStore s.cur s.x l s.me.rand.image [] false).updIss
      (fun i => { i with stall := i.stall + 16 })) := by
  have hA : lo64 (s.vals (viewOf (.rsave n a p))).a = srcS s a := rfl
  have hl : addrOf ((s.noted (viewOf (.rsave n a p))).checkOwn (srcS s a) 1088) = l := addrOf_own h
  refine gives_of_issue rfl (imageEnd_ok h ha) ?_
  rw [hA, hl]
  rfl

/-- The random state is that of an image that is in form, and the transfer takes 16 cycles (R163). -/
theorem gives_rload {l : Nat} (h : ownAt s (srcS s a) 1088 l) (ha : (srcS s a).toNat % 64 = 0)
    (hok : randImageOk (s.localBytes s.cur s.x l 1088).1 = true) :
    Gives (.rload n a p) s (((s.noted (viewOf (.rload n a p))).upd (fun c => { c with
      rand := Rand.ofImage (s.localBytes s.cur s.x l 1088).1, randAt := s.cycle })).updIss (fun i => { i with stall := i.stall + 16 })) := by
  have hA : lo64 (s.vals (viewOf (.rload n a p))).a = srcS s a := rfl
  have hl : addrOf ((s.noted (viewOf (.rload n a p))).checkOwn (srcS s a) 1088) = l := addrOf_own h
  have ⟨_, _, _, _, hb⟩ := h
  refine gives_of_issue rfl ?_ ?_
  · dsimp only
    rw [hA, imageEnd_ok h ha, commit_and, addrOf_own h, hok, Bool.or_true]
    rfl
  · dsimp only
    rw [hA, hl]
    exact congrArg (fun t : State => t.stallFor 16) (if_neg (fun hc => Bool.false_ne_true (hb.symm.trans hc)))

/-- Settles O16, instruction by instruction. -/
theorem fencesAndRegions : Obligations.FencesAndRegions := by
  unfold Obligations.FencesAndRegions
  exact ⟨fun scope q r s h => gives_fence h,
    fun m s => ⟨gives_qfence_one, gives_qfence_join⟩,
    fun m p s h => gives_fwait h,
    fun l k p s h => gives_tchk h,
    fun d n a p s ha hr => gives_copen ha hr,
    fun p s h => gives_cclose h,
    fun n a b p s => gives_rseed,
    fun n a p s l ha h => ⟨gives_rsave h ha, gives_rload h ha⟩⟩

end Sys2Proof.Machine
end

section
/-! SUPPORT. The word of an instruction read back: fields of a word that share no bit, and the decoder on the word of each form (R103 to
R108), settled (O47). -/

namespace Sys2Proof.Decoding

/-! ## Fields of a word -/

/-- A field of a slot word in its place (R103). -/
inductive Field where
  | bits {n : Nat} (v : BitVec n) (lo : Nat)
  | bit (b : Bool) (lo : Nat)
  | src (s : Src) (mode lo : Nat)

/-- What a field adds to its word. -/
def Field.val : Field → Nat
  | bits v lo => pFld v lo
  | bit b lo => pFlag b lo
  | src s mode lo => pSrc s mode lo

/-- The decoder reads the field from a word. -/
def Field.ReadFrom (w : Nat) : Field → Prop
  | bits (n := n) v lo => fld w lo n = v
  | bit b lo => flag w lo = b
  | src s mode lo => Sys2Proof.src w mode lo = s

/-- Bits of a word: the lowest one and how many. -/
structure Span where
  lo : Nat
  len : Nat

/-- The bits that a field fills. -/
def Field.spans : Field → List Span
  | bits (n := n) _ lo => [⟨lo, n⟩]
  | bit _ lo => [⟨lo, 1⟩]
  | src _ mode lo => [⟨mode, 1⟩, ⟨lo, 6⟩]

/-- The bits that a field fills, each with the number that it puts there. -/
def Field.runs : Field → List (Span × Nat)
  | bits (n := n) v lo => [(⟨lo, n⟩, v.toNat)]
  | bit b lo => [(⟨lo, 1⟩, b.toNat)]
  | src s mode lo => [(⟨mode, 1⟩, s.m.toNat), (⟨lo, 6⟩, s.f.toNat)]

theorem Field.runs_spans (f : Field) : f.runs.map (·.1) = f.spans := by
  cases f <;> rfl

theorem Field.runs_lt {f : Field} : ∀ r ∈ f.runs, r.2 < 2 ^ r.1.len := by
  cases f with
  | bits v lo => simpa [runs] using v.isLt
  | bit b lo => simpa [runs] using b.toNat_lt
  | src s mode lo => simpa [runs] using ⟨Nat.le_of_lt_succ s.m.toNat_lt, s.f.isLt⟩

/-- Two spans share no bit. -/
def Span.apart (r q : Span) : Bool := r.lo + r.len ≤ q.lo || q.lo + q.len ≤ r.lo

/-- No two spans of a list share a bit. -/
def separate : List Span → Bool
  | [] => true
  | r :: t => t.all r.apart && separate t

/-- A number is 0 in every span of a list. -/
def vacant (c : Nat) (rs : List Span) : Bool := rs.all (fun r => cut c r.lo r.len == 0)

/-- The number that holds `c` and runs. -/
def place (c : Nat) (rs : List (Span × Nat)) : Nat := rs.foldl (fun w r => w + r.2 * 2 ^ r.1.lo) c

/-- The word that holds the opcode bits `c` and fields. -/
def wordOf (c : Nat) (fs : List Field) : Nat := fs.foldl (fun w f => w + f.val) c

/-- A number put where a word is 0 reads back. -/
theorem cut_add_same {w lo n v : Nat} (h : cut w lo n = 0) (hv : v < 2 ^ n) : cut (w + v * 2 ^ lo) lo n = v := by
  unfold cut at *
  rw [Nat.add_mul_div_right _ _ (Nat.two_pow_pos lo), Nat.add_mod, h, Nat.zero_add, Nat.mod_mod, Nat.mod_eq_of_lt hv]

/-- A number put where a word is 0 changes no bit elsewhere. -/
theorem cut_add_apart {w v : Nat} {r q : Span} (hw : cut w r.lo r.len = 0) (hv : v < 2 ^ r.len) (ha : r.apart q = true) :
    cut (w + v * 2 ^ r.lo) q.lo q.len = cut w q.lo q.len := by
  obtain ⟨lo, n⟩ := r
  obtain ⟨lo', n'⟩ := q
  simp only [Span.apart, Bool.or_eq_true, decide_eq_true_eq] at ha
  unfold cut at *
  rcases ha with ha | ha
  · obtain ⟨k, rfl⟩ := Nat.exists_eq_add_of_le ha
    have hq : (w / 2 ^ lo + v) / 2 ^ n = w / 2 ^ lo / 2 ^ n := by
      conv_lhs => rw [← Nat.div_add_mod (w / 2 ^ lo) (2 ^ n), hw, Nat.add_zero,
        Nat.mul_add_div (Nat.two_pow_pos n), Nat.div_eq_of_lt hv, Nat.add_zero]
    simp only [Nat.pow_add, ← Nat.div_div_eq_div_mul, Nat.add_mul_div_right _ _ (Nat.two_pow_pos lo), hq]
  · obtain ⟨k, rfl⟩ := Nat.exists_eq_add_of_le ha
    have hm : v * 2 ^ (lo' + n' + k) = 2 ^ lo' * (2 ^ n' * (v * 2 ^ k)) := by
      rw [Nat.pow_add, Nat.pow_add]; ring
    rw [hm, Nat.add_mul_div_left _ _ (Nat.two_pow_pos lo'), Nat.add_mul_mod_self_left]

/-- Each run of a number reads back, and the other bits are those of the number that the runs were put in. -/
theorem place_reads {rs : List (Span × Nat)} : ∀ {c : Nat}, vacant c (rs.map (·.1)) = true → separate (rs.map (·.1)) = true →
    (∀ r ∈ rs, r.2 < 2 ^ r.1.len) →
    (∀ r ∈ rs, cut (place c rs) r.1.lo r.1.len = r.2) ∧
    ∀ q : Span, (rs.map (·.1)).all (·.apart q) = true → cut (place c rs) q.lo q.len = cut c q.lo q.len := by
  induction rs with
  | nil => exact fun _ _ _ => ⟨fun _ h => (nomatch h), fun _ _ => rfl⟩
  | cons r t ih =>
    intro c hc hs hv
    simp only [vacant, separate, List.map_cons, List.all_cons, Bool.and_eq_true, List.all_eq_true, beq_iff_eq,
      List.forall_mem_cons] at hc hs hv
    obtain ⟨h0, hc⟩ := hc
    obtain ⟨ha, hs⟩ := hs
    obtain ⟨hr, hv⟩ := hv
    have hc' : vacant (c + r.2 * 2 ^ r.1.lo) (t.map (·.1)) = true := by
      simp only [vacant, List.all_eq_true, beq_iff_eq]
      exact fun q hq => (cut_add_apart h0 hr (ha q hq)).trans (hc q hq)
    have hself : (t.map (·.1)).all (·.apart r.1) = true :=
      List.all_eq_true.2 fun q hq => (Bool.or_comm _ _).trans (ha q hq)
    obtain ⟨hread, hrest⟩ := ih hc' hs hv
    refine ⟨List.forall_mem_cons.2 ⟨(hrest r.1 hself).trans (cut_add_same h0 hr), hread⟩, fun q h => ?_⟩
    simp only [List.map_cons, List.all_cons, Bool.and_eq_true] at h
    exact (hrest q h.2).trans (cut_add_apart h0 hr h.1)

/-- A word is the number that holds the runs of its fields. -/
theorem wordOf_eq_place (c : Nat) (fs : List Field) : wordOf c fs = place c (fs.flatMap Field.runs) := by
  induction fs generalizing c with
  | nil => rfl
  | cons f t ih =>
    rw [List.flatMap_cons, place, List.foldl_append]
    refine (ih _).trans ?_
    cases f <;> simp [Field.val, Field.runs, place, pFld, pFlag, pSrc, Nat.add_assoc]

theorem flag_of_cut {w lo : Nat} {b : Bool} (h : cut w lo 1 = b.toNat) : flag w lo = b := by
  rw [flag, h]
  cases b <;> rfl

theorem fld_of_cut {w lo n : Nat} {v : BitVec n} (h : cut w lo n = v.toNat) : fld w lo n = v := by
  rw [fld, h, BitVec.ofNat_toNat, BitVec.setWidth_eq]

/-- A field is read from the word that holds its runs. -/
theorem Field.readFrom {f : Field} {w : Nat} (h : ∀ r ∈ f.runs, cut w r.1.lo r.1.len = r.2) : f.ReadFrom w := by
  cases f with
  | bits v lo => exact fld_of_cut (h _ (.head _))
  | bit b lo => exact flag_of_cut (h _ (.head _))
  | src s mode lo =>
    show Sys2Proof.src w mode lo = s
    rw [Sys2Proof.src, flag_of_cut (h _ (.head _)), fld_of_cut (h _ (.tail _ (.head _)))]

/-- Every field is read from a word. -/
def AllRead (w : Nat) : List Field → Prop
  | [] => True
  | f :: t => f.ReadFrom w ∧ AllRead w t

theorem allRead {w : Nat} {fs : List Field} (h : ∀ f ∈ fs, f.ReadFrom w) : AllRead w fs := by
  induction fs with
  | nil => trivial
  | cons f t ih => exact ⟨h f (.head _), ih (fun g hg => h g (.tail _ hg))⟩

/-- Outside some spans a word holds the opcode bits `c`. -/
def Fixed (w c : Nat) (ss : List Span) : Prop := ∀ lo n, ss.all (·.apart ⟨lo, n⟩) = true → cut w lo n = cut c lo n

/-- Bits outside the fields hold no number but that of the opcode. -/
theorem Fixed.ne {w c v : Nat} {ss : List Span} (h : Fixed w c ss) (lo n : Nat) (ha : ss.all (·.apart ⟨lo, n⟩) = true)
    (hv : (cut c lo n == v) = false) : cut w lo n ≠ v :=
  fun e => ne_of_beq_false hv ((h lo n ha).symm.trans e)

/-- A part of a run of bits is a run of bits of what the run holds. -/
theorem cut_within {w lo n k m : Nat} (h : k + m ≤ n) : cut w (lo + k) m = cut (cut w lo n) k m := by
  unfold cut
  obtain ⟨j, rfl⟩ := Nat.exists_eq_add_of_le h
  rw [Nat.pow_add, ← Nat.div_div_eq_div_mul, Nat.add_assoc, Nat.pow_add, Nat.mod_mul_right_div_self, Nat.pow_add,
    Nat.mod_mul_right_mod]

/-- Bits that hold a field hold no number that differs from the opcode outside the field. -/
theorem Fixed.neWithin {w c v : Nat} {ss : List Span} (h : Fixed w c ss) (lo n k m : Nat)
    (ha : ss.all (·.apart ⟨lo + k, m⟩) = true) (hk : Nat.ble (k + m) n = true)
    (hv : (cut c (lo + k) m == cut v k m) = false) : cut w lo n ≠ v := by
  rintro rfl
  exact ne_of_beq_false hv ((h _ _ ha).symm.trans (cut_within (Nat.le_of_ble_eq_true hk)))

/-- The word of fields that share no bit: each field is read from it, and the bits outside the fields are those of its opcode. -/
theorem reads {c w : Nat} (fs : List Field) (h : some (wordOf c fs) = some w) (hc : vacant c (fs.flatMap Field.spans) = true)
    (hs : separate (fs.flatMap Field.spans) = true) : Fixed w c (fs.flatMap Field.spans) ∧ AllRead w fs := by
  obtain rfl := Option.some.inj h
  have hm : (fs.flatMap Field.runs).map (·.1) = fs.flatMap Field.spans := by
    simp only [List.map_flatMap, Field.runs_spans]
  rw [← hm] at hc hs ⊢
  have hv : ∀ r ∈ fs.flatMap Field.runs, r.2 < 2 ^ r.1.len := fun r hr =>
    have ⟨_, _, hf⟩ := List.mem_flatMap.1 hr
    Field.runs_lt r hf
  obtain ⟨hread, hrest⟩ := place_reads hc hs hv
  rw [wordOf_eq_place]
  exact ⟨fun lo n => hrest ⟨lo, n⟩, allRead fun f hf => Field.readFrom fun r hr => hread r (List.mem_flatMap.2 ⟨f, hf, hr⟩)⟩

/-- Decoding gives an instruction back from its word. -/
def Decodes (i : Instr) : Prop := ∀ w, encode i = some w → decodeWord w = .ok i

/-- The word of one field. -/
theorem wordOf_bits (c : Nat) {n : Nat} (v : BitVec n) (lo : Nat) : wordOf c [.bits v lo] = c + pFld v lo := rfl

/-- A branch that is not taken. -/
theorem skip {α : Type} {p : Prop} [Decidable p] {x y z : α} (hp : ¬p) (h : y = z) : (if p then x else y) = z := (if_neg hp).trans h

/-! ## Scalar computation (R166 to R172) -/

/-- The first operation of an opcode of class A or M. -/
theorem decodes_firstOfPair (g : Bool) (d : BitVec 5) (n : Bool) (a b : Src) (p : BitVec 2) :
    ∀ i ∈ [Instr.add, .and, .or, .sll, .sra, .ror, .slt, .min, .minu, .mul, .mulhu, .divu, .remu], Decodes (i ⟨g, d, n, a, b, p⟩) := by
  simp only [List.forall_mem_cons]
  refine ⟨?_, ?_, ?_, ?_, ?_, ?_, ?_, ?_, ?_, ?_, ?_, ?_, ?_, nofun⟩ <;>
  · intro word hw
    obtain ⟨hc, rfl, rfl, rfl, rfl, rfl, rfl, -⟩ :=
      reads [.bit g 30, .bits d 17, .bit n 16, .src a 15 9, .src b 8 2, .bits p 0] hw rfl rfl
    delta decodeWord
    rw [hc 23 7 rfl]
    exact if_pos (hc 22 1 rfl)

/-- The second operation of an opcode of class A or M. -/
theorem decodes_secondOfPair (g : Bool) (d : BitVec 5) (n : Bool) (a b : Src) (p : BitVec 2) :
    ∀ i ∈ [Instr.sub, .andn, .xor, .srl, .rol, .lea, .sltu, .max, .maxu, .mulh, .div, .rem, .sel], Decodes (i ⟨g, d, n, a, b, p⟩) := by
  simp only [List.forall_mem_cons]
  refine ⟨?_, ?_, ?_, ?_, ?_, ?_, ?_, ?_, ?_, ?_, ?_, ?_, ?_, nofun⟩ <;>
  · intro word hw
    obtain ⟨hc, rfl, rfl, rfl, rfl, rfl, rfl, -⟩ :=
      reads [.bit g 30, .bits d 17, .bit n 16, .src a 15 9, .src b 8 2, .bits p 0] hw rfl rfl
    delta decodeWord
    rw [hc 23 7 rfl]
    exact skip (hc.ne 22 1 rfl rfl) (if_pos (hc 22 1 rfl))

theorem decodes_firstImmediate (g : Bool) (d : BitVec 5) (n : Bool) (a : Src) (imm : BitVec 7) (p : BitVec 2) :
    ∀ i ∈ [Instr.addi, .ori], Decodes (i ⟨g, d, n, a, imm, p⟩) := by
  simp only [List.forall_mem_cons]
  refine ⟨?_, ?_, nofun⟩ <;>
  · intro word hw
    obtain ⟨hc, rfl, rfl, rfl, rfl, rfl, rfl, -⟩ :=
      reads [.bit g 30, .bits d 17, .bit n 16, .src a 15 9, .bits imm 2, .bits p 0] hw rfl rfl
    delta decodeWord
    rw [hc 23 7 rfl]
    exact if_pos (hc 22 1 rfl)

theorem decodes_secondImmediate (g : Bool) (d : BitVec 5) (n : Bool) (a : Src) (imm : BitVec 7) (p : BitVec 2) :
    ∀ i ∈ [Instr.andi, .xori], Decodes (i ⟨g, d, n, a, imm, p⟩) := by
  simp only [List.forall_mem_cons]
  refine ⟨?_, ?_, nofun⟩ <;>
  · intro word hw
    obtain ⟨hc, rfl, rfl, rfl, rfl, rfl, rfl, -⟩ :=
      reads [.bit g 30, .bits d 17, .bit n 16, .src a 15 9, .bits imm 2, .bits p 0] hw rfl rfl
    delta decodeWord
    rw [hc 23 7 rfl]
    exact skip (hc.ne 22 1 rfl rfl) (if_pos (hc 22 1 rfl))

theorem decodes_slli (g : Bool) (d : BitVec 5) (n : Bool) (a : Src) (sh : BitVec 6) (p : BitVec 2) :
    Decodes (.slli ⟨g, d, n, a, sh, p⟩) := by
  intro word hw
  obtain ⟨hc, rfl, rfl, rfl, rfl, rfl, rfl, -⟩ :=
    reads [.bit g 30, .bits d 17, .bit n 16, .src a 15 9, .bits sh 2, .bits p 0] hw rfl rfl
  delta decodeWord
  rw [hc 23 7 rfl]
  exact if_pos ⟨hc 8 1 rfl, hc 22 1 rfl⟩

theorem decodes_srli (g : Bool) (d : BitVec 5) (n : Bool) (a : Src) (sh : BitVec 6) (p : BitVec 2) :
    Decodes (.srli ⟨g, d, n, a, sh, p⟩) := by
  intro word hw
  obtain ⟨hc, rfl, rfl, rfl, rfl, rfl, rfl, -⟩ :=
    reads [.bit g 30, .bits d 17, .bit n 16, .src a 15 9, .bits sh 2, .bits p 0] hw rfl rfl
  delta decodeWord
  rw [hc 23 7 rfl]
  exact skip (mt And.left (hc.ne 8 1 rfl rfl)) (if_pos ⟨hc 8 1 rfl, hc 22 1 rfl⟩)

theorem decodes_srai (g : Bool) (d : BitVec 5) (n : Bool) (a : Src) (sh : BitVec 6) (p : BitVec 2) :
    Decodes (.srai ⟨g, d, n, a, sh, p⟩) := by
  intro word hw
  obtain ⟨hc, rfl, rfl, rfl, rfl, rfl, rfl, -⟩ :=
    reads [.bit g 30, .bits d 17, .bit n 16, .src a 15 9, .bits sh 2, .bits p 0] hw rfl rfl
  delta decodeWord
  rw [hc 23 7 rfl]
  exact skip (mt (·.2) (hc.ne 22 1 rfl rfl)) (skip (mt And.left (hc.ne 8 1 rfl rfl)) (if_pos ⟨hc 8 1 rfl, hc 22 1 rfl⟩))

/-! ## Control (R107, R173 to R187) -/

theorem decodes_nop : Decodes (.nop) := by
  intro word hw
  obtain ⟨hc, -⟩ := reads [] hw rfl rfl
  delta decodeWord
  rw [hc 23 7 rfl]
  exact if_pos ⟨hc 0 23 rfl, hc 30 1 rfl⟩

theorem decodes_done : Decodes (.done) := by
  intro word hw
  obtain ⟨hc, -⟩ := reads [] hw rfl rfl
  delta decodeWord
  rw [hc 23 7 rfl]
  exact if_pos ⟨hc 0 23 rfl, hc 30 1 rfl⟩

theorem decodes_yield : Decodes (.yield) := by
  intro word hw
  obtain ⟨hc, -⟩ := reads [] hw rfl rfl
  delta decodeWord
  rw [hc 23 7 rfl]
  exact skip (mt And.left (hc.ne 0 23 rfl rfl)) (if_pos ⟨hc 0 23 rfl, hc 30 1 rfl⟩)

theorem decodes_ifence : Decodes (.ifence) := by
  intro word hw
  obtain ⟨hc, -⟩ := reads [] hw rfl rfl
  delta decodeWord
  rw [hc 23 7 rfl]
  exact skip (mt And.left (hc.ne 0 23 rfl rfl)) (skip (mt And.left (hc.ne 0 23 rfl rfl)) (if_pos ⟨hc 0 23 rfl, hc 30 1 rfl⟩))

theorem decodes_eret : Decodes (.eret) := by
  intro word hw
  obtain ⟨hc, -⟩ := reads [] hw rfl rfl
  delta decodeWord
  rw [hc 23 7 rfl]
  exact skip (mt And.left (hc.ne 0 23 rfl rfl)) <| skip (mt And.left (hc.ne 0 23 rfl rfl)) <|
    skip (mt And.left (hc.ne 0 23 rfl rfl)) (if_pos ⟨hc 0 23 rfl, hc 30 1 rfl⟩)

theorem decodes_bcc (c : BitVec 3) (a : Src) (off : BitVec 13) : Decodes (.bcc c a off) := by
  intro word hw
  obtain ⟨hc, rfl, rfl, rfl, -⟩ := reads [.bits c 20, .src a 19 13, .bits off 0] hw rfl rfl
  delta decodeWord
  rw [hc 23 7 rfl]
  exact if_pos (hc 30 1 rfl)

theorem decodes_jal (d : BitVec 5) (imm : BitVec 17) : Decodes (.jal d imm) := by
  intro word hw
  obtain ⟨hc, rfl, rfl, -⟩ := reads [.bits d 17, .bits imm 0] hw rfl rfl
  delta decodeWord
  rw [hc 23 7 rfl]
  exact if_pos ⟨hc 22 1 rfl, hc 30 1 rfl⟩

theorem decodes_jump (d : BitVec 5) (a : Src) (p : BitVec 2) :
    ∀ i ∈ [Instr.jr, .lnch], Decodes (i d a p) := by
  simp only [List.forall_mem_cons]
  refine ⟨?_, ?_, nofun⟩ <;>
  · intro word hw
    obtain ⟨hc, rfl, rfl, rfl, -⟩ := reads [.bits d 17, .src a 15 9, .bits p 0] hw rfl rfl
    delta decodeWord
    rw [hc 23 7 rfl]
    exact if_pos ⟨hc 2 7 rfl, hc 16 1 rfl, hc 22 1 rfl, hc 30 1 rfl⟩

theorem decodes_jrGd (d : BitVec 5) (a : Src) (l : BitVec 4) (p : BitVec 2) : Decodes (.jrGd d a l p) := by
  intro word hw
  obtain ⟨hc, rfl, rfl, rfl, rfl, -⟩ := reads [.bits d 17, .src a 15 9, .bits l 2, .bits p 0] hw rfl rfl
  delta decodeWord
  rw [hc 23 7 rfl]
  exact skip (mt And.left (hc.neWithin 2 7 4 3 rfl rfl rfl)) (if_pos ⟨hc 6 3 rfl, hc 16 1 rfl, hc 22 1 rfl, hc 30 1 rfl⟩)

theorem decodes_looph (d : BitVec 6) (a b : Src) (p : BitVec 2) :
    ∀ i ∈ [Instr.looph, .bind], Decodes (i ⟨d, a, b, p⟩) := by
  simp only [List.forall_mem_cons]
  refine ⟨?_, ?_, nofun⟩ <;>
  · intro word hw
    obtain ⟨hc, rfl, rfl, rfl, rfl, -⟩ := reads [.bits d 17, .src a 15 9, .src b 8 2, .bits p 0] hw rfl rfl
    delta decodeWord
    rw [hc 23 7 rfl]
    exact if_pos ⟨hc 16 1 rfl, hc 30 1 rfl⟩

theorem decodes_trap (a : Src) (imm : BitVec 7) (p : BitVec 2) :
    ∀ i ∈ [Instr.trap, .cwr], Decodes (i a imm p) := by
  simp only [List.forall_mem_cons]
  refine ⟨?_, ?_, nofun⟩ <;>
  · intro word hw
    obtain ⟨hc, rfl, rfl, rfl, -⟩ := reads [.src a 15 9, .bits imm 2, .bits p 0] hw rfl rfl
    delta decodeWord
    rw [hc 23 7 rfl]
    exact if_pos ⟨hc 16 7 rfl, hc 30 1 rfl⟩

theorem decodes_crdr (d : BitVec 5) (imm : BitVec 7) (p : BitVec 2) : Decodes (.crdr d imm p) := by
  intro word hw
  obtain ⟨hc, rfl, rfl, rfl, -⟩ := reads [.bits d 17, .bits imm 2, .bits p 0] hw rfl rfl
  delta decodeWord
  rw [hc 23 7 rfl]
  exact if_pos ⟨hc 9 8 rfl, hc 22 1 rfl, hc 30 1 rfl⟩

theorem decodes_rdtime (d : BitVec 5) : Decodes (.rdtime d) := by
  intro word hw
  have hw : some (0x0C80000C + pFld d 17) = some word := hw
  rw [← wordOf_bits] at hw
  obtain ⟨hc, rfl, -⟩ := reads [.bits d 17] hw rfl rfl
  delta decodeWord
  rw [hc 23 7 rfl]
  exact skip (mt And.left (hc.neWithin 0 23 2 3 rfl rfl rfl)) <| skip (mt And.left (hc.neWithin 0 23 2 3 rfl rfl rfl)) <|
    skip (mt And.left (hc.neWithin 0 23 2 3 rfl rfl rfl)) <|
    skip (mt And.left (hc.neWithin 0 23 2 3 rfl rfl rfl)) (if_pos ⟨hc 0 17 rfl, hc 22 1 rfl, hc 30 1 rfl⟩)

theorem decodes_wnext (d : BitVec 5) : Decodes (.wnext d) := by
  intro word hw
  have hw : some (0x0C800010 + pFld d 17) = some word := hw
  rw [← wordOf_bits] at hw
  obtain ⟨hc, rfl, -⟩ := reads [.bits d 17] hw rfl rfl
  delta decodeWord
  rw [hc 23 7 rfl]
  exact skip (mt And.left (hc.neWithin 0 23 2 3 rfl rfl rfl)) <| skip (mt And.left (hc.neWithin 0 23 2 3 rfl rfl rfl)) <|
    skip (mt And.left (hc.neWithin 0 23 2 3 rfl rfl rfl)) <| skip (mt And.left (hc.neWithin 0 23 2 3 rfl rfl rfl)) <|
    skip (mt And.left (hc.ne 0 17 rfl rfl)) (if_pos ⟨hc 0 17 rfl, hc 22 1 rfl, hc 30 1 rfl⟩)

theorem decodes_wpos (d : BitVec 5) (k : BitVec 2) : Decodes (.wpos d k) := by
  intro word hw
  obtain ⟨hc, rfl, rfl, -⟩ := reads [.bits d 17, .bits k 5] hw rfl rfl
  delta decodeWord
  rw [hc 23 7 rfl]
  exact skip (mt And.left (hc.neWithin 0 23 2 3 rfl rfl rfl)) <| skip (mt And.left (hc.neWithin 0 23 2 3 rfl rfl rfl)) <|
    skip (mt And.left (hc.neWithin 0 23 2 3 rfl rfl rfl)) <| skip (mt And.left (hc.neWithin 0 23 2 3 rfl rfl rfl)) <|
    skip (mt And.left (hc.neWithin 0 17 2 3 rfl rfl rfl)) <|
    skip (mt And.left (hc.neWithin 0 17 2 3 rfl rfl rfl)) (if_pos ⟨hc 0 5 rfl, hc 7 10 rfl, hc 22 1 rfl, hc 30 1 rfl⟩)

theorem decodes_waitt (a : Src) (p : BitVec 2) : Decodes (.waitt a p) := by
  intro word hw
  obtain ⟨hc, rfl, rfl, -⟩ := reads [.src a 15 9, .bits p 0] hw rfl rfl
  delta decodeWord
  rw [hc 23 7 rfl]
  exact skip (mt And.left (hc.neWithin 0 23 2 3 rfl rfl rfl)) <| skip (mt And.left (hc.neWithin 0 23 2 3 rfl rfl rfl)) <|
    skip (mt And.left (hc.neWithin 0 23 2 3 rfl rfl rfl)) <| skip (mt And.left (hc.neWithin 0 23 2 3 rfl rfl rfl)) <|
    skip (mt And.left (hc.neWithin 0 17 2 3 rfl rfl rfl)) <| skip (mt And.left (hc.neWithin 0 17 2 3 rfl rfl rfl)) <|
    skip (mt And.left (hc.neWithin 0 5 2 3 rfl rfl rfl)) (if_pos ⟨hc 2 7 rfl, hc 16 7 rfl, hc 30 1 rfl⟩)

/-! ## Scalar forms with one source, constants (R170 to R172) -/

theorem decodes_clz (g : Bool) (d : BitVec 5) (n : Bool) (a : Src) (p : BitVec 2) : Decodes (.clz ⟨g, d, n, a, p⟩) := by
  intro word hw
  obtain ⟨hc, rfl, rfl, rfl, rfl, rfl, -⟩ :=
    reads [.bit g 30, .bits d 17, .bit n 16, .src a 15 9, .bits p 0] hw rfl rfl
  delta decodeWord
  rw [hc 23 7 rfl]
  exact skip (mt And.left (hc.ne 2 3 rfl rfl)) (if_pos ⟨hc 2 7 rfl, hc 22 1 rfl⟩)

theorem decodes_ctz (g : Bool) (d : BitVec 5) (n : Bool) (a : Src) (p : BitVec 2) : Decodes (.ctz ⟨g, d, n, a, p⟩) := by
  intro word hw
  obtain ⟨hc, rfl, rfl, rfl, rfl, rfl, -⟩ :=
    reads [.bit g 30, .bits d 17, .bit n 16, .src a 15 9, .bits p 0] hw rfl rfl
  delta decodeWord
  rw [hc 23 7 rfl]
  exact skip (mt And.left (hc.ne 2 3 rfl rfl)) (skip (mt And.left (hc.ne 2 7 rfl rfl)) (if_pos ⟨hc 2 7 rfl, hc 22 1 rfl⟩))

theorem decodes_popc (g : Bool) (d : BitVec 5) (n : Bool) (a : Src) (p : BitVec 2) : Decodes (.popc ⟨g, d, n, a, p⟩) := by
  intro word hw
  obtain ⟨hc, rfl, rfl, rfl, rfl, rfl, -⟩ :=
    reads [.bit g 30, .bits d 17, .bit n 16, .src a 15 9, .bits p 0] hw rfl rfl
  delta decodeWord
  rw [hc 23 7 rfl]
  exact skip (mt And.left (hc.ne 2 3 rfl rfl)) <| skip (mt And.left (hc.ne 2 7 rfl rfl)) <|
    skip (mt And.left (hc.ne 2 7 rfl rfl)) (if_pos ⟨hc 2 7 rfl, hc 22 1 rfl⟩)

theorem decodes_sext (g : Bool) (d : BitVec 5) (n : Bool) (a : Src) (p : BitVec 2) (w : BitVec 2) : Decodes (.sext ⟨g, d, n, a, p⟩ w) := by
  intro word hw
  obtain ⟨hc, rfl, rfl, rfl, rfl, rfl, rfl, -⟩ :=
    reads [.bit g 30, .bits d 17, .bit n 16, .src a 15 9, .bits p 0, .bits w 5] hw rfl rfl
  delta decodeWord
  rw [hc 23 7 rfl]
  exact skip (mt And.left (hc.ne 2 3 rfl rfl)) <| skip (mt And.left (hc.neWithin 2 7 0 3 rfl rfl rfl)) <|
    skip (mt And.left (hc.neWithin 2 7 0 3 rfl rfl rfl)) <|
    skip (mt And.left (hc.neWithin 2 7 0 3 rfl rfl rfl)) (if_pos ⟨hc 2 3 rfl, hc 7 2 rfl, hc 22 1 rfl⟩)

theorem decodes_zext (g : Bool) (d : BitVec 5) (n : Bool) (a : Src) (p : BitVec 2) (w : BitVec 2) : Decodes (.zext ⟨g, d, n, a, p⟩ w) := by
  intro word hw
  obtain ⟨hc, rfl, rfl, rfl, rfl, rfl, rfl, -⟩ :=
    reads [.bit g 30, .bits d 17, .bit n 16, .src a 15 9, .bits p 0, .bits w 5] hw rfl rfl
  delta decodeWord
  rw [hc 23 7 rfl]
  exact skip (mt And.left (hc.ne 2 3 rfl rfl)) <| skip (mt And.left (hc.neWithin 2 7 0 3 rfl rfl rfl)) <|
    skip (mt And.left (hc.neWithin 2 7 0 3 rfl rfl rfl)) <| skip (mt And.left (hc.neWithin 2 7 0 3 rfl rfl rfl)) <|
    skip (mt And.left (hc.ne 2 3 rfl rfl)) (if_pos ⟨hc 2 3 rfl, hc 7 2 rfl, hc 22 1 rfl⟩)

theorem decodes_crd (g : Bool) (d : BitVec 5) (n : Bool) (k : BitVec 4) (p : BitVec 2) : Decodes (.crd g d n k p) := by
  intro word hw
  obtain ⟨hc, rfl, rfl, rfl, rfl, rfl, -⟩ :=
    reads [.bit g 30, .bits d 17, .bit n 16, .bits k 5, .bits p 0] hw rfl rfl
  delta decodeWord
  rw [hc 23 7 rfl]
  exact if_pos ⟨hc 2 3 rfl, hc 9 7 rfl, hc 22 1 rfl⟩

theorem decodes_li (g : Bool) (d : BitVec 5) (imm : BitVec 17) : Decodes (.li g d imm) := by
  intro word hw
  obtain ⟨hc, rfl, rfl, rfl, -⟩ := reads [.bit g 30, .bits d 17, .bits imm 0] hw rfl rfl
  delta decodeWord
  rw [hc 23 7 rfl]
  exact skip (mt (·.2) (hc.ne 22 1 rfl rfl)) (if_pos (hc 22 1 rfl))

theorem decodes_lih (g : Bool) (d : BitVec 5) (imm : BitVec 16) : Decodes (.lih g d imm) := by
  intro word hw
  obtain ⟨hc, rfl, rfl, rfl, -⟩ := reads [.bit g 30, .bits d 17, .bits imm 0] hw rfl rfl
  delta decodeWord
  rw [hc 23 7 rfl]
  exact if_pos ⟨hc 16 1 rfl, hc 22 1 rfl⟩

theorem decodes_pset (imm : BitVec 11) : Decodes (.pset imm) := by
  intro word hw
  obtain ⟨hc, rfl, -⟩ := reads [.bits imm 0] hw rfl rfl
  delta decodeWord
  rw [hc 23 7 rfl]
  exact if_pos ⟨hc 11 12 rfl, hc 30 1 rfl⟩

/-! ## Vectors (R190 to R205) -/

theorem decodes_vectorPair (g : Bool) (d : BitVec 6) (n : Bool) (a b : Src) (p : BitVec 2) :
    ∀ i ∈ [Instr.vadd, .vsub, .vmul, .vmulh, .vmad, .vand, .vor, .vxor, .vshl, .vshr, .vsra, .vmin, .vmax, .vsel, .vfadd, .vfsub, .vfmul, .vffma, .vfmin, .vfmax, .vfsgn], Decodes (i ⟨g, d, n, a, b, p⟩) := by
  simp only [List.forall_mem_cons]
  refine ⟨?_, ?_, ?_, ?_, ?_, ?_, ?_, ?_, ?_, ?_, ?_, ?_, ?_, ?_, ?_, ?_, ?_, ?_, ?_, ?_, ?_, nofun⟩ <;>
  · intro word hw
    obtain ⟨hc, rfl, rfl, rfl, rfl, rfl, rfl, -⟩ :=
      reads [.bit g 30, .bits d 17, .bit n 16, .src a 15 9, .src b 8 2, .bits p 0] hw rfl rfl
    delta decodeWord
    rw [hc 23 7 rfl]
    rfl

theorem decodes_vectorCompare (g : Bool) (c k : BitVec 3) (n : Bool) (a b : Src) (p : BitVec 2) :
    ∀ i ∈ [Instr.vcmp, .vfcmp], Decodes (i ⟨g, c, k, n, a, b, p⟩) := by
  simp only [List.forall_mem_cons]
  refine ⟨?_, ?_, nofun⟩ <;>
  · intro word hw
    obtain ⟨hc, rfl, rfl, rfl, rfl, rfl, rfl, rfl, -⟩ :=
      reads [.bit g 30, .bits c 20, .bits k 17, .bit n 16, .src a 15 9, .src b 8 2, .bits p 0] hw rfl rfl
    delta decodeWord
    rw [hc 23 7 rfl]
    rfl

theorem decodes_vectorUnaryFirst (g : Bool) (d : BitVec 6) (n : Bool) (a : Src) (p : BitVec 2) :
    ∀ i ∈ [Instr.vabs, .vfclass, .vrcp], Decodes (i ⟨g, d, n, a, p⟩) := by
  simp only [List.forall_mem_cons]
  refine ⟨?_, ?_, ?_, nofun⟩ <;>
  · intro word hw
    obtain ⟨hc, rfl, rfl, rfl, rfl, rfl, -⟩ :=
      reads [.bit g 30, .bits d 17, .bit n 16, .src a 15 9, .bits p 0] hw rfl rfl
    delta decodeWord
    rw [hc 23 7 rfl]
    exact if_pos (hc 2 7 rfl)

theorem decodes_vectorUnarySecond (g : Bool) (d : BitVec 6) (n : Bool) (a : Src) (p : BitVec 2) :
    ∀ i ∈ [Instr.vclz, .vrsq], Decodes (i ⟨g, d, n, a, p⟩) := by
  simp only [List.forall_mem_cons]
  refine ⟨?_, ?_, nofun⟩ <;>
  · intro word hw
    obtain ⟨hc, rfl, rfl, rfl, rfl, rfl, -⟩ :=
      reads [.bit g 30, .bits d 17, .bit n 16, .src a 15 9, .bits p 0] hw rfl rfl
    delta decodeWord
    rw [hc 23 7 rfl]
    exact skip (hc.ne 2 7 rfl rfl) (if_pos (hc 2 7 rfl))

theorem decodes_vectorUnaryThird (g : Bool) (d : BitVec 6) (n : Bool) (a : Src) (p : BitVec 2) :
    ∀ i ∈ [Instr.vpopc, .vsqrt], Decodes (i ⟨g, d, n, a, p⟩) := by
  simp only [List.forall_mem_cons]
  refine ⟨?_, ?_, nofun⟩ <;>
  · intro word hw
    obtain ⟨hc, rfl, rfl, rfl, rfl, rfl, -⟩ :=
      reads [.bit g 30, .bits d 17, .bit n 16, .src a 15 9, .bits p 0] hw rfl rfl
    delta decodeWord
    rw [hc 23 7 rfl]
    exact skip (hc.ne 2 7 rfl rfl) (skip (hc.ne 2 7 rfl rfl) (if_pos (hc 2 7 rfl)))

theorem decodes_vexp2 (g : Bool) (d : BitVec 6) (n : Bool) (a : Src) (p : BitVec 2) : Decodes (.vexp2 ⟨g, d, n, a, p⟩) := by
  intro word hw
  obtain ⟨hc, rfl, rfl, rfl, rfl, rfl, -⟩ :=
    reads [.bit g 30, .bits d 17, .bit n 16, .src a 15 9, .bits p 0] hw rfl rfl
  delta decodeWord
  rw [hc 23 7 rfl]
  exact skip (hc.ne 2 7 rfl rfl) (skip (hc.ne 2 7 rfl rfl) (skip (hc.ne 2 7 rfl rfl) (if_pos (hc 2 7 rfl))))

theorem decodes_vlog2 (g : Bool) (d : BitVec 6) (n : Bool) (a : Src) (p : BitVec 2) : Decodes (.vlog2 ⟨g, d, n, a, p⟩) := by
  intro word hw
  obtain ⟨hc, rfl, rfl, rfl, rfl, rfl, -⟩ :=
    reads [.bit g 30, .bits d 17, .bit n 16, .src a 15 9, .bits p 0] hw rfl rfl
  delta decodeWord
  rw [hc 23 7 rfl]
  exact skip (hc.ne 2 7 rfl rfl) (skip (hc.ne 2 7 rfl rfl) (skip (hc.ne 2 7 rfl rfl) (skip (hc.ne 2 7 rfl rfl) (if_pos (hc 2 7 rfl)))))

theorem decodes_vtanh (g : Bool) (d : BitVec 6) (n : Bool) (a : Src) (p : BitVec 2) : Decodes (.vtanh ⟨g, d, n, a, p⟩) := by
  intro word hw
  obtain ⟨hc, rfl, rfl, rfl, rfl, rfl, -⟩ :=
    reads [.bit g 30, .bits d 17, .bit n 16, .src a 15 9, .bits p 0] hw rfl rfl
  delta decodeWord
  rw [hc 23 7 rfl]
  exact skip (hc.ne 2 7 rfl rfl) <| skip (hc.ne 2 7 rfl rfl) <| skip (hc.ne 2 7 rfl rfl) <| skip (hc.ne 2 7 rfl rfl) <|
    skip (hc.ne 2 7 rfl rfl) (if_pos (hc 2 7 rfl))

theorem decodes_vsilu (g : Bool) (d : BitVec 6) (n : Bool) (a : Src) (p : BitVec 2) : Decodes (.vsilu ⟨g, d, n, a, p⟩) := by
  intro word hw
  obtain ⟨hc, rfl, rfl, rfl, rfl, rfl, -⟩ :=
    reads [.bit g 30, .bits d 17, .bit n 16, .src a 15 9, .bits p 0] hw rfl rfl
  delta decodeWord
  rw [hc 23 7 rfl]
  exact skip (hc.ne 2 7 rfl rfl) <| skip (hc.ne 2 7 rfl rfl) <| skip (hc.ne 2 7 rfl rfl) <| skip (hc.ne 2 7 rfl rfl) <|
    skip (hc.ne 2 7 rfl rfl) <| skip (hc.ne 2 7 rfl rfl) (if_pos (hc 2 7 rfl))

theorem decodes_vsat (g : Bool) (d : BitVec 6) (n : Bool) (a : Src) (p : BitVec 2) (t : BitVec 2) : Decodes (.vsat ⟨g, d, n, a, p⟩ t) := by
  intro word hw
  obtain ⟨hc, rfl, rfl, rfl, rfl, rfl, rfl, -⟩ :=
    reads [.bit g 30, .bits d 17, .bit n 16, .src a 15 9, .bits p 0, .bits t 5] hw rfl rfl
  delta decodeWord
  rw [hc 23 7 rfl]
  exact skip (hc.neWithin 2 7 0 3 rfl rfl rfl) <| skip (hc.neWithin 2 7 0 3 rfl rfl rfl) <|
    skip (hc.neWithin 2 7 0 3 rfl rfl rfl) (if_pos ⟨hc 2 3 rfl, hc 7 2 rfl⟩)

theorem decodes_vcvt (g : Bool) (d : BitVec 6) (n : Bool) (a : Src) (p : BitVec 2) (part : BitVec 2) (sr : Bool) (c : BitVec 4) :
    Decodes (.vcvt ⟨g, d, n, a, p⟩ part sr c) := by
  intro word hw
  obtain ⟨hc, rfl, rfl, rfl, rfl, rfl, rfl, rfl, rfl, -⟩ :=
    reads [.bit g 30, .bits d 17, .bit n 16, .src a 15 9, .bits p 0, .bits part 7, .bit sr 6, .bits c 2] hw rfl rfl
  delta decodeWord
  rw [hc 23 7 rfl]
  rfl

theorem decodes_vqnt (g : Bool) (d : BitVec 6) (n : Bool) (a : Src) (p : BitVec 2) (sr : Bool) (c : BitVec 4) :
    Decodes (.vqnt ⟨g, d, n, a, p⟩ sr c) := by
  intro word hw
  obtain ⟨hc, rfl, rfl, rfl, rfl, rfl, rfl, rfl, -⟩ :=
    reads [.bit g 30, .bits d 17, .bit n 16, .src a 15 9, .bits p 0, .bit sr 6, .bits c 2] hw rfl rfl
  delta decodeWord
  rw [hc 23 7 rfl]
  exact if_pos (hc 7 2 rfl)

theorem decodes_vdqnt (g : Bool) (d : BitVec 6) (n : Bool) (a : Src) (p : BitVec 2) (h : Bool) (c : BitVec 4) :
    Decodes (.vdqnt ⟨g, d, n, a, p⟩ h c) := by
  intro word hw
  obtain ⟨hc, rfl, rfl, rfl, rfl, rfl, rfl, rfl, -⟩ :=
    reads [.bit g 30, .bits d 17, .bit n 16, .src a 15 9, .bits p 0, .bit h 7, .bits c 2] hw rfl rfl
  delta decodeWord
  rw [hc 23 7 rfl]
  exact if_pos ⟨hc 6 1 rfl, hc 8 1 rfl⟩

/-! ## R forms of the permute and memory units -/

theorem decodes_suppressible (d : BitVec 6) (n : Bool) (a b : Src) (p : BitVec 2) :
    ∀ i ∈ [Instr.vperm, .vxcl, .vshf, .vldg, .vgath, .vscat, .vamo, .bxpect, .vins], Decodes (i ⟨d, n, a, b, p⟩) := by
  simp only [List.forall_mem_cons]
  refine ⟨?_, ?_, ?_, ?_, ?_, ?_, ?_, ?_, ?_, nofun⟩ <;>
  · intro word hw
    obtain ⟨hc, rfl, rfl, rfl, rfl, rfl, -⟩ :=
      reads [.bits d 17, .bit n 16, .src a 15 9, .src b 8 2, .bits p 0] hw rfl rfl
    delta decodeWord
    rw [hc 23 7 rfl]
    exact if_pos (hc 30 1 rfl)

theorem decodes_scalarResult (d : BitVec 5) (n : Bool) (a b : Src) (p : BitVec 2) :
    ∀ i ∈ [Instr.amo, .amog, .vext], Decodes (i ⟨d, n, a, b, p⟩) := by
  simp only [List.forall_mem_cons]
  refine ⟨?_, ?_, ?_, nofun⟩ <;>
  · intro word hw
    obtain ⟨hc, rfl, rfl, rfl, rfl, rfl, -⟩ :=
      reads [.bits d 17, .bit n 16, .src a 15 9, .src b 8 2, .bits p 0] hw rfl rfl
    delta decodeWord
    rw [hc 23 7 rfl]
    exact if_pos ⟨hc 22 1 rfl, hc 30 1 rfl⟩

/-! ## Loads and stores (R139 to R145) -/

theorem decodes_load (d : BitVec 5) (n : Bool) (a : Src) (imm : BitVec 7) (p : BitVec 2) :
    ∀ i ∈ [Instr.ld, .ldg], Decodes (i ⟨d, n, a, imm, p⟩) := by
  simp only [List.forall_mem_cons]
  refine ⟨?_, ?_, nofun⟩ <;>
  · intro word hw
    obtain ⟨hc, rfl, rfl, rfl, rfl, rfl, -⟩ :=
      reads [.bits d 17, .bit n 16, .src a 15 9, .bits imm 2, .bits p 0] hw rfl rfl
    delta decodeWord
    rw [hc 23 7 rfl]
    exact if_pos ⟨hc 22 1 rfl, hc 30 1 rfl⟩

theorem decodes_store (d : BitVec 5) (a : Src) (imm : BitVec 7) (p : BitVec 2) :
    ∀ i ∈ [Instr.st, .stg], Decodes (i ⟨d, a, imm, p⟩) := by
  simp only [List.forall_mem_cons]
  refine ⟨?_, ?_, nofun⟩ <;>
  · intro word hw
    obtain ⟨hc, rfl, rfl, rfl, rfl, -⟩ := reads [.bits d 17, .src a 15 9, .bits imm 2, .bits p 0] hw rfl rfl
    delta decodeWord
    rw [hc 23 7 rfl]
    exact skip (mt And.left (hc.ne 16 1 rfl rfl)) (if_pos ⟨hc 16 1 rfl, hc 22 1 rfl, hc 30 1 rfl⟩)

theorem decodes_guardedStore (l : BitVec 4) (a : Src) (imm : BitVec 7) (p : BitVec 2) :
    ∀ i ∈ [Instr.stGd, .stgGd, .vstGd], Decodes (i ⟨l, a, imm, p⟩) := by
  simp only [List.forall_mem_cons]
  refine ⟨?_, ?_, ?_, nofun⟩ <;>
  · intro word hw
    obtain ⟨hc, rfl, rfl, rfl, rfl, -⟩ := reads [.bits l 17, .src a 15 9, .bits imm 2, .bits p 0] hw rfl rfl
    delta decodeWord
    rw [hc 23 7 rfl]
    exact if_pos ⟨hc 16 1 rfl, hc 21 2 rfl, hc 30 1 rfl⟩

theorem decodes_vld (d : BitVec 6) (n : Bool) (a : Src) (imm : BitVec 7) (p : BitVec 2) : Decodes (.vld d n a imm p) := by
  intro word hw
  obtain ⟨hc, rfl, rfl, rfl, rfl, rfl, -⟩ :=
    reads [.bits d 17, .bit n 16, .src a 15 9, .bits imm 2, .bits p 0] hw rfl rfl
  delta decodeWord
  rw [hc 23 7 rfl]
  exact if_pos (hc 30 1 rfl)

theorem decodes_vst (d : BitVec 6) (a : Src) (imm : BitVec 7) (p : BitVec 2) : Decodes (.vst d a imm p) := by
  intro word hw
  obtain ⟨hc, rfl, rfl, rfl, rfl, -⟩ := reads [.bits d 17, .src a 15 9, .bits imm 2, .bits p 0] hw rfl rfl
  delta decodeWord
  rw [hc 23 7 rfl]
  exact skip (mt And.left (hc.ne 16 1 rfl rfl)) (if_pos ⟨hc 16 1 rfl, hc 30 1 rfl⟩)

theorem decodes_vstgGd (l : BitVec 4) (a b : Src) (p : BitVec 2) : Decodes (.vstgGd l a b p) := by
  intro word hw
  obtain ⟨hc, rfl, rfl, rfl, rfl, -⟩ := reads [.bits l 17, .src a 15 9, .src b 8 2, .bits p 0] hw rfl rfl
  delta decodeWord
  rw [hc 23 7 rfl]
  exact skip (mt (·.2.1) (hc.neWithin 13 4 3 1 rfl rfl rfl)) (if_pos ⟨hc 16 1 rfl, hc 21 2 rfl, hc 30 1 rfl⟩)

theorem decodes_vstgPush (d : BitVec 6) (k : BitVec 4) (p : BitVec 2) : Decodes (.vstgPush d k p) := by
  intro word hw
  obtain ⟨hc, rfl, rfl, rfl, -⟩ := reads [.bits d 17, .bits k 9, .bits p 0] hw rfl rfl
  delta decodeWord
  rw [hc 23 7 rfl]
  exact if_pos ⟨hc 2 7 rfl, hc 13 4 rfl, hc 30 1 rfl⟩

theorem decodes_xstat (d : BitVec 5) (k : BitVec 4) (p : BitVec 2) : Decodes (.xstat d k p) := by
  intro word hw
  obtain ⟨hc, rfl, rfl, rfl, -⟩ := reads [.bits d 17, .bits k 9, .bits p 0] hw rfl rfl
  delta decodeWord
  rw [hc 23 7 rfl]
  exact if_pos ⟨hc 2 7 rfl, hc 13 4 rfl, hc 22 1 rfl, hc 30 1 rfl⟩

/-! ## Fences, maintenance and bindings -/

theorem decodes_fence (s : BitVec 3) (q r : BitVec 8) : Decodes (.fence s q r) := by
  intro word hw
  obtain ⟨hc, rfl, rfl, rfl, -⟩ := reads [.bits s 17, .bits q 8, .bits r 0] hw rfl rfl
  delta decodeWord
  rw [hc 23 7 rfl]
  exact skip (mt And.left (hc.neWithin 4 19 18 1 rfl rfl rfl)) (if_pos ⟨hc 16 1 rfl, hc 20 3 rfl, hc 30 1 rfl⟩)

theorem decodes_qfence (m : BitVec 4) : Decodes (.qfence m) := by
  intro word hw
  obtain ⟨hc, rfl, -⟩ := reads [.bits m 0] hw rfl rfl
  delta decodeWord
  rw [hc 23 7 rfl]
  exact if_pos ⟨hc 4 19 rfl, hc 30 1 rfl⟩

theorem decodes_cinv (d : BitVec 6) (a : Src) (p : BitVec 2) : Decodes (.cinv d a p) := by
  intro word hw
  obtain ⟨hc, rfl, rfl, rfl, -⟩ := reads [.bits d 17, .src a 15 9, .bits p 0] hw rfl rfl
  delta decodeWord
  rw [hc 23 7 rfl]
  exact skip (mt And.left (hc.ne 2 7 rfl rfl)) (if_pos ⟨hc 2 7 rfl, hc 16 1 rfl, hc 30 1 rfl⟩)

theorem decodes_cwb (d : BitVec 6) (a : Src) (p : BitVec 2) : Decodes (.cwb d a p) := by
  intro word hw
  obtain ⟨hc, rfl, rfl, rfl, -⟩ := reads [.bits d 17, .src a 15 9, .bits p 0] hw rfl rfl
  delta decodeWord
  rw [hc 23 7 rfl]
  exact skip (mt And.left (hc.ne 2 7 rfl rfl)) (skip (mt And.left (hc.ne 2 7 rfl rfl)) (if_pos ⟨hc 2 7 rfl, hc 16 1 rfl, hc 30 1 rfl⟩))

theorem decodes_acq (d : BitVec 6) (n : Bool) (a : Src) (s : BitVec 3) (p : BitVec 2) : Decodes (.acq d n a s p) := by
  intro word hw
  obtain ⟨hc, rfl, rfl, rfl, rfl, rfl, -⟩ :=
    reads [.bits d 17, .bit n 16, .src a 15 9, .bits s 5, .bits p 0] hw rfl rfl
  delta decodeWord
  rw [hc 23 7 rfl]
  exact skip (mt And.left (hc.neWithin 2 7 0 3 rfl rfl rfl)) <| skip (mt And.left (hc.neWithin 2 7 0 3 rfl rfl rfl)) <|
    skip (mt And.left (hc.neWithin 2 7 0 3 rfl rfl rfl)) (if_pos ⟨hc 2 3 rfl, hc 8 1 rfl, hc 30 1 rfl⟩)

theorem decodes_rel (d : BitVec 6) (n : Bool) (a : Src) (s : BitVec 3) (p : BitVec 2) : Decodes (.rel d n a s p) := by
  intro word hw
  obtain ⟨hc, rfl, rfl, rfl, rfl, rfl, -⟩ :=
    reads [.bits d 17, .bit n 16, .src a 15 9, .bits s 5, .bits p 0] hw rfl rfl
  delta decodeWord
  rw [hc 23 7 rfl]
  exact skip (mt And.left (hc.neWithin 2 7 0 3 rfl rfl rfl)) <| skip (mt And.left (hc.neWithin 2 7 0 3 rfl rfl rfl)) <|
    skip (mt And.left (hc.neWithin 2 7 0 3 rfl rfl rfl)) <|
    skip (mt And.left (hc.ne 2 3 rfl rfl)) (if_pos ⟨hc 2 3 rfl, hc 8 1 rfl, hc 30 1 rfl⟩)

/-! ## Engines, barriers and regions -/

theorem decodes_imageMove (n : Bool) (a : Src) (p : BitVec 2) :
    ∀ i ∈ [Instr.unbind, .rsave, .rload], Decodes (i n a p) := by
  simp only [List.forall_mem_cons]
  refine ⟨?_, ?_, ?_, nofun⟩ <;>
  · intro word hw
    obtain ⟨hc, rfl, rfl, rfl, -⟩ := reads [.bit n 16, .src a 15 9, .bits p 0] hw rfl rfl
    delta decodeWord
    rw [hc 23 7 rfl]
    exact if_pos ⟨hc 2 7 rfl, hc 17 6 rfl, hc 30 1 rfl⟩

theorem decodes_command (q : BitVec 1) (a : Src) (p : BitVec 2) :
    ∀ i ∈ [Instr.fcopy, .fgath, .fput, .fget, .fcoll, .fa2a], Decodes (i ⟨q, a, p⟩) := by
  simp only [List.forall_mem_cons]
  refine ⟨?_, ?_, ?_, ?_, ?_, ?_, nofun⟩ <;>
  · intro word hw
    obtain ⟨hc, rfl, rfl, rfl, -⟩ := reads [.bits q 17, .src a 15 9, .bits p 0] hw rfl rfl
    delta decodeWord
    rw [hc 23 7 rfl]
    exact if_pos ⟨hc 2 7 rfl, hc 16 1 rfl, hc 18 5 rfl, hc 30 1 rfl⟩

theorem decodes_fwait (m p : BitVec 2) : Decodes (.fwait m p) := by
  intro word hw
  obtain ⟨hc, rfl, rfl, -⟩ := reads [.bits m 17, .bits p 0] hw rfl rfl
  delta decodeWord
  rw [hc 23 7 rfl]
  exact if_pos ⟨hc 2 15 rfl, hc 19 4 rfl, hc 30 1 rfl⟩

theorem decodes_seed (n : Bool) (a b : Src) (p : BitVec 2) :
    ∀ i ∈ [Instr.binit, .rseed], Decodes (i n a b p) := by
  simp only [List.forall_mem_cons]
  refine ⟨?_, ?_, nofun⟩ <;>
  · intro word hw
    obtain ⟨hc, rfl, rfl, rfl, rfl, -⟩ := reads [.bit n 16, .src a 15 9, .src b 8 2, .bits p 0] hw rfl rfl
    delta decodeWord
    rw [hc 23 7 rfl]
    exact if_pos ⟨hc 17 6 rfl, hc 30 1 rfl⟩

theorem decodes_barv (n : Bool) (a : Src) (y : Bool) (p : BitVec 2) : Decodes (.barv n a y p) := by
  intro word hw
  obtain ⟨hc, rfl, rfl, rfl, rfl, -⟩ := reads [.bit n 16, .src a 15 9, .bit y 8, .bits p 0] hw rfl rfl
  delta decodeWord
  rw [hc 23 7 rfl]
  exact if_pos ⟨hc 2 6 rfl, hc 17 6 rfl, hc 30 1 rfl⟩

theorem decodes_barvRel (s : BitVec 3) (n : Bool) (a : Src) (y : Bool) (p : BitVec 2) : Decodes (.barvRel s n a y p) := by
  intro word hw
  obtain ⟨hc, rfl, rfl, rfl, rfl, rfl, -⟩ :=
    reads [.bits s 17, .bit n 16, .src a 15 9, .bit y 8, .bits p 0] hw rfl rfl
  delta decodeWord
  rw [hc 23 7 rfl]
  exact skip (mt (·.2.1) (hc.neWithin 17 6 3 3 rfl rfl rfl)) (if_pos ⟨hc 2 6 rfl, hc 20 3 rfl, hc 30 1 rfl⟩)

theorem decodes_bwait (s : BitVec 3) (n : Bool) (a b : Src) (p : BitVec 2) : Decodes (.bwait s n a b p) := by
  intro word hw
  obtain ⟨hc, rfl, rfl, rfl, rfl, rfl, -⟩ :=
    reads [.bits s 17, .bit n 16, .src a 15 9, .src b 8 2, .bits p 0] hw rfl rfl
  delta decodeWord
  rw [hc 23 7 rfl]
  exact if_pos ⟨hc 20 3 rfl, hc 30 1 rfl⟩

theorem decodes_copen (d : BitVec 5) (n : Bool) (a : Src) (p : BitVec 2) : Decodes (.copen d n a p) := by
  intro word hw
  obtain ⟨hc, rfl, rfl, rfl, rfl, -⟩ := reads [.bits d 17, .bit n 16, .src a 15 9, .bits p 0] hw rfl rfl
  delta decodeWord
  rw [hc 23 7 rfl]
  exact if_pos ⟨hc 2 7 rfl, hc 22 1 rfl, hc 30 1 rfl⟩

theorem decodes_vbcast (d : BitVec 6) (n : Bool) (a : Src) (p : BitVec 2) : Decodes (.vbcast d n a p) := by
  intro word hw
  obtain ⟨hc, rfl, rfl, rfl, rfl, -⟩ := reads [.bits d 17, .bit n 16, .src a 15 9, .bits p 0] hw rfl rfl
  delta decodeWord
  rw [hc 23 7 rfl]
  exact skip (mt And.left (hc.neWithin 2 15 0 3 rfl rfl rfl)) (skip (mt And.left (hc.ne 2 3 rfl rfl)) (if_pos ⟨hc 2 7 rfl, hc 30 1 rfl⟩))

theorem decodes_cclose (p : BitVec 2) : Decodes (.cclose p) := by
  intro word hw
  obtain ⟨hc, rfl, -⟩ := reads [.bits p 0] hw rfl rfl
  delta decodeWord
  rw [hc 23 7 rfl]
  exact if_pos ⟨hc 2 21 rfl, hc 30 1 rfl⟩

theorem decodes_tchk (l k : BitVec 4) (p : BitVec 2) : Decodes (.tchk l k p) := by
  intro word hw
  obtain ⟨hc, rfl, rfl, rfl, -⟩ := reads [.bits l 9, .bits k 2, .bits p 0] hw rfl rfl
  delta decodeWord
  rw [hc 23 7 rfl]
  exact if_pos ⟨hc 6 3 rfl, hc 13 10 rfl, hc 30 1 rfl⟩

/-! ## Streams and units -/

theorem decodes_unitOne (k : BitVec 4) (a : Src) (p : BitVec 2) :
    ∀ i ∈ [Instr.sdesc, .xprog, .xremap, .xdrift, .xfb], Decodes (i ⟨k, a, p⟩) := by
  simp only [List.forall_mem_cons]
  refine ⟨?_, ?_, ?_, ?_, ?_, nofun⟩ <;>
  · intro word hw
    obtain ⟨hc, rfl, rfl, rfl, -⟩ := reads [.bits k 17, .src a 15 9, .bits p 0] hw rfl rfl
    delta decodeWord
    rw [hc 23 7 rfl]
    exact if_pos ⟨hc 2 7 rfl, hc 16 1 rfl, hc 21 2 rfl, hc 30 1 rfl⟩

theorem decodes_xcalLdsc (k : BitVec 4) (a : Src) (p : BitVec 2) : Decodes (.xcalLdsc ⟨k, a, p⟩) := by
  intro word hw
  obtain ⟨hc, rfl, rfl, rfl, -⟩ := reads [.bits k 17, .src a 15 9, .bits p 0] hw rfl rfl
  delta decodeWord
  rw [hc 23 7 rfl]
  exact skip (mt (·.2.1) (hc.ne 21 2 rfl rfl)) (if_pos ⟨hc 2 7 rfl, hc 16 1 rfl, hc 21 2 rfl, hc 30 1 rfl⟩)

theorem decodes_xcalLdog (k : BitVec 4) (a : Src) (p : BitVec 2) : Decodes (.xcalLdog ⟨k, a, p⟩) := by
  intro word hw
  obtain ⟨hc, rfl, rfl, rfl, -⟩ := reads [.bits k 17, .src a 15 9, .bits p 0] hw rfl rfl
  delta decodeWord
  rw [hc 23 7 rfl]
  exact skip (mt (·.2.1) (hc.ne 21 2 rfl rfl)) <|
    skip (mt (·.2.2.1) (hc.ne 21 2 rfl rfl)) (if_pos ⟨hc 2 7 rfl, hc 16 1 rfl, hc 21 2 rfl, hc 30 1 rfl⟩)

theorem decodes_xcalStog (k : BitVec 4) (a : Src) (p : BitVec 2) : Decodes (.xcalStog ⟨k, a, p⟩) := by
  intro word hw
  obtain ⟨hc, rfl, rfl, rfl, -⟩ := reads [.bits k 17, .src a 15 9, .bits p 0] hw rfl rfl
  delta decodeWord
  rw [hc 23 7 rfl]
  exact skip (mt (·.2.1) (hc.ne 21 2 rfl rfl)) <| skip (mt (·.2.2.1) (hc.ne 21 2 rfl rfl)) <|
    skip (mt (·.2.2.1) (hc.ne 21 2 rfl rfl)) (if_pos ⟨hc 2 7 rfl, hc 16 1 rfl, hc 21 2 rfl, hc 30 1 rfl⟩)

theorem decodes_sbind (k : BitVec 4) (p : BitVec 2) :
    ∀ i ∈ [Instr.sbind, .xcalMeas], Decodes (i k p) := by
  simp only [List.forall_mem_cons]
  refine ⟨?_, ?_, nofun⟩ <;>
  · intro word hw
    obtain ⟨hc, rfl, rfl, -⟩ := reads [.bits k 17, .bits p 0] hw rfl rfl
    delta decodeWord
    rw [hc 23 7 rfl]
    exact if_pos ⟨hc 2 15 rfl, hc 21 2 rfl, hc 30 1 rfl⟩

theorem decodes_sclose (k : BitVec 4) (p : BitVec 2) : Decodes (.sclose k p) := by
  intro word hw
  obtain ⟨hc, rfl, rfl, -⟩ := reads [.bits k 17, .bits p 0] hw rfl rfl
  delta decodeWord
  rw [hc 23 7 rfl]
  exact skip (mt (·.2.1) (hc.ne 21 2 rfl rfl)) (if_pos ⟨hc 2 15 rfl, hc 21 2 rfl, hc 30 1 rfl⟩)

theorem decodes_unitTwo (k : BitVec 4) (a b : Src) (p : BitVec 2) :
    ∀ i ∈ [Instr.tmma, .tmmg, .xload, .xver, .kvstrm], Decodes (i ⟨k, a, b, p⟩) := by
  simp only [List.forall_mem_cons]
  refine ⟨?_, ?_, ?_, ?_, ?_, nofun⟩ <;>
  · intro word hw
    obtain ⟨hc, rfl, rfl, rfl, rfl, -⟩ := reads [.bits k 17, .src a 15 9, .src b 8 2, .bits p 0] hw rfl rfl
    delta decodeWord
    rw [hc 23 7 rfl]
    exact if_pos ⟨hc 16 1 rfl, hc 21 2 rfl, hc 30 1 rfl⟩

theorem decodes_clearingProduct (k : BitVec 4) (a b : Src) (p : BitVec 2) :
    ∀ i ∈ [Instr.tmmaZ, .tmmgZ], Decodes (i ⟨k, a, b, p⟩) := by
  simp only [List.forall_mem_cons]
  refine ⟨?_, ?_, nofun⟩ <;>
  · intro word hw
    obtain ⟨hc, rfl, rfl, rfl, rfl, -⟩ := reads [.bits k 17, .src a 15 9, .src b 8 2, .bits p 0] hw rfl rfl
    delta decodeWord
    rw [hc 23 7 rfl]
    exact skip (mt (·.2.1) (hc.ne 21 2 rfl rfl)) (if_pos ⟨hc 16 1 rfl, hc 21 2 rfl, hc 30 1 rfl⟩)

theorem decodes_zzero (e : Bool) (t : BitVec 4) (p : BitVec 2) : Decodes (.zzero e t p) := by
  intro word hw
  obtain ⟨hc, rfl, rfl, rfl, -⟩ := reads [.bit e 21, .bits t 17, .bits p 0] hw rfl rfl
  delta decodeWord
  rw [hc 23 7 rfl]
  exact if_pos ⟨hc 2 15 rfl, hc 22 1 rfl, hc 30 1 rfl⟩

theorem decodes_zld (e : Bool) (t : BitVec 4) (a : Src) (p : BitVec 2) : Decodes (.zld e t a p) := by
  intro word hw
  obtain ⟨hc, rfl, rfl, rfl, rfl, -⟩ := reads [.bit e 21, .bits t 17, .src a 15 9, .bits p 0] hw rfl rfl
  delta decodeWord
  rw [hc 23 7 rfl]
  exact if_pos ⟨hc 2 7 rfl, hc 16 1 rfl, hc 22 1 rfl, hc 30 1 rfl⟩

theorem decodes_zst (t : BitVec 4) (a : Src) (f : BitVec 4) (p : BitVec 2) : Decodes (.zst t a f p) := by
  intro word hw
  obtain ⟨hc, rfl, rfl, rfl, rfl, -⟩ := reads [.bits t 17, .src a 15 9, .bits f 2, .bits p 0] hw rfl rfl
  delta decodeWord
  rw [hc 23 7 rfl]
  exact if_pos ⟨hc 6 3 rfl, hc 16 1 rfl, hc 21 2 rfl, hc 30 1 rfl⟩

theorem decodes_zstR (t : BitVec 4) (a : Src) (f : BitVec 4) (p : BitVec 2) : Decodes (.zstR t a f p) := by
  intro word hw
  obtain ⟨hc, rfl, rfl, rfl, rfl, -⟩ := reads [.bits t 17, .src a 15 9, .bits f 2, .bits p 0] hw rfl rfl
  delta decodeWord
  rw [hc 23 7 rfl]
  exact skip (mt (·.2.2.1) (hc.ne 21 2 rfl rfl)) (if_pos ⟨hc 6 3 rfl, hc 16 1 rfl, hc 21 2 rfl, hc 30 1 rfl⟩)

theorem decodes_zcvt (t u : BitVec 4) (b : Src) (p : BitVec 2) : Decodes (.zcvt t u b p) := by
  intro word hw
  obtain ⟨hc, rfl, rfl, rfl, rfl, -⟩ := reads [.bits t 17, .bits u 9, .src b 8 2, .bits p 0] hw rfl rfl
  delta decodeWord
  rw [hc 23 7 rfl]
  exact if_pos ⟨hc 13 4 rfl, hc 21 2 rfl, hc 30 1 rfl⟩

theorem decodes_zacc (t u : BitVec 4) (p : BitVec 2) : Decodes (.zacc t u p) := by
  intro word hw
  obtain ⟨hc, rfl, rfl, rfl, -⟩ := reads [.bits t 17, .bits u 9, .bits p 0] hw rfl rfl
  delta decodeWord
  rw [hc 23 7 rfl]
  exact if_pos ⟨hc 2 7 rfl, hc 13 4 rfl, hc 21 2 rfl, hc 30 1 rfl⟩

theorem decodes_xmv (z : BitVec 2) (k : BitVec 4) (a b : Src) (p : BitVec 2) : Decodes (.xmv z ⟨k, a, b, p⟩) := by
  intro word hw
  obtain ⟨hc, rfl, rfl, rfl, rfl, rfl, -⟩ :=
    reads [.bits z 21, .bits k 17, .src a 15 9, .src b 8 2, .bits p 0] hw rfl rfl
  delta decodeWord
  rw [hc 23 7 rfl]
  exact if_pos ⟨hc 16 1 rfl, hc 30 1 rfl⟩

/-! ## KV instructions -/

theorem decodes_kvPair (a b : Src) (p : BitVec 2) :
    ∀ i ∈ [Instr.kvnew, .kvrefInc, .kvtrunc], Decodes (i a b p) := by
  simp only [List.forall_mem_cons]
  refine ⟨?_, ?_, ?_, nofun⟩ <;>
  · intro word hw
    obtain ⟨hc, rfl, rfl, rfl, -⟩ := reads [.src a 15 9, .src b 8 2, .bits p 0] hw rfl rfl
    delta decodeWord
    rw [hc 23 7 rfl]
    exact if_pos ⟨hc 16 7 rfl, hc 30 1 rfl⟩

theorem decodes_kvrefDec (a b : Src) (p : BitVec 2) : Decodes (.kvrefDec a b p) := by
  intro word hw
  obtain ⟨hc, rfl, rfl, rfl, -⟩ := reads [.src a 15 9, .src b 8 2, .bits p 0] hw rfl rfl
  delta decodeWord
  rw [hc 23 7 rfl]
  exact skip (mt And.left (hc.ne 16 7 rfl rfl)) (if_pos ⟨hc 16 7 rfl, hc 30 1 rfl⟩)

theorem decodes_kvResult (d : BitVec 5) (a b : Src) (p : BitVec 2) :
    ∀ i ∈ [Instr.kvapp, .kvfind, .kvpub], Decodes (i d a b p) := by
  simp only [List.forall_mem_cons]
  refine ⟨?_, ?_, ?_, nofun⟩ <;>
  · intro word hw
    obtain ⟨hc, rfl, rfl, rfl, rfl, -⟩ := reads [.bits d 17, .src a 15 9, .src b 8 2, .bits p 0] hw rfl rfl
    delta decodeWord
    rw [hc 23 7 rfl]
    exact if_pos ⟨hc 16 1 rfl, hc 22 1 rfl, hc 30 1 rfl⟩

theorem decodes_kvcow (a : Src) (p : BitVec 2) : Decodes (.kvcow a p) := by
  intro word hw
  obtain ⟨hc, rfl, rfl, -⟩ := reads [.src a 15 9, .bits p 0] hw rfl rfl
  delta decodeWord
  rw [hc 23 7 rfl]
  exact if_pos ⟨hc 2 7 rfl, hc 16 7 rfl, hc 30 1 rfl⟩

/-! ## Moves, reductions and predicates (R206 to R213) -/

theorem decodes_vtrn (d : BitVec 6) (p : BitVec 2) : Decodes (.vtrn d p) := by
  intro word hw
  obtain ⟨hc, rfl, rfl, -⟩ := reads [.bits d 17, .bits p 0] hw rfl rfl
  delta decodeWord
  rw [hc 23 7 rfl]
  exact if_pos ⟨hc 2 15 rfl, hc 30 1 rfl⟩

theorem decodes_vred (d : BitVec 6) (n : Bool) (a : Src) (op : BitVec 2) (h : Bool) (p : BitVec 2) : Decodes (.vred d n a op h p) := by
  intro word hw
  obtain ⟨hc, rfl, rfl, rfl, rfl, rfl, rfl, -⟩ :=
    reads [.bits d 17, .bit n 16, .src a 15 9, .bits op 6, .bit h 5, .bits p 0] hw rfl rfl
  delta decodeWord
  rw [hc 23 7 rfl]
  exact skip (mt And.left (hc.neWithin 2 15 0 3 rfl rfl rfl)) <| skip (mt And.left (hc.ne 2 3 rfl rfl)) <|
    skip (mt And.left (hc.neWithin 2 7 0 3 rfl rfl rfl)) (if_pos ⟨hc 2 3 rfl, hc 8 1 rfl, hc 30 1 rfl⟩)

theorem decodes_vscan (d : BitVec 6) (n : Bool) (a : Src) (op : BitVec 2) (h : Bool) (p : BitVec 2) : Decodes (.vscan d n a op h p) := by
  intro word hw
  obtain ⟨hc, rfl, rfl, rfl, rfl, rfl, rfl, -⟩ :=
    reads [.bits d 17, .bit n 16, .src a 15 9, .bits op 6, .bit h 5, .bits p 0] hw rfl rfl
  delta decodeWord
  rw [hc 23 7 rfl]
  exact skip (mt And.left (hc.neWithin 2 15 0 3 rfl rfl rfl)) <| skip (mt And.left (hc.ne 2 3 rfl rfl)) <|
    skip (mt And.left (hc.neWithin 2 7 0 3 rfl rfl rfl)) <|
    skip (mt And.left (hc.ne 2 3 rfl rfl)) (if_pos ⟨hc 2 3 rfl, hc 8 1 rfl, hc 30 1 rfl⟩)

theorem decodes_viota (d : BitVec 6) (n c : Bool) (p : BitVec 2) : Decodes (.viota d n c p) := by
  intro word hw
  obtain ⟨hc, rfl, rfl, rfl, rfl, -⟩ := reads [.bits d 17, .bit n 16, .bit c 5, .bits p 0] hw rfl rfl
  delta decodeWord
  rw [hc 23 7 rfl]
  exact skip (mt And.left (hc.neWithin 2 15 0 3 rfl rfl rfl)) (if_pos ⟨hc 2 3 rfl, hc 6 10 rfl, hc 30 1 rfl⟩)

theorem decodes_pand (d : BitVec 3) (n : Bool) (a b : BitVec 3) (p : BitVec 2) : Decodes (.pand d n a b p) := by
  intro word hw
  obtain ⟨hc, rfl, rfl, rfl, rfl, rfl, -⟩ :=
    reads [.bits d 17, .bit n 16, .bits a 9, .bits b 2, .bits p 0] hw rfl rfl
  delta decodeWord
  rw [hc 23 7 rfl]
  exact skip (mt (·.2.2.1) (hc.ne 20 3 rfl rfl)) (if_pos ⟨hc 5 4 rfl, hc 12 4 rfl, hc 20 3 rfl, hc 30 1 rfl⟩)

theorem decodes_por (d : BitVec 3) (n : Bool) (a b : BitVec 3) (p : BitVec 2) : Decodes (.por d n a b p) := by
  intro word hw
  obtain ⟨hc, rfl, rfl, rfl, rfl, rfl, -⟩ :=
    reads [.bits d 17, .bit n 16, .bits a 9, .bits b 2, .bits p 0] hw rfl rfl
  delta decodeWord
  rw [hc 23 7 rfl]
  exact skip (mt (·.2.2.1) (hc.ne 20 3 rfl rfl)) <|
    skip (mt (·.2.2.1) (hc.ne 20 3 rfl rfl)) (if_pos ⟨hc 5 4 rfl, hc 12 4 rfl, hc 20 3 rfl, hc 30 1 rfl⟩)

theorem decodes_pxor (d : BitVec 3) (n : Bool) (a b : BitVec 3) (p : BitVec 2) : Decodes (.pxor d n a b p) := by
  intro word hw
  obtain ⟨hc, rfl, rfl, rfl, rfl, rfl, -⟩ :=
    reads [.bits d 17, .bit n 16, .bits a 9, .bits b 2, .bits p 0] hw rfl rfl
  delta decodeWord
  rw [hc 23 7 rfl]
  exact skip (mt (·.2.2.1) (hc.ne 20 3 rfl rfl)) <| skip (mt (·.2.2.1) (hc.ne 20 3 rfl rfl)) <|
    skip (mt (·.2.2.1) (hc.ne 20 3 rfl rfl)) (if_pos ⟨hc 5 4 rfl, hc 12 4 rfl, hc 20 3 rfl, hc 30 1 rfl⟩)

theorem decodes_pnot (d : BitVec 3) (n : Bool) (a : BitVec 3) (p : BitVec 2) : Decodes (.pnot d n a p) := by
  intro word hw
  obtain ⟨hc, rfl, rfl, rfl, rfl, -⟩ := reads [.bits d 17, .bit n 16, .bits a 9, .bits p 0] hw rfl rfl
  delta decodeWord
  rw [hc 23 7 rfl]
  exact if_pos ⟨hc 2 7 rfl, hc 12 4 rfl, hc 20 3 rfl, hc 30 1 rfl⟩

theorem decodes_ppop (d : BitVec 5) (n : Bool) (a : BitVec 3) (p : BitVec 2) : Decodes (.ppop d n a p) := by
  intro word hw
  obtain ⟨hc, rfl, rfl, rfl, rfl, -⟩ := reads [.bits d 17, .bit n 16, .bits a 9, .bits p 0] hw rfl rfl
  delta decodeWord
  rw [hc 23 7 rfl]
  exact if_pos ⟨hc 2 7 rfl, hc 12 4 rfl, hc 22 1 rfl, hc 30 1 rfl⟩

theorem decodes_pfirst (d : BitVec 5) (n : Bool) (a : BitVec 3) (p : BitVec 2) : Decodes (.pfirst d n a p) := by
  intro word hw
  obtain ⟨hc, rfl, rfl, rfl, rfl, -⟩ := reads [.bits d 17, .bit n 16, .bits a 9, .bits p 0] hw rfl rfl
  delta decodeWord
  rw [hc 23 7 rfl]
  exact skip (mt And.left (hc.ne 2 7 rfl rfl)) (if_pos ⟨hc 2 7 rfl, hc 12 4 rfl, hc 22 1 rfl, hc 30 1 rfl⟩)

/-! ## A store and a push (R141, R158) -/

/-- A store that takes its address from no pop is not read as a push (R141, R158). -/
theorem decodes_vstg (d : BitVec 6) (a b : Src) (p : BitVec 2) (ha : Machine.popped a = false) : Decodes (.vstg ⟨d, a, b, p⟩) := by
  intro word hw
  obtain ⟨hc, rfl, rfl, rfl, rfl, -⟩ := reads [.bits d 17, .src a 15 9, .src b 8 2, .bits p 0] hw rfl rfl
  have hpush : cut word 13 4 ≠ 5 := fun h => by
    have hm : cut word 15 1 = 1 := (cut_within (lo := 13) (k := 2) (n := 4) (by decide)).trans (by rw [h]; rfl)
    have hf : cut word 13 2 = 1 := (cut_within (lo := 13) (k := 0) (n := 4) (by decide)).trans (by rw [h]; rfl)
    have hd : cut word 9 6 / 16 % 4 = 1 := (cut_within (lo := 9) (n := 6) (k := 4) (by decide)).symm.trans hf
    have hl : cut word 9 6 < 64 := Nat.mod_lt _ (by decide)
    simp only [Machine.popped, src, flag, hm, fld, BitVec.toNat_ofNat, beq_self_eq_true, Bool.true_and, Bool.and_eq_false_imp,
      decide_eq_true_eq, decide_eq_false_iff_not] at ha
    omega
  delta decodeWord
  rw [hc 23 7 rfl]
  exact skip (fun h => hpush h.2.1) (skip (mt And.left (hc.ne 16 1 rfl rfl)) (if_pos ⟨hc 16 1 rfl, hc 30 1 rfl⟩))

theorem unpopped_of_wf {o : DAB6} (h : Instr.wf (.vstg o) = true) : Machine.popped o.a = false := by
  change ((!Machine.popped o.a && _) && _) = true at h
  simp only [Bool.and_eq_true, Bool.not_eq_true'] at h
  exact h.1.1

/-- Settles O47, form by form. -/
theorem roundTrip : Obligations.RoundTrip := by
  unfold Obligations.RoundTrip
  intro i word hwf hw
  cases i with
  | add o => exact ⟨Laws.F.add o word hw, decodes_firstOfPair o.g o.d o.n o.a o.b o.p _ (by simp) word hw⟩
  | and o => exact ⟨Laws.F.and o word hw, decodes_firstOfPair o.g o.d o.n o.a o.b o.p _ (by simp) word hw⟩
  | or o => exact ⟨Laws.F.or o word hw, decodes_firstOfPair o.g o.d o.n o.a o.b o.p _ (by simp) word hw⟩
  | sll o => exact ⟨Laws.F.sll o word hw, decodes_firstOfPair o.g o.d o.n o.a o.b o.p _ (by simp) word hw⟩
  | sra o => exact ⟨Laws.F.sra o word hw, decodes_firstOfPair o.g o.d o.n o.a o.b o.p _ (by simp) word hw⟩
  | ror o => exact ⟨Laws.F.ror o word hw, decodes_firstOfPair o.g o.d o.n o.a o.b o.p _ (by simp) word hw⟩
  | slt o => exact ⟨Laws.F.slt o word hw, decodes_firstOfPair o.g o.d o.n o.a o.b o.p _ (by simp) word hw⟩
  | min o => exact ⟨Laws.F.min o word hw, decodes_firstOfPair o.g o.d o.n o.a o.b o.p _ (by simp) word hw⟩
  | minu o => exact ⟨Laws.F.minu o word hw, decodes_firstOfPair o.g o.d o.n o.a o.b o.p _ (by simp) word hw⟩
  | mul o => exact ⟨Laws.F.mul o word hw, decodes_firstOfPair o.g o.d o.n o.a o.b o.p _ (by simp) word hw⟩
  | mulhu o => exact ⟨Laws.F.mulhu o word hw, decodes_firstOfPair o.g o.d o.n o.a o.b o.p _ (by simp) word hw⟩
  | divu o => exact ⟨Laws.F.divu o word hw, decodes_firstOfPair o.g o.d o.n o.a o.b o.p _ (by simp) word hw⟩
  | remu o => exact ⟨Laws.F.remu o word hw, decodes_firstOfPair o.g o.d o.n o.a o.b o.p _ (by simp) word hw⟩
  | sub o => exact ⟨Laws.F.sub o word hw, decodes_secondOfPair o.g o.d o.n o.a o.b o.p _ (by simp) word hw⟩
  | andn o => exact ⟨Laws.F.andn o word hw, decodes_secondOfPair o.g o.d o.n o.a o.b o.p _ (by simp) word hw⟩
  | xor o => exact ⟨Laws.F.xor o word hw, decodes_secondOfPair o.g o.d o.n o.a o.b o.p _ (by simp) word hw⟩
  | srl o => exact ⟨Laws.F.srl o word hw, decodes_secondOfPair o.g o.d o.n o.a o.b o.p _ (by simp) word hw⟩
  | rol o => exact ⟨Laws.F.rol o word hw, decodes_secondOfPair o.g o.d o.n o.a o.b o.p _ (by simp) word hw⟩
  | lea o => exact ⟨Laws.F.lea o word hw, decodes_secondOfPair o.g o.d o.n o.a o.b o.p _ (by simp) word hw⟩
  | sltu o => exact ⟨Laws.F.sltu o word hw, decodes_secondOfPair o.g o.d o.n o.a o.b o.p _ (by simp) word hw⟩
  | max o => exact ⟨Laws.F.max o word hw, decodes_secondOfPair o.g o.d o.n o.a o.b o.p _ (by simp) word hw⟩
  | maxu o => exact ⟨Laws.F.maxu o word hw, decodes_secondOfPair o.g o.d o.n o.a o.b o.p _ (by simp) word hw⟩
  | mulh o => exact ⟨Laws.F.mulh o word hw, decodes_secondOfPair o.g o.d o.n o.a o.b o.p _ (by simp) word hw⟩
  | div o => exact ⟨Laws.F.div o word hw, decodes_secondOfPair o.g o.d o.n o.a o.b o.p _ (by simp) word hw⟩
  | rem o => exact ⟨Laws.F.rem o word hw, decodes_secondOfPair o.g o.d o.n o.a o.b o.p _ (by simp) word hw⟩
  | sel o => exact ⟨Laws.F.sel o word hw, decodes_secondOfPair o.g o.d o.n o.a o.b o.p _ (by simp) word hw⟩
  | addi o => exact ⟨Laws.F.addi o word hw, decodes_firstImmediate o.g o.d o.n o.a o.imm o.p _ (by simp) word hw⟩
  | ori o => exact ⟨Laws.F.ori o word hw, decodes_firstImmediate o.g o.d o.n o.a o.imm o.p _ (by simp) word hw⟩
  | andi o => exact ⟨Laws.F.andi o word hw, decodes_secondImmediate o.g o.d o.n o.a o.imm o.p _ (by simp) word hw⟩
  | xori o => exact ⟨Laws.F.xori o word hw, decodes_secondImmediate o.g o.d o.n o.a o.imm o.p _ (by simp) word hw⟩
  | slli o => exact ⟨Laws.F.slli o word hw, decodes_slli o.g o.d o.n o.a o.sh o.p word hw⟩
  | srli o => exact ⟨Laws.F.srli o word hw, decodes_srli o.g o.d o.n o.a o.sh o.p word hw⟩
  | srai o => exact ⟨Laws.F.srai o word hw, decodes_srai o.g o.d o.n o.a o.sh o.p word hw⟩
  | nop => exact ⟨Laws.F.nop word hw, decodes_nop word hw⟩
  | done => exact ⟨Laws.F.done word hw, decodes_done word hw⟩
  | yield => exact ⟨Laws.F.yield word hw, decodes_yield word hw⟩
  | ifence => exact ⟨Laws.F.ifence word hw, decodes_ifence word hw⟩
  | eret => exact ⟨Laws.F.eret word hw, decodes_eret word hw⟩
  | bcc c a off => exact ⟨Laws.F.bcc c a off word hw, decodes_bcc c a off word hw⟩
  | jal d imm => exact ⟨Laws.F.jal d imm word hw, decodes_jal d imm word hw⟩
  | jr d a p => exact ⟨Laws.F.jr d a p word hw, decodes_jump d a p _ (by simp) word hw⟩
  | lnch d a p => exact ⟨Laws.F.lnch d a p word hw, decodes_jump d a p _ (by simp) word hw⟩
  | jrGd d a l p => exact ⟨Laws.F.jrGd d a l p word hw, decodes_jrGd d a l p word hw⟩
  | looph o => exact ⟨Laws.F.looph o word hw, decodes_looph o.d o.a o.b o.p _ (by simp) word hw⟩
  | bind o => exact ⟨Laws.F.bind o word hw, decodes_looph o.d o.a o.b o.p _ (by simp) word hw⟩
  | trap a imm p => exact ⟨Laws.F.trap a imm p word hw, decodes_trap a imm p _ (by simp) word hw⟩
  | cwr a imm p => exact ⟨Laws.F.cwr a imm p word hw, decodes_trap a imm p _ (by simp) word hw⟩
  | crdr d imm p => exact ⟨Laws.F.crdr d imm p word hw, decodes_crdr d imm p word hw⟩
  | rdtime d => exact ⟨Laws.F.rdtime d word hw, decodes_rdtime d word hw⟩
  | wnext d => exact ⟨Laws.F.wnext d word hw, decodes_wnext d word hw⟩
  | wpos d k => exact ⟨Laws.F.wpos d k word hw, decodes_wpos d k word hw⟩
  | waitt a p => exact ⟨Laws.F.waitt a p word hw, decodes_waitt a p word hw⟩
  | clz o => exact ⟨Laws.F.clz o word hw, decodes_clz o.g o.d o.n o.a o.p word hw⟩
  | ctz o => exact ⟨Laws.F.ctz o word hw, decodes_ctz o.g o.d o.n o.a o.p word hw⟩
  | popc o => exact ⟨Laws.F.popc o word hw, decodes_popc o.g o.d o.n o.a o.p word hw⟩
  | sext o w => exact ⟨Laws.F.sext o w word hw, decodes_sext o.g o.d o.n o.a o.p w word hw⟩
  | zext o w => exact ⟨Laws.F.zext o w word hw, decodes_zext o.g o.d o.n o.a o.p w word hw⟩
  | crd g d n k p => exact ⟨Laws.F.crd g d n k p word hw, decodes_crd g d n k p word hw⟩
  | li g d imm => exact ⟨Laws.F.li g d imm word hw, decodes_li g d imm word hw⟩
  | lih g d imm => exact ⟨Laws.F.lih g d imm word hw, decodes_lih g d imm word hw⟩
  | pset imm => exact ⟨Laws.F.pset imm word hw, decodes_pset imm word hw⟩
  | vadd o => exact ⟨Laws.F.vadd o word hw, decodes_vectorPair o.g o.d o.n o.a o.b o.p _ (by simp) word hw⟩
  | vsub o => exact ⟨Laws.F.vsub o word hw, decodes_vectorPair o.g o.d o.n o.a o.b o.p _ (by simp) word hw⟩
  | vmul o => exact ⟨Laws.F.vmul o word hw, decodes_vectorPair o.g o.d o.n o.a o.b o.p _ (by simp) word hw⟩
  | vmulh o => exact ⟨Laws.F.vmulh o word hw, decodes_vectorPair o.g o.d o.n o.a o.b o.p _ (by simp) word hw⟩
  | vmad o => exact ⟨Laws.F.vmad o word hw, decodes_vectorPair o.g o.d o.n o.a o.b o.p _ (by simp) word hw⟩
  | vand o => exact ⟨Laws.F.vand o word hw, decodes_vectorPair o.g o.d o.n o.a o.b o.p _ (by simp) word hw⟩
  | vor o => exact ⟨Laws.F.vor o word hw, decodes_vectorPair o.g o.d o.n o.a o.b o.p _ (by simp) word hw⟩
  | vxor o => exact ⟨Laws.F.vxor o word hw, decodes_vectorPair o.g o.d o.n o.a o.b o.p _ (by simp) word hw⟩
  | vshl o => exact ⟨Laws.F.vshl o word hw, decodes_vectorPair o.g o.d o.n o.a o.b o.p _ (by simp) word hw⟩
  | vshr o => exact ⟨Laws.F.vshr o word hw, decodes_vectorPair o.g o.d o.n o.a o.b o.p _ (by simp) word hw⟩
  | vsra o => exact ⟨Laws.F.vsra o word hw, decodes_vectorPair o.g o.d o.n o.a o.b o.p _ (by simp) word hw⟩
  | vmin o => exact ⟨Laws.F.vmin o word hw, decodes_vectorPair o.g o.d o.n o.a o.b o.p _ (by simp) word hw⟩
  | vmax o => exact ⟨Laws.F.vmax o word hw, decodes_vectorPair o.g o.d o.n o.a o.b o.p _ (by simp) word hw⟩
  | vsel o => exact ⟨Laws.F.vsel o word hw, decodes_vectorPair o.g o.d o.n o.a o.b o.p _ (by simp) word hw⟩
  | vfadd o => exact ⟨Laws.F.vfadd o word hw, decodes_vectorPair o.g o.d o.n o.a o.b o.p _ (by simp) word hw⟩
  | vfsub o => exact ⟨Laws.F.vfsub o word hw, decodes_vectorPair o.g o.d o.n o.a o.b o.p _ (by simp) word hw⟩
  | vfmul o => exact ⟨Laws.F.vfmul o word hw, decodes_vectorPair o.g o.d o.n o.a o.b o.p _ (by simp) word hw⟩
  | vffma o => exact ⟨Laws.F.vffma o word hw, decodes_vectorPair o.g o.d o.n o.a o.b o.p _ (by simp) word hw⟩
  | vfmin o => exact ⟨Laws.F.vfmin o word hw, decodes_vectorPair o.g o.d o.n o.a o.b o.p _ (by simp) word hw⟩
  | vfmax o => exact ⟨Laws.F.vfmax o word hw, decodes_vectorPair o.g o.d o.n o.a o.b o.p _ (by simp) word hw⟩
  | vfsgn o => exact ⟨Laws.F.vfsgn o word hw, decodes_vectorPair o.g o.d o.n o.a o.b o.p _ (by simp) word hw⟩
  | vcmp o => exact ⟨Laws.F.vcmp o word hw, decodes_vectorCompare o.g o.c o.k o.n o.a o.b o.p _ (by simp) word hw⟩
  | vfcmp o => exact ⟨Laws.F.vfcmp o word hw, decodes_vectorCompare o.g o.c o.k o.n o.a o.b o.p _ (by simp) word hw⟩
  | vabs o => exact ⟨Laws.F.vabs o word hw, decodes_vectorUnaryFirst o.g o.d o.n o.a o.p _ (by simp) word hw⟩
  | vfclass o => exact ⟨Laws.F.vfclass o word hw, decodes_vectorUnaryFirst o.g o.d o.n o.a o.p _ (by simp) word hw⟩
  | vrcp o => exact ⟨Laws.F.vrcp o word hw, decodes_vectorUnaryFirst o.g o.d o.n o.a o.p _ (by simp) word hw⟩
  | vclz o => exact ⟨Laws.F.vclz o word hw, decodes_vectorUnarySecond o.g o.d o.n o.a o.p _ (by simp) word hw⟩
  | vrsq o => exact ⟨Laws.F.vrsq o word hw, decodes_vectorUnarySecond o.g o.d o.n o.a o.p _ (by simp) word hw⟩
  | vpopc o => exact ⟨Laws.F.vpopc o word hw, decodes_vectorUnaryThird o.g o.d o.n o.a o.p _ (by simp) word hw⟩
  | vsqrt o => exact ⟨Laws.F.vsqrt o word hw, decodes_vectorUnaryThird o.g o.d o.n o.a o.p _ (by simp) word hw⟩
  | vexp2 o => exact ⟨Laws.F.vexp2 o word hw, decodes_vexp2 o.g o.d o.n o.a o.p word hw⟩
  | vlog2 o => exact ⟨Laws.F.vlog2 o word hw, decodes_vlog2 o.g o.d o.n o.a o.p word hw⟩
  | vtanh o => exact ⟨Laws.F.vtanh o word hw, decodes_vtanh o.g o.d o.n o.a o.p word hw⟩
  | vsilu o => exact ⟨Laws.F.vsilu o word hw, decodes_vsilu o.g o.d o.n o.a o.p word hw⟩
  | vsat o t => exact ⟨Laws.F.vsat o t word hw, decodes_vsat o.g o.d o.n o.a o.p t word hw⟩
  | vcvt o part sr c => exact ⟨Laws.F.vcvt o part sr c word hw, decodes_vcvt o.g o.d o.n o.a o.p part sr c word hw⟩
  | vqnt o sr c => exact ⟨Laws.F.vqnt o sr c word hw, decodes_vqnt o.g o.d o.n o.a o.p sr c word hw⟩
  | vdqnt o h c => exact ⟨Laws.F.vdqnt o h c word hw, decodes_vdqnt o.g o.d o.n o.a o.p h c word hw⟩
  | vperm o => exact ⟨Laws.F.vperm o word hw, decodes_suppressible o.d o.n o.a o.b o.p _ (by simp) word hw⟩
  | vxcl o => exact ⟨Laws.F.vxcl o word hw, decodes_suppressible o.d o.n o.a o.b o.p _ (by simp) word hw⟩
  | vshf o => exact ⟨Laws.F.vshf o word hw, decodes_suppressible o.d o.n o.a o.b o.p _ (by simp) word hw⟩
  | vldg o => exact ⟨Laws.F.vldg o word hw, decodes_suppressible o.d o.n o.a o.b o.p _ (by simp) word hw⟩
  | vgath o => exact ⟨Laws.F.vgath o word hw, decodes_suppressible o.d o.n o.a o.b o.p _ (by simp) word hw⟩
  | vscat o => exact ⟨Laws.F.vscat o word hw, decodes_suppressible o.d o.n o.a o.b o.p _ (by simp) word hw⟩
  | vamo o => exact ⟨Laws.F.vamo o word hw, decodes_suppressible o.d o.n o.a o.b o.p _ (by simp) word hw⟩
  | bxpect o => exact ⟨Laws.F.bxpect o word hw, decodes_suppressible o.d o.n o.a o.b o.p _ (by simp) word hw⟩
  | vins o => exact ⟨Laws.F.vins o word hw, decodes_suppressible o.d o.n o.a o.b o.p _ (by simp) word hw⟩
  | amo o => exact ⟨Laws.F.amo o word hw, decodes_scalarResult o.d o.n o.a o.b o.p _ (by simp) word hw⟩
  | amog o => exact ⟨Laws.F.amog o word hw, decodes_scalarResult o.d o.n o.a o.b o.p _ (by simp) word hw⟩
  | vext o => exact ⟨Laws.F.vext o word hw, decodes_scalarResult o.d o.n o.a o.b o.p _ (by simp) word hw⟩
  | ld o => exact ⟨Laws.F.ld o word hw, decodes_load o.d o.n o.a o.imm o.p _ (by simp) word hw⟩
  | ldg o => exact ⟨Laws.F.ldg o word hw, decodes_load o.d o.n o.a o.imm o.p _ (by simp) word hw⟩
  | st o => exact ⟨Laws.F.st o word hw, decodes_store o.d o.a o.imm o.p _ (by simp) word hw⟩
  | stg o => exact ⟨Laws.F.stg o word hw, decodes_store o.d o.a o.imm o.p _ (by simp) word hw⟩
  | stGd o => exact ⟨Laws.F.stGd o word hw, decodes_guardedStore o.l o.a o.imm o.p _ (by simp) word hw⟩
  | stgGd o => exact ⟨Laws.F.stgGd o word hw, decodes_guardedStore o.l o.a o.imm o.p _ (by simp) word hw⟩
  | vstGd o => exact ⟨Laws.F.vstGd o word hw, decodes_guardedStore o.l o.a o.imm o.p _ (by simp) word hw⟩
  | vld d n a imm p => exact ⟨Laws.F.vld d n a imm p word hw, decodes_vld d n a imm p word hw⟩
  | vst d a imm p => exact ⟨Laws.F.vst d a imm p word hw, decodes_vst d a imm p word hw⟩
  | vstgGd l a b p => exact ⟨Laws.F.vstgGd l a b p word hw, decodes_vstgGd l a b p word hw⟩
  | vstgPush d k p => exact ⟨Laws.F.vstgPush d k p word hw, decodes_vstgPush d k p word hw⟩
  | xstat d k p => exact ⟨Laws.F.xstat d k p word hw, decodes_xstat d k p word hw⟩
  | fence s q r => exact ⟨Laws.F.fence s q r word hw, decodes_fence s q r word hw⟩
  | qfence m => exact ⟨Laws.F.qfence m word hw, decodes_qfence m word hw⟩
  | cinv d a p => exact ⟨Laws.F.cinv d a p word hw, decodes_cinv d a p word hw⟩
  | cwb d a p => exact ⟨Laws.F.cwb d a p word hw, decodes_cwb d a p word hw⟩
  | acq d n a s p => exact ⟨Laws.F.acq d n a s p word hw, decodes_acq d n a s p word hw⟩
  | rel d n a s p => exact ⟨Laws.F.rel d n a s p word hw, decodes_rel d n a s p word hw⟩
  | unbind n a p => exact ⟨Laws.F.unbind n a p word hw, decodes_imageMove n a p _ (by simp) word hw⟩
  | rsave n a p => exact ⟨Laws.F.rsave n a p word hw, decodes_imageMove n a p _ (by simp) word hw⟩
  | rload n a p => exact ⟨Laws.F.rload n a p word hw, decodes_imageMove n a p _ (by simp) word hw⟩
  | fcopy o => exact ⟨Laws.F.fcopy o word hw, decodes_command o.q o.a o.p _ (by simp) word hw⟩
  | fgath o => exact ⟨Laws.F.fgath o word hw, decodes_command o.q o.a o.p _ (by simp) word hw⟩
  | fput o => exact ⟨Laws.F.fput o word hw, decodes_command o.q o.a o.p _ (by simp) word hw⟩
  | fget o => exact ⟨Laws.F.fget o word hw, decodes_command o.q o.a o.p _ (by simp) word hw⟩
  | fcoll o => exact ⟨Laws.F.fcoll o word hw, decodes_command o.q o.a o.p _ (by simp) word hw⟩
  | fa2a o => exact ⟨Laws.F.fa2a o word hw, decodes_command o.q o.a o.p _ (by simp) word hw⟩
  | fwait m p => exact ⟨Laws.F.fwait m p word hw, decodes_fwait m p word hw⟩
  | binit n a b p => exact ⟨Laws.F.binit n a b p word hw, decodes_seed n a b p _ (by simp) word hw⟩
  | rseed n a b p => exact ⟨Laws.F.rseed n a b p word hw, decodes_seed n a b p _ (by simp) word hw⟩
  | barv n a y p => exact ⟨Laws.F.barv n a y p word hw, decodes_barv n a y p word hw⟩
  | barvRel s n a y p => exact ⟨Laws.F.barvRel s n a y p word hw, decodes_barvRel s n a y p word hw⟩
  | bwait s n a b p => exact ⟨Laws.F.bwait s n a b p word hw, decodes_bwait s n a b p word hw⟩
  | copen d n a p => exact ⟨Laws.F.copen d n a p word hw, decodes_copen d n a p word hw⟩
  | vbcast d n a p => exact ⟨Laws.F.vbcast d n a p word hw, decodes_vbcast d n a p word hw⟩
  | cclose p => exact ⟨Laws.F.cclose p word hw, decodes_cclose p word hw⟩
  | tchk l k p => exact ⟨Laws.F.tchk l k p word hw, decodes_tchk l k p word hw⟩
  | sdesc o => exact ⟨Laws.F.sdesc o word hw, decodes_unitOne o.k o.a o.p _ (by simp) word hw⟩
  | xprog o => exact ⟨Laws.F.xprog o word hw, decodes_unitOne o.k o.a o.p _ (by simp) word hw⟩
  | xremap o => exact ⟨Laws.F.xremap o word hw, decodes_unitOne o.k o.a o.p _ (by simp) word hw⟩
  | xdrift o => exact ⟨Laws.F.xdrift o word hw, decodes_unitOne o.k o.a o.p _ (by simp) word hw⟩
  | xfb o => exact ⟨Laws.F.xfb o word hw, decodes_unitOne o.k o.a o.p _ (by simp) word hw⟩
  | xcalLdsc o => exact ⟨Laws.F.xcalLdsc o word hw, decodes_xcalLdsc o.k o.a o.p word hw⟩
  | xcalLdog o => exact ⟨Laws.F.xcalLdog o word hw, decodes_xcalLdog o.k o.a o.p word hw⟩
  | xcalStog o => exact ⟨Laws.F.xcalStog o word hw, decodes_xcalStog o.k o.a o.p word hw⟩
  | sbind k p => exact ⟨Laws.F.sbind k p word hw, decodes_sbind k p _ (by simp) word hw⟩
  | xcalMeas k p => exact ⟨Laws.F.xcalMeas k p word hw, decodes_sbind k p _ (by simp) word hw⟩
  | sclose k p => exact ⟨Laws.F.sclose k p word hw, decodes_sclose k p word hw⟩
  | tmma o => exact ⟨Laws.F.tmma o word hw, decodes_unitTwo o.k o.a o.b o.p _ (by simp) word hw⟩
  | tmmg o => exact ⟨Laws.F.tmmg o word hw, decodes_unitTwo o.k o.a o.b o.p _ (by simp) word hw⟩
  | xload o => exact ⟨Laws.F.xload o word hw, decodes_unitTwo o.k o.a o.b o.p _ (by simp) word hw⟩
  | xver o => exact ⟨Laws.F.xver o word hw, decodes_unitTwo o.k o.a o.b o.p _ (by simp) word hw⟩
  | kvstrm o => exact ⟨Laws.F.kvstrm o word hw, decodes_unitTwo o.k o.a o.b o.p _ (by simp) word hw⟩
  | tmmaZ o => exact ⟨Laws.F.tmmaZ o word hw, decodes_clearingProduct o.k o.a o.b o.p _ (by simp) word hw⟩
  | tmmgZ o => exact ⟨Laws.F.tmmgZ o word hw, decodes_clearingProduct o.k o.a o.b o.p _ (by simp) word hw⟩
  | zzero e t p => exact ⟨Laws.F.zzero e t p word hw, decodes_zzero e t p word hw⟩
  | zld e t a p => exact ⟨Laws.F.zld e t a p word hw, decodes_zld e t a p word hw⟩
  | zst t a f p => exact ⟨Laws.F.zst t a f p word hw, decodes_zst t a f p word hw⟩
  | zstR t a f p => exact ⟨Laws.F.zstR t a f p word hw, decodes_zstR t a f p word hw⟩
  | zcvt t u b p => exact ⟨Laws.F.zcvt t u b p word hw, decodes_zcvt t u b p word hw⟩
  | zacc t u p => exact ⟨Laws.F.zacc t u p word hw, decodes_zacc t u p word hw⟩
  | xmv z o => exact ⟨Laws.F.xmv z o word hw, decodes_xmv z o.k o.a o.b o.p word hw⟩
  | kvnew a b p => exact ⟨Laws.F.kvnew a b p word hw, decodes_kvPair a b p _ (by simp) word hw⟩
  | kvrefInc a b p => exact ⟨Laws.F.kvrefInc a b p word hw, decodes_kvPair a b p _ (by simp) word hw⟩
  | kvtrunc a b p => exact ⟨Laws.F.kvtrunc a b p word hw, decodes_kvPair a b p _ (by simp) word hw⟩
  | kvrefDec a b p => exact ⟨Laws.F.kvrefDec a b p word hw, decodes_kvrefDec a b p word hw⟩
  | kvapp d a b p => exact ⟨Laws.F.kvapp d a b p word hw, decodes_kvResult d a b p _ (by simp) word hw⟩
  | kvfind d a b p => exact ⟨Laws.F.kvfind d a b p word hw, decodes_kvResult d a b p _ (by simp) word hw⟩
  | kvpub d a b p => exact ⟨Laws.F.kvpub d a b p word hw, decodes_kvResult d a b p _ (by simp) word hw⟩
  | kvcow a p => exact ⟨Laws.F.kvcow a p word hw, decodes_kvcow a p word hw⟩
  | vtrn d p => exact ⟨Laws.F.vtrn d p word hw, decodes_vtrn d p word hw⟩
  | vred d n a op h p => exact ⟨Laws.F.vred d n a op h p word hw, decodes_vred d n a op h p word hw⟩
  | vscan d n a op h p => exact ⟨Laws.F.vscan d n a op h p word hw, decodes_vscan d n a op h p word hw⟩
  | viota d n c p => exact ⟨Laws.F.viota d n c p word hw, decodes_viota d n c p word hw⟩
  | pand d n a b p => exact ⟨Laws.F.pand d n a b p word hw, decodes_pand d n a b p word hw⟩
  | por d n a b p => exact ⟨Laws.F.por d n a b p word hw, decodes_por d n a b p word hw⟩
  | pxor d n a b p => exact ⟨Laws.F.pxor d n a b p word hw, decodes_pxor d n a b p word hw⟩
  | pnot d n a p => exact ⟨Laws.F.pnot d n a p word hw, decodes_pnot d n a p word hw⟩
  | ppop d n a p => exact ⟨Laws.F.ppop d n a p word hw, decodes_ppop d n a p word hw⟩
  | pfirst d n a p => exact ⟨Laws.F.pfirst d n a p word hw, decodes_pfirst d n a p word hw⟩
  | vstg o => exact ⟨Laws.F.vstg o word hw, decodes_vstg o.d o.a o.b o.p (unpopped_of_wf hwf) word hw⟩
  | _ => cases hw

end Sys2Proof.Decoding
end

section
/-! SUPPORT. Integer vector operations (R90, R190, R193), settled (O3): what each computes in an element, modulo 2^w. -/

namespace Sys2Proof.Machine

open Sys2Proof.Spec

/-! ## Slots -/

theorem elem_lt (w : Nat) (v : Vec) (e : Nat) : elem w v e < 2 ^ w := BitVec.isLt _

/-- A twin raises no flag, and an integer operation none at all (R189). -/
theorem resultOf_flags (s : State) (v : View) (val : Vec) (mask : Pred) : (resultOf s v val mask 0).flags = 0 := ite_self _

/-- A vector slot whose elements are those of `g` modulo 2^w carries `g`. -/
theorem carries_elementwise {s : State} {v : View} {f g : Nat → Nat} (h : ∀ e, f e % 2 ^ s.me.iw = g e % 2 ^ s.me.iw) :
    Carries s s.me.iw (resultOf s v (elementwise s.me.iw s.me.ap (fun e => (f e, 0))).1 s.me.ap 0) g :=
  ⟨rfl, fun e he => (elem_elementwise _ _ he).trans (by rw [h e])⟩

/-- An integer slot of two sources: it carries what its operation is modulo 2^w. -/
theorem vecInt_flies {i : VRR → Instr} {o : VRR} {s : State} {f : Nat → Bool → Nat → Nat → Nat → Nat} {g : Nat → Nat → Nat → Nat}
    (hi : exec (i o) s = vecInt (viewOf (i o)) f s)
    (hv : viewOf (i o) = vVRR .v 2 o ∧ (∀ a b d d', f s.me.iw s.me.us a b d = f s.me.iw s.me.us a b d') ∨
      viewOf (i o) = vVRRd .v 2 o)
    (hf : ∀ a b d, a < 2 ^ s.me.iw → b < 2 ^ s.me.iw → f s.me.iw s.me.us a b d % 2 ^ s.me.iw = g a b d % 2 ^ s.me.iw) :
    VecInt i o s g := by
  intro hc
  rw [hi, vecInt_clear hc]
  rcases hv with ⟨hv, hd⟩ | hv <;> rw [hv]
  · exact ⟨_, rfl, resultOf_flags .., ⟨rfl, rfl, rfl, rfl⟩,
      carries_elementwise fun e => (congrArg (· % _) (hd _ _ _ _)).trans (hf _ _ _ (elem_lt ..) (elem_lt ..))⟩
  · exact ⟨_, rfl, resultOf_flags .., ⟨rfl, rfl, rfl, rfl⟩, carries_elementwise fun e => hf _ _ _ (elem_lt ..) (elem_lt ..)⟩

/-- An integer slot of one source. -/
theorem vecUnary_flies {i : VU → Instr} {o : VU} {s : State} {v : View} {k : Bool} {f : Nat → Bool → Nat → Nat → Nat → Nat} {g : Nat → Nat}
    (hi : exec (i o) s = vecInt v f s) (he : viewOf (i o) = v) (hv : v = { vVU .v 2 o with encOk := k })
    (hf : ∀ a b d, a < 2 ^ s.me.iw → f s.me.iw s.me.us a b d % 2 ^ s.me.iw = g a % 2 ^ s.me.iw) :
    VecUnary i o s 2 (vecLatch s o.g) g := by
  intro hc
  rw [he, hv] at hc
  rw [hi, he, hv, vecInt_clear hc]
  exact ⟨_, rfl, resultOf_flags .., ⟨rfl, rfl, rfl, rfl⟩, carries_elementwise fun e => hf _ _ _ (elem_lt ..)⟩

/-! ## Numbers -/

theorem wrap_eq_modW (s : State) (i : Int) : wrap s.me.iw i = modW s i := by
  simp [wrap, modW]

/-- A difference modulo 2^w. -/
theorem sub_modW {s : State} {a b : Nat} (hb : b < 2 ^ s.me.iw) :
    (a + (2 ^ s.me.iw - b)) % 2 ^ s.me.iw = modW s (a - b) % 2 ^ s.me.iw := by
  have hm : ((a : Int) - b) % 2 ^ s.me.iw = ((a + (2 ^ s.me.iw - b) : Nat) : Int) % (2 ^ s.me.iw : Nat) := by
    push_cast [hb.le]
    rw [← add_sub_assoc, add_sub_right_comm, Int.add_emod_right]
  rw [modW, hm, ← Int.natCast_emod, Int.toNat_natCast, Nat.mod_mod]

/-- The number of an unsigned element is not negative. -/
theorem num_us {s : State} {a : Nat} (h : s.me.us = true) : num s a = a := if_pos h

theorem num_signed {s : State} {a : Nat} (h : s.me.us = false) : num s a = signedOf s.me.iw a := if_neg (by simp [h])

theorem signedOf_eq {w a : Nat} (ha : a < 2 ^ w) : signedOf w a = if 2 * a < 2 ^ w then (a : Int) else a - (2 ^ w : Nat) := by
  rw [signedOf, BitVec.toInt_eq_toNat_cond, BitVec.toNat_ofNat, Nat.mod_eq_of_lt ha]

/-- A signed element that is not negative is its bits. -/
theorem signedOf_of_nonneg {w a : Nat} (ha : a < 2 ^ w) (h : 0 ≤ signedOf w a) : signedOf w a = a ∧ a ≤ 2 ^ (w - 1) - 1 := by
  have hw : 2 ^ w ≤ 2 * 2 ^ (w - 1) := by
    rw [← Nat.pow_succ']
    exact Nat.pow_le_pow_right (by decide) (by omega)
  rw [signedOf_eq ha] at h ⊢
  generalize 2 ^ w = p at *
  split at h
  · rename_i hl
    exact ⟨if_pos hl, by omega⟩
  · omega

/-- Elements that stand for the same number are the same. -/
theorem num_inj {s : State} {a b : Nat} (ha : a < 2 ^ s.me.iw) (hb : b < 2 ^ s.me.iw) (h : num s a = num s b) : a = b := by
  cases hu : s.me.us with
  | true => rwa [num_us hu, num_us hu, Int.natCast_inj] at h
  | false =>
    rw [num_signed hu, num_signed hu, signedOf_eq ha, signedOf_eq hb] at h
    generalize 2 ^ s.me.iw = p at *
    split at h <;> split at h <;> omega

/-- The magnitude of an element, limited to that of the largest (R193). -/
theorem magnitude_eq {s : State} {a : Nat} (ha : a < 2 ^ s.me.iw) :
    (if s.me.us then a else Nat.min (signedOf s.me.iw a).natAbs (2 ^ (s.me.iw - 1) - 1)) =
      if num s a < 0 then min (num s a).natAbs (2 ^ (s.me.iw - 1) - 1) else a := by
  cases hu : s.me.us with
  | true => rw [num_us hu, if_pos rfl, if_neg (by omega)]
  | false =>
    rw [num_signed hu, if_neg Bool.false_ne_true]
    split
    · rfl
    · obtain ⟨he, hl⟩ := signedOf_of_nonneg ha (by omega)
      rw [he, Int.natAbs_natCast]
      exact Nat.min_eq_left hl

/-- The leading zeros of a number, by its logarithm. -/
theorem leadingZeros_eq {w a : Nat} (ha : a < 2 ^ w) : leadingZeros w a = w - Nat.log2 (2 * a + 1) := by
  unfold leadingZeros
  by_cases h0 : a = 0
  · subst h0
    rw [List.find?_range_eq_none.2 (by simp)]
    rfl
  · have hl : a.log2 < w := (Nat.log2_lt h0).2 ha
    have h2 : (2 * a + 1).log2 = a.log2 + 1 := by
      rw [Nat.log2_def, if_pos (by omega), show (2 * a + 1) / 2 = a by omega]
    have hf : (List.range w).find? (fun k => a.testBit (w - 1 - k)) = some (w - 1 - a.log2) := by
      rw [List.find?_range_eq_some]
      refine ⟨?_, List.mem_range.2 (by omega), fun j hj => ?_⟩
      · rw [show w - 1 - (w - 1 - a.log2) = a.log2 by omega]
        exact Nat.testBit_log2 h0
      · rw [Nat.testBit_lt_two_pow]
        · rfl
        · exact Nat.lt_of_lt_of_le Nat.lt_log2_self (Nat.pow_le_pow_right (by decide) (by omega))
    rw [hf, h2]
    exact Nat.sub_right_comm ..

/-- A number saturated to `n` bits (R193). -/
theorem saturated_eq {s : State} {a n : Nat} :
    (if s.me.us then Nat.min a (2 ^ n - 1) else wrap s.me.iw (clampInt (-(2 ^ (n - 1))) (2 ^ (n - 1) - 1) (signedOf s.me.iw a))) %
        2 ^ s.me.iw =
      modW s (if s.me.us then min (num s a) (2 ^ n - 1) else max (-2 ^ (n - 1)) (min (num s a) (2 ^ (n - 1) - 1))) % 2 ^ s.me.iw := by
  have hp : (1 : Int) ≤ 2 ^ (n - 1) := one_le_pow₀ (by decide)
  cases hu : s.me.us with
  | true =>
    rw [if_pos rfl, if_pos rfl, num_us hu, modW]
    have hm : min (a : Int) (2 ^ n - 1) = (min a (2 ^ n - 1) : Nat) := by
      push_cast [Nat.one_le_two_pow]
      rfl
    have hw : ((2 : Int) ^ s.me.iw) = (2 ^ s.me.iw : Nat) := by push_cast; rfl
    rw [hm, hw, ← Int.natCast_emod, Int.toNat_natCast, Nat.mod_mod]
  | false =>
    rw [if_neg Bool.false_ne_true, if_neg Bool.false_ne_true, num_signed hu, wrap_eq_modW]
    congr 2
    unfold clampInt
    omega

/-- The lesser of two numbers, the first where they are equal. -/
theorem lesser_eq {s : State} (a b : Nat) : (if num s b < num s a then b else a) = if num s a ≤ num s b then a else b := by
  simp only [← not_le, ite_not]

/-- The greater of two numbers. -/
theorem greater_eq {s : State} {a b : Nat} (ha : a < 2 ^ s.me.iw) (hb : b < 2 ^ s.me.iw) :
    (if num s a < num s b then b else a) = if num s a ≤ num s b then b else a := by
  by_cases h : num s a = num s b
  · rw [num_inj ha hb h, ite_self, ite_self]
  · simp only [lt_iff_le_and_ne, h, ne_eq, not_false_eq_true, and_true]

/-- Settles O3: an operation of the model and of the statement agree modulo 2^w on the elements of each. -/
theorem vectorIntegers : Obligations.VectorIntegers := by
  unfold Obligations.VectorIntegers
  refine ⟨fun o s => ⟨vecInt_flies (f := fun _ _ a b _ => a + b) rfl (.inl ⟨rfl, fun _ _ _ _ => rfl⟩) fun _ _ _ _ _ => rfl,
      vecInt_flies (f := fun w _ a b _ => a + (2 ^ w - b)) rfl (.inl ⟨rfl, fun _ _ _ _ => rfl⟩) fun _ _ _ _ hb => sub_modW hb,
      vecInt_flies (f := fun _ _ a b _ => a * b) rfl (.inl ⟨rfl, fun _ _ _ _ => rfl⟩) fun _ _ _ _ _ => rfl,
      vecInt_flies (f := fun w us a b _ => wrap w (numberOf w us a * numberOf w us b / 2 ^ w))
        rfl (.inl ⟨rfl, fun _ _ _ _ => rfl⟩) fun _ _ _ _ _ => congrArg (· % _) (wrap_eq_modW ..),
      vecInt_flies (f := fun _ _ a b d => a * b + d) rfl (.inr rfl) fun _ _ _ _ _ => rfl,
      vecInt_flies (f := fun _ _ a b _ => a.land b) rfl (.inl ⟨rfl, fun _ _ _ _ => rfl⟩) fun _ _ _ _ _ => rfl,
      vecInt_flies (f := fun _ _ a b _ => a.lor b) rfl (.inl ⟨rfl, fun _ _ _ _ => rfl⟩) fun _ _ _ _ _ => rfl,
      vecInt_flies (f := fun _ _ a b _ => a.xor b) rfl (.inl ⟨rfl, fun _ _ _ _ => rfl⟩) fun _ _ _ _ _ => rfl,
      vecInt_flies (f := fun w _ a b _ => a * 2 ^ vamount w b) rfl (.inl ⟨rfl, fun _ _ _ _ => rfl⟩) fun _ _ _ _ _ => rfl,
      vecInt_flies (f := fun w _ a b _ => a / 2 ^ vamount w b) rfl (.inl ⟨rfl, fun _ _ _ _ => rfl⟩) fun _ _ _ _ _ => rfl,
      vecInt_flies (f := fun w us a b _ => wrap w (numberOf w us a / 2 ^ vamount w b))
        rfl (.inl ⟨rfl, fun _ _ _ _ => rfl⟩) fun _ _ _ _ _ => congrArg (· % _) (wrap_eq_modW ..),
      vecInt_flies (f := fun w us a b _ => if numberOf w us b < numberOf w us a then b else a)
        rfl (.inl ⟨rfl, fun _ _ _ _ => rfl⟩) fun _ _ _ _ _ => congrArg (· % _) (lesser_eq ..),
      vecInt_flies (f := fun w us a b _ => if numberOf w us a < numberOf w us b then b else a)
        rfl (.inl ⟨rfl, fun _ _ _ _ => rfl⟩) fun _ _ _ ha hb => congrArg (· % _) (greater_eq ha hb)⟩, fun o s w hw => ?_⟩
  subst hw
  refine ⟨vecUnary_flies (k := true)
      (f := fun w us a _ _ => if us then a else Nat.min (signedOf w a).natAbs (2 ^ (w - 1) - 1)) rfl rfl rfl
        fun _ _ _ ha => congrArg (· % _) (magnitude_eq ha),
    vecUnary_flies (k := true) (f := fun w _ a _ _ => leadingZeros w a) rfl rfl rfl
      fun _ _ _ ha => congrArg (· % _) (leadingZeros_eq ha),
    vecUnary_flies (k := true) (f := fun w _ a _ _ => oneBits w a) rfl rfl rfl
      fun _ _ _ _ => congrArg (· % _) (List.countP_eq_length_filter ..).symm,
    fun t n hn hlt => ?_⟩
  have hs : satBits t = n := hn.symm
  subst hs
  have hv : viewOf (.vsat o t) = s.form (.vsat o t) := by simp [viewOf, State.form, hlt]
  exact vecUnary_flies (i := fun o => .vsat o t)
    (f := fun w us a _ _ => if us then Nat.min a (2 ^ satBits t - 1)
      else wrap w (clampInt (-(2 ^ (satBits t - 1))) (2 ^ (satBits t - 1) - 1) (signedOf w a)))
    rfl hv rfl fun _ _ _ _ => saturated_eq

end Sys2Proof.Machine
end

section
/-! SUPPORT. Control registers read and written (R89, R184 to R186, R321), settled (O13). -/

namespace Sys2Proof.Machine

open Sys2Proof.Spec

/-- A check of a slot that does not find what it needs stops it. -/
theorem need_not {ok : Bool} (c : Byte) (h : ok = false) : need ok c = stopWith 13 c := if_neg (by simp [h])

/-- A slot whose checks of R109 pass and whose own check asks for a trap stops with its cause. -/
theorem stopsWith_of_issue {s : State} {i : Instr} {pre own : State → Vals → SlotEnd} {act : Vals → State → State} {rank extra src : Nat}
    {cause : Byte} {info : Option Word} (he : exec i s = issuePre (viewOf i) pre own act s) (hp : Passes i s)
    (ho : own s (s.vals (viewOf i)) = .trap rank cause info extra src) : stopsWith i s cause :=
  ⟨rank, info, extra, src, by rw [he, issuePre_own hp.1 hp.2 (by simp [ho]), ho]⟩

/-- One whose own check asks for a block waits. -/
theorem waitsFor_of_issue {s : State} {i : Instr} {pre own : State → Vals → SlotEnd} {act : Vals → State → State} {w : Wait}
    (he : exec i s = issuePre (viewOf i) pre own act s) (hp : Passes i s) (ho : own s (s.vals (viewOf i)) = .block w) :
    waitsFor i s w := by
  rw [waitsFor, he, issuePre_own hp.1 hp.2 (by simp [ho]), ho]

variable (s : State) (a : Src) (imm : BitVec 7) (p : BitVec 2)

/-- What a write does once its value is one that its register takes. -/
theorem exec_cwr {n : Nat} (hn : n = imm.toNat) (hv : n = 0 → vmodeOk (srcS s a).toNat = true) (hc : s.Clear (viewOf (.cwr a imm p))) :
    exec (.cwr a imm p) s = .next ((s.noted (viewOf (.cwr a imm p))).writeCtlNow s.cur s.x n (srcS s a)) := by
  subst hn
  have hok : (imm != 0 || vmodeOk (srcS s a).toNat) = true := by
    by_cases h : imm = 0
    · rw [hv (congrArg BitVec.toNat h), Bool.or_true]
    · rw [bne_iff_ne.2 h, Bool.true_or]
  exact issue_clear hc (need_ok _ hok)

/-- A plain register is written with the results that are due next. -/
theorem writeCtlNow_plain {t : State} {core x n : Nat} {v : Word} (h : n < 0x10 ∨ 0x30 ≤ n) :
    t.writeCtlNow core x n v = t.deliverAs (.ctl n) none 1 (wide v) 0 0 := by
  rw [State.writeCtlNow, if_neg (by omega), if_neg (by omega), if_neg (by omega)]

theorem writeCtlNow_ferry {t : State} {core x n : Nat} {v : Word} (h : n = 0x10 ∨ n = 0x11) :
    t.writeCtlNow core x n v = t.writeFqstat core x (n - 0x10) v := if_pos h

theorem writeCtlNow_sound {t : State} {core x n : Nat} {v : Word} (h : n = 0x12 ∨ n = 0x13) :
    t.writeCtlNow core x n v = t.writeSndq core x (n - 0x12) v := by
  rw [State.writeCtlNow, if_neg (by omega), if_pos h]

theorem writeCtlNow_stream {t : State} {core x n : Nat} {v : Word} (h : 0x20 ≤ n ∧ n < 0x30) :
    t.writeCtlNow core x n v = if v.getLsbD 8 then t.resumeStream core x (n - 0x20) else t := by
  rw [State.writeCtlNow, if_neg (by omega), if_neg (by omega), if_pos (by omega)]

/-- A write that a read-only register takes is none (R185). -/
theorem writeCtl_readOnly (c : Ctx) (v : Word) :
    ∀ n ∈ [0x02, 0x03, 0x04, 0x05, 0x06, 0x0A, 0x0B, 0x0C, 0x30, 0x31, 0x32], c.writeCtl n v = c := by
  simp only [List.forall_mem_cons]
  exact ⟨rfl, rfl, rfl, rfl, rfl, rfl, rfl, rfl, rfl, rfl, rfl, nofun⟩

/-- FFLAGS has five bits (R185). -/
theorem low5_eq (v : Word) : (v.setWidth 5).setWidth 64 = v &&& 31 := by
  refine BitVec.eq_of_toNat_eq ?_
  have hm : v.toNat &&& 31 = v.toNat % 2 ^ 5 := Nat.and_two_pow_sub_one_eq_mod v.toNat 5
  have hl : v.toNat % 2 ^ 5 < 2 ^ 64 := by omega
  rw [BitVec.toNat_setWidth, BitVec.toNat_setWidth, BitVec.toNat_and, Nat.mod_eq_of_lt hl, ← hm]
  rfl

/-- Settles O13. -/
theorem controlRegisters : Obligations.ControlRegisters := by
  unfold Obligations.ControlRegisters
  refine ⟨fun d imm p s hc => issue_clear hc rfl, fun a imm p s n hn hv hc => ?_, fun a imm p s hp h0 hv => ?_,
    fun c n v => writeCtl_readOnly c v n, fun c v => ⟨low5_eq v, rfl, rfl, rfl, rfl, rfl, rfl, rfl⟩⟩
  · dsimp only
    rw [exec_cwr s a imm p hn hv hc]
    exact ⟨fun h => by rw [writeCtlNow_plain h]; rfl, fun h => by rw [writeCtlNow_ferry h]; rfl, fun h => by rw [writeCtlNow_sound h]; rfl,
      fun h => by rw [writeCtlNow_stream h]⟩
  · subst h0
    exact stopsWith_of_issue rfl hp (need_not _ hv)

end Sys2Proof.Machine
end

section
/-! SUPPORT. What a task starts with, and the ranges of its launch's lines (R88, R132, R309), settled (O39). -/

namespace Sys2Proof.Machine

/-- Of the registers of a task that starts only s1 and s2 are not zero (R88, R309). -/
theorem start_readS (l : Launch) (t : Task) (r : Nat) :
    (Ctx.start l t).readS r = if r = 1 then l.rcd.args else if r = 2 then .ofNat 64 l.id else 0 := by
  by_cases h1 : r = 1
  · subst h1
    rfl
  · by_cases h2 : r = 2
    · subst h2
      rfl
    · simp [Ctx.readS, Ctx.start, mget, mfind, h1, h2, Ne.symm h1, Ne.symm h2]

/-- The lines share out the tiles: each ends where the next begins, the first at 0 and the last at the end (R309). -/
theorem lineRange_shares (l : Launch) (h : 0 < l.lines) :
    (l.lineRange 0).next = 0 ∧ (l.lineRange (l.lines - 1)).fin = l.rcd.tiles ∧
      (∀ k, (l.lineRange k).fin = (l.lineRange (k + 1)).next) ∧ ∀ k, (l.lineRange k).next ≤ (l.lineRange k).fin := by
  refine ⟨?_, ?_, fun _ => rfl, fun k => Nat.div_le_div_right (Nat.mul_le_mul_right _ k.le_succ)⟩
  · show 0 * l.rcd.tiles / l.lines = 0
    rw [Nat.zero_mul, Nat.zero_div]
  · show (l.lines - 1 + 1) * l.rcd.tiles / l.lines = l.rcd.tiles
    rw [Nat.sub_add_cancel h, Nat.mul_div_cancel_left _ h]

/-- Settles O39: the registers are those of `start_readS`, and the ranges those of `lineRange_shares`. -/
theorem taskStart : Obligations.TaskStart := by
  unfold Obligations.TaskStart
  refine ⟨fun l t => ⟨rfl, start_readS l t 1, start_readS l t 2, fun r h1 h2 => ?_, fun r h => if_neg h, rfl, rfl, rfl, rfl, rfl,
    fun h => ?_, fun h => ?_⟩, fun _ _ => rfl, lineRange_shares⟩
  · rw [start_readS, if_neg h1, if_neg h2]
  · exact if_pos h
  · show (if t.stage = 0 then l.lineRange t.line else _).next = (if t.stage = 0 then l.lineRange t.line else _).fin
    rw [if_neg h]
    rfl

end Sys2Proof.Machine
end

section
/-! SUPPORT. Registers and sources (R88, R91, R92, R104): what a read returns after a write, and what a source reads, settled (O50). -/

namespace Sys2Proof.Machine

open Sys2Proof.Spec

/-! ## Registers -/

/-- What a scalar register reads as after a write to a register other than `s0`. -/
theorem readS_writeS (c : Ctx) (v : Word) {r : Nat} (k : Nat) (h : r ≠ 0) : (c.writeS r v).readS k = if k = r then v else c.readS k := by
  rw [Ctx.writeS, if_neg h]
  by_cases hk : k = r
  · subst hk
    rw [if_pos rfl, Ctx.readS, if_neg h, mget_mset_same]
  · rw [if_neg hk, Ctx.readS, Ctx.readS, mget_mset_other _ _ _ hk]

/-- What a predicate reads as after a write to a predicate other than `p0`. -/
theorem readP_writeP (c : Ctx) (q : Pred) {r : Nat} (k : Nat) (h : r ≠ 0) : (c.writeP r q).readP k = if k = r then q else c.readP k := by
  rw [Ctx.writeP, if_neg h]
  by_cases hk : k = r
  · subst hk
    rw [if_pos rfl, Ctx.readP, if_neg h, mget_mset_same]
  · rw [if_neg hk, Ctx.readP, Ctx.readP, mget_mset_other _ _ _ hk]

/-- Writing a scalar register changes no predicate. -/
@[simp] theorem readP_writeS (c : Ctx) (v : Word) (r k : Nat) : (c.writeS r v).readP k = c.readP k := by
  unfold Ctx.writeS
  split <;> rfl

/-- Writing a predicate changes no scalar register. -/
@[simp] theorem readS_writeP (c : Ctx) (q : Pred) (r k : Nat) : (c.writeP r q).readS k = c.readS k := by
  unfold Ctx.writeP
  split <;> rfl

/-- Each vector register has a place of its own. -/
theorem vkey_inj {core x r core' x' r' : Nat} (hx : x < 4) (hx' : x' < 4) (hr : r < 64) (hr' : r' < 64) :
    vkey core' x' r' = vkey core x r ↔ core' = core ∧ x' = x ∧ r' = r := by
  unfold vkey cid
  omega

/-- What a vector register reads as after a write. -/
theorem readV_writeV (s : State) {core x r core' x' k : Nat} (v : Vec) (hx : x < 4) (hx' : x' < 4) (hr : r < 64) (hk : k < 64) :
    (s.writeV core x r v).readV core' x' k = if core' = core ∧ x' = x ∧ k = r then v else s.readV core' x' k := by
  by_cases h : core' = core ∧ x' = x ∧ k = r
  · obtain ⟨rfl, rfl, rfl⟩ := h
    rw [if_pos ⟨rfl, rfl, rfl⟩]
    exact mget_mset_same ..
  · rw [if_neg h]
    exact mget_mset_other _ _ _ (mt (vkey_inj hx hx' hr hk).1 h)

/-! ## Sources -/

/-- The scalar value of a register source. -/
theorem srcS_reg (s : State) (f : BitVec 6) : srcS s ⟨false, f⟩ = s.me.readS (f.toNat % 32) := lo64_wide _

/-- A source in mode 1 whose field names a latch. -/
theorem operand_latch (s : State) {o : Operand} (hm : o.m = true) (hf : o.f < 8) :
    s.operand o = if o.vec && o.f < 2 then broadcast s.me.iw (latchValue s o.f) else latchValue s o.f := by
  simp only [State.operand, hm, hf, if_true, Bool.not_true, Bool.false_eq_true, if_false]
  rfl

/-- A source in mode 1 whose field names a stream takes its head entry. -/
theorem operand_stream (s : State) {o : Operand} {e : Entry} {rest : List Entry} (hm : o.m = true) (hf : 8 ≤ o.f)
    (he : (s.me.stream (o.f % 16)).entries = e :: rest) : s.operand o = e.data := by
  simp [State.operand, hm, Nat.not_lt.2 hf, he]

/-- A scalar latch stands in every element of a vector operand (R91). -/
theorem elem_broadcast (w : Nat) (v : Vec) {e : Nat} (h : e < 4096 / w) : elem w (broadcast w v) e = v.toNat % 2 ^ w := by
  rw [elem, broadcast, extractLsb'_packNat _ (Nat.mul_div_le 4096 w) h, BitVec.toNat_ofNat]

/-! ## A slot that pops -/

section Pops

variable {o : SRR} (hm : o.a.m = true) (h16 : 16 ≤ o.a.f.toNat) (hbm : o.b.m = false)
include hm hbm

theorem pops_add : (viewOf (.add o)).pops = if 16 ≤ o.a.f.toNat ∧ o.a.f.toNat < 32 then [o.a.f.toNat % 16] else [] := by
  simp only [View.pops, viewOf, vSRR, sSrc, Option.toList, List.cons_append, List.nil_append, List.filterMap_cons, hm, hbm]
  by_cases h : 16 ≤ o.a.f.toNat ∧ o.a.f.toNat < 32 <;> simp [h]

include h16

theorem streams_add : (viewOf (.add o)).streams = [o.a.f.toNat % 16] := by
  simp [View.streams, viewOf, vSRR, sSrc, hm, hbm, h16]

/-- A popped source and a register pass the checks of R109 where the stream can be read. -/
theorem slotRules_add {s : State} (h32 : o.a.f.toNat < 32) (hb : o.b.f.toNat < 32) (hg : o.g = false)
    (hr : (s.me.stream (o.a.f.toNat % 16)).readable = true) : s.slotRules (viewOf (.add o)) = .commit := by
  have hfields : (viewOf (.add o)).fields = none := by
    simp [View.fields, viewOf, vSRR, slotView, sSrc, Operand.regOk, Operand.modeOk, hm, hbm, h16, h32, hb]
  have hreads : (viewOf (.add o)).reads = [] := by
    have h8 : ¬o.a.f.toNat < 8 := by omega
    simp [View.reads, viewOf, vSRR, slotView, sSrc, hm, hbm, h8]
  have hn : (viewOf (.add o)).named = [] := rfl
  have hl : (viewOf (.add o)).lat = 1 := rfl
  have hg' : (viewOf (.add o)).g = false := hg
  simp [State.slotRules, hfields, hg', hreads, hl, hn, streams_add hm h16 hbm, hr]

end Pops

/-- Settles O50. -/
theorem registersAndSources : Obligations.RegistersAndSources := by
  unfold Obligations.RegistersAndSources
  refine ⟨fun c v q => ⟨rfl, rfl, rfl, rfl⟩,
    fun c v q r k h => ⟨readS_writeS c v k h, readP_writeP c q k h, readP_writeS c v r k, readS_writeP c q r k⟩,
    fun s core x r core' x' k v hx hx' hr hk => readV_writeV s v hx hx' hr hk, fun s f => ⟨srcS_reg s f, rfl⟩, fun s f hf => ⟨?_, ?_, ?_⟩,
    fun s f e rest hf he => ⟨congrArg lo64 (operand_stream s rfl hf he), operand_stream s rfl hf he⟩, ?_⟩
  · exact congrArg lo64 (operand_latch s rfl hf)
  · intro h2
    refine (operand_latch s rfl hf).trans (if_neg ?_)
    exact Bool.not_eq_true _ ▸ decide_eq_false (Nat.not_lt.2 h2)
  · intro h2 e he
    rw [srcV, operand_latch s rfl hf, if_pos (by simpa [vSrc] using h2)]
    exact elem_broadcast _ _ he
  · intro o s k hm h16 h32 hk hbm hb hg hc hr
    have hf : o.a.f.toNat % 16 = k := by omega
    refine ⟨by simp [pops_add hm hbm, h16, h32, hf], fun he => ?_⟩
    have hrules := slotRules_add (s := s) hm h16 hbm h32 hb hg (by rwa [hf])
    have hcheck : s.slotCheck (viewOf (.add o)) = .block (.stream k) := by
      rw [State.slotCheck, hrules, State.slotWaits, streams_add hm h16 hbm, hf]
      simp [SlotEnd.and, he]
    rw [waitsFor]
    exact (issue_slotCheck hc (by simp [hcheck])).trans (by rw [hcheck])

end Sys2Proof.Machine
end

section
/-! SUPPORT. Words that the spec writes out, decoded (R102 to R107), settled (O48). -/

namespace Sys2Proof.Decoding

open Sys2Proof.Spec

/-- Settles O48: the decoder computes each instruction. -/
theorem decodeWords : Obligations.DecodeWords := by
  unfold Obligations.DecodeWords
  exact ⟨rfl, rfl, rfl, rfl, rfl, rfl, rfl, rfl, rfl, rfl, rfl, rfl, rfl, rfl, rfl⟩

end Sys2Proof.Decoding
end

section
/-! SUPPORT. What reset leaves (R88 to R91, R240, R316, R320, R343, R350, R353, R367 and R368), settled (O49). -/

namespace Sys2Proof.Machine

/-- The device registers whose reset values the spec gives (R316, R320, R353, R367, R368). -/
theorem readReg_reset (hart : Nat) :
    State.reset.readReg hart 0x0028 = 0x03E8_0014 ∧ State.reset.readReg hart 0x0090 = 10000 ∧
      State.reset.readReg hart 0x0130 = 0x0100_0100_0100_0100 ∧ State.reset.readReg hart 0x00A0 = 0 ∧
      (∀ k < 32, State.reset.readReg hart (0x3000 + 8 * k) = 950) ∧ (∀ k < 18, State.reset.readReg hart (0x3100 + 8 * k) = 0) ∧
      State.reset.readReg hart 0x3190 = 1 ∧ ∀ k < 16, State.reset.readReg hart (0x3200 + 8 * k) = 1000000 := by
  refine ⟨rfl, rfl, rfl, rfl, fun k hk => ?_, fun k hk => ?_, rfl, fun k hk => ?_⟩ <;> interval_cases k <;> rfl

/-- The severity matrix of a device that has just been reset (R343). -/
theorem severity_reset : ∀ src < 8,
    (∀ c ∈ [0, 1, 3, 4, 8, 10], State.reset.action c src = 1) ∧ (∀ c ∈ [2, 5, 7, 9, 11, 13, 14, 15], State.reset.action c src = 2) ∧
      State.reset.action 6 src = 3 ∧ State.reset.action 12 src = 0 ∧ ∀ c < 16, State.reset.repl c src = decide (c = 2) := by
  intro src h
  interval_cases src <;> decide

/-- No column of an array that has just been reset is ready: all 256 are still to be programmed (R240). -/
theorem progcnt_reset : XArray.reset.progcnt = 256 := by simp [XArray.progcnt, XArray.reset]

/-- ARRSTAT of such an array: AVAIL and the count of columns to program (R240). -/
theorem status_reset : XArray.reset.status = 0x0010_0001 := by
  rw [XArray.status, progcnt_reset]
  rfl

/-- Settles O49: the fields are those of the reset state, the registers those of `readReg_reset`. -/
theorem resetState : Obligations.ResetState := by
  unfold Obligations.ResetState
  rintro _ rfl
  exact ⟨rfl, wf_nil, fun _ _ => rfl, rfl, rfl, rfl, rfl, rfl, rfl, rfl, rfl, readReg_reset, severity_reset,
    fun _ => ⟨status_reset, fun _ _ => rfl⟩⟩

end Sys2Proof.Machine
end

section
/-! SUPPORT. Branches and jumps: the conditions and the targets of R173 to R175, settled (O10). -/

namespace Sys2Proof.Machine

open Sys2Proof.Spec

/-! ## Targets -/

/-- A target relative to the bundle's own address (R173, R174). -/
theorem relative_target (pc : Word) (off : Int) : pc + BitVec.ofInt 64 (off * 16) = BitVec.ofInt 64 (pc.toNat + 16 * off) := by
  rw [BitVec.ofInt_add, BitVec.ofInt_natCast, BitVec.ofNat_toNat, BitVec.setWidth_eq, Int.mul_comm]

/-- The address of the next bundle (R174). -/
theorem after_eq (s : State) : s.after = nextBundle s := by
  rw [State.after, nextBundle, BitVec.ofNat_add, BitVec.ofNat_toNat, BitVec.setWidth_eq]

theorem targetOk_ok {a : Word} (h : a.toNat % 16 = 0) : targetOk a = .commit := need_ok _ (beq_iff_eq.2 h)

/-! ## Conditions -/

section Conditions

variable (a : Word)

theorem condHolds_eq : condHolds 0 a = decide (a.toInt = 0) := decide_eq_decide.2 (BitVec.toInt_inj (y := (0 : Word))).symm

theorem condHolds_ne : condHolds 1 a = decide (a.toInt ≠ 0) := (congrArg not (condHolds_eq a)).trans decide_not.symm

theorem condHolds_lt : condHolds 2 a = decide (a.toInt < 0) := BitVec.slt_eq_decide

theorem condHolds_ge : condHolds 3 a = decide (0 ≤ a.toInt) :=
  (congrArg not (condHolds_lt a)).trans (decide_not.symm.trans (decide_eq_decide.2 Int.not_lt))

theorem condHolds_gt : condHolds 4 a = decide (0 < a.toInt) := BitVec.slt_eq_decide

theorem condHolds_le : condHolds 5 a = decide (a.toInt ≤ 0) :=
  (congrArg not (condHolds_gt a)).trans (decide_not.symm.trans (decide_eq_decide.2 Int.not_lt))

/-- A word and its signed value differ by a multiple of 2. -/
theorem condHolds_odd : condHolds 6 a = decide (a.toInt % 2 = 1) := by
  show a.getLsbD 0 = _
  rw [← BitVec.testBit_toNat, Nat.testBit_zero, BitVec.toInt_eq_toNat_cond]
  refine decide_eq_decide.2 ?_
  split <;> omega

theorem condHolds_even : condHolds 7 a = decide (a.toInt % 2 = 0) :=
  (congrArg not (condHolds_odd a)).trans (decide_not.symm.trans (decide_eq_decide.2 (by omega)))

end Conditions

/-- There are eight conditions. -/
theorem condition_cases (c : BitVec 3) : c = 0 ∨ c = 1 ∨ c = 2 ∨ c = 3 ∨ c = 4 ∨ c = 5 ∨ c = 6 ∨ c = 7 := by
  revert c
  decide

/-- The test of a branch, where its condition tells the value of A as R173 says. -/
theorem bcc_spec {s : State} {c : BitVec 3} {a : Src} {off : BitVec 13} {taken : Bool} (h : condHolds c (srcS s a) = taken) :
    (taken = true → Gives (.bcc c a off) s
      (jumping (s.noted (viewOf (.bcc c a off))) (.ofInt 64 (s.iss.pc.toNat + 16 * off.toInt)))) ∧
    (taken = false → Gives (.bcc c a off) s (s.noted (viewOf (.bcc c a off)))) := by
  refine ⟨fun ht => gives_of_issue rfl rfl ?_, fun ht => gives_of_issue rfl rfl ?_⟩
  · exact (if_pos (h.trans ht)).trans (congrArg (jumping _) (relative_target s.iss.pc off.toInt))
  · exact if_neg (Bool.eq_false_iff.1 (h.trans ht))

/-! ## Jumps -/

variable {s : State} {d : BitVec 5} {a : Src} {p : BitVec 2}

theorem gives_jal {imm : BitVec 17} :
    Gives (.jal d imm) s (jumping (s.flying (viewOf (.jal d imm)) [scalarResult none false d.toNat 1 (nextBundle s)])
      (.ofInt 64 (s.iss.pc.toNat + 16 * imm.toInt))) :=
  gives_of_issue rfl rfl (by rw [← after_eq, ← relative_target]; rfl)

theorem gives_jr (h : (srcS s a).toNat % 16 = 0) :
    Gives (.jr d a p) s (jumping (s.flying (viewOf (.jr d a p)) [scalarResult none false d.toNat 1 (nextBundle s)]) (srcS s a)) :=
  gives_of_issue rfl (targetOk_ok h) (by rw [← after_eq]; rfl)

theorem gives_jrGd {l : BitVec 4} (h : (srcS s a).toNat % 16 = 0) (hl : latchValue s l.toNat = latchValue s (twinLatch l.toNat)) :
    Gives (.jrGd d a l p) s
      (jumping (s.flying (viewOf (.jrGd d a l p)) [scalarResult none false d.toNat 1 (nextBundle s)]) (srcS s a)) := fun hc =>
  gives_of_issue rfl ((guarded_ok (encOk_of_clear hc) hl).trans (targetOk_ok h)) (by rw [← after_eq]; rfl) hc

/-- Settles O10, instruction by instruction. -/
theorem branchesAndJumps : Obligations.BranchesAndJumps := by
  unfold Obligations.BranchesAndJumps
  refine ⟨fun s => gives_of_issue rfl rfl rfl, ?_, fun d imm s => gives_jal, fun d a p s h => gives_jr h,
    fun d a l p s h hl => gives_jrGd h hl⟩
  rintro c a off s _ rfl
  rcases condition_cases c with rfl | rfl | rfl | rfl | rfl | rfl | rfl | rfl
  · exact bcc_spec (condHolds_eq _)
  · exact bcc_spec (condHolds_ne _)
  · exact bcc_spec (condHolds_lt _)
  · exact bcc_spec (condHolds_ge _)
  · exact bcc_spec (condHolds_gt _)
  · exact bcc_spec (condHolds_le _)
  · exact bcc_spec (condHolds_odd _)
  · exact bcc_spec (condHolds_even _)

end Sys2Proof.Machine
end

section
/-! SUPPORT. Where control instructions stop their bundle or wait (R87, R100, R102, R145, R175, R179, R181, R187), settled (O12). -/

namespace Sys2Proof.Machine

open Sys2Proof.Spec

variable {s : State}

/-- Latches that differ fail a twin comparison with 0xA0 (R145). -/
theorem twinCheck_differs {l m : Nat} (h : latchValue s l ≠ latchValue s m) : s.twinCheck l m = .trap 13 0xA0 (some 0) (l + 16 * m) 0 :=
  if_neg h

/-- The time of the clock, as a word (R180). -/
theorem now_toNat : s.now.toNat = s.regs.ptpns % 2 ^ 64 := BitVec.toNat_ofNat ..

/-- The fields of a slot that passes the checks hold assigned values. -/
theorem encOk_of_passes {i : Instr} (h : Passes i s) : (viewOf i).encOk = true := by
  obtain ⟨-, hc⟩ := h
  by_contra hn
  have hf : (viewOf i).fields = some (2, 0x00) := if_pos (by simpa using hn)
  rw [State.slotCheck, State.slotRules, hf] at hc
  cases hc

theorem targetOk_not {a : Word} (h : a.toNat % 16 ≠ 0) : targetOk a = stopWith 13 0x07 := need_not _ (beq_eq_false_iff_ne.2 h)

/-- A slot whose own check stops it with a cause, no more being told of it. -/
theorem stopsWith_of_own {i : Instr} {pre own : State → Vals → SlotEnd} {act : Vals → State → State} {cause : Byte}
    (he : exec i s = issuePre (viewOf i) pre own act s) (hp : Passes i s) (ho : own s (s.vals (viewOf i)) = stopWith 13 cause) :
    stopsWith i s cause := stopsWith_of_issue he hp ho

/-- What a loop needs of its context (R100). -/
theorem stops_looph (o : DAB6) (h : Passes (.looph o) s) :
    (s.me.loop ≠ none → stopsWith (.looph o) s 0x0C) ∧
    (s.me.loop = none → s.me.hnd = false → ringOk (srcS s o.b).toNat = false → stopsWith (.looph o) s 0x0B) := by
  refine ⟨fun hl => stopsWith_of_own rfl h ?_, fun hl hh hr => stopsWith_of_own rfl h ?_⟩
  · rw [need_not _ (by simp [hl])]
    rfl
  · rw [need_ok _ (by simp [hl, hh]), commit_and]
    exact need_not _ hr

theorem stops_done (h : Passes .done s) :
    (s.iss.slots ≠ 1 → stopsWith .done s 0x12) ∧
    (s.iss.slots = 1 → s.drained s.cur s.x = false → waitsFor .done s .drains) := by
  refine ⟨fun h1 => stopsWith_of_own rfl h ?_, fun h1 hd => waitsFor_of_issue rfl h ?_⟩
  · rw [need_not _ (by simp [h1])]
    rfl
  · rw [need_ok _ (by simp [h1]), hd]
    rfl

/-- A walker with nothing left, whose task may still steal, waits for the outcome (R181, R310). -/
theorem waits_wnext {d : BitVec 5} (h : Passes (.wnext d) s) (hr : s.me.walker.range.fin ≤ s.me.walker.range.next)
    (hf : s.me.walker.finished = false) (ho : s.me.walker.outcome ≠ .refused) {t : Task} (ht : s.me.task = some t) (h0 : t.stage = 0) :
    waitsFor (.wnext d) s .steal :=
  waitsFor_of_issue rfl h (if_neg (by simp [hf, ho, ht, h0, hr]))

theorem waits_waitt {a : Src} {p : BitVec 2} (h : Passes (.waitt a p) s) (ht : s.regs.ptpns % 2 ^ 64 < (srcS s a).toNat) :
    waitsFor (.waitt a p) s (.time (srcS s a)) := by
  refine waitsFor_of_issue rfl h (if_neg ?_)
  rw [BitVec.ule, now_toNat, decide_eq_true_eq, Nat.not_le]
  exact ht

theorem stops_jrGd {d : BitVec 5} {a : Src} {l : BitVec 4} {p : BitVec 2} (h : Passes (.jrGd d a l p) s) :
    (latchValue s l.toNat ≠ latchValue s (twinLatch l.toNat) → stopsWith (.jrGd d a l p) s 0xA0) ∧
    (latchValue s l.toNat = latchValue s (twinLatch l.toNat) → (srcS s a).toNat % 16 ≠ 0 → stopsWith (.jrGd d a l p) s 0x07) := by
  have hg : guardOk l = true := encOk_of_passes h
  refine ⟨fun hl => ?_, fun hl ha => stopsWith_of_own rfl h ?_⟩
  · have ht : s.twinCheck l.toNat (partner l.toNat) = .trap 13 0xA0 (some 0) (l.toNat + 16 * twinLatch l.toNat) 0 := by
      rw [partner_eq_twinLatch hg, twinCheck_differs hl]
    exact stopsWith_of_issue rfl h (congrArg (SlotEnd.and · _) ht)
  · rw [guarded_ok hg hl]
    exact targetOk_not ha

/-- Settles O12, instruction by instruction. -/
theorem controlStops : Obligations.ControlStops := by
  unfold Obligations.ControlStops
  exact ⟨fun o s h => stops_looph o h, fun s h => stops_done h, fun s h hn => stopsWith_of_issue rfl h (need_not _ hn),
    fun a p s h ht => waits_waitt h ht, fun d s h hr hf ho ⟨t, ht, h0⟩ => waits_wnext h hr hf ho ht h0,
    fun d a p s h ha => stopsWith_of_issue rfl h (targetOk_not ha), fun d a l p s h => stops_jrGd h⟩

end Sys2Proof.Machine
end

section
/-! SUPPORT. Loops, traps, task end, waits, the clock, the walker, instruction fences and the return (R86, R100, R177 to R182, R187),
settled (O11). -/

namespace Sys2Proof.Machine

open Sys2Proof.Spec

variable {s : State}

/-- A loop opens where its context runs none, in no handler, with a ring register that is valid (R100). -/
theorem gives_looph {o : DAB6} (hl : s.me.loop = none) (hh : s.me.hnd = false) (hr : ringOk (srcS s o.b).toNat = true) :
    Gives (.looph o) s ((s.noted (viewOf (.looph o))).updIss (fun i => { i with
      opened := some { rem := srcS s o.a, i := 0, start := 0, b := o.d.toNat + 1, ring := srcS s o.b, pos := 0 } })) := by
  refine gives_of_issue rfl ?_ rfl
  rw [need_ok _ (by simp [hl, hh]), commit_and]
  exact need_ok _ hr

/-- The first trap of a bundle is the one taken after it (R187). -/
theorem takeAfter_none {t : State} (h : t.iss.after = none) (c : Byte) (info mask : Word) :
    t.takeAfter c info mask = t.updIss (fun i => { i with after := some (c, info, mask) }) := by
  rw [State.takeAfter, h]

theorem gives_trap {a : Src} {imm : BitVec 7} {p : BitVec 2} (h : s.iss.after = none) :
    Gives (.trap a imm p) s ((s.noted (viewOf (.trap a imm p))).updIss (fun i => { i with
      after := some (0x10, srcS s a, .ofNat 64 imm.toNat) })) :=
  gives_of_issue rfl rfl (by rw [BitVec.ofNat_toNat]; exact takeAfter_none (t := s.noted (viewOf (.trap a imm p))) h ..)

theorem gives_done (h1 : s.iss.slots = 1) (hd : s.drained s.cur s.x = true) :
    Gives .done s ((s.noted (viewOf .done)).updIss (fun i => { i with ends := true })) := by
  refine gives_of_issue rfl ?_ rfl
  rw [need_ok _ (by simp [h1]), commit_and, hd]
  rfl

theorem gives_waitt {a : Src} {p : BitVec 2} (h : (srcS s a).toNat ≤ s.regs.ptpns % 2 ^ 64) :
    Gives (.waitt a p) s (s.noted (viewOf (.waitt a p))) := by
  refine gives_of_issue rfl (if_pos ?_) rfl
  rw [BitVec.ule, now_toNat, decide_eq_true_eq]
  exact h

/-! ## The walker -/

variable {d : BitVec 5}

/-- A walker that has tiles left hands out the next one (R181). -/
theorem gives_wnext {w : Walker} (hw : w = s.me.walker) (h : w.range.next < w.range.fin) :
    Gives (.wnext d) s
      (((s.noted (viewOf (.wnext d))).upd (fun c => { c with walker := { w with
          range := { w.range with next := w.range.next + 1 }, cur := some w.range.next, outcome := .none } })).deliverS
        (viewOf (.wnext d)) (.ofNat 64 w.range.next)) := by
  subst hw
  exact gives_of_issue rfl (if_pos (by simp [h])) (if_pos h)

/-- An empty walker ends where nothing can be stolen for it any more (R181, R310). -/
theorem gives_wnext_end {w : Walker} (hw : w = s.me.walker) (h : w.range.fin ≤ w.range.next)
    (he : w.finished = true ∨ w.outcome = .refused ∨ ∃ t, s.me.task = some t ∧ t.stage ≠ 0) :
    Gives (.wnext d) s
      (((s.noted (viewOf (.wnext d))).upd (fun c => { c with walker := { w with
        cur := none, outcome := .none, finished := true } })).deliverS (viewOf (.wnext d)) (BitVec.allOnes 64)) := by
  subst hw
  refine gives_of_issue rfl (if_pos ?_) (if_neg (Nat.not_lt.2 h))
  obtain hf | ho | ⟨t, ht, h0⟩ := he
  · simp [hf]
  · simp [ho]
  · simp [ht, h0]

/-- A walker that holds a tile tells its coordinates (R181, R308). -/
theorem flies_wpos {k : BitVec 2} {i : Nat} {l : Launch} (hi : s.me.walker.cur = some i) (hl : s.launchOf s.cur s.x = some l) :
    Flies (.wpos d k) s (scalarResult none false d.toNat 1 (.ofNat 64 (l.rcd.coord i k.toNat))) := by
  refine gives_of_issue rfl rfl ?_
  have hi' : (s.noted (viewOf (.wpos d k))).me.walker.cur = some i := hi
  have hl' : (s.noted (viewOf (.wpos d k))).launchOf (s.noted (viewOf (.wpos d k))).cur (s.noted (viewOf (.wpos d k))).x = some l := hl
  rw [hi', hl']
  rfl

theorem flies_wpos_none {k : BitVec 2} (h : s.me.walker.cur = none) :
    Flies (.wpos d k) s (scalarResult none false d.toNat 1 (BitVec.allOnes 64)) := by
  refine gives_of_issue rfl rfl ?_
  have h' : (s.noted (viewOf (.wpos d k))).me.walker.cur = none := h
  rw [h']
  rfl

/-- Settles O11, instruction by instruction. -/
theorem taskControl : Obligations.TaskControl := by
  unfold Obligations.TaskControl
  exact ⟨fun o s hl hh hr => gives_looph hl hh hr, fun a imm p s h => gives_trap h, fun s h1 hd => gives_done h1 hd,
    fun s => gives_of_issue rfl rfl rfl, fun a p s h => gives_waitt h, fun d s => gives_of_issue rfl rfl rfl,
    fun d s w hw => ⟨gives_wnext hw, gives_wnext_end hw⟩, fun d k s => ⟨flies_wpos_none, fun i l hi hl => flies_wpos hi hl⟩,
    fun s h => gives_of_issue rfl (if_neg (Bool.eq_false_iff.1 h)) rfl, fun s h => gives_of_issue rfl (need_ok _ h) rfl⟩

end Sys2Proof.Machine
end

section
/-! SUPPORT. Computations of classes A, V, M, C and P: they only put results in flight (R85, R87, R91, R96), settled (O53). -/

namespace Sys2Proof.Machine

variable {s : State} {v : View}

/-! ## What only puts results in flight -/

/-- An answer that only puts results in flight (R96). -/
def OnlyFlies (v : View) (s : State) (out : Out) : Prop := ∃ rs, out = .next (s.flying v rs)

/-- A slot whose own check passes and whose effect is to put results in flight. -/
theorem onlyFlies_of_effect {i : Instr} {pre own : State → Vals → SlotEnd} {act : Vals → State → State} (h : s.Clear v)
    (he : exec i s = issuePre v pre own act s) (ho : own s (s.vals v) = .commit)
    (ha : ∃ rs, act (s.vals v) (s.noted v) = s.flying v rs) : OnlyFlies v s (exec i s) := by
  obtain ⟨rs, hrs⟩ := ha
  exact ⟨rs, by rw [he, issuePre_clear h ho, begin_eq, hrs]⟩

theorem onlyFlies_of_issue {i : Instr} {pre own : State → Vals → SlotEnd} {act : Vals → State → State} {rs : List InFlight}
    (h : s.Clear v) (he : exec i s = issuePre v pre own act s) (ho : own s (s.vals v) = .commit)
    (ha : act (s.vals v) (s.noted v) = s.flying v rs) : OnlyFlies v s (exec i s) := onlyFlies_of_effect h he ho ⟨rs, ha⟩

/-- A conversion that rounds stochastically finds the random word that it needs (R134). -/
theorem randReady_ok {sr : Bool} (x : Vals) (h : sr = true → s.me.rand.words ≠ []) : randReady sr s x = .commit := by
  refine if_neg ?_
  rw [Bool.and_eq_true, List.isEmpty_iff]
  exact fun ⟨hs, hw⟩ => h hs hw

/-! ## Several results -/

theorem flying_eq_updCtx (f : List InFlight) :
    s.flying v f = (s.noted v).updCtx s.cur s.x (fun c => { c with flight := c.flight ++ f }) := rfl

/-- One result more in flight. -/
theorem flying_deliverAs (f : List InFlight) (d : Dest) (l : Option Nat) (lat : Nat) (val : Vec) (mask : Pred) (fl : Flags) :
    (s.flying v f).deliverAs d l lat val mask fl =
      s.flying v (f ++ [{ left := lat, lat := lat, dest := d, latch := l, val := val, mask := mask, flags := fl }]) := by
  have hcur : (s.flying v f).cur = s.cur := rfl
  have hx : (s.flying v f).x = s.x := rfl
  rw [State.deliverAs, State.upd, hcur, hx, flying_eq_updCtx, flying_eq_updCtx, updCtx_updCtx]
  simp only [List.append_assoc]

/-- A list of results, put in flight one after the other. -/
theorem flying_foldl_deliverAs (d : Nat → Dest) (l : Nat → Option Nat) (lat : Nat) (val : Nat → Vec) (mask : Pred) (fl : Flags)
    (k : List Nat) (f : List InFlight) :
    ∃ rs, k.foldl (fun t r => t.deliverAs (d r) (l r) lat (val r) mask fl) (s.flying v f) = s.flying v rs := by
  induction k generalizing f with
  | nil => exact ⟨f, rfl⟩
  | cons r k ih =>
    rw [List.foldl_cons, flying_deliverAs]
    exact ih _

/-- The same from the state in which the slot has begun. -/
theorem noted_foldl_deliverAs (d : Nat → Dest) (l : Nat → Option Nat) (lat : Nat) (val : Nat → Vec) (mask : Pred) (fl : Flags)
    (r : Nat) (k : List Nat) :
    ∃ rs, (r :: k).foldl (fun t r => t.deliverAs (d r) (l r) lat (val r) mask fl) (s.noted v) = s.flying v rs :=
  flying_foldl_deliverAs d l lat val mask fl k
    [{ left := lat, lat := lat, dest := d r, latch := l r, val := val r, mask := mask, flags := fl }]

/-- The transposition puts its rows in flight one after the other (R209). -/
theorem onlyFlies_vtrn {d : BitVec 6} {p : BitVec 2} (h : s.Clear (viewOf (.vtrn d p))) :
    OnlyFlies (viewOf (.vtrn d p)) s (exec (.vtrn d p) s) := by
  have hrange : List.range 8 = 0 :: List.range' 1 7 := rfl
  refine onlyFlies_of_effect h rfl rfl ?_
  dsimp only
  rw [hrange]
  exact noted_foldl_deliverAs ..

/-! ## The computations -/

/-- The classes of computations. -/
def Cls.computes : Cls → Bool
  | .a | .v | .m | .c | .p => true
  | _ => false

/-- A guarded global vector store is of class L, be it a push or not (R145). -/
theorem form_vstgGd_cls (l : BitVec 4) (a b : Src) (p : BitVec 2) : (s.form (.vstgGd l a b p)).cls = .l := by
  show View.cls (if popped a then _ else _) = .l
  split <;> rfl

/-- A computation that passes its checks only puts results in flight. -/
theorem exec_onlyFlies {i : Instr} (hcls : (s.form i).cls.computes = true) (h : s.Clear (s.form i))
    (hr : (s.form i).sr = true → s.me.rand.words ≠ []) : OnlyFlies (s.form i) s (exec i s) := by
  cases i
  case add | sub | and | andn | or | xor | sll | srl | sra | rol | ror | lea | slt | sltu | min | max | minu | maxu | mul | mulh | mulhu
      | div | divu | rem | remu | sel | addi | andi | ori | xori | slli | srli | srai | clz | ctz | popc | sext | zext | crd | li | lih
      | pset | vadd | vsub | vmul | vmulh | vmad | vand | vor | vxor | vshl | vshr | vsra | vmin | vmax | vcmp | vsel | vabs | vclz | vpopc
      | vsat | vfadd | vfsub | vfmul | vffma | vfmin | vfmax | vfsgn | vfcmp | vfclass | vrcp | vrsq | vsqrt | vexp2 | vlog2 | vtanh | vsilu
      | vdqnt | vperm | vxcl | vshf | vext | vins | vbcast | vred | vscan | viota | pand | por | pxor | pnot | ppop | pfirst =>
    exact onlyFlies_of_issue h rfl rfl rfl
  case vcvt | vqnt => exact onlyFlies_of_issue h rfl (randReady_ok _ hr) rfl
  case vtrn => exact onlyFlies_vtrn h
  case vstgGd l a b p =>
    rw [form_vstgGd_cls] at hcls
    exact absurd hcls Bool.false_ne_true
  all_goals exact absurd hcls Bool.false_ne_true

/-! ## The frame -/

/-- Two contexts have one place only if they are one. -/
theorem cid_ne {core x core' x' : Nat} (h : (core, x) ≠ (core', x')) (hx : x < 4) (hx' : x' < 4) : cid core x ≠ cid core' x' := by
  unfold cid
  intro he
  exact h (Prod.ext_iff.2 ⟨by show core = core'; omega, by show x = x'; omega⟩)

/-- A result in flight changes no other context. -/
theorem flying_ctx_other (rs : List InFlight) {core x : Nat} (h : (core, x) ≠ (s.cur, s.x)) (hx : x < 4) (hs : s.x < 4) :
    (s.flying v rs).ctx core x = s.ctx core x := mget_mset_other _ _ _ (cid_ne h hx hs)

theorem flying_ctx_same (rs : List InFlight) : (s.flying v rs).ctx s.cur s.x = { s.me with flight := s.me.flight ++ rs } :=
  mget_mset_same ..

/-- Settles O53: a computation only puts results in flight (`exec_onlyFlies`), which changes nothing else. -/
theorem computationFrame : Obligations.ComputationFrame := by
  unfold Obligations.ComputationFrame
  intro i s hcls hc hr
  have hk : (s.form i).cls.computes = true := by
    rcases hcls with h | h | h | h | h <;> rw [h] <;> rfl
  obtain ⟨rs, hrs⟩ := exec_onlyFlies hk hc hr
  exact ⟨rs, hrs, fun core x h hx hs => flying_ctx_other rs h hx hs, flying_ctx_same rs, fun _ => rfl, rfl, rfl, rfl⟩

end Sys2Proof.Machine
end

section
/-! SUPPORT. The checks of a slot (R85, R91, R92, R99, R104 to R106, R109), settled (O54). -/

namespace Sys2Proof.Machine

open Sys2Proof.Spec

variable {s : State} {v : View}

/-! ## Checks that pass or stop -/

/-- A check that passes or stops its slot, and asks for no wait. -/
def SlotEnd.judged : SlotEnd → Bool
  | .commit | .trap _ _ _ _ _ => true
  | _ => false

theorem need_judged (ok : Bool) (c : Byte) : (need ok c).judged = true := by
  cases ok <;> rfl

theorem early_judged (ok : Bool) (e : SlotEnd) : (SlotEnd.early ok e).judged = true := by
  cases e <;> cases ok <;> rfl

theorem and_judged {a b : SlotEnd} (ha : a.judged = true) (hb : b.judged = true) : (a.and b).judged = true := by
  cases a
  case commit => exact hb
  case trap => rfl
  all_goals exact ha

theorem twinCheck_judged (x y : Nat) : (s.twinCheck x y).judged = true := by
  unfold State.twinCheck
  split <;> rfl

theorem flightRoom_judged : s.flightRoom.judged = true := by
  unfold State.flightRoom
  split <;> rfl

theorem globalOk_judged (a : Word) (n : Nat) : (globalOk a n).judged = true := by
  unfold globalOk
  split
  · rfl
  · split <;> rfl

theorem withAddr_judged (r : Except Byte Nat) : (withAddr r (fun _ => .commit)).judged = true := by
  cases r <;> rfl

theorem stopped_judged (r : Option (Nat × Byte)) : (r.elim SlotEnd.commit (fun b => stopWith b.1 b.2)).judged = true := by
  cases r <;> rfl

/-! ## Every slot makes the checks -/

/-- A slot that makes its checks, of which those before its wait for a stream ask for no wait themselves. -/
def Checked (i : Instr) (s : State) : Prop :=
  ∃ pre own act, exec i s = issuePre (s.form i) pre own act s ∧ (pre s (s.vals (s.form i))).judged = true

theorem checked_bind (o : DAB6) : Checked (.bind o) s := by
  refine ⟨_, _, _, rfl, and_judged (early_judged _ _) (and_judged (need_judged _ _) ?_)⟩
  split
  · split
    · rfl
    · exact withAddr_judged _
  · exact globalOk_judged _ _

/-- Every slot instruction makes the checks of R109. -/
theorem checked_of_slot {i : Instr} (h : (s.form i).cls ≠ .none) : Checked i s := by
  cases i
  case add | sub | and | andn | or | xor | sll | srl | sra | rol | ror | lea | slt | sltu | min | max | minu | maxu | mul | mulh | mulhu
      | div | divu | rem | remu | sel | addi | andi | ori | xori | slli | srli | srai | bcc | jal | jr | trap | lnch | cwr | crdr | done
      | yield | waitt | rdtime | wnext | wpos | ifence | eret | clz | ctz | popc | sext | zext | crd | li | lih | pset | vadd | vsub | vmul
      | vmulh | vmad | vand | vor | vxor | vshl | vshr | vsra | vmin | vmax | vcmp | vsel | vabs | vclz | vpopc | vsat | vfadd | vfsub
      | vfmul | vffma | vfmin | vfmax | vfsgn | vfcmp | vfclass | vrcp | vrsq | vsqrt | vexp2 | vlog2 | vtanh | vsilu | vcvt | vqnt | vdqnt
      | vperm | vxcl | vshf | ld | ldg | st | stg | vst | vldg | vstg | vstgPush | vgath | vscat | vamo | fence | qfence | acq | rel
      | unbind | fcopy | fgath | fput | fget | fcoll | fa2a | fwait | barv | barvRel | cclose | tchk | sbind | sclose | xmv | xload | xprog
      | xver | xremap | xdrift | xcalMeas | xcalLdsc | xcalLdog | xcalStog | xstat | xfb | kvnew | kvapp | kvrefInc | kvrefDec | kvtrunc
      | kvfind | kvpub | kvcow | kvstrm | rseed | rsave | rload | vext | vins | vbcast | vtrn | vred | vscan | viota | pand | por | pxor
      | pnot | ppop | pfirst =>
    exact ⟨_, _, _, rfl, rfl⟩
  case jrGd | stGd | stgGd | vstGd | vstgGd => exact ⟨_, _, _, rfl, twinCheck_judged _ _⟩
  case cinv | cwb | copen | sdesc => exact ⟨_, _, _, rfl, need_judged _ _⟩
  case amo | amog | bwait => exact ⟨_, _, _, rfl, early_judged _ _⟩
  case looph => exact ⟨_, _, _, rfl, and_judged (need_judged _ _) (early_judged _ _)⟩
  case vld => exact ⟨_, _, _, rfl, flightRoom_judged⟩
  case bind o => exact checked_bind o
  case binit => exact ⟨_, _, _, rfl, and_judged (early_judged _ _) (early_judged _ _)⟩
  case bxpect =>
    exact ⟨_, _, _, rfl, and_judged (early_judged _ _)
      (and_judged (and_judged (need_judged _ _) (early_judged _ _)) (early_judged _ _))⟩
  case tmma | tmmaZ | tmmg | tmmgZ | zzero | zld | zst | zstR | zcvt | zacc => exact ⟨_, _, _, rfl, stopped_judged _⟩
  all_goals exact absurd rfl h

/-- Where a source's stream is empty, a check of the slot's own that needs no value of it comes before the block. -/
theorem checks_waits {pre own : State → Vals → SlotEnd} (hr : s.slotRules v = .commit) (hw : s.slotWaits v ≠ .commit) :
    s.checks v pre own = (pre s (s.vals v)).and (s.slotWaits v) := by
  rw [State.checks, hr, commit_and]
  split
  · next h => exact absurd h hw
  · rfl

/-- A slot stops with the first check of R109 that it fails, or blocks. -/
theorem stops_of_checked {i : Instr} (hk : s.iss.checked = false) (h : Checked i s) :
    (s.slotRules (s.form i) ≠ .commit → exec i s = .next (s.stop (s.slotRules (s.form i)))) ∧
    (s.slotRules (s.form i) = .commit → s.slotWaits (s.form i) ≠ .commit →
      exec i s = .next (s.stop (s.slotWaits (s.form i))) ∨ ∃ cause, stopsWith i s cause) := by
  obtain ⟨pre, own, act, he, hj⟩ := h
  refine ⟨fun hr => ?_, fun hr hw => ?_⟩
  · have hc : s.checks (s.form i) pre own = s.slotRules (s.form i) := checks_rules hr
    rw [he, issuePre_stops hk (by rwa [hc]), hc]
  · have hc : s.checks (s.form i) pre own = _ := checks_waits hr hw
    cases hp : pre s (s.vals (s.form i))
    case commit =>
      rw [hp, commit_and] at hc
      exact .inl (by rw [he, issuePre_stops hk (by rwa [hc]), hc])
    case trap rank cause info extra src =>
      rw [hp] at hc
      exact .inr ⟨cause, rank, info, extra, src, by rw [he, issuePre_stops hk (by rw [hc]; exact SlotEnd.noConfusion), hc]; rfl⟩
    all_goals
      rw [hp] at hj
      cases hj

/-! ## The checks in their order -/

theorem fields_encoding (h : v.encOk = false) : v.fields = some (2, 0x00) := if_pos (by rw [h]; rfl)

theorem regOk_eq_false (o : Operand) : o.regOk = false ↔ o.vec = false ∧ o.m = false ∧ 32 ≤ o.f := by
  simp [Operand.regOk, and_assoc]

theorem fields_register (he : v.encOk = true) (h : ∃ o ∈ v.sources, o.vec = false ∧ o.m = false ∧ 32 ≤ o.f) :
    v.fields = some (3, 0x0A) := by
  obtain ⟨o, ho, hf⟩ := h
  have hall : (v.a.toList ++ v.b.toList).all Operand.regOk = false := List.all_eq_false.2 ⟨o, ho, by simp [(regOk_eq_false o).2 hf]⟩
  rw [View.fields, he, hall]
  rfl

theorem fields_mode (he : v.encOk = true) (hr : ∀ o ∈ v.sources, o.regOk = true) (h : ∃ o ∈ v.sources, o.modeOk = false) :
    v.fields = some (4, 0x01) := by
  obtain ⟨o, ho, hf⟩ := h
  have hreg : (v.a.toList ++ v.b.toList).all Operand.regOk = true := List.all_eq_true.2 hr
  have hall : (v.a.toList ++ v.b.toList).all Operand.modeOk = false := List.all_eq_false.2 ⟨o, ho, by simp [hf]⟩
  rw [View.fields, he, hreg, hall]
  rfl

theorem fields_none (he : v.encOk = true) (h : ∀ o ∈ v.sources, o.regOk = true ∧ o.modeOk = true) : v.fields = none := by
  have hreg : (v.a.toList ++ v.b.toList).all Operand.regOk = true := List.all_eq_true.2 (fun o ho => (h o ho).1)
  have hall : (v.a.toList ++ v.b.toList).all Operand.modeOk = true := List.all_eq_true.2 (fun o ho => (h o ho).2)
  rw [View.fields, he, hreg, hall]
  rfl

/-- A check of the fields that fails is the first of all. -/
theorem slotCheck_of_fields {rank : Nat} {cause : Byte} (h : v.fields = some (rank, cause)) :
    s.slotCheck v = .trap rank cause none 0 0 := by
  rw [State.slotCheck, State.slotRules, h]
  rfl

/-- The slots that may not be a twin where they stand (R106). -/
theorem twinOk_eq_false (h : v.n = false ∨ s.iss.twinned = true ∨ s.iss.last = none ∨
    ∃ cl u, s.iss.last = some (cl, u) ∧ (cl ≠ v.cls ∨ u ≠ 0 ∧ (v.cls = .a ∨ v.cls = .v))) : s.twinOk v = false := by
  obtain h | h | h | ⟨cl, u, hl, h | ⟨hu, h | h⟩⟩ := h <;> simp_all [State.twinOk]

/-- The checks that follow those of the fields (R109). -/
theorem slotRules_eq (hf : v.fields = none) : s.slotRules v =
    if (v.g && !s.twinOk v) = true then stopWith 5 0x05
    else if (v.reads.all (fun l => (mfind s.me.latches l).isSome)) = false then stopWith 9 0x08
    else if 1 < v.lat ∧ 24 < s.me.inFlight + v.count then stopWith 10 0x09
    else if (v.streams ++ v.named).all (fun k => (s.me.stream k).readable) = false then stopWith 11 0x0D
    else .commit := by
  rw [State.slotRules, hf]
  simp only [Bool.not_eq_true', Bool.and_eq_true, decide_eq_true_eq]

theorem slotCheck_twin (hf : v.fields = none) (hg : v.g = true) (h : s.twinOk v = false) : s.slotCheck v = .trap 5 0x05 none 0 0 := by
  rw [State.slotCheck, slotRules_eq hf, if_pos (by rw [hg, h]; rfl)]
  rfl

section NoTwin

variable (hf : v.fields = none) (hg : v.g = false)
include hf hg

theorem slotCheck_latch (h : ∃ l ∈ v.reads, mfind s.me.latches l = none) : s.slotCheck v = .trap 9 0x08 none 0 0 := by
  obtain ⟨l, hl, hn⟩ := h
  rw [State.slotCheck, slotRules_eq hf, if_neg (by simp [hg]), if_pos (List.all_eq_false.2 ⟨l, hl, by simp [hn]⟩)]
  rfl

variable (hl : ∀ l ∈ v.reads, mfind s.me.latches l ≠ none)
include hl

/-- The checks that are left where every latch that is read holds a value. -/
theorem slotRules_latched : s.slotRules v =
    if 1 < v.lat ∧ 24 < s.me.inFlight + v.count then stopWith 10 0x09
    else if (v.streams ++ v.named).all (fun k => (s.me.stream k).readable) = false then stopWith 11 0x0D
    else .commit := by
  have hall : v.reads.all (fun l => (mfind s.me.latches l).isSome) = true :=
    List.all_eq_true.2 (fun l h => Option.isSome_iff_ne_none.2 (hl l h))
  rw [slotRules_eq hf, if_neg (by simp [hg]), if_neg (by simp [hall])]

theorem slotCheck_flight (h1 : 1 < v.lat) (h24 : 24 < s.me.inFlight + v.count) : s.slotCheck v = .trap 10 0x09 none 0 0 := by
  rw [State.slotCheck, slotRules_latched hf hg hl, if_pos ⟨h1, h24⟩]
  rfl

variable (hr : v.lat ≤ 1 ∨ s.me.inFlight + v.count ≤ 24)
include hr

theorem slotCheck_unreadable (h : ∃ k ∈ v.streams ++ v.named, (s.me.stream k).readable = false) :
    s.slotCheck v = .trap 11 0x0D none 0 0 := by
  obtain ⟨k, hk, hn⟩ := h
  rw [State.slotCheck, slotRules_latched hf hg hl, if_neg (by omega), if_pos (List.all_eq_false.2 ⟨k, hk, by simp [hn]⟩)]
  rfl

/-- A slot that fails no check of R109 by itself is left to wait for its streams. -/
theorem slotCheck_readable (h : ∀ k ∈ v.streams ++ v.named, (s.me.stream k).readable = true) : s.slotCheck v = s.slotWaits v := by
  rw [State.slotCheck, slotRules_latched hf hg hl, if_neg (by omega), if_neg (by rw [List.all_eq_true.2 h]; exact Bool.noConfusion), commit_and]

end NoTwin

/-- A slot waits for the first of its streams that is empty. -/
theorem slotWaits_empty (h : ∃ k ∈ v.streams, (s.me.stream k).entries = []) :
    ∃ k ∈ v.streams, (s.me.stream k).entries = [] ∧ s.slotWaits v = .block (.stream k) := by
  cases hk : v.streams.find? (fun k => (s.me.stream k).entries.isEmpty) with
  | none =>
    obtain ⟨k, hm, he⟩ := h
    exact absurd (List.find?_eq_none.1 hk k hm) (by simp [he])
  | some k =>
    have he := List.find?_some hk
    refine ⟨k, List.mem_of_find?_eq_some hk, List.isEmpty_iff.1 he, ?_⟩
    rw [State.slotWaits, hk]

theorem slotWaits_held (h : ∀ k ∈ v.streams, (s.me.stream k).entries ≠ []) : s.slotWaits v = .commit := by
  have hk : v.streams.find? (fun k => (s.me.stream k).entries.isEmpty) = none :=
    List.find?_eq_none.2 (fun k hm he => h k hm (List.isEmpty_iff.1 he))
  rw [State.slotWaits, hk]

/-- Settles O54: every slot makes the checks (`checked_of_slot`), and their order is that of `State.slotRules`. -/
theorem slotChecks : Obligations.SlotChecks := by
  unfold Obligations.SlotChecks
  refine ⟨fun i s hcls hk => stops_of_checked hk (checked_of_slot hcls), fun v s => ⟨fun he => slotCheck_of_fields (fields_encoding he),
    fun he h => slotCheck_of_fields (fields_register he h), fun he hr h => slotCheck_of_fields (fields_mode he hr h), fun he hops => ?_⟩⟩
  have hf := fields_none he hops
  exact ⟨fun hg h => slotCheck_twin hf hg (twinOk_eq_false h), fun hg => ⟨slotCheck_latch hf hg, fun hl =>
    ⟨slotCheck_flight hf hg hl, fun hr => ⟨slotCheck_unreadable hf hg hl hr, fun hs => by
      rw [slotCheck_readable hf hg hl hr hs]
      exact ⟨slotWaits_empty, slotWaits_held⟩⟩⟩⟩⟩

end Sys2Proof.Machine
end

section
/-! SUPPORT. Every instruction and every event answers a next state (R85, R109), settled (O55). -/

namespace Sys2Proof.Machine

variable {s : State}

theorem answers_next (t : State) : Answers (.next t) := ⟨t, rfl⟩

theorem answers_ite {p : Prop} [Decidable p] {a b : Out} (ha : Answers a) (hb : Answers b) : Answers (if p then a else b) := by
  split
  · exact ha
  · exact hb

/-- A slot answers, whether its checks pass or not. -/
theorem answers_of_checked {i : Instr} (h : Checked i s) : Answers (exec i s) := by
  obtain ⟨pre, own, act, he, -⟩ := h
  rw [he]
  exact issuePre_answers

/-! ## Stores and loads of the control complex -/

theorem writeLow_answers (off : Nat) (v : Word) : Answers (s.writeLow off v) := by
  unfold State.writeLow
  split <;> exact answers_next _

theorem writeSec_answers (off : Nat) (v : Word) : Answers (s.writeSec off v) :=
  answers_ite (answers_next _) (answers_ite (answers_next _) (answers_ite (answers_next _) (answers_next _)))

/-- A store to a device register: the single registers below 0x0200, the blocks of the map one after the other, the security block. -/
theorem writeReg_answers (off : Nat) (v : Word) : Answers (s.writeReg off v) := by
  unfold State.writeReg
  refine answers_ite (writeLow_answers off v) ?_
  iterate 13
    split
    · exact answers_next _
  split
  · exact writeSec_answers _ v
  · exact answers_next _

theorem secureReg_answers (off : Nat) (v : Word) : Answers (s.secureReg off v) :=
  answers_ite (answers_next _) (answers_ite (answers_next _) (writeReg_answers off v))

theorem loadReg_answers (hart off : Nat) : Answers (s.loadReg hart off) := by
  refine answers_ite (answers_next _) ?_
  split <;> exact answers_next _

theorem registerAccess_answers (hart : Nat) (op : HostAccess) (off size : Nat) (data : Word) :
    Answers (s.registerAccess hart op off size data) := by
  refine answers_ite (answers_next _) ?_
  cases op
  case load => exact loadReg_answers hart off
  case store => exact answers_ite (writeReg_answers off data) (secureReg_answers off data)
  all_goals exact answers_next _

theorem hostMemory_answers (op : HostAccess) (pa n : Nat) (data : Word) : Answers (s.hostMemory op pa n data) := by
  cases op <;> exact answers_next _

theorem secureMemory_answers (op : HostAccess) (pa n : Nat) (data : Word) : Answers (s.secureMemory op pa n data) := by
  cases op <;> exact answers_next _

theorem applicationCoreAccess_answers (hart : Nat) (op : HostAccess) (pa size : Nat) (data : Word) :
    Answers (execApplicationCoreAccess hart op pa size data s) :=
  answers_ite (answers_next _) (answers_ite (answers_next _)
    (answers_ite (answers_ite (hostMemory_answers op pa size data) (secureMemory_answers op pa size data))
      (answers_ite (registerAccess_answers hart op _ size data) (answers_next _))))

/-! ## Every row of the table -/

/-- Settles O55: a slot answers since it makes its checks (`checked_of_slot`), an event along each of its branches. -/
theorem everyInstructionAnswers : Obligations.EveryInstructionAnswers := by
  unfold Obligations.EveryInstructionAnswers
  intro i s
  cases i
  case nop => exact issue_answers
  case registerWrite => exact answers_ite (writeReg_answers _ _) (answers_next _)
  case applicationCoreAccess => exact applicationCoreAccess_answers ..
  case resultWrite | contextReady | generatorAppend | pageWalk | shootdown | shootdownComplete | correctedWriteback | rdcEviction
      | tileFetchEntryFill | streamGeneratorRow | sqstatHalt | ferryTransfer | fqstatHalt | fqstatDiscard | soundTransfer | collectiveJoin
      | collectiveResultWrite | allToAllExchange | sndqHalt | sndqDiscard | qnotify | schedulerPass | distributorDecision | ageExpiry
      | timedLaunchLead | steal | taskEnd | savePoint | savePointTimeout | islandResetEnd | waittExpiry | ptpstep | ptploRead | ptpctlWrite
      | jrdseq | restart | resume | restore | attctlNop | attctlExtend | attctlQuote | attctlPublicKey | attctlFirmwareUpdate
      | attctlInvalidOp | xdriftpWrite | linkEnable | stampPop | runtimeHaltRequest | runtimeKill | powerWarningDeassert | powerLoss
      | ethernetLinkDown | pcieLinkError | thermalLimit | supplyUndervoltage | applicationCoreMachineCheck | runtimeHeartbeatMissed
      | errorThresholdWindowEnd | refreshWindowEnd | refreshManagementEnd =>
    exact answers_next _
  case patrolScrub | activationAlert | dummyStep | rampWindowEnd | tideCheck | kvStreamEntryFill | narrowsSectorReceive | straitFlitReceive
      | linkRetrain | linkTrained | portTrainTimeout | fabricTimeout | fatalDeviceFault | fatalRecovery | powerWarning | checkpointCommit =>
    exact answers_ite (answers_next _) (answers_next _)
  case hbmSectorFill | digitalFallback | pcieDma => exact answers_ite (answers_next _) (answers_ite (answers_next _) (answers_next _))
  case operandLogPerform | lateFaultDelivery | writeStreamDrain | followOnHandoff | matrixInstructionStart | matrixStep
      | matrixInstructionComplete | crossbarInstructionStart | crossbarInstructionComplete | kvOperation | windowAccess
      | soundAcknowledgement | collectiveRun | queueSlotConsume | launchAccept | contextSave | contextRestore | boot | ethTransmit
      | ethReceive =>
    delta exec
    dsimp only [execOperandLogPerform, execLateFaultDelivery, execWriteStreamDrain, execFollowOnHandoff, execMatrixInstructionStart, execMatrixStep,
      execMatrixInstructionComplete, execCrossbarInstructionStart, execCrossbarInstructionComplete, execKvOperation, execWindowAccess,
      execSoundAcknowledgement, execCollectiveRun, execQueueSlotConsume, execLaunchAccept, execContextSave, execContextRestore, execBoot,
      execEthTransmit, execEthReceive]
    repeat' split
    all_goals exact answers_next _
  case vstgGd l a b p => exact answers_of_checked (checked_of_slot (by rw [form_vstgGd_cls]; exact Cls.noConfusion))
  all_goals exact answers_of_checked (checked_of_slot Cls.noConfusion)

end Sys2Proof.Machine
end

section
/-! SUPPORT. The agenda that a step leaves (R84), settled (O57). -/

namespace Sys2Proof.Machine

/-- What a step leaves of the agenda is what it is given to leave. -/
theorem thenAgenda_agenda {rest : List Instr} {o : Out} {t : State} (h : thenAgenda rest o = .next t) : t.agenda = rest := by
  cases o
  case next u =>
    cases h
    rfl
  all_goals cases h

/-- A step with an empty agenda is a turn of the device's own. -/
theorem step_turn {s : State} (h : s.agenda = []) : step s = thenAgenda [] s.turn := by
  rw [step, h]

/-- A step takes the event at the head of the agenda. -/
theorem step_event {s : State} {e : Instr} {rest : List Instr} (h : s.agenda = e :: rest) (he : isEvent e = true) :
    step s = thenAgenda rest (exec e { s with agenda := rest }) := by
  rw [step, h]
  exact if_pos he

/-- The agenda that the surroundings can ask for is one of events. -/
theorem agendaOk_cons {s : State} {e : Instr} {rest : List Instr} (h : s.agenda = e :: rest) :
    s.agendaOk = true ↔ isEvent e = true ∧ rest.all isEvent = true := by
  rw [State.agendaOk, h, List.all_cons, Bool.and_eq_true]

/-- Settles O57. -/
theorem agendaInvariant : Obligations.AgendaInvariant := by
  unfold Obligations.AgendaInvariant
  intro s t hs ht
  cases ha : s.agenda with
  | nil =>
    rw [step_turn ha] at ht
    have h : t.agenda = [] := thenAgenda_agenda ht
    exact ⟨by rw [State.agendaOk, h]; rfl, h⟩
  | cons e rest =>
    obtain ⟨he, hrest⟩ := (agendaOk_cons ha).1 hs
    rw [step_event ha he] at ht
    have h : t.agenda = rest := thenAgenda_agenda ht
    exact ⟨by rw [State.agendaOk, h, hrest], h⟩

end Sys2Proof.Machine
end

section
/-! SUPPORT. Every step from an agenda of events answers a next state (R85, R109, R324), settled (O56). -/

namespace Sys2Proof.Machine

variable {s : State}

/-- Checking the slots of a bundle finds how each ends. -/
theorem checkSlots_answers (beside : State) (l : List Slot) : ∃ ends, checkSlots s beside l = .next ends := by
  induction l with
  | nil => exact ⟨[], rfl⟩
  | cons x l ih =>
    obtain ⟨ends, he⟩ := ih
    obtain ⟨t, ht⟩ := everyInstructionAnswers x.instr ((if readsRecord x.instr then beside else s).atSlot x)
    exact ⟨(x.k, t.slotEnd) :: ends, by rw [checkSlots, ht, he]⟩

theorem actSlots_answers (l : List Slot) (s : State) : Answers (actSlots l s) := by
  induction l generalizing s with
  | nil => exact answers_next s
  | cons x l ih =>
    obtain ⟨t, ht⟩ := everyInstructionAnswers x.instr ((if phaseOf x = 0 then s else s.popRandom).atSlot x)
    rw [actSlots, ht]
    exact ih t

theorem runSlots_answers (l : List Slot) : ∃ r, runSlots l s = .next r := by
  obtain ⟨ends, he⟩ := checkSlots_answers (s := s) (s.besideMemory l) l
  obtain ⟨t, ht⟩ := actSlots_answers (actOrder l) (s.updIss (fun i => { i with checked := true }))
  rw [runSlots, he]
  dsimp only
  split
  · rw [ht]
    exact ⟨_, rfl⟩
  · exact ⟨_, rfl⟩

/-- A bundle whose words are read runs or stops. -/
theorem issueWords_answers (ws : List (BitVec 32)) : Answers (s.issueWords ws) := by
  refine answers_ite (answers_next _) (answers_ite ?_ ?_)
  · obtain ⟨r, hr⟩ := runSlots_answers (s := _) _
    rw [hr]
    exact answers_next _
  · dsimp only
    split <;> exact answers_next _

theorem issueBundle_answers : Answers s.issueBundle := by
  refine answers_ite (answers_next _) ?_
  split
  · exact answers_ite (answers_next _) (answers_ite (answers_next _) (answers_next _))
  · exact issueWords_answers _

theorem coreTurn_answers : Answers s.coreTurn := by
  refine answers_ite (answers_next _) (answers_ite (answers_next _) (answers_ite (everyInstructionAnswers _ _)
    (answers_ite (everyInstructionAnswers _ _) ?_)))
  obtain ⟨t, ht⟩ := issueBundle_answers (s := s.chosen)
  rw [ht]
  exact answers_next _

theorem turn_answers : Answers s.turn := by
  refine answers_ite ?_ coreTurn_answers
  split
  · exact answers_next _
  · split
    · exact answers_next _
    · split
      · exact everyInstructionAnswers _ _
      · exact answers_next _

theorem thenAgenda_answers {rest : List Instr} {o : Out} (h : Answers o) : Answers (thenAgenda rest o) := by
  obtain ⟨t, rfl⟩ := h
  exact answers_next _

/-- No step from an agenda of events stops. -/
theorem step_answers (h : s.agendaOk = true) : Answers (step s) := by
  cases ha : s.agenda with
  | nil =>
    rw [step_turn ha]
    exact thenAgenda_answers turn_answers
  | cons e rest =>
    rw [step_event ha ((agendaOk_cons ha).1 h).1]
    exact thenAgenda_answers (everyInstructionAnswers _ _)

/-- Every state that a run reaches has an agenda of events. -/
theorem agendaOk_of_reaches {t : State} (h : Reaches s t) (hs : s.agendaOk = true) : t.agendaOk = true := by
  induction h with
  | refl => exact hs
  | tail _ hstep ih => exact (agendaInvariant _ _ ih hstep).1

/-- Settles O56: each state that a run reaches has an agenda of events, from which no step stops. -/
theorem safeRuns : Obligations.SafeRuns := by
  unfold Obligations.SafeRuns SafeFrom
  exact fun s hs t ht => step_answers (agendaOk_of_reaches ht hs)

end Sys2Proof.Machine
end

section
/-! SUPPORT. Results that are due: what writing one does, and what writing all of them leaves (R91, R94, R96, R98, R186, R327), settled (O23). -/

namespace Sys2Proof.Machine

open Sys2Proof.Spec

/-! ## Folds over results -/

section Folds

variable {α : Type} {step : State → InFlight → State} {obs : State → α} {l : List InFlight}

/-- What is observed after a fold, where each step tells it from what was observed before. -/
theorem obs_foldl {upd : α → InFlight → α} (h : ∀ f ∈ l, ∀ s, obs (step s f) = upd (obs s) f) (s : State) :
    obs (l.foldl step s) = l.foldl upd (obs s) := by
  induction l generalizing s with
  | nil => rfl
  | cons f l ih =>
    rw [List.foldl_cons, List.foldl_cons, ih (fun g hg => h g (List.mem_cons_of_mem _ hg)), h f List.mem_cons_self]

/-- What no step changes stays. -/
theorem obs_foldl_miss (h : ∀ f ∈ l, ∀ s, obs (step s f) = obs s) (s : State) : obs (l.foldl step s) = obs s := by
  rw [obs_foldl (upd := fun a _ => a) h]
  exact List.foldl_fixed l

/-- What one result alone changes, and changes once for all, is as that result leaves it. -/
theorem obs_foldl_hit {f : InFlight} {upd : α → α} (hf : f ∈ l) (hit : ∀ s, obs (step s f) = upd (obs s)) (hi : ∀ a, upd (upd a) = upd a)
    (hm : ∀ g ∈ l, g ≠ f → ∀ s, obs (step s g) = obs s) (s : State) : obs (l.foldl step s) = upd (obs s) := by
  induction l generalizing s with
  | nil => cases hf
  | cons g l ih =>
    rw [List.foldl_cons]
    have hm' : ∀ k ∈ l, k ≠ f → ∀ s, obs (step s k) = obs s := fun k hk => hm k (List.mem_cons_of_mem _ hk)
    by_cases hl : f ∈ l
    · rw [ih hl hm']
      by_cases hg : g = f
      · rw [hg, hit, hi]
      · rw [hm g List.mem_cons_self hg]
    · have hg : g = f := ((List.mem_cons.1 hf).resolve_right hl).symm
      have hmiss : ∀ k ∈ l, ∀ s, obs (step s k) = obs s := fun k hk => hm' k hk (fun e => hl (e ▸ hk))
      rw [obs_foldl_miss hmiss, hg, hit]

end Folds

/-! ## One result -/

/-- A context whose destination, if it is one of its own, a result has been written to. -/
def Ctx.written (c : Ctx) (f : InFlight) : Ctx :=
  match f.dest with
  | .s r => c.writeS r (lo64 f.val)
  | .p r => c.writeP r (ofBits (fun j => if f.mask.getLsbD j then lane f.val j == BitVec.allOnes 32 else (c.readP r).getLsbD j))
  | .ctl n => c.writeCtl n (lo64 f.val)
  | _ => c

/-- The context after a result: its latch holds it, and its flags are raised. -/
def Ctx.withResult (c : Ctx) (f : InFlight) : Ctx :=
  { c.written f with
    latches := match f.latch with
      | some l => mset (c.written f).latches l f.val
      | none => (c.written f).latches
    fflags := (c.written f).fflags ||| f.flags }

section One

variable (s : State) (core x : Nat) (f : InFlight)

theorem ctx_updCtx (t : State) (g : Ctx → Ctx) : (t.updCtx core x g).ctx core x = g (t.ctx core x) := mget_mset_same ..

theorem ctx_updCtx_other {k y : Nat} (h : cid k y ≠ cid core x) (t : State) (g : Ctx → Ctx) : (t.updCtx core x g).ctx k y = t.ctx k y :=
  mget_mset_other _ _ _ h

theorem ctx_writeResult : (s.writeResult core x f).ctx core x = (s.ctx core x).withResult f := by
  rw [State.writeResult, ctx_updCtx, Ctx.withResult, Ctx.written]
  cases f.dest <;> simp only [ctx_updCtx] <;> rfl

theorem ctx_writeResult_other {k y : Nat} (h : cid k y ≠ cid core x) : (s.writeResult core x f).ctx k y = s.ctx k y := by
  rw [State.writeResult, ctx_updCtx_other core x h]
  cases f.dest
  case s | p | ctl => exact ctx_updCtx_other core x h _ _
  all_goals rfl

theorem mem_writeResult : (s.writeResult core x f).mem = s.mem := by
  rw [State.writeResult]
  cases f.dest <;> rfl

theorem spad_writeResult : (s.writeResult core x f).spad = s.spad := by
  rw [State.writeResult]
  cases f.dest <;> rfl

theorem regs_writeResult : (s.writeResult core x f).regs = s.regs := by
  rw [State.writeResult]
  cases f.dest <;> rfl

/-- A vector register takes the active lanes of its result (R90). -/
theorem readV_writeResult_dest {r : Nat} (h : f.dest = .v r) :
    (s.writeResult core x f).readV core x r = mergeLanes f.mask f.val (s.readV core x r) := by
  rw [State.writeResult, h]
  exact mget_mset_same ..

end One

/-! ## What a result leaves of its context -/

section Context

variable (c : Ctx) (f : InFlight)

/-- What a control register that a result writes holds: the bits it has (R89, R185), or, being read-only, what it held. -/
def ctlAfter (n : Nat) (v a : Word) : Word :=
  match n with
  | 0x00 => v &&& 0x7FF
  | 0x08 => v &&& 0x3FFF_FFFF_FFFF_FFF3
  | 0x09 => v &&& ~~~15
  | 0x0D | 0x38 | 0x39 | 0x3A => v
  | _ => a

theorem readCtl_writeCtl_same {n : Nat} (v : Word) (h : n ≠ 1) : (c.writeCtl n v).readCtl n = ctlAfter n v (c.readCtl n) := by
  unfold Ctx.writeCtl ctlAfter
  split <;> simp_all [Ctx.readCtl]

theorem readCtl_writeCtl_other {m n : Nat} (v : Word) (h : m ≠ n) (h1 : n ≠ 1) : (c.writeCtl m v).readCtl n = c.readCtl n := by
  unfold Ctx.writeCtl Ctx.readCtl
  split <;> split
  any_goals rfl
  all_goals exact absurd rfl h

/-- A control register is no scalar register, predicate or latch, and writing it moves neither the context nor its results in flight. -/
theorem writeCtl_frame (n : Nat) (v : Word) : (c.writeCtl n v).regs = c.regs ∧ (c.writeCtl n v).preds = c.preds ∧
    (c.writeCtl n v).latches = c.latches ∧ (c.writeCtl n v).flight = c.flight ∧ (c.writeCtl n v).pc = c.pc ∧ (c.writeCtl n v).hnd = c.hnd := by
  unfold Ctx.writeCtl
  split <;> exact ⟨rfl, rfl, rfl, rfl, rfl, rfl⟩

theorem writeS_eq (r : Nat) (v : Word) : c.writeS r v = { c with regs := (c.writeS r v).regs } := by
  unfold Ctx.writeS
  split <;> rfl

theorem writeP_eq (r : Nat) (q : Pred) : c.writeP r q = { c with preds := (c.writeP r q).preds } := by
  unfold Ctx.writeP
  split <;> rfl

/-- What a result is written to is neither a latch nor the flight record. -/
theorem written_frame : (c.written f).latches = c.latches ∧ (c.written f).flight = c.flight ∧ (c.written f).pc = c.pc ∧
    (c.written f).hnd = c.hnd := by
  rw [Ctx.written]
  cases f.dest with
  | s r =>
    dsimp only
    rw [writeS_eq]
    exact ⟨rfl, rfl, rfl, rfl⟩
  | p r =>
    dsimp only
    rw [writeP_eq]
    exact ⟨rfl, rfl, rfl, rfl⟩
  | ctl n =>
    obtain ⟨-, -, h⟩ := writeCtl_frame c n (lo64 f.val)
    exact h
  | v q => exact ⟨rfl, rfl, rfl, rfl⟩
  | none => exact ⟨rfl, rfl, rfl, rfl⟩

theorem readS_withResult {r : Nat} (h : r ≠ 0) : (c.withResult f).readS r = if f.dest = .s r then lo64 f.val else c.readS r := by
  show (c.written f).readS r = _
  rw [Ctx.written]
  cases f.dest with
  | s q =>
    by_cases hq : q = 0
    · subst hq
      rw [if_neg (by simpa using h.symm)]
      rfl
    · simp only [readS_writeS c _ r hq, Dest.s.injEq, eq_comm]
  | p q => exact readS_writeP ..
  | ctl n =>
    obtain ⟨hr, -⟩ := writeCtl_frame c n (lo64 f.val)
    rw [if_neg Dest.noConfusion, Ctx.readS, hr]
    rfl
  | v q => rfl
  | none => rfl

theorem readP_withResult {r j : Nat} (h : r ≠ 0) (hj : j < 128) : ((c.withResult f).readP r).getLsbD j =
    if f.dest = .p r then if f.mask.getLsbD j then decide (lane f.val j = BitVec.allOnes 32) else (c.readP r).getLsbD j
    else (c.readP r).getLsbD j := by
  show ((c.written f).readP r).getLsbD j = _
  rw [Ctx.written]
  cases f.dest with
  | s q => exact congrArg (BitVec.getLsbD · j) (readP_writeS ..)
  | p q =>
    by_cases hq : q = 0
    · subst hq
      rw [if_neg (by simpa using h.symm)]
      rfl
    · by_cases hr : r = q
      · subst hr
        simp only [readP_writeP c _ r hq, if_true, ofBits, getLsbD_packNat _ (Nat.le_refl 128) hj]
        rfl
      · simp only [readP_writeP c _ r hq, if_neg hr, Dest.p.injEq, if_neg (Ne.symm hr)]
  | ctl n =>
    obtain ⟨-, hp, -⟩ := writeCtl_frame c n (lo64 f.val)
    rw [if_neg Dest.noConfusion, Ctx.readP, hp]
    rfl
  | v q => rfl
  | none => rfl

theorem readCtl_withResult {n : Nat} (h : n ≠ 1) : (c.withResult f).readCtl n =
    if f.dest = .ctl n then ctlAfter n (lo64 f.val) (c.readCtl n) else c.readCtl n := by
  have hframe : ∀ (k : Ctx) (m : Map Vec) (fl : Flags), ({ k with latches := m, fflags := fl } : Ctx).readCtl n = k.readCtl n := fun k m fl => by
    unfold Ctx.readCtl
    split
    case h_2 => exact absurd rfl h
    all_goals rfl
  rw [Ctx.withResult, hframe, Ctx.written]
  cases f.dest with
  | s q =>
    rw [if_neg Dest.noConfusion]
    dsimp only
    rw [writeS_eq]
    rfl
  | p q =>
    rw [if_neg Dest.noConfusion]
    dsimp only
    rw [writeP_eq]
    rfl
  | ctl m =>
    by_cases hm : m = n
    · subst hm
      rw [if_pos rfl]
      exact readCtl_writeCtl_same c _ h
    · rw [if_neg (by simpa using hm)]
      exact readCtl_writeCtl_other c _ hm h
  | v q => rfl
  | none => rfl

theorem latch_withResult (l : Nat) : mfind (c.withResult f).latches l = if f.latch = some l then some f.val else mfind c.latches l := by
  obtain ⟨hl, -⟩ := written_frame c f
  rw [Ctx.withResult, hl]
  cases f.latch with
  | none => rfl
  | some k =>
    by_cases hk : k = l
    · subst hk
      simp
    · simp [hk, mfind_mset_other _ _ (Ne.symm hk)]

theorem fflags_writeCtl (n : Nat) (v : Word) : (c.writeCtl n v).fflags = if n = 1 then v.setWidth 5 else c.fflags := by
  unfold Ctx.writeCtl
  split
  case h_9 => simp_all
  all_goals rfl

theorem fflags_withResult : (c.withResult f).fflags = (if f.dest = .ctl 1 then (lo64 f.val).setWidth 5 else c.fflags) ||| f.flags := by
  refine congrArg (· ||| f.flags) ?_
  rw [Ctx.written]
  cases f.dest with
  | s q =>
    rw [if_neg Dest.noConfusion]
    dsimp only
    rw [writeS_eq]
  | p q =>
    rw [if_neg Dest.noConfusion]
    dsimp only
    rw [writeP_eq]
  | ctl m => simpa using fflags_writeCtl c m (lo64 f.val)
  | v q => rfl
  | none => rfl

theorem tvec_withResult : (c.withResult f).tvec = if f.dest = .ctl 8 then lo64 f.val &&& 0x3FFF_FFFF_FFFF_FFF3 else c.tvec :=
  readCtl_withResult c f (n := 8) (by decide)

end Context

/-! ## All results that are due -/

/-- Whether a result is bound for a control register. -/
def InFlight.isCtl (f : InFlight) : Bool :=
  match f.dest with
  | .ctl _ => true
  | _ => false

/-- The order in which results are written: control registers first (R186). -/
def dueOrder (due : List InFlight) : List InFlight := due.filter InFlight.isCtl ++ due.filter (fun f => !f.isCtl)

theorem dueOrder_perm (due : List InFlight) : (dueOrder due).Perm due := List.filter_append_perm ..

theorem isCtl_of_dest {f : InFlight} {n : Nat} (h : f.dest = .ctl n) : f.isCtl = true := by rw [InFlight.isCtl, h]

theorem not_isCtl {f : InFlight} (h : f.isCtl = false) (n : Nat) : f.dest ≠ .ctl n := fun hd => by
  rw [isCtl_of_dest hd] at h
  cases h

section All

variable {s : State} {core x : Nat} {α : Type}

/-- The state in which the results that are due have left the flight record. -/
def State.landing (s : State) (core x : Nat) : State :=
  s.updCtx core x (fun c => { c with flight := c.flight.filter (fun f => f.left != 0) })

theorem writeAll_eq : s.writeAll core x =
    (dueOrder (s.ctx core x).due).foldl (fun t f => t.writeResult core x f) (s.landing core x) := rfl

theorem mem_due {due : List InFlight} {f : InFlight} : f ∈ dueOrder due ↔ f ∈ due := (dueOrder_perm due).mem_iff

/-- What no result that is due changes in its context stays. -/
theorem ctx_writeAll_miss {g : Ctx → α} (h : ∀ f ∈ (s.ctx core x).due, ∀ c : Ctx, g (c.withResult f) = g c) :
    g ((s.writeAll core x).ctx core x) = g ((s.landing core x).ctx core x) := by
  rw [writeAll_eq]
  refine obs_foldl_miss (obs := fun t => g (t.ctx core x)) (fun f hf t => ?_) _
  rw [ctx_writeResult]
  exact h f (mem_due.1 hf) _

/-- What one of them alone changes is as it leaves it. -/
theorem ctx_writeAll_hit {g : Ctx → α} {f : InFlight} {upd : α → α} (hf : f ∈ (s.ctx core x).due)
    (hit : ∀ c : Ctx, g (c.withResult f) = upd (g c)) (hi : ∀ a, upd (upd a) = upd a)
    (hm : ∀ k ∈ (s.ctx core x).due, k ≠ f → ∀ c : Ctx, g (c.withResult k) = g c) :
    g ((s.writeAll core x).ctx core x) = upd (g ((s.landing core x).ctx core x)) := by
  rw [writeAll_eq]
  refine obs_foldl_hit (obs := fun t => g (t.ctx core x)) (mem_due.2 hf) (fun t => ?_) hi (fun k hk hne t => ?_) _
  · rw [ctx_writeResult]
    exact hit _
  · rw [ctx_writeResult]
    exact hm k (mem_due.1 hk) hne _

/-- What no result changes in the state stays. -/
theorem writeAll_keeps {obs : State → α} (h : ∀ (t : State) (f : InFlight), obs (t.writeResult core x f) = obs t) :
    obs (s.writeAll core x) = obs (s.landing core x) := by
  rw [writeAll_eq]
  exact obs_foldl_miss (fun f _ t => h t f) _

theorem ctx_landing : (s.landing core x).ctx core x =
    { s.ctx core x with flight := (s.ctx core x).flight.filter (fun f => f.left != 0) } := ctx_updCtx ..

/-- A vector register that one result alone is bound for takes its active lanes. -/
theorem lane_writeAll {f : InFlight} {r j : Nat} (hf : f ∈ (s.ctx core x).due) (hd : f.dest = .v r)
    (hm : ∀ g ∈ (s.ctx core x).due, g.dest = .v r → g = f) (hj : j < 128) :
    lane ((s.writeAll core x).readV core x r) j = if f.mask.getLsbD j then lane f.val j else lane (s.readV core x r) j := by
  rw [writeAll_eq]
  refine obs_foldl_hit (obs := fun t => lane (t.readV core x r) j) (upd := fun a => if f.mask.getLsbD j then lane f.val j else a)
    (mem_due.2 hf) (fun t => ?_) (fun a => ?_) (fun g hg hne t => ?_) (s.landing core x)
  · rw [readV_writeResult_dest t core x f hd, mergeLanes, lane_ofLanes _ hj]
  · split <;> rfl
  · rw [readV_writeResult (fun h => hne (hm g (mem_due.1 hg) h))]

/-! ## Flags -/

/-- The flags that results raise, over those raised before. -/
def raise (a : Flags) (l : List InFlight) : Flags := l.foldl (fun m f => m ||| f.flags) a

theorem raise_perm {l k : List InFlight} (h : l.Perm k) (a : Flags) : raise a l = raise a k :=
  h.foldl_eq' (fun f _ g _ m => by rw [BitVec.or_assoc, BitVec.or_comm f.flags, ← BitVec.or_assoc]) a

theorem raise_none {l : List InFlight} (h : ∀ f ∈ l, f.flags = 0) (a : Flags) : raise a l = a := by
  induction l with
  | nil => rfl
  | cons f l ih =>
    show raise (a ||| f.flags) l = a
    rw [h f List.mem_cons_self, show a ||| (0 : Flags) = a from BitVec.or_zero]
    exact ih (fun g hg => h g (List.mem_cons_of_mem _ hg))

theorem or_and_eq_zero {a b m : Flags} (ha : a &&& m = 0) (hb : b &&& m = 0) : (a ||| b) &&& m = 0 := by
  ext i hi
  have ha' : (a[i] && m[i]) = false := by simpa using congrArg (fun v : Flags => v[i]) ha
  have hb' : (b[i] && m[i]) = false := by simpa using congrArg (fun v : Flags => v[i]) hb
  simp [Bool.and_or_distrib_right, ha', hb']

/-- None of the flags that a list raises is one of a mask that it shares none with. -/
theorem raise_and {l : List InFlight} {a m : Flags} (ha : a &&& m = 0) (h : ∀ f ∈ l, f.flags &&& m = 0) : raise a l &&& m = 0 := by
  induction l generalizing a with
  | nil => exact ha
  | cons f l ih =>
    refine ih (a := a ||| f.flags) ?_ (fun g hg => h g (List.mem_cons_of_mem _ hg))
    exact or_and_eq_zero ha (h f List.mem_cons_self)

/-- Without a write to FFLAGS the flags of every result are raised over those held. -/
theorem fflags_writeAll (h : ∀ f ∈ (s.ctx core x).due, f.dest ≠ .ctl 1) :
    ((s.writeAll core x).ctx core x).fflags = raise (s.ctx core x).fflags (s.ctx core x).due := by
  rw [writeAll_eq, obs_foldl (obs := fun t => (t.ctx core x).fflags) (upd := fun a f => a ||| f.flags) (fun f hf t => ?_), ctx_landing]
  · exact raise_perm (dueOrder_perm _) _
  · rw [ctx_writeResult, fflags_withResult, if_neg (h f (mem_due.1 hf))]

/-- A write to FFLAGS comes before the flags of the results that are written after the control registers. -/
theorem fflags_writeAll_ctl {f : InFlight} (hf : f ∈ (s.ctx core x).due) (hd : f.dest = .ctl 1)
    (hm : ∀ g ∈ (s.ctx core x).due, g.dest = .ctl 1 → g = f) (h0 : ∀ g ∈ (s.ctx core x).due, ∀ n, g.dest = .ctl n → g.flags = 0) :
    ((s.writeAll core x).ctx core x).fflags = raise ((lo64 f.val).setWidth 5) (s.ctx core x).due := by
  generalize hdue : (s.ctx core x).due = due at hf hm h0
  have hz : ∀ g ∈ due.filter InFlight.isCtl, g.flags = 0 := fun g hg => by
    obtain ⟨hg, hc⟩ := List.mem_filter.1 hg
    cases hgd : g.dest with
    | ctl n => exact h0 g hg n hgd
    | _ => simp [InFlight.isCtl, hgd] at hc
  have hctl : ((((due.filter InFlight.isCtl).foldl (fun t g => t.writeResult core x g) (s.landing core x))).ctx core x).fflags =
      (lo64 f.val).setWidth 5 := by
    refine obs_foldl_hit (obs := fun t => (t.ctx core x).fflags) (upd := fun _ => (lo64 f.val).setWidth 5)
      (List.mem_filter.2 ⟨hf, isCtl_of_dest hd⟩) (fun t => ?_) (fun _ => rfl) (fun g hg hne t => ?_) _
    · rw [ctx_writeResult, fflags_withResult, if_pos hd, h0 f hf 1 hd]
      exact BitVec.or_zero
    · rw [ctx_writeResult, fflags_withResult, if_neg (fun h => hne (hm g (List.mem_filter.1 hg).1 h)), hz g hg]
      exact BitVec.or_zero
  rw [writeAll_eq, hdue, dueOrder, List.foldl_append,
    obs_foldl (obs := fun t => (t.ctx core x).fflags) (upd := fun a f => a ||| f.flags) (fun g hg t => ?_), hctl]
  · show raise _ (due.filter (fun g => !g.isCtl)) = _
    rw [← raise_perm (dueOrder_perm due), dueOrder, raise, raise, List.foldl_append]
    exact congrArg (fun a => raise a _) (raise_none hz _).symm
  · have hc := (List.mem_filter.1 hg).2
    rw [ctx_writeResult, fflags_withResult, if_neg (not_isCtl (by simpa using hc) 1)]

/-- The traps enabled afterwards are those enabled before, or those that a result has written to TVEC. -/
theorem tvec_writeAll : ((s.writeAll core x).ctx core x).tvec = (s.ctx core x).tvec ∨ ∃ g ∈ (s.ctx core x).due, g.dest = .ctl 8 ∧
    ((s.writeAll core x).ctx core x).tvec = lo64 g.val &&& 0x3FFF_FFFF_FFFF_FFF3 := by
  have hfold : ∀ (l : List InFlight) (t : State),
      ((l.foldl (fun t f => t.writeResult core x f) t).ctx core x).tvec = (t.ctx core x).tvec ∨
        ∃ g ∈ l, g.dest = .ctl 8 ∧
          ((l.foldl (fun t f => t.writeResult core x f) t).ctx core x).tvec = lo64 g.val &&& 0x3FFF_FFFF_FFFF_FFF3 := by
    intro l
    induction l with
    | nil => exact fun _ => .inl rfl
    | cons f l ih =>
      intro t
      obtain h | ⟨g, hg, hd, h⟩ := ih (t.writeResult core x f)
      · rw [List.foldl_cons, h, ctx_writeResult, tvec_withResult]
        by_cases hd : f.dest = .ctl 8
        · exact .inr ⟨f, List.mem_cons_self, hd, if_pos hd⟩
        · exact .inl (if_neg hd)
      · exact .inr ⟨g, List.mem_cons_of_mem _ hg, hd, h⟩
  obtain h | ⟨g, hg, hd, h⟩ := hfold (dueOrder (s.ctx core x).due) (s.landing core x)
  · exact .inl (by rw [writeAll_eq, h, ctx_landing])
  · exact .inr ⟨g, mem_due.1 hg, hd, by rw [writeAll_eq, h]⟩

/-- TVEC holds the enables of R321 as written. -/
theorem enables_of_tvec (v : Word) : (v &&& 0x3FFF_FFFF_FFFF_FFF3).extractLsb' 57 5 = v.extractLsb' 57 5 := by
  rw [BitVec.extractLsb'_and]
  exact BitVec.and_allOnes

theorem frame_writeAll : ((s.writeAll core x).ctx core x).flight = (s.ctx core x).flight.filter (fun f => f.left != 0) ∧
    ((s.writeAll core x).ctx core x).pc = (s.ctx core x).pc ∧ ((s.writeAll core x).ctx core x).hnd = (s.ctx core x).hnd := by
  have h : ∀ f ∈ (s.ctx core x).due, ∀ c : Ctx,
      ((c.withResult f).flight, (c.withResult f).pc, (c.withResult f).hnd) = (c.flight, c.pc, c.hnd) := fun f _ c => by
    obtain ⟨-, hf, hp, hh⟩ := written_frame c f
    rw [← hf, ← hp, ← hh]
    rfl
  have e := ctx_writeAll_miss (g := fun c => (c.flight, c.pc, c.hnd)) h
  rw [ctx_landing] at e
  simpa using e

/-- No trap is taken where no flag that is raised is enabled, or in the handler (R327, R328). -/
theorem writeDue_eq (h : (s.ctx core x).hnd = true ∨ ∀ f ∈ (s.ctx core x).due, f.flags &&& (s.ctx core x).tvec.extractLsb' 57 5 = 0 ∧
    ∀ g ∈ (s.ctx core x).due, g.dest = .ctl 8 → f.flags &&& (lo64 g.val).extractLsb' 57 5 = 0) :
    s.writeDue core x = s.writeAll core x := by
  obtain ⟨-, -, hhnd⟩ := frame_writeAll (s := s) (core := core) (x := x)
  refine if_pos ?_
  obtain hh | hf := h
  · exact .inr (hhnd.trans hh)
  · left
    show raise 0 _ &&& ((s.writeAll core x).ctx core x).tvec.extractLsb' 57 5 = 0
    obtain ht | ⟨g, hg, hd, ht⟩ := tvec_writeAll (s := s) (core := core) (x := x)
    · rw [ht]
      exact raise_and BitVec.zero_and (fun f hm => (hf f hm).1)
    · rw [ht, enables_of_tvec]
      exact raise_and BitVec.zero_and (fun f hm => (hf f hm).2 g hg hd)

/-- RESULT_WRITE where a result is due and the context runs. -/
theorem exec_resultWrite (hd : (s.ctx core x).due ≠ []) (hh : (s.ctx core x).save.halted = false) :
    exec (.resultWrite core x) s = .next (s.writeDue core x) := by
  obtain ⟨f, hf⟩ := List.exists_mem_of_ne_nil _ hd
  obtain ⟨hm, hl⟩ := List.mem_filter.1 hf
  exact congrArg Host.Outcome.next (if_pos (by rw [hh, List.any_eq_true.2 ⟨f, hm, hl⟩]; rfl))

/-! ## What each destination holds -/

theorem readS_writeAll_miss {r : Nat} (h0 : r ≠ 0) (h : ∀ f ∈ (s.ctx core x).due, f.dest ≠ .s r) :
    ((s.writeAll core x).ctx core x).readS r = (s.ctx core x).readS r := by
  rw [ctx_writeAll_miss (g := fun c => c.readS r) (fun f hf c => by rw [readS_withResult c f h0, if_neg (h f hf)]), ctx_landing]
  rfl

theorem readS_writeAll {f : InFlight} {r : Nat} (h0 : r ≠ 0) (hf : f ∈ (s.ctx core x).due) (hd : f.dest = .s r)
    (hm : ∀ g ∈ (s.ctx core x).due, g.dest = .s r → g = f) : ((s.writeAll core x).ctx core x).readS r = lo64 f.val :=
  ctx_writeAll_hit (g := fun c => c.readS r) (upd := fun _ => lo64 f.val) hf (fun c => by rw [readS_withResult c f h0, if_pos hd])
    (fun _ => rfl) (fun k hk hne c => by rw [readS_withResult c k h0, if_neg (fun h => hne (hm k hk h))])

theorem readP_writeAll_miss {r : Nat} (h0 : r ≠ 0) (h : ∀ f ∈ (s.ctx core x).due, f.dest ≠ .p r) :
    ((s.writeAll core x).ctx core x).readP r = (s.ctx core x).readP r := by
  refine BitVec.eq_of_getLsbD_eq (fun j hj => ?_)
  rw [ctx_writeAll_miss (g := fun c => (c.readP r).getLsbD j) (fun f hf c => by rw [readP_withResult c f h0 hj, if_neg (h f hf)]),
    ctx_landing]
  rfl

theorem readP_writeAll {f : InFlight} {r j : Nat} (h0 : r ≠ 0) (hf : f ∈ (s.ctx core x).due) (hd : f.dest = .p r)
    (hm : ∀ g ∈ (s.ctx core x).due, g.dest = .p r → g = f) (hj : j < 128) :
    (((s.writeAll core x).ctx core x).readP r).getLsbD j =
      if f.mask.getLsbD j then decide (lane f.val j = BitVec.allOnes 32) else ((s.ctx core x).readP r).getLsbD j := by
  refine (ctx_writeAll_hit (g := fun c => (c.readP r).getLsbD j)
    (upd := fun a => if f.mask.getLsbD j then decide (lane f.val j = BitVec.allOnes 32) else a) hf
    (fun c => by rw [readP_withResult c f h0 hj, if_pos hd]) (fun a => by split <;> rfl)
    (fun k hk hne c => by rw [readP_withResult c k h0 hj, if_neg (fun h => hne (hm k hk h))])).trans ?_
  rw [ctx_landing]
  rfl

theorem readCtl_landing (n : Nat) : ((s.landing core x).ctx core x).readCtl n = (s.ctx core x).readCtl n := by
  rw [ctx_landing]
  rfl

theorem readCtl_writeAll_miss {n : Nat} (h1 : n ≠ 1) (h : ∀ f ∈ (s.ctx core x).due, f.dest ≠ .ctl n) :
    ((s.writeAll core x).ctx core x).readCtl n = (s.ctx core x).readCtl n := by
  rw [ctx_writeAll_miss (g := fun c => c.readCtl n) (fun f hf c => by rw [readCtl_withResult c f h1, if_neg (h f hf)]), readCtl_landing]

theorem ctlAfter_ctlAfter (n : Nat) (v a : Word) : ctlAfter n v (ctlAfter n v a) = ctlAfter n v a := by
  unfold ctlAfter
  split
  case h_8 => simp_all
  all_goals rfl

theorem readCtl_writeAll {f : InFlight} {n : Nat} (h1 : n ≠ 1) (hf : f ∈ (s.ctx core x).due) (hd : f.dest = .ctl n)
    (hm : ∀ g ∈ (s.ctx core x).due, g.dest = .ctl n → g = f) :
    ((s.writeAll core x).ctx core x).readCtl n = ((s.ctx core x).writeCtl n (lo64 f.val)).readCtl n := by
  refine Eq.trans ?_ ((congrArg (ctlAfter n _) (readCtl_landing n)).trans (readCtl_writeCtl_same _ _ h1).symm)
  exact ctx_writeAll_hit (g := fun c => c.readCtl n) (upd := ctlAfter n (lo64 f.val)) hf
    (fun c => by rw [readCtl_withResult c f h1, if_pos hd]) (ctlAfter_ctlAfter n _)
    (fun k hk hne c => by rw [readCtl_withResult c k h1, if_neg (fun h => hne (hm k hk h))])

theorem latch_writeAll_miss {l : Nat} (h : ∀ f ∈ (s.ctx core x).due, f.latch ≠ some l) :
    mfind ((s.writeAll core x).ctx core x).latches l = mfind (s.ctx core x).latches l := by
  rw [ctx_writeAll_miss (g := fun c => mfind c.latches l) (fun f hf c => by rw [latch_withResult, if_neg (h f hf)]), ctx_landing]

theorem latch_writeAll {f : InFlight} {l : Nat} (hf : f ∈ (s.ctx core x).due) (hd : f.latch = some l)
    (hm : ∀ g ∈ (s.ctx core x).due, g.latch = some l → g = f) :
    mfind ((s.writeAll core x).ctx core x).latches l = some f.val :=
  ctx_writeAll_hit (g := fun c => mfind c.latches l) (upd := fun _ => some f.val) hf (fun c => by rw [latch_withResult, if_pos hd])
    (fun _ => rfl) (fun k hk hne c => by rw [latch_withResult, if_neg (fun h => hne (hm k hk h))])

/-- What is not of the context stays: the other contexts, memory, scratchpads and device registers. -/
theorem rest_writeAll : (∀ k y, cid k y ≠ cid core x → (s.writeAll core x).ctx k y = s.ctx k y) ∧ (s.writeAll core x).mem = s.mem ∧
    (s.writeAll core x).spad = s.spad ∧ (s.writeAll core x).regs = s.regs := by
  refine ⟨fun k y h => ?_, writeAll_keeps (fun t f => mem_writeResult t core x f), writeAll_keeps (fun t f => spad_writeResult t core x f),
    writeAll_keeps (fun t f => regs_writeResult t core x f)⟩
  rw [writeAll_keeps (obs := fun t => t.ctx k y) (fun t f => ctx_writeResult_other t core x f h)]
  exact ctx_updCtx_other core x h _ _

end All

/-- Settles O23: the results are written one after the other (`writeAll_eq`), and each destination is told by the results bound for it. -/
theorem resultsWritten : Obligations.ResultsWritten := by
  unfold Obligations.ResultsWritten
  rintro core x s c due rfl rfl hne hh htrap
  obtain ⟨hflight, hpc, hhnd⟩ := frame_writeAll (s := s) (core := core) (x := x)
  exact ⟨s.writeAll core x, _, by rw [exec_resultWrite hne hh, writeDue_eq htrap], rfl, hflight, hpc, hhnd,
    fun r h0 h => readS_writeAll_miss h0 h, fun f hf r h0 hd hm => readS_writeAll h0 hf hd hm,
    fun r h => readV_writeAll (fun g hg hl => h g (List.mem_filter.2 ⟨hg, beq_iff_eq.2 hl⟩)),
    fun f hf r hd hm j hj => lane_writeAll hf hd hm hj, fun r h0 h => readP_writeAll_miss h0 h,
    fun f hf r h0 hd hm j hj => readP_writeAll h0 hf hd hm hj, fun n h1 h => readCtl_writeAll_miss h1 h,
    fun f hf n h1 hd hm => readCtl_writeAll h1 hf hd hm, fun l h => latch_writeAll_miss h, fun f hf l hd hm => latch_writeAll hf hd hm,
    fflags_writeAll, fun f hf hd hm h0 => fflags_writeAll_ctl hf hd hm h0, rest_writeAll⟩

end Sys2Proof.Machine
end

section
/-! SUPPORT. How the checks of a slot ended is the slot's own to say: what its effect and its trap work on leaves that record as it is (R87). -/

namespace Sys2Proof.Machine

open Sys2Proof.Spec

/-! ## What leaves the end of a slot as it is -/

/-- `t` records the end of the slot that is run as `s` does. -/
structure KeepsEnd (s t : State) : Prop where
  slotEnd : t.slotEnd = s.slotEnd

variable {s t u : State}

theorem KeepsEnd.refl (s : State) : KeepsEnd s s := ⟨rfl⟩

theorem KeepsEnd.trans (h : KeepsEnd s t) (g : KeepsEnd t u) : KeepsEnd s u := ⟨g.slotEnd.trans h.slotEnd⟩

theorem KeepsEnd.foldl {α : Type} {f : State → α → State} (h : ∀ u a, KeepsEnd u (f u a)) (l : List α) (s : State) :
    KeepsEnd s (l.foldl f s) := by
  induction l generalizing s with
  | nil => exact KeepsEnd.refl s
  | cons a l ih => exact (h s a).trans (ih (f s a))

theorem KeepsEnd.ite {p : Prop} [Decidable p] (ht : KeepsEnd s t) (hu : KeepsEnd s u) : KeepsEnd s (if p then t else u) := by
  split
  · exact ht
  · exact hu

theorem HomeStep.keepsEnd (h : HomeStep s t) : KeepsEnd s t := by
  obtain ⟨_, _, _, _, _, _, _, rfl⟩ := h
  exact ⟨rfl⟩

theorem Reported.keepsEnd (h : Reported s t) : KeepsEnd s t := by
  obtain ⟨_, _, _, _, _, _, _, rfl⟩ := h
  exact ⟨rfl⟩

theorem keepsEnd_upd (s : State) (f : Ctx → Ctx) : KeepsEnd s (s.upd f) := ⟨rfl⟩

theorem keepsEnd_updCtx (s : State) (core x : Nat) (f : Ctx → Ctx) : KeepsEnd s (s.updCtx core x f) := ⟨rfl⟩

theorem keepsEnd_updIss (s : State) (f : Issue → Issue) : KeepsEnd s (s.updIss f) := ⟨rfl⟩

theorem keepsEnd_offer (s : State) (e : Event) : KeepsEnd s (s.offer e) := (reported_offer s e).keepsEnd

theorem keepsEnd_updGlobalBar (s : State) (pa : Nat) (b : BarOp) : KeepsEnd s (s.updGlobalBar pa b).1 :=
  (homeStep_updGlobalBar s pa b).keepsEnd

theorem keepsEnd_translateBare (s : State) (asn root : Nat) (va : Word) (k : AccessKind) :
    KeepsEnd s (s.translateBare asn root va k).2 := (homeStep_translateBare s asn root va k).keepsEnd

/-! ## Translations -/

theorem keepsEnd_readNode (s : State) (w : Option Nat) (asn va node level : Nat) :
    KeepsEnd s (s.readNode w asn va node level).2 := by
  have hr : KeepsEnd s (s.readHome (node + 8 * bits va (12 + 9 * level + 8) (12 + 9 * level)) 8).2 :=
    (homeStep_touchBytes s _ _).keepsEnd
  have hc : ∀ (u : State) (pte next : Nat), KeepsEnd u (u.cacheNode w asn va level pte next) := fun u pte next => by
    cases w <;> exact ⟨rfl⟩
  unfold State.readNode
  dsimp only
  split
  · exact KeepsEnd.refl s
  · split_ifs
    · exact KeepsEnd.refl s
    · exact hr
    · exact hr
    · exact hr
    · exact hr
    · exact hr.trans (hc _ _ _)

theorem keepsEnd_walk (s : State) (w : Option Nat) (asn va node l : Nat) : KeepsEnd s (s.walk w asn va node l).2 := by
  induction l generalizing s node with
  | zero =>
    have h := keepsEnd_readNode s w asn va node 0
    unfold State.walk
    split <;> (next he => rw [he] at h; exact h)
  | succ l ih =>
    have h := keepsEnd_readNode s w asn va node (l + 1)
    unfold State.walk
    split
    · next he => rw [he] at h; exact h
    · next he => rw [he] at h; exact h.trans (ih _ _)

theorem keepsEnd_tlbFill (s : State) (b : Asker) (asn va : Nat) (e : TlbEntry) : KeepsEnd s (s.tlbFill b asn va e) := by
  cases b <;> exact ⟨rfl⟩

theorem keepsEnd_leafFor (s : State) (b : Asker) (asn root : Nat) (va : Word) (k : Option AccessKind) :
    KeepsEnd s (s.leafFor b asn root va k).2 := by
  have h := keepsEnd_walk s b.walker asn (va.toNat % 2 ^ 57) (root / 4096 * 4096) 4
  unfold State.leafFor
  dsimp only
  split
  · exact KeepsEnd.refl s
  · split
    · split <;> exact KeepsEnd.refl s
    · split
      · next he => rw [he] at h; exact h
      · next he =>
        rw [he] at h
        split
        · exact h
        · exact (h.trans (homeStep_setAcDy _ _ _).keepsEnd).trans (keepsEnd_tlbFill ..)

theorem keepsEnd_translate (s : State) (core asn root : Nat) (va : Word) (k : AccessKind) :
    KeepsEnd s (s.translate core asn root va k).2 := by
  have h := keepsEnd_leafFor s (.core core) asn root va (some k)
  unfold State.translate State.translateBy
  split <;> (next he => rw [he] at h; exact h)

theorem keepsEnd_translateAll (s : State) (core asn root : Nat) (k : AccessKind) (l : List Word) :
    KeepsEnd s (s.translateAll core asn root k l).2 := by
  induction l generalizing s with
  | nil => exact KeepsEnd.refl s
  | cons va l ih =>
    have h := keepsEnd_translate s core asn root va k
    unfold State.translateAll
    split
    · next he => rw [he] at h; exact h
    · next u he =>
      rw [he] at h
      have hl := h.trans (ih u)
      split <;> (next he' => rw [he'] at hl; exact hl)

end Sys2Proof.Machine
end

section
/-! SUPPORT. An operation of the KV unit leaves the record of how a slot ended as it is (R263, R264, R273). -/

namespace Sys2Proof.Machine

open Sys2Proof.Spec

variable {α β : Type} {e : KvEnv}

/-- Where it does not fail, the operation leaves the record of how a slot ended as it is. -/
def KvKeeps (m : KvM α) : Prop := ∀ s r t, m s = .ok (r, t) → KeepsEnd s t

theorem kvKeeps_of_ok {m : KvM α} {f : State → α} {g : State → State} (h : ∀ s, m s = .ok (f s, g s))
    (hg : ∀ s, KeepsEnd s (g s)) : KvKeeps m := by
  intro s r t hs
  have he : (f s, g s) = (r, t) := Except.ok.inj ((h s).symm.trans hs)
  cases he
  exact hg s

theorem kvKeeps_pure (a : α) : KvKeeps (pure a) := kvKeeps_of_ok (f := fun _ => a) (g := id) (fun _ => rfl) KeepsEnd.refl

theorem kvKeeps_fail (c : Byte) (info : Nat) : KvKeeps (kvFail c info : KvM α) := by
  intro s r t h
  have he : (Except.error (c, BitVec.ofNat 64 info) : Except (Byte × Word) (α × State)) = .ok (r, t) := h
  cases he

theorem KvKeeps.bind {m : KvM α} {f : α → KvM β} (hm : KvKeeps m) (hf : ∀ a, KvKeeps (f a)) : KvKeeps (m >>= f) := by
  intro s r t h
  have hb : (m s >>= fun q => f q.1 q.2) = .ok (r, t) := h
  cases hs : m s with
  | error c =>
    rw [hs] at hb
    cases hb
  | ok q =>
    rw [hs] at hb
    exact (hm s q.1 q.2 hs).trans (hf q.1 q.2 r t hb)

theorem KvKeeps.ite {p : Prop} [Decidable p] {m n : KvM α} (hm : KvKeeps m) (hn : KvKeeps n) : KvKeeps (if p then m else n) := by
  split
  · exact hm
  · exact hn

theorem kvKeeps_check (ok : Bool) (c : Byte) (info : Nat) : KvKeeps (kvCheck ok c info) :=
  (kvKeeps_pure _).ite (kvKeeps_fail c info)

theorem kvKeeps_translate (va : Word) (n : Nat) (k : AccessKind) : KvKeeps (kvTranslate e va n k) := by
  intro s r t h
  have ht := keepsEnd_translateAll s e.core e.asn e.root k (vaSectors va n)
  unfold kvTranslate at h
  split at h
  · next he =>
    rw [he] at ht
    cases h
    exact ht
  · cases h

/-- A check in front of an operation that keeps the record keeps it too. -/
theorem KvKeeps.checked {ok : Bool} {c : Byte} {info : Nat} {m : KvM α} (hm : KvKeeps m) :
    KvKeeps (do let _ ← kvCheck ok c info; m) := (kvKeeps_check ok c info).bind fun _ => hm

/-- What a read leaves of the state: the sectors it fills (R263). -/
theorem kvRead_eq (va : Word) (n : Nat) (s : State) : kvRead e va n s = (kvTranslate e va n .read >>= fun l u =>
    (do let _ ← kvCheck (l.all (fun pa => !(u.homeSector (pa / 64)).2)) 0x47 0
        pure ((l.flatMap (fun pa => bytesOf (u.homeSector (pa / 64)).1 64)).drop (va.toNat % 64) |>.take n) : KvM (List Byte))
      (l.foldl (fun s pa => s.fillHome (pa / 64)) u)) s := rfl

theorem kvKeeps_read (va : Word) (n : Nat) : KvKeeps (kvRead e va n) := by
  intro s r t h
  rw [kvRead_eq] at h
  refine (kvKeeps_translate va n .read).bind (fun l u r t hr => ?_) s r t h
  exact (HomeStep.foldl _ (fun _ _ => homeStep_fillHome ..) l u).keepsEnd.trans ((kvKeeps_pure _).checked _ r t hr)

theorem kvKeeps_modify {g : State → State} (hg : ∀ s, KeepsEnd s (g s)) : KvKeeps (modify g) :=
  kvKeeps_of_ok (f := fun _ => ⟨⟩) (g := g) (fun _ => rfl) hg

theorem kvKeeps_write (va : Word) (b : List Byte) : KvKeeps (kvWrite e va b) := by
  refine (kvKeeps_translate va b.length .write).bind fun l => kvKeeps_modify fun s => ?_
  exact (HomeStep.foldl _ (fun _ _ => homeStep_homeWrite ..) (List.range l.length) s).keepsEnd

theorem kvKeeps_writeCpt (p : PoolD) (page : Nat) (c : CptE) : KvKeeps (writeCpt e p page c) := kvKeeps_write _ _

theorem kvKeeps_store (p : PoolD) : KvKeeps (p.store e) :=
  (kvKeeps_write _ _).bind fun _ => (kvKeeps_write _ _).bind fun _ => kvKeeps_write _ _

theorem kvKeeps_readCpt (p : PoolD) (page : Nat) : KvKeeps (readCpt e p page) :=
  (kvKeeps_read _ _).bind fun _ => (kvKeeps_pure _).checked.checked.checked

theorem kvKeeps_readPool (id : Nat) : KvKeeps (readPool e id) :=
  ((kvKeeps_read _ _).bind fun _ =>
    (kvKeeps_pure _).checked.checked.checked.checked.checked.checked.checked.checked).checked

theorem kvKeeps_bucketAt (p : PoolD) (h j : Nat) : KvKeeps (bucketAt e p h j) :=
  (kvKeeps_read _ _).bind fun _ => (kvKeeps_pure _).checked.checked

theorem kvKeeps_probe (p : PoolD) (h : Nat) (f : List Byte → Bool) (n j : Nat) : KvKeeps (probe e p h f n j) := by
  induction n generalizing j with
  | zero => exact kvKeeps_pure none
  | succ n ih =>
    exact (kvKeeps_bucketAt p h j).bind fun _ => (kvKeeps_pure _).ite ((kvKeeps_pure _).ite (ih (j + 1)))

theorem kvKeeps_free (p : PoolD) (page : Nat) (c : CptE) (strict : Bool) : KvKeeps (kvFree e p page c strict) := by
  unfold kvFree
  extract_lets _ _ rest found
  have hrest : ∀ r, KvKeeps (rest r) := fun r => by
    unfold rest
    extract_lets last
    have hlast : ∀ q, KvKeeps (last q) := fun q =>
      (kvKeeps_writeCpt _ _ _).bind fun _ => (kvKeeps_store _).bind fun _ => kvKeeps_pure _
    exact (((kvKeeps_fail _ _).ite (kvKeeps_pure _)).bind hlast).ite ((kvKeeps_pure _).bind hlast)
  have hfound : ∀ f, KvKeeps (found f) := fun f => by
    cases f with
    | none => exact ((kvKeeps_fail _ _).bind hrest).ite ((kvKeeps_pure _).bind hrest)
    | some b => exact (kvKeeps_write _ _).bind fun _ => (kvKeeps_pure _).bind hrest
  exact ((kvKeeps_pure _).bind hrest).ite (((kvKeeps_pure _).bind hfound).ite ((kvKeeps_probe _ _ _ _ _).bind hfound))

theorem kvKeeps_unpinPage (pool g : Nat) : KvKeeps (unpinPage e pool g) :=
  (kvKeeps_readPool pool).bind fun p => (kvKeeps_readCpt p g).bind fun _ => (kvKeeps_writeCpt _ _ _).bind fun _ =>
    ((kvKeeps_free _ _ _ _).bind fun _ => kvKeeps_pure _).ite (kvKeeps_pure _)

end Sys2Proof.Machine
end

section
/-! SUPPORT. A trap leaves the record of how a slot ended as it is: the report of its cause, and what a killed task leaves (R179, R343). -/

namespace Sys2Proof.Machine

open Sys2Proof.Spec

variable {t u : State}

/-! ## The retirement of a launch -/

theorem keepsEnd_updLaunch (s : State) (n : Nat) (f : Launch → Launch) : KeepsEnd s (s.updLaunch n f) := by
  unfold State.updLaunch
  split <;> exact ⟨rfl⟩

theorem keepsEnd_journal (s : State) (l : Launch) (st : LaunchState) : KeepsEnd s (s.journal l st) := by
  unfold State.journal
  dsimp only
  have h : ∀ (a : Nat) (b : List Byte) (f : Regs → Regs) (g : Launch → Launch),
      KeepsEnd s (((s.homeStore a b).updRegs f).updLaunch l.id g) := fun a b f g =>
    (homeStep_homeStore s a b).keepsEnd.trans
      ((⟨rfl⟩ : KeepsEnd (s.homeStore a b) ((s.homeStore a b).updRegs f)).trans (keepsEnd_updLaunch _ _ _))
  split
  · exact (h _ _ _ _).trans (keepsEnd_offer _ _)
  · exact h _ _ _ _

theorem keepsEnd_retire (s : State) (l : Launch) : KeepsEnd s (s.retire l) := by
  unfold State.retire
  split
  · exact (KeepsEnd.refl s).ite (keepsEnd_journal s l _)
  · extract_lets retired hot e
    have hhot : KeepsEnd s hot := by
      unfold hot
      split
      · exact ⟨(keepsEnd_journal s l .retired).slotEnd⟩
      · exact keepsEnd_journal s l .retired
    refine hhot.ite ?_
    have htr := hhot.trans (keepsEnd_translateBare hot l.asn l.ptroot l.rcd.done .atomic)
    split
    · next he =>
      rw [he] at htr
      exact htr.trans (keepsEnd_offer _ _)
    · next pa v he =>
      rw [he] at htr
      have hbar := htr.trans (keepsEnd_updGlobalBar v pa .arrive)
      split
      · next he' =>
        rw [he'] at hbar
        exact hbar.trans (keepsEnd_offer _ _)
      · next he' =>
        rw [he'] at hbar
        exact hbar

theorem keepsEnd_taskEnded (s : State) (core : Nat) (t : Task) (w : Walker) (killed : Bool) :
    KeepsEnd s (s.taskEnded core t w killed) := by
  unfold State.taskEnded
  extract_lets u
  have hu : KeepsEnd s u := keepsEnd_updLaunch _ _ _
  split
  · exact (hu.trans (keepsEnd_retire _ _)).ite hu
  · exact hu

/-! ## What a task leaves -/

theorem keepsEnd_unpin (s : State) (e : KvEnv) (pool : Nat) (pages : List Nat) : KeepsEnd s (s.unpin e pool pages) :=
  KeepsEnd.foldl (fun u g => by
    split
    · next l v he => exact (kvKeeps_unpinPage pool g u l v he).trans (KeepsEnd.foldl (fun _ _ => keepsEnd_offer _ _) l v)
    · exact KeepsEnd.refl u) pages s

theorem keepsEnd_closeStream (s : State) (core x k : Nat) : KeepsEnd s (s.closeStream core x k) := by
  have h : KeepsEnd s (s.dropStreamPins core x k) := by
    unfold State.dropStreamPins
    extract_lets q v
    have hv : KeepsEnd s v := ⟨rfl⟩
    split
    · exact hv.trans (keepsEnd_unpin ..)
    · exact hv
  exact ⟨h.slotEnd⟩

theorem keepsEnd_reserve (s : State) (core : Nat) (banks : List Nat) (add : Bool) : KeepsEnd s (s.reserve core banks add) := by
  unfold State.reserve
  extract_lets put u
  have hu : KeepsEnd s u := KeepsEnd.ite ⟨rfl⟩ ⟨rfl⟩
  exact ⟨hu.slotEnd⟩

theorem keepsEnd_reserveAll (s : State) (l : List (Nat × Nat)) (add : Bool) : KeepsEnd s (s.reserveAll l add) :=
  KeepsEnd.foldl (fun _ _ => keepsEnd_reserve ..) l s

theorem keepsEnd_unreserveQueue (s : State) (core b0 : Nat) (q : Queue) : KeepsEnd s (s.unreserveQueue core b0 q) :=
  KeepsEnd.foldl (fun u e => by
    cases e with
    | ferry c => exact keepsEnd_reserveAll ..
    | sound c => exact keepsEnd_reserve ..
    | join => exact KeepsEnd.refl u) q.entries s

theorem keepsEnd_clearTile (s : State) (core z : Nat) : KeepsEnd s (s.clearTile core z) := ⟨rfl⟩

theorem keepsEnd_clearVregs (s : State) (core x : Nat) : KeepsEnd s (s.clearVregs core x) := ⟨rfl⟩

theorem keepsEnd_freeStorage (s : State) (core x : Nat) (t : Task) : KeepsEnd s (s.freeStorage core x t) := by
  unfold State.freeStorage
  extract_lets banks tiles vregs
  have htiles : KeepsEnd banks tiles := KeepsEnd.foldl (fun _ _ => keepsEnd_clearTile ..) t.tiles banks
  have hvregs : KeepsEnd s vregs := ⟨htiles.slotEnd⟩
  refine hvregs.trans (KeepsEnd.foldl (fun u l => ?_) t.leases vregs)
  cases l with
  | none => exact KeepsEnd.refl u
  | some n =>
    have h := KeepsEnd.foldl (fun v y => keepsEnd_clearVregs v n y) (List.range 4) (u.clearBanks n 0 32)
    exact ⟨h.slotEnd⟩

theorem keepsEnd_updArray (s : State) (n : Nat) (f : XArray → XArray) : KeepsEnd s (s.updArray n f) := ⟨rfl⟩

theorem keepsEnd_updCore (s : State) (core : Nat) (f : Core → Core) : KeepsEnd s (s.updCore core f) := ⟨rfl⟩

theorem keepsEnd_pins (s : State) (p : List Pin) : KeepsEnd s { s with pins := p } := ⟨rfl⟩

theorem keepsEnd_vacate (s : State) (core x : Nat) (t : Task) : KeepsEnd s (s.vacate core x t) := by
  unfold State.vacate
  extract_lets closed c free unpinned gone idle quiet cleared
  have hclosed : KeepsEnd s closed :=
    KeepsEnd.foldl (fun u k => by
    split
    · exact keepsEnd_closeStream ..
    · exact KeepsEnd.refl u) (List.range 16) s
  have hfree : KeepsEnd closed free := by
    refine KeepsEnd.foldl (fun u q => ?_) (List.range 2) closed
    exact (keepsEnd_unreserveQueue u core t.b0 (c.ferryQ q)).trans (keepsEnd_unreserveQueue ..)
  have hidle : KeepsEnd free idle := (keepsEnd_pins free _).trans (keepsEnd_updCore unpinned core _)
  have hquiet : KeepsEnd idle quiet := KeepsEnd.foldl (fun _ _ => keepsEnd_updArray ..) gone idle
  have hcleared : KeepsEnd quiet cleared := keepsEnd_freeStorage ..
  exact (((hclosed.trans hfree).trans hidle).trans hquiet).trans (hcleared.trans (keepsEnd_updCtx ..))

theorem keepsEnd_killTask (s : State) (core x : Nat) : KeepsEnd s (s.killTask core x) := by
  have h : KeepsEnd s (s.endTask core x true) := by
    unfold State.endTask
    split
    · exact KeepsEnd.refl s
    · exact (keepsEnd_vacate ..).trans (keepsEnd_taskEnded ..)
  unfold State.killTask
  split
  · exact KeepsEnd.refl s
  · exact h.trans (keepsEnd_offer _ _)

/-! ## Reports and traps -/

theorem keepsEnd_report (s : State) (core x cause src : Nat) (info : Word) : KeepsEnd s (s.report core x cause src info).1 := by
  unfold State.report State.reportEvent
  extract_lets
  split
  · exact (keepsEnd_offer _ _).trans (keepsEnd_killTask ..)
  · exact keepsEnd_offer _ _

theorem keepsEnd_enterTrap (s : State) (core x : Nat) (t : Trap) (reported : Bool) : KeepsEnd s (s.enterTrap core x t reported) := by
  unfold State.enterTrap
  extract_lets r
  have hr : KeepsEnd s r.1 := by
    unfold r
    split
    · exact KeepsEnd.refl s
    · exact keepsEnd_report ..
  exact (hr.trans (keepsEnd_updCtx ..)).ite hr

theorem keepsEnd_lateFault (s : State) (core x : Nat) (cause : Byte) (src snum : Nat) (info : Word) (agent : Nat) :
    KeepsEnd s (s.lateFault core x cause src snum info agent) := by
  have hr := keepsEnd_report s core x cause.toNat agent info
  exact (hr.trans (keepsEnd_updCtx ..)).ite hr

/-- The record of how a slot ended is what ended it, whatever trap it then takes (R85, R87). -/
theorem stop_slotEnd (s : State) (e : SlotEnd) : (s.stop e).slotEnd = e := by
  cases e with
  | trap => exact (keepsEnd_enterTrap ..).slotEnd
  | _ => rfl

end Sys2Proof.Machine
end

section
/-! SUPPORT. What slots work on leaves the record of how a slot ended as it is: stores, sync objects, queues and control registers. -/

namespace Sys2Proof.Machine

open Sys2Proof.Spec

variable {t u : State}

/-! ## Local bytes and results -/

theorem keepsEnd_consumed (s : State) : KeepsEnd s s.consumed := ⟨rfl⟩

theorem keepsEnd_deliverAs (s : State) (d : Dest) (l : Option Nat) (lat : Nat) (val : Vec) (mask : Pred) (fl : Flags) :
    KeepsEnd s (s.deliverAs d l lat val mask fl) := ⟨rfl⟩

theorem keepsEnd_deliverS (s : State) (v : View) (w : Word) : KeepsEnd s (s.deliverS v w) := ⟨rfl⟩

theorem keepsEnd_deliverLoad (s : State) (v : View) (lat : Nat) (val : Vec) (mask : Pred) :
    KeepsEnd s (s.deliverLoad v lat val mask) := ⟨rfl⟩

theorem keepsEnd_logged (s : State) (e : LogEntry) : KeepsEnd s (s.logged e) := ⟨rfl⟩

theorem keepsEnd_writePlace (s : State) (p : Place) (mask : BitVec 64) (v : Sector) (bad : Bool) :
    KeepsEnd s (s.writePlace p mask v bad) := by
  unfold State.writePlace
  split
  · exact KeepsEnd.refl s
  · cases p <;> exact ⟨rfl⟩

theorem keepsEnd_localStore (s : State) (core x a : Nat) (b : List Byte) (en : List Bool) (bad : Bool) :
    KeepsEnd s (s.localStore core x a b en bad) :=
  KeepsEnd.foldl (fun _ _ => keepsEnd_writePlace ..) (sectorsOf a b.length) s

theorem keepsEnd_vecWrite (s : State) (a : Nat) (data : Vec) (mask : Pred) : KeepsEnd s (s.vecWrite a data mask) :=
  KeepsEnd.foldl (fun _ _ => keepsEnd_localStore ..) (List.range 8) s

theorem keepsEnd_storeS (a data : Word) (generic : Bool) (s : State) : KeepsEnd s (storeS a data generic s) :=
  (keepsEnd_localStore ..).ite (keepsEnd_logged s _)

/-! ## Regions and sync objects -/

theorem keepsEnd_pieces (s : State) (core asn root n va fin : Nat) : KeepsEnd s (s.pieces core asn root n va fin).2 := by
  induction n generalizing s va with
  | zero => exact KeepsEnd.refl s
  | succ n ih =>
    have hl : KeepsEnd s (s.lookup core asn root (BitVec.ofNat 64 va)).2 := by
      have h := keepsEnd_leafFor s (.core core) asn root (BitVec.ofNat 64 va) none
      unfold State.lookup
      split <;> (next he => rw [he] at h; exact h)
    unfold State.pieces
    split
    · exact KeepsEnd.refl s
    · split <;> (next he => rw [he] at hl; exact hl.trans (ih _ _))

theorem keepsEnd_overRegions (s : State) (core x : Nat) (obj : Word) (act : State → Nat → State) (h : ∀ u k, KeepsEnd u (act u k)) :
    KeepsEnd s (s.overRegions core x obj act) :=
  KeepsEnd.foldl (fun u _ => (keepsEnd_pieces u core _ _ _ _ _).trans (KeepsEnd.foldl h _ _)) ((s.ctx core x).boundTo obj) s

theorem keepsEnd_rdcClean (s : State) (die sec : Nat) : KeepsEnd s (s.rdcClean die sec) := by
  unfold State.rdcClean
  split
  · split
    · exact KeepsEnd.refl s
    · exact ⟨(homeStep_homeWrite s sec _ _ _).keepsEnd.slotEnd⟩
  · exact KeepsEnd.refl s

theorem keepsEnd_rdcDrop (s : State) (die sec : Nat) : KeepsEnd s (s.rdcDrop die sec) := ⟨(keepsEnd_rdcClean s die sec).slotEnd⟩

theorem keepsEnd_releaseRegions (s : State) (core x : Nat) (obj : Word) : KeepsEnd s (s.releaseRegions core x obj) :=
  keepsEnd_overRegions s core x obj _ fun u k => keepsEnd_rdcClean u (coreDie core) k

theorem keepsEnd_acquireRegions (s : State) (core x : Nat) (obj : Word) : KeepsEnd s (s.acquireRegions core x obj) :=
  keepsEnd_overRegions s core x obj _ fun u k => keepsEnd_rdcDrop u (coreDie core) k

theorem keepsEnd_onObject (s : State) (a : Word) (n : Nat) (act : State → State) (h : KeepsEnd s (act s)) :
    KeepsEnd s (s.onObject a n act) := (keepsEnd_consumed s).ite h

theorem keepsEnd_updLocalBar (s : State) (core x a : Nat) (u : BarOp) : KeepsEnd s (s.updLocalBar core x a u).1 :=
  (KeepsEnd.refl s).ite (keepsEnd_localStore ..)

theorem keepsEnd_takeAfter (s : State) (cause : Byte) (info mask : Word) : KeepsEnd s (s.takeAfter cause info mask) := by
  unfold State.takeAfter
  extract_lets u
  have hu : KeepsEnd s u := by
    unfold u
    split
    · exact KeepsEnd.refl s
    · exact keepsEnd_lateFault ..
  exact hu.trans (keepsEnd_updIss u _)

theorem keepsEnd_barCause (s : State) (c : Option Byte) : KeepsEnd s (s.barCause c) := by
  cases c with
  | none => exact KeepsEnd.refl s
  | some k => exact keepsEnd_takeAfter s k 0 0

/-! ## Launches -/

theorem keepsEnd_accept (s : State) (die asn ptroot : Nat) (pooldir : Word) (poolcnt queue qidx : Nat) (fromLnch : Bool) (r : Record) :
    KeepsEnd s (s.accept die asn ptroot pooldir poolcnt queue qidx fromLnch r).1 := by
  unfold State.accept
  extract_lets id prev l taken sched placed
  have h : KeepsEnd s placed := ⟨rfl⟩
  exact h.trans (keepsEnd_journal placed l .accepted)

/-! ## Ferry queues -/

theorem keepsEnd_writeFqstat (s : State) (core x q : Nat) (v : Word) : KeepsEnd s (s.writeFqstat core x q v) := by
  have hd : KeepsEnd s (s.discardFerry core x q) := by
    unfold State.discardFerry
    split
    · exact KeepsEnd.refl s
    · split
      · exact ⟨rfl⟩
      · exact ⟨(keepsEnd_reserveAll s _ false).slotEnd⟩
  have hr : KeepsEnd s (s.resumeFerry core x q) := ⟨rfl⟩
  exact hd.ite (hr.ite (KeepsEnd.refl s))

/-! ## Sound queues -/

theorem keepsEnd_finishSound (s : State) (core x q : Nat) (c : SoundCmd) : KeepsEnd s (s.finishSound core x q c) :=
  ⟨(keepsEnd_reserve s core _ false).slotEnd⟩

theorem keepsEnd_killSaved (s : State) (v : Saved) : KeepsEnd s (s.killSaved v) := by
  unfold State.killSaved
  extract_lets dropped cut ended
  have hc : KeepsEnd s cut := ⟨rfl⟩
  exact (hc.trans (keepsEnd_taskEnded cut v.core v.task v.ctx.walker true)).trans (keepsEnd_offer ended _)

theorem keepsEnd_reportSaved (s : State) (v : Saved) (e : Event) : KeepsEnd s (s.reportSaved v e).1 := by
  unfold State.reportSaved
  extract_lets act offered
  have ho : KeepsEnd s offered := keepsEnd_offer s e
  split
  · exact ho.trans (keepsEnd_killSaved offered v)
  · exact ho

theorem keepsEnd_memberFault (s : State) (m : Member) (cause : Byte) (info : Word) : KeepsEnd s (s.memberFault m cause info) := by
  unfold State.memberFault
  split
  · exact keepsEnd_lateFault ..
  · split
    · exact KeepsEnd.refl s
    · next v _ =>
      have hr := keepsEnd_reportSaved s v { taskEv cause.toNat 3 v.core v.task with info := info }
      exact KeepsEnd.ite ⟨hr.slotEnd⟩ hr

theorem keepsEnd_haltMember (s : State) (m : Member) (cause : Byte) (info : Word) : KeepsEnd s (s.haltMember m cause info) := by
  unfold State.haltMember
  extract_lets halted
  have hh : KeepsEnd s halted := by
    unfold halted
    split <;> exact ⟨rfl⟩
  exact hh.trans (keepsEnd_memberFault halted m cause info)

theorem keepsEnd_memberCounted (m : Member) (r : Counted × State) : KeepsEnd r.2 (State.memberCounted m r).2 := by
  unfold State.memberCounted
  split
  · exact keepsEnd_memberFault ..
  · exact KeepsEnd.refl _
  · next f s =>
    cases f with
    | none => exact KeepsEnd.refl s
    | some e => exact keepsEnd_memberFault ..

theorem keepsEnd_soundBar (s : State) (core x : Nat) (loc : Bool) (a : Word) (u : BarOp) : KeepsEnd s (s.soundBar core x loc a u).2 := by
  have hans : ∀ (t : State) (r : State × Option Byte), KeepsEnd t r.1 → KeepsEnd t (match r.2 with
      | some 0x67 => (Counted.refused 0x67 0, t)
      | c => (Counted.done c, r.1)).2 := fun t r h => by
    split
    · exact KeepsEnd.refl t
    · exact h
  have htr := keepsEnd_translateBare s (s.asnOf core x) (s.rootOf core x) a .atomic
  unfold State.soundBar
  extract_lets answer
  split
  · exact hans s _ (keepsEnd_updLocalBar ..)
  · split
    · next he => rw [he] at htr; exact htr
    · next t he => rw [he] at htr; exact htr.trans (hans t _ (keepsEnd_updGlobalBar t _ u))

theorem keepsEnd_countMember (s : State) (m : Member) (n : Nat) : KeepsEnd s (s.countMember m n).2 := by
  unfold State.countMember
  split
  · exact KeepsEnd.refl s
  · split
    · exact (keepsEnd_soundBar ..).trans (keepsEnd_memberCounted m _)
    · split
      · exact ⟨rfl⟩
      · extract_lets sp
        have htr := keepsEnd_translateBare s sp.1 sp.2 m.cmd.bar .atomic
        split
        · next he => rw [he] at htr; exact htr
        · next pa t he =>
          rw [he] at htr
          exact (htr.trans (keepsEnd_updGlobalBar t pa (.land n))).trans (keepsEnd_memberCounted m (.done _, _))

theorem keepsEnd_setColl (s : State) (i : Nat) (c : Coll) : KeepsEnd s (s.setColl i c) := by
  unfold State.setColl
  split <;> exact ⟨rfl⟩

theorem keepsEnd_abortColl (s : State) (i : Nat) (c : Coll) (own : List Nat) (cause : Byte) : KeepsEnd s (s.abortColl i c own cause) := by
  have hc : KeepsEnd s (s.countAll c.members) :=
    KeepsEnd.foldl (fun u m => (KeepsEnd.refl u).ite (keepsEnd_countMember u m m.cmd.owed)) c.members s
  have hl : ∀ (l : List Member) (u : State), KeepsEnd u (l.foldl (fun s m => s.haltMember m cause 0) u) :=
    KeepsEnd.foldl fun u m => keepsEnd_haltMember u m cause 0
  exact (hc.trans (hl _ _)).trans (keepsEnd_setColl ..)

theorem keepsEnd_discardSound (s : State) (core x q : Nat) : KeepsEnd s (s.discardSound core x q) := by
  unfold State.discardSound
  split
  · exact KeepsEnd.refl s
  · split
    · exact keepsEnd_updCtx ..
    · extract_lets k finished
      have hf : KeepsEnd s finished := (keepsEnd_updCtx s core x _).trans (keepsEnd_finishSound ..)
      clear_value k
      split
      · exact hf.trans (keepsEnd_abortColl ..)
      · exact hf

theorem keepsEnd_writeSndq (s : State) (core x q : Nat) (v : Word) : KeepsEnd s (s.writeSndq core x q v) := by
  have hr : KeepsEnd s (s.resumeSound core x q) := by
    unfold State.resumeSound
    split
    · exact KeepsEnd.refl s
    · split
      · exact keepsEnd_updCtx ..
      · exact (keepsEnd_discardSound ..).ite (keepsEnd_updCtx ..)
  exact (keepsEnd_discardSound ..).ite (hr.ite (KeepsEnd.refl s))

/-- A write to a control register (R184, R185). -/
theorem keepsEnd_writeCtlNow (s : State) (core x n : Nat) (v : Word) : KeepsEnd s (s.writeCtlNow core x n v) := by
  have hr : KeepsEnd s (s.resumeStream core x (n - 0x20)) := ⟨rfl⟩
  exact (keepsEnd_writeFqstat ..).ite ((keepsEnd_writeSndq ..).ite ((hr.ite (KeepsEnd.refl s)).ite (keepsEnd_deliverAs ..)))

end Sys2Proof.Machine
end

section
/-! SUPPORT. No slot but a `done` raises 0x12, and every slot whose checks pass records that they did (R87, R110, R179). -/

namespace Sys2Proof.Machine

open Sys2Proof.Spec

variable {s : State}

/-! ## Checks that do not raise 0x12 -/

/-- An end of a slot that is not the stop of a `done` beside other slots (R179). -/
structure SlotEnd.Fair (e : SlotEnd) : Prop where
  ne : e ≠ stopWith 13 0x12

theorem fair_commit : SlotEnd.commit.Fair := ⟨SlotEnd.noConfusion⟩

theorem fair_stall : SlotEnd.stall.Fair := ⟨SlotEnd.noConfusion⟩

theorem fair_block (w : Wait) : (SlotEnd.block w).Fair := ⟨SlotEnd.noConfusion⟩

theorem fair_stopWith (rank : Nat) {c : Byte} (h : c ≠ 0x12) : (stopWith rank c).Fair := ⟨fun he => by
  injection he with _ hc
  exact h hc⟩

theorem fair_rank {rank : Nat} (c : Byte) (h : rank ≠ 13) : (stopWith rank c).Fair := ⟨fun he => by
  injection he with hr
  exact h hr⟩

/-- A trap with EINFO of its own is none of those that `done` raises. -/
theorem fair_info (rank : Nat) (c : Byte) (info : Word) (extra src : Nat) : (SlotEnd.trap rank c (some info) extra src).Fair :=
  ⟨fun he => by
    injection he with _ _ hi
    cases hi⟩

theorem fair_ite {p : Prop} [Decidable p] {a b : SlotEnd} (ha : a.Fair) (hb : b.Fair) : (if p then a else b).Fair := by
  split
  · exact ha
  · exact hb

theorem fair_need (ok : Bool) {c : Byte} (h : c ≠ 0x12) : (need ok c).Fair := fair_ite fair_commit (fair_stopWith 13 h)

theorem SlotEnd.Fair.and {a b : SlotEnd} (ha : a.Fair) (hb : b.Fair) : (a.and b).Fair := by
  cases a with
  | commit => exact hb
  | _ => exact ha

theorem SlotEnd.Fair.early {e : SlotEnd} (ok : Bool) (h : e.Fair) : (SlotEnd.early ok e).Fair := by
  cases e with
  | trap => exact fair_ite h fair_commit
  | _ => exact fair_commit

theorem fair_twinCheck (x y : Nat) : (s.twinCheck x y).Fair := fair_ite fair_commit (fair_info ..)

theorem fair_flightRoom : s.flightRoom.Fair := fair_ite (fair_rank _ (by decide)) fair_commit

theorem fair_logRoom : s.logRoom.Fair := fair_ite fair_stall fair_commit

theorem fair_hold (a n : Nat) : (s.hold a n).Fair := fair_ite fair_stall fair_commit

theorem fair_globalOk (a : Word) (n : Nat) : (globalOk a n).Fair := fair_ite (fair_info ..) (fair_ite (fair_info ..) fair_commit)

theorem fair_targetOk (a : Word) : (targetOk a).Fair := fair_need _ (by decide)

/-- A stop at the first cause that a check finds. -/
theorem fair_cause {o : Option Byte} {k : SlotEnd} (h : o ≠ some 0x12) (hk : k.Fair) :
    (match o with
      | some c => stopWith 13 c
      | none => k).Fair := by
  cases o with
  | none => exact hk
  | some c => exact fair_stopWith 13 fun he => h (congrArg some he)

/-! ## Local addresses -/

theorem localFault_ne (core x a n : Nat) : s.localFault core x a n ≠ some 0x12 := by
  unfold State.localFault
  split_ifs <;> simp

theorem checkLocal_ne (v : Word) (n : Nat) : s.checkLocal v n ≠ .error 0x12 := by
  unfold State.checkLocal
  split
  · simp
  · split
    · next he => exact fun h => localFault_ne _ _ _ _ (he.trans (congrArg some (Except.error.inj h)))
    · simp

theorem checkOwn_ne (v : Word) (n : Nat) : s.checkOwn v n ≠ .error 0x12 := by
  unfold State.checkOwn
  split
  · split <;> simp
  · next he => exact fun h => checkLocal_ne v n (he.trans h)

theorem fair_withAddr {r : Except Byte Nat} {k : Nat → SlotEnd} (h : r ≠ .error 0x12) (hk : ∀ a, (k a).Fair) : (withAddr r k).Fair := by
  cases r with
  | ok a => exact hk a
  | error c => exact fair_stopWith 13 fun he => h (congrArg Except.error he)

theorem fair_localEnd (v : Word) (n : Nat) : (s.localEnd v n).Fair := fair_withAddr (checkLocal_ne v n) fun _ => fair_hold _ _

theorem fair_scalarEnd (a : Word) (generic : Bool) : (s.scalarEnd a generic).Fair :=
  (fair_need _ (by decide)).and (fair_ite (fair_localEnd ..) ((fair_globalOk ..).and fair_logRoom))

theorem fair_vecEnd (v : Word) : (s.vecEnd v).Fair := by
  unfold State.vecEnd
  split
  · exact fair_stopWith _ (by decide)
  · refine (fair_need _ (by decide)).and ((fair_need _ (by decide)).and (fair_cause (fun h => ?_) (fair_ite fair_stall fair_commit)))
    obtain ⟨r, _, hr⟩ := List.exists_of_findSome?_eq_some h
    exact localFault_ne _ _ _ _ hr

theorem fair_wideEnd (a : Word) : (s.wideEnd a).Fair := (fair_need _ (by decide)).and ((fair_globalOk ..).and fair_logRoom)

theorem fair_pushEnd (k : Nat) : (s.pushEnd k).Fair :=
  (fair_need _ (by decide)).and (fair_ite fair_commit (fair_ite (fair_stopWith _ (by decide)) (fair_block _)))

theorem fair_gatherEnd (base : Word) (offs : Vec) : (s.gatherEnd base offs).Fair := by
  refine (fair_need _ (by decide)).and (SlotEnd.Fair.and ?_ fair_logRoom)
  cases ((activeLanes s.me.ap).map (laneAddr base offs)).find? (fun a => !canonical a) with
  | none => exact fair_commit
  | some a => exact fair_info ..

theorem fair_imageEnd (a : Word) : (s.imageEnd a).Fair := by
  refine (fair_need _ (by decide)).and ?_
  split
  · exact fair_hold ..
  · exact fair_stopWith _ (by decide)

theorem fair_maintEnd (base len : Word) : (s.maintEnd base len).Fair :=
  (fair_need _ (by decide)).and (fair_ite fair_commit ((fair_globalOk ..).and fair_logRoom))

theorem fair_recordEnd (a : Word) (align n : Nat) {c : Byte} {k : List Byte → SlotEnd} (h : c ≠ 0x12) (hk : ∀ b, (k b).Fair) :
    (s.recordEnd a align n c k).Fair :=
  (fair_need _ h).and (fair_withAddr (checkOwn_ne a n) fun _ => (fair_hold ..).and (fair_ite fair_commit (hk _)))

/-! ## Sync objects -/

theorem fair_syncEnd (a : Word) (n : Nat) {c : Byte} (h : c ≠ 0x12) : (s.syncEnd a n c).Fair :=
  (fair_need _ h).and (fair_ite (fair_ite (fair_stopWith _ (by decide)) (fair_localEnd ..)) (fair_globalOk ..))

theorem fair_usableEnd (a : Word) : (s.usableEnd a).Fair := fair_need _ (by decide)

theorem fair_syncRead (op : LogOp) (a : Word) {k : Vec → SlotEnd} (hk : ∀ v, (k v).Fair) : (s.syncRead op a k).Fair := by
  unfold State.syncRead
  split
  · exact fair_ite (hk _) (fair_block _)
  · exact fair_ite fair_stall (fair_block _)

/-! ## Records, tiles and arrays -/

theorem ferryBad_ne (c : FerryCmd) (gather : Bool) (tail : Nat) : s.ferryBad c gather tail ≠ some 0x12 := by
  unfold State.ferryBad
  dsimp only
  split_ifs <;> simp

theorem fair_soundEnd (c : SoundCmd) (q : Nat) : (s.soundEnd c q).Fair := by
  have hroom : (if s.me.queueFull true q then SlotEnd.block (.queue true q) else .commit).Fair := fair_ite (fair_block _) fair_commit
  have hgroup : ∀ e, (s.groupAt s.cur s.x c.target).1 = .error e → (SlotEnd.trap 13 e.1 e.2 0 0).Fair := fun e he => by
    unfold State.groupAt at he
    split at he
    · cases he
      exact fair_info ..
    · dsimp only at he
      split at he
      · cases he
        exact fair_stopWith _ (by decide)
      · split at he
        · split at he
          · cases he
          · cases he
            exact fair_stopWith _ (by decide)
        · cases he
          exact fair_stopWith _ (by decide)
  refine (fair_need _ (by decide)).and ((fair_need _ (by decide)).and ((fair_need _ (by decide)).and (fair_ite ?_ ?_)))
  · exact (fair_need _ (by decide)).and hroom
  · split
    · next e he => exact hgroup e he
    · exact (fair_need _ (by decide)).and hroom

theorem orCause_ne (ok : Bool) {c : Byte} (h : c ≠ 0x12) : orCause ok c ≠ some 0x12 := by
  cases ok
  · exact fun he => h (Option.some.inj he)
  · exact nofun

theorem firstOf_ne {l : List (Option Byte)} (h : ∀ o ∈ l, o ≠ some 0x12) : firstOf l ≠ some 0x12 := by
  induction l with
  | nil => exact nofun
  | cons o l ih =>
    cases o with
    | none => exact ih fun p hp => h p (List.mem_cons_of_mem _ hp)
    | some c => exact h _ List.mem_cons_self

theorem extentBad_ne (core x : Nat) (v : Word) (n align : Nat) : s.extentBad core x v n align ≠ some 0x12 := by
  unfold State.extentBad
  split
  · simp
  · split
    · simp
    · exact localFault_ne _ _ _ _

theorem ite_ne {p : Prop} [Decidable p] {a b : Option Byte} (ha : a ≠ some 0x12) (hb : b ≠ some 0x12) :
    (if p then a else b) ≠ some 0x12 := by
  split
  · exact ha
  · exact hb

/-- Where a list of checks is there, each of them is of words of which none raises 0x12. -/
theorem checks_ne {p : Prop} [Decidable p] {ws : List Word} {f : Word → Option Byte} (h : ∀ w, f w ≠ some 0x12) :
    ∀ o ∈ (if p then ws.map f else []), o ≠ some 0x12 := by
  split
  · exact List.forall_mem_map.2 fun w _ => h w
  · exact nofun

theorem wordBad_ne (w : Word) (kbZero : Bool) : wordBad w kbZero ≠ some 0x12 := orCause_ne _ (by decide)

theorem productBad_ne (core x : Nat) (f : Product) (va vb : Word) (table : List Word) :
    s.productBad core x f va vb table ≠ some 0x12 := by
  unfold State.productBad
  extract_lets bs fa fb plainB extent
  have hext : ∀ w fmt n k, extent w fmt n k ≠ some 0x12 := fun w fmt n k => extentBad_ne _ _ _ _ _
  refine firstOf_ne ?_
  simp only [List.forall_mem_append, List.forall_mem_singleton]
  exact ⟨⟨⟨⟨⟨⟨⟨ite_ne nofun (wordBad_ne _ _), ite_ne (orCause_ne _ (by decide)) nofun⟩, checks_ne fun w => wordBad_ne _ _⟩,
    orCause_ne _ (by decide)⟩, List.forall_mem_map.2 fun w _ => orCause_ne _ (by decide)⟩, ite_ne nofun (hext _ _ _ _)⟩,
    checks_ne fun w => hext _ _ _ _⟩, orCause_ne _ (by decide)⟩

/-- The operands of a matrix instruction raise none either. -/
theorem operandsBad_ne (core x : Nat) (i : Instr) (va vb : Word) (table : List Word) :
    ((productOf i).bind fun f => if f.grouped then (s.extentBad core x vb 128 128).or (s.productBad core x f va vb table)
      else s.productBad core x f va vb table) ≠ some 0x12 := by
  cases productOf i with
  | none => exact nofun
  | some f =>
    refine ite_ne ?_ (productBad_ne _ _ _ _ _ _)
    cases he : s.extentBad core x vb 128 128 with
    | none => exact productBad_ne _ _ _ _ _ _
    | some c => exact fun h => extentBad_ne _ _ _ _ _ (he.trans h)

theorem matrixBad_ne (core x : Nat) (i : Instr) (va vb : Word) (table : List Word) (known : Bool) (rank : Nat) :
    s.matrixBad core x i va vb table known ≠ some (rank, 0x12) := by
  unfold State.matrixBad
  extract_lets c tiles own
  have hown : own ≠ some 0x12 := by
    unfold own
    split
    · exact extentBad_ne _ _ _ _ _
    · exact extentBad_ne _ _ _ _ _
    · exact extentBad_ne _ _ _ _ _
    · exact operandsBad_ne _ _ _ _ _ _
  have hmap : own.map (fun c => (13, c)) ≠ some (rank, 0x12) := fun h => by
    obtain ⟨c, hc, he⟩ := Option.map_eq_some_iff.1 h
    exact hown (hc.trans (congrArg (fun p => some p.2) he))
  split_ifs <;> simp_all

/-- A stop at the first cause that a check finds, with its rank. -/
theorem fair_ranked {o : Option (Nat × Byte)} {k : SlotEnd} (h : ∀ rank, o ≠ some (rank, 0x12)) (hk : k.Fair) :
    (match o with
      | some (rank, c) => stopWith rank c
      | none => k).Fair := by
  cases o with
  | none => exact hk
  | some b => exact fair_stopWith b.1 fun he => h b.1 (congrArg (fun c => some (b.1, c)) he)

theorem xbarExtent_ne (core x : Nat) (v : Word) (n : Nat) : s.xbarExtent core x v n ≠ some 0x12 := by
  intro h
  obtain ⟨c, hc, he⟩ := Option.map_eq_some_iff.1 h
  split at he
  · cases he
  · exact extentBad_ne _ _ _ _ _ (he ▸ hc)

theorem xbarBad_ne (core x : Nat) (i : Instr) (va vb : Word) : s.xbarBad core x i va vb ≠ some 0x12 := by
  unfold State.xbarBad
  extract_lets a b own
  have hown : own ≠ some 0x12 := by
    unfold own
    split
    case h_1 =>
      refine firstOf_ne ?_
      simp only [List.forall_mem_cons]
      exact ⟨orCause_ne _ (by decide), xbarExtent_ne _ _ _ _, xbarExtent_ne _ _ _ _, nofun⟩
    case h_2 | h_3 =>
      refine firstOf_ne ?_
      simp only [List.forall_mem_cons]
      exact ⟨orCause_ne _ (by decide), xbarExtent_ne _ _ _ _, nofun⟩
    case h_4 | h_5 | h_10 => exact orCause_ne _ (by decide)
    case h_6 | h_7 | h_8 | h_9 => exact xbarExtent_ne _ _ _ _
    case h_11 => exact nofun
  refine firstOf_ne ?_
  simp only [List.forall_mem_cons]
  exact ⟨orCause_ne _ (by decide), orCause_ne _ (by decide), hown, nofun⟩

theorem fair_kvEnd (i : Instr) (vb : Word) : (s.kvEnd i vb).Fair := by
  refine (fair_need _ (by decide)).and (SlotEnd.Fair.and (fair_ite fair_commit ((fair_need _ (by decide)).and
    (fair_withAddr (checkOwn_ne _ _) fun _ => fair_commit))) ?_)
  split
  · exact fair_need _ (by decide)
  · exact fair_commit

end Sys2Proof.Machine
end

section
/-! SUPPORT. Every slot instruction records how its checks ended, and a `done` alone raises no 0x12 (R87, R109, R179). -/

namespace Sys2Proof.Machine

open Sys2Proof.Spec

variable {s : State}

/-- A slot that makes its checks, none of them that of a `done` beside other slots, and whose effect leaves its end as it is. -/
def Honest (i : Instr) (s : State) : Prop :=
  ∃ v pre own act, exec i s = issuePre v pre own act s ∧ (∀ x, (pre s x).Fair) ∧ (∀ x, (own s x).Fair) ∧ ∀ x u, KeepsEnd u (act x u)

/-! ## Checks and effects -/

theorem fields_rank {v : View} {rank : Nat} {c : Byte} (h : v.fields = some (rank, c)) : rank ≠ 13 := by
  unfold View.fields at h
  dsimp only at h
  split_ifs at h <;> cases h <;> decide

theorem fair_slotRules (v : View) : (s.slotRules v).Fair := by
  unfold State.slotRules
  extract_lets c
  split
  · next he => exact fair_rank _ (fields_rank he)
  · exact fair_ite (fair_rank _ (by decide)) (fair_ite (fair_rank _ (by decide)) (fair_ite (fair_rank _ (by decide))
      (fair_ite (fair_rank _ (by decide)) fair_commit)))

theorem fair_slotWaits (v : View) : (s.slotWaits v).Fair := by
  unfold State.slotWaits
  split
  · exact fair_block _
  · exact fair_commit

theorem fair_checks {v : View} {pre own : State → Vals → SlotEnd} (hp : ∀ x, (pre s x).Fair) (ho : ∀ x, (own s x).Fair) :
    (s.checks v pre own).Fair := by
  refine (fair_slotRules v).and ?_
  split
  · exact ho _
  · exact (hp _).and (fair_slotWaits v)

theorem effect_slotEnd {v : View} {act : Vals → State → State} (ha : ∀ x u, KeepsEnd u (act x u)) :
    (s.effect v act).slotEnd = .commit := by
  have hact : (act (s.vals v) (s.begin v)).slotEnd = .commit := (ha _ _).slotEnd
  unfold State.effect
  split
  · rfl
  · split <;> exact hact

/-- A slot whose checks have been made acts, and its end stays that of a slot that commits. -/
theorem Honest.slotEnd_checked {i : Instr} {t : State} (h : Honest i s) (hk : s.iss.checked = true) (he : exec i s = .next t) :
    t.slotEnd = .commit := by
  obtain ⟨v, pre, own, act, hi, -, -, ha⟩ := h
  rw [hi, issuePre, if_pos hk] at he
  cases he
  exact effect_slotEnd ha

/-- No slot stops as a `done` beside other slots does. -/
theorem Honest.slotEnd_fair {i : Instr} {t : State} (h : Honest i s) (hk : s.iss.checked = false) (he : exec i s = .next t) :
    t.slotEnd.Fair := by
  obtain ⟨v, pre, own, act, hi, hp, ho, ha⟩ := h
  rw [hi, issuePre, if_neg (by rw [hk]; exact Bool.false_ne_true)] at he
  split at he
  · cases he
    rw [effect_slotEnd ha]
    exact fair_commit
  · cases he
    rw [stop_slotEnd]
    exact fair_checks hp ho

/-! ## Slots without a check of their own -/

/-- A slot that has no check of its own. -/
theorem honest_free {i : Instr} {v : View} {act : Vals → State → State} (he : exec i s = issuePre v noCheck noCheck act s)
    (ha : ∀ x u, KeepsEnd u (act x u)) : Honest i s :=
  ⟨v, _, _, act, he, fun _ => fair_commit, fun _ => fair_commit, ha⟩

/-- A slot that is checked as a whole, and makes none of its checks before it waits for a stream. -/
theorem honest_issue {i : Instr} {v : View} {own : State → Vals → SlotEnd} {act : Vals → State → State}
    (he : exec i s = issue v own act s) (ho : ∀ x, (own s x).Fair) (ha : ∀ x u, KeepsEnd u (act x u)) : Honest i s :=
  ⟨v, _, own, act, he, fun _ => fair_commit, ho, ha⟩

/-- A slot whose checks, those of a stream's value apart, are also made before its wait. -/
theorem honest_issueA {i : Instr} {v : View} {own : State → Vals → SlotEnd} {act : Vals → State → State}
    (he : exec i s = issueA v own act s) (ho : ∀ x, (own s x).Fair) (ha : ∀ x u, KeepsEnd u (act x u)) : Honest i s :=
  ⟨v, _, own, act, he, fun x => (ho x).early _, ho, ha⟩

theorem honest_vtrn (d : BitVec 6) (p : BitVec 2) : Honest (.vtrn d p) s :=
  honest_free rfl fun _ u => KeepsEnd.foldl (fun _ _ => keepsEnd_deliverAs ..) (List.range 8) u

/-- The computations. -/
theorem honest_of_computes {i : Instr} (h : (s.form i).cls.computes = true) : Honest i s := by
  cases i
  case add | sub | and | andn | or | xor | sll | srl | sra | rol | ror | lea | slt | sltu | min | max | minu | maxu | mul | mulh | mulhu
      | div | divu | rem | remu | sel | addi | andi | ori | xori | slli | srli | srai | clz | ctz | popc | sext | zext | crd | li | lih
      | pset | vadd | vsub | vmul | vmulh | vmad | vand | vor | vxor | vshl | vshr | vsra | vmin | vmax | vcmp | vsel | vabs | vclz | vpopc
      | vsat | vfadd | vfsub | vfmul | vffma | vfmin | vfmax | vfsgn | vfcmp | vfclass | vrcp | vrsq | vsqrt | vexp2 | vlog2 | vtanh | vsilu
      | vdqnt | vperm | vxcl | vshf | vext | vins | vbcast | vred | vscan | viota | pand | por | pxor | pnot | ppop | pfirst =>
    exact honest_free rfl fun _ _ => ⟨rfl⟩
  case vcvt | vqnt => exact honest_issue rfl (fun _ => fair_ite fair_stall fair_commit) fun _ _ => ⟨rfl⟩
  case vtrn d p => exact honest_vtrn d p
  case vstgGd l a b p =>
    rw [form_vstgGd_cls] at h
    exact absurd h Bool.false_ne_true
  all_goals exact absurd h Bool.false_ne_true

end Sys2Proof.Machine
end

section
/-! SUPPORT. Control slots, memory slots and those of the units record how their checks ended (R87, R109). -/

namespace Sys2Proof.Machine

open Sys2Proof.Spec

variable {s : State}

/-! ## Control -/

theorem honest_bcc (c : BitVec 3) (a : Src) (off : BitVec 13) : Honest (.bcc c a off) s :=
  honest_free rfl fun _ u => KeepsEnd.ite ⟨rfl⟩ (KeepsEnd.refl u)

theorem honest_trap (a : Src) (imm : BitVec 7) (p : BitVec 2) : Honest (.trap a imm p) s :=
  honest_free rfl fun _ _ => keepsEnd_takeAfter ..

theorem honest_lnch (d : BitVec 5) (a : Src) (p : BitVec 2) : Honest (.lnch d a p) s := by
  refine honest_issue rfl (fun x => ?_) fun x u => ?_
  · exact (fair_need _ (by decide)).and (fair_withAddr (checkOwn_ne _ _) fun _ => fair_ite fair_commit
      ((fair_need _ (by decide)).and (fair_ite (fair_block _) fair_commit)))
  · refine (keepsEnd_consumed u).ite ?_
    split
    · exact (keepsEnd_accept ..).trans (keepsEnd_deliverS ..)
    · exact KeepsEnd.refl u

theorem honest_cwr (a : Src) (imm : BitVec 7) (p : BitVec 2) : Honest (.cwr a imm p) s :=
  honest_issue rfl (fun _ => fair_need _ (by decide)) fun _ _ => keepsEnd_writeCtlNow ..

theorem honest_wnext (d : BitVec 5) : Honest (.wnext d) s :=
  honest_issue rfl (fun _ => fair_ite fair_commit (fair_block _)) fun _ _ => KeepsEnd.ite ⟨rfl⟩ ⟨rfl⟩

/-- A `done` that is alone in its bundle (R179). -/
theorem honest_done (h : s.iss.slots = 1) : Honest .done s := by
  refine honest_issue rfl (fun _ => ?_) fun _ _ => ⟨rfl⟩
  rw [h]
  exact fair_commit.and (fair_ite fair_commit (fair_block _))

/-! ## Memory -/

theorem honest_load {i : Instr} {v : View} {imm : BitVec 7} {generic : Bool} (he : exec i s = loadS v imm generic s) : Honest i s :=
  honest_issue he (fun _ => (fair_scalarEnd _ _).and (fair_ite fair_flightRoom fair_commit))
    fun _ _ => KeepsEnd.ite (KeepsEnd.ite ⟨rfl⟩ ⟨rfl⟩) ⟨rfl⟩

theorem honest_amo (o : SR3) : Honest (.amo o) s := by
  refine honest_issueA rfl (fun x => ?_) fun x u => ?_
  · exact fair_ite (fair_flightRoom.and (fair_withAddr (checkLocal_ne _ _) fun _ => (fair_need _ (by decide)).and (fair_hold _ _)))
      ((fair_globalOk _ _).and fair_logRoom)
  · have hs : ∀ l b, KeepsEnd u (u.localStore u.cur u.x l b [] false) := fun l b => keepsEnd_localStore ..
    exact KeepsEnd.ite (((hs _ _).trans (keepsEnd_consumed _)).ite ((hs _ _).trans (keepsEnd_deliverLoad ..))) (keepsEnd_logged ..)

theorem honest_vld (d : BitVec 6) (n : Bool) (a : Src) (imm : BitVec 7) (p : BitVec 2) : Honest (.vld d n a imm p) s :=
  ⟨_, _, _, _, rfl, fun _ => fair_flightRoom, fun _ => fair_flightRoom.and (fair_vecEnd _), fun _ _ => KeepsEnd.ite ⟨rfl⟩ ⟨rfl⟩⟩

theorem honest_vstgGd (l : BitVec 4) (a b : Src) (p : BitVec 2) : Honest (.vstgGd l a b p) s :=
  ⟨_, _, _, _, rfl, fun _ => fair_twinCheck _ _, fun _ => (fair_twinCheck _ _).and (fair_ite (fair_pushEnd _) (fair_wideEnd _)),
    fun _ _ => KeepsEnd.ite ⟨rfl⟩ ⟨rfl⟩⟩

/-! ## Synchronisation -/

theorem honest_qfence (m : BitVec 4) : Honest (.qfence m) s := by
  refine honest_issue rfl (fun _ => fair_ite fair_commit ?_) fun _ u => KeepsEnd.ite (KeepsEnd.refl u) ⟨rfl⟩
  split
  · exact fair_block _
  · exact fair_commit

theorem honest_maint {i : Instr} {v : View} {op : LogOp} (he : exec i s = issuePre v (fun _ x => maintLen (lo64 x.d))
    (fun s x => s.maintEnd (lo64 x.a) (lo64 x.d)) (fun x s => s.maint op (lo64 x.a) (lo64 x.d)) s) : Honest i s :=
  ⟨v, _, _, _, he, fun _ => fair_need _ (by decide), fun _ => fair_maintEnd _ _, fun _ u => KeepsEnd.ite (KeepsEnd.refl u) ⟨rfl⟩⟩

theorem honest_acq (d : BitVec 6) (n : Bool) (a : Src) (scope : BitVec 3) (p : BitVec 2) : Honest (.acq d n a scope p) s := by
  refine honest_issue rfl (fun x => ?_) fun x u => ?_
  · exact (fair_syncEnd _ _ (by decide)).and (fair_ite fair_commit (fair_ite (fair_ite fair_commit (fair_block _))
      (fair_syncRead _ _ fun _ => fair_ite fair_commit (fair_block _))))
  · exact keepsEnd_onObject u _ _ _ ((keepsEnd_upd u _).trans (keepsEnd_acquireRegions ..))

theorem honest_rel (d : BitVec 6) (n : Bool) (a : Src) (scope : BitVec 3) (p : BitVec 2) : Honest (.rel d n a scope p) s := by
  refine honest_issue rfl (fun x => ?_) fun x u => ?_
  · exact (fair_syncEnd _ _ (by decide)).and (fair_ite fair_logRoom (fair_ite fair_commit (fair_block _)))
  · exact ((keepsEnd_releaseRegions ..).trans (keepsEnd_localStore ..)).ite (keepsEnd_logged ..)

theorem honest_bind (o : DAB6) : Honest (.bind o) s := by
  have hobject : ∀ obj : Word, ((need (obj.toNat % 8 == 0) 0x4B).and (if inAperture obj then
      if 1 ≤ windowOf (apertureAddr obj) ∧ windowOf (apertureAddr obj) ≤ 8 then stopWith 13 0x67
      else withAddr (s.checkLocal obj 8) (fun _ => .commit) else globalOk obj 8)).Fair := fun obj =>
    (fair_need _ (by decide)).and (fair_ite (fair_ite (fair_stopWith _ (by decide))
      (fair_withAddr (checkLocal_ne _ _) fun _ => fair_commit)) (fair_globalOk _ _))
  exact ⟨_, _, _, _, rfl, fun _ => ((fair_need _ (by decide)).early _).and (hobject _),
    fun _ => (fair_need _ (by decide)).and ((fair_need _ (by decide)).and ((hobject _).and (fair_need _ (by decide)))),
    fun _ _ => ⟨rfl⟩⟩

theorem honest_binit (n : Bool) (a b : Src) (p : BitVec 2) : Honest (.binit n a b p) s :=
  ⟨_, _, _, _, rfl, fun _ => ((fair_need _ (by decide)).early _).and ((fair_syncEnd _ _ (by decide)).early _),
    fun _ => (fair_need _ (by decide)).and ((fair_need _ (by decide)).and ((fair_syncEnd _ _ (by decide)).and
      (fair_ite fair_commit fair_logRoom))),
    fun _ u => (keepsEnd_localStore ..).ite (keepsEnd_logged ..)⟩

/-- An update of a local barrier object and its cause (R63, R153). -/
theorem keepsEnd_barrier (s : State) (core x a : Nat) (u : BarOp) :
    KeepsEnd s ((s.updLocalBar core x a u).1.barCause (s.updLocalBar core x a u).2) :=
  (keepsEnd_updLocalBar ..).trans (keepsEnd_barCause ..)

theorem honest_barv (n : Bool) (a : Src) (y : Bool) (p : BitVec 2) : Honest (.barv n a y p) s :=
  honest_issue rfl (fun _ => (fair_syncEnd _ _ (by decide)).and (fair_ite (fair_usableEnd _) fair_logRoom))
    fun _ u => keepsEnd_onObject u _ _ _ ((keepsEnd_barrier ..).ite (keepsEnd_logged ..))

theorem honest_barvRel (scope : BitVec 3) (n : Bool) (a : Src) (y : Bool) (p : BitVec 2) : Honest (.barvRel scope n a y p) s :=
  honest_issue rfl (fun _ => (fair_syncEnd _ _ (by decide)).and (fair_ite fair_logRoom ((fair_usableEnd _).and
      (fair_ite fair_commit (fair_block _)))))
    fun _ u => keepsEnd_onObject u _ _ _ (((keepsEnd_releaseRegions ..).trans (keepsEnd_barrier ..)).ite (keepsEnd_logged ..))

theorem honest_bwait (scope : BitVec 3) (n : Bool) (a b : Src) (p : BitVec 2) : Honest (.bwait scope n a b p) s := by
  refine honest_issueA rfl (fun x => ?_) fun x u => ?_
  · exact (fair_syncEnd _ _ (by decide)).and (fair_ite fair_commit (fair_ite (fair_ite fair_commit (fair_block _))
      (fair_syncRead _ _ fun _ => fair_ite fair_commit (fair_block _))))
  · exact keepsEnd_onObject u _ _ _ ((keepsEnd_upd u _).trans (keepsEnd_acquireRegions ..))

theorem honest_bxpect (o : PRR) : Honest (.bxpect o) s := by
  have hvalues : ∀ ok ok' late, ((need ok 0x68).and (SlotEnd.early late (need ok' 0x68))).Fair := fun _ _ _ =>
    (fair_need _ (by decide)).and ((fair_need _ (by decide)).early _)
  have hobject : ∀ a : Word, ((s.syncEnd a 16 0x67).and (if inAperture a then s.usableEnd a else s.logRoom)).Fair := fun _ =>
    (fair_syncEnd _ _ (by decide)).and (fair_ite (fair_usableEnd _) fair_logRoom)
  exact ⟨_, _, _, _, rfl, fun _ => ((fair_need _ (by decide)).early _).and ((hvalues _ _ _).and ((hobject _).early _)),
    fun _ => (fair_need _ (by decide)).and ((hvalues _ _ _).and (hobject _)),
    fun _ u => keepsEnd_onObject u _ _ _ ((keepsEnd_barrier ..).ite (keepsEnd_logged ..))⟩

theorem honest_rload (n : Bool) (a : Src) (p : BitVec 2) : Honest (.rload n a p) s :=
  honest_issue rfl (fun _ => (fair_imageEnd _).and (fair_need _ (by decide)))
    fun _ u => by
      dsimp only
      split <;> exact ⟨rfl⟩

theorem honest_rsave (n : Bool) (a : Src) (p : BitVec 2) : Honest (.rsave n a p) s :=
  honest_issue rfl (fun _ => fair_imageEnd _) fun _ u => ⟨(keepsEnd_localStore u u.cur u.x _ _ _ _).slotEnd⟩

/-! ## Streams, engines and units -/

theorem honest_sdesc (o : KA) : Honest (.sdesc o) s :=
  ⟨_, _, _, _, rfl, fun _ => fair_need _ (by decide),
    fun _ => (fair_withAddr (checkLocal_ne _ _) fun _ => fair_commit).and ((fair_need _ (by decide)).and
      ((fair_withAddr (checkLocal_ne _ _) fun _ => fair_hold _ _).and (fair_need _ (by decide)))),
    fun _ _ => KeepsEnd.ite ⟨rfl⟩ ⟨rfl⟩⟩

theorem honest_sclose (k : BitVec 4) (p : BitVec 2) : Honest (.sclose k p) s :=
  honest_issue rfl (fun _ => fair_ite fair_commit ((fair_need _ (by decide)).and (fair_ite (fair_stopWith _ (by decide))
      (fair_ite (fair_block _) fair_commit)))) fun _ u => (keepsEnd_closeStream ..).ite (KeepsEnd.refl u)

theorem honest_ferry {i : Instr} {v : View} {q : Nat} {gather : Bool} (he : exec i s = ferryIssue v q gather s) : Honest i s := by
  refine honest_issue he (fun x => ?_) fun x u => ?_
  · exact fair_recordEnd _ _ _ (by decide) fun b => fair_cause (ferryBad_ne _ _ _) (fair_ite (fair_block _) fair_commit)
  · dsimp only
    split
    · exact keepsEnd_consumed u
    · exact (keepsEnd_reserveAll ..).trans (keepsEnd_upd ..)

theorem honest_sound {i : Instr} {v : View} {kind q : Nat} (he : exec i s = soundIssue v kind q s) : Honest i s := by
  refine honest_issue he (fun x => ?_) fun x u => ?_
  · exact fair_recordEnd _ _ _ (by decide) fun b => fair_soundEnd _ _
  · dsimp only
    split
    · exact keepsEnd_consumed u
    · next b _ =>
      exact ⟨((homeStep_withGroup u (soundOf kind b)).keepsEnd.trans (keepsEnd_reserve _ _ _ true)).slotEnd⟩

theorem honest_matrix {i j : Instr} (he : exec i s = matrixIssue j s) : Honest i s := by
  refine ⟨_, _, _, _, he, fun x => ?_, fun x => ?_, fun x u => ?_⟩
  · cases hb : s.matrixBad s.cur s.x j 0 0 [] false with
    | none => exact fair_commit
    | some b =>
      obtain ⟨rank, c⟩ := b
      exact fair_stopWith rank fun (hc : c = 0x12) => matrixBad_ne s.cur s.x j 0 0 [] false rank (by rw [hb, hc])
  · exact (fair_ite (fair_hold _ _) fair_commit).and (fair_ranked (matrixBad_ne _ _ _ _ _ _ _) (fair_ite (fair_block _) fair_commit))
  · have hst : ∀ p : Prop, [Decidable p] → KeepsEnd u (if p then u.stallFor 1 else u) := fun p _ => KeepsEnd.ite ⟨rfl⟩ ⟨rfl⟩
    exact ((hst _).trans (keepsEnd_consumed _)).ite ((hst _).trans (keepsEnd_upd ..))

theorem honest_xbar {i j : Instr} (he : exec i s = xbarIssue j s) : Honest i s :=
  honest_issue he (fun _ => fair_cause (xbarBad_ne _ _ _ _ _) (fair_ite (fair_block _) fair_commit)) fun _ _ => ⟨rfl⟩

theorem honest_kv {i j : Instr} {d : Dest} (he : exec i s = kvIssue j d s) : Honest i s := by
  refine honest_issue he (fun x => ?_) fun x u => ?_
  · have hsend : ((s.kvEnd j (lo64 x.b)).and (.block (.kv j (lo64 x.a) (lo64 x.b)))).Fair := (fair_kvEnd _ _).and (fair_block _)
    split
    · exact fair_ite fair_commit hsend
    · exact fair_ite (fair_ite fair_commit (fair_info ..)) hsend
    · exact hsend
  · extract_lets taken
    split
    · exact KeepsEnd.ite ⟨rfl⟩ ⟨rfl⟩
    · exact ⟨rfl⟩

/-! ## Every slot -/

/-- The slots that control or reach memory, the engines and the units. -/
theorem honest_of_acts {i : Instr} (h : (s.form i).cls = .l ∨ (s.form i).cls = .k) (hs : s.iss.slots = 1) : Honest i s := by
  cases i
  case bcc c a off => exact honest_bcc c a off
  case jal | crdr | yield | rdtime | wpos | unbind | rseed | xstat => exact honest_free rfl fun _ _ => ⟨rfl⟩
  case jr => exact honest_issue rfl (fun _ => fair_targetOk _) fun _ _ => ⟨rfl⟩
  case jrGd =>
    exact ⟨_, _, _, _, rfl, fun _ => fair_twinCheck _ _, fun _ => (fair_twinCheck _ _).and (fair_targetOk _), fun _ _ => ⟨rfl⟩⟩
  case looph =>
    exact ⟨_, _, _, _, rfl, fun _ => (fair_need _ (by decide)).and ((fair_need _ (by decide)).early _),
      fun _ => (fair_need _ (by decide)).and (fair_need _ (by decide)), fun _ _ => ⟨rfl⟩⟩
  case trap a imm p => exact honest_trap a imm p
  case lnch d a p => exact honest_lnch d a p
  case cwr a imm p => exact honest_cwr a imm p
  case done => exact honest_done hs
  case waitt | fence | fwait => exact honest_issue rfl (fun _ => fair_ite fair_commit (fair_block _)) fun _ u => KeepsEnd.refl u
  case tchk => exact honest_issue rfl (fun _ => fair_twinCheck _ _) fun _ u => KeepsEnd.refl u
  case wnext d => exact honest_wnext d
  case ifence => exact honest_issue rfl (fun _ => fair_ite (fair_block _) fair_commit) fun _ _ => ⟨rfl⟩
  case eret | cclose | sbind => exact honest_issue rfl (fun _ => fair_need _ (by decide)) fun _ _ => ⟨rfl⟩
  case ld | ldg => exact honest_load rfl
  case st | stg => exact honest_issue rfl (fun _ => fair_scalarEnd _ _) fun _ u => keepsEnd_storeS _ _ _ u
  case stGd | stgGd =>
    exact ⟨_, _, _, _, rfl, fun _ => fair_twinCheck _ _, fun _ => (fair_twinCheck _ _).and (fair_scalarEnd _ _),
      fun _ u => keepsEnd_storeS _ _ _ u⟩
  case vld d n a imm p => exact honest_vld d n a imm p
  case vst => exact honest_issue rfl (fun _ => fair_vecEnd _) fun _ u => keepsEnd_vecWrite u _ _ _
  case vstGd =>
    exact ⟨_, _, _, _, rfl, fun _ => fair_twinCheck _ _, fun _ => (fair_twinCheck _ _).and (fair_vecEnd _),
      fun _ u => keepsEnd_vecWrite u _ _ _⟩
  case vldg | vstg => exact honest_issue rfl (fun _ => fair_wideEnd _) fun _ _ => ⟨rfl⟩
  case vstgGd l a b p => exact honest_vstgGd l a b p
  case vstgPush => exact honest_issue rfl (fun _ => fair_pushEnd _) fun _ _ => ⟨rfl⟩
  case vgath | vscat | vamo => exact honest_issue rfl (fun _ => fair_gatherEnd _ _) fun _ _ => ⟨rfl⟩
  case amo o => exact honest_amo o
  case amog => exact honest_issueA rfl (fun _ => (fair_globalOk _ _).and fair_logRoom) fun _ _ => ⟨rfl⟩
  case qfence m => exact honest_qfence m
  case cinv | cwb => exact honest_maint rfl
  case acq d n a scope p => exact honest_acq d n a scope p
  case rel d n a scope p => exact honest_rel d n a scope p
  case bind o => exact honest_bind o
  case binit n a b p => exact honest_binit n a b p
  case barv n a y p => exact honest_barv n a y p
  case barvRel scope n a y p => exact honest_barvRel scope n a y p
  case bwait scope n a b p => exact honest_bwait scope n a b p
  case bxpect o => exact honest_bxpect o
  case copen =>
    exact ⟨_, _, _, _, rfl, fun _ => fair_need _ (by decide), fun _ => (fair_targetOk _).and (fair_need _ (by decide)), fun _ _ => ⟨rfl⟩⟩
  case rsave n a p => exact honest_rsave n a p
  case rload n a p => exact honest_rload n a p
  case sdesc o => exact honest_sdesc o
  case sclose k p => exact honest_sclose k p
  case fcopy | fgath => exact honest_ferry rfl
  case fput | fget | fcoll | fa2a => exact honest_sound rfl
  case tmma | tmmaZ | tmmg | tmmgZ | zzero | zld | zst | zstR | zcvt | zacc => exact honest_matrix rfl
  case xmv | xload | xprog | xver | xremap | xdrift | xcalMeas | xcalLdsc | xcalLdog | xcalStog | xfb => exact honest_xbar rfl
  case kvnew | kvapp | kvrefInc | kvrefDec | kvtrunc | kvfind | kvpub | kvcow | kvstrm => exact honest_kv rfl
  all_goals exact h.elim Cls.noConfusion Cls.noConfusion

/-- Every slot of a bundle that holds no other records how its checks ended, and raises no 0x12. -/
theorem honest_of_slot {i : Instr} (h : (s.form i).cls ≠ .none) (hs : s.iss.slots = 1) : Honest i s := by
  cases hc : (s.form i).cls
  case none => exact absurd hc h
  case l => exact honest_of_acts (.inl hc) hs
  case k => exact honest_of_acts (.inr hc) hs
  all_goals exact honest_of_computes (by rw [hc]; rfl)

end Sys2Proof.Machine
end

section
/-! SUPPORT. A step runs the instruction of the bundle at the pc (R84, R86, R87, R97, R102, R109, R176), settled (O60). -/

namespace Sys2Proof.Machine

open Sys2Proof.Spec

variable {s u v : State} {i : Instr}

/-! ## The slots of a bundle with one instruction -/

/-- The words of a bundle that holds one instruction and then three `nop`s. -/
def soleWords (w : BitVec 32) : List (BitVec 32) := [w, 0x08000000, 0x08000000, 0x88000000]

/-- The slot of the sole instruction. -/
def soleSlot (i : Instr) : Slot :=
  { k := 0, instr := i, form := viewOf i, unit := if (viewOf i).g then 1 else 0, last := none, twinned := false }

/-- A slot that holds a `nop` (R107). -/
def Slot.idle (x : Slot) : Prop := x.instr = .nop ∧ x.form = viewOf .nop

/-- The `nop`s that follow the instruction. -/
def idleWords : List (Nat × Option Instr) := [(1, some .nop), (2, some .nop), (3, some .nop)]

theorem assignUnits_idle (used : List Cls) (last : Option (Cls × Nat)) (tw : Bool) : ∃ a b c : Slot,
    assignUnits idleWords used last tw = [a, b, c] ∧ (a.k = 1 ∧ b.k = 2 ∧ c.k = 3) ∧ a.idle ∧ b.idle ∧ c.idle :=
  ⟨_, _, _, rfl, ⟨rfl, rfl, rfl⟩, ⟨rfl, rfl⟩, ⟨rfl, rfl⟩, ⟨rfl, rfl⟩⟩

/-- The instruction is followed by three slots that hold a `nop`. -/
theorem soleSlots_eq (i : Instr) : ∃ a b c : Slot, soleSlots i = [soleSlot i, a, b, c] ∧
    (a.k = 1 ∧ b.k = 2 ∧ c.k = 3) ∧ a.idle ∧ b.idle ∧ c.idle := by
  have h : ∃ used last tw, soleSlots i = soleSlot i :: assignUnits idleWords used last tw := by
    unfold soleSlots soleSlot
    rw [assignUnits]
    cases (viewOf i).g with
    | true => exact ⟨_, _, _, rfl⟩
    | false => exact ⟨_, _, _, rfl⟩
  obtain ⟨used, last, tw, he⟩ := h
  obtain ⟨a, b, c, hr, h⟩ := assignUnits_idle used last tw
  exact ⟨a, b, c, by rw [he, hr], h⟩

/-- The state in which a slot that holds a `nop` has committed. -/
def State.idled (s : State) (x : Slot) : State :=
  { s with slotEnd := .commit, iss := { s.iss with slot := x.k, unit := x.unit, last := x.last, twinned := x.twinned } }

theorem exec_idle {x : Slot} (h : x.idle) : exec x.instr (s.atSlot x) = .next (s.idled x) := by
  have hc : (s.atSlot x).Clear (viewOf .nop) := ⟨rfl, rfl, rfl⟩
  have hpops : (s.atSlot x).iss.pops ++ (viewOf .nop).pops = s.iss.pops := List.append_nil _
  have hsr : ((s.atSlot x).iss.sr || (viewOf .nop).sr) = s.iss.sr := Bool.or_false _
  rw [h.1]
  refine (issue_clear hc rfl : execNop (s.atSlot x) = _).trans ?_
  rw [begin_eq, State.noted, hpops, hsr]
  rfl

theorem phaseOf_idle {x : Slot} (h : x.idle) : phaseOf x = 0 := by
  obtain ⟨hi, hf⟩ := h
  rw [phaseOf, hi, hf]
  rfl

/-! ## The checks of the slots -/

theorem form_cls_ne (h : (viewOf i).cls ≠ .none) : (s.form i).cls ≠ .none := by
  cases i
  case vsat => exact Cls.noConfusion
  all_goals exact h

/-- The state in which the issue of a bundle that holds one instruction begins. -/
def State.started (u : State) (ws : List (BitVec 32)) : State := { u with iss := Issue.start u.me.pc ws 1 }

/-- The state in which its instruction is issued. -/
def State.issuing (u : State) (ws : List (BitVec 32)) (i : Instr) : State :=
  { u.started ws with iss := { (u.started ws).iss with slot := 0, unit := if (viewOf i).g then 1 else 0 } }

theorem atSlot_sole (u : State) (ws : List (BitVec 32)) (i : Instr) : (u.started ws).atSlot (soleSlot i) = u.issuing ws i := rfl

/-- How the slots end where the instruction ends so. -/
def soleEnds (e : SlotEnd) : List (Nat × SlotEnd) := [(0, e), (1, .commit), (2, .commit), (3, .commit)]

/-- A slot that reads a command record is no memory slot. -/
theorem cls_of_readsRecord (h : readsRecord i = true) : (viewOf i).cls ≠ .l := by
  cases i
  case fcopy | fgath | fput | fget | fcoll | fa2a => exact Cls.noConfusion
  all_goals cases h

/-- A command record is read in the state before the bundle, where no memory slot is beside its own. -/
theorem besideMemory_sole (s : State) (i : Instr) : (if readsRecord i then s.besideMemory (soleSlots i) else s) = s := by
  split
  · next h =>
    obtain ⟨a, b, c, hl, -, ha, hb, hc⟩ := soleSlots_eq i
    have hi : ((soleSlot i).form.cls == .l) = false := beq_eq_false_iff_ne.2 (cls_of_readsRecord h)
    have hidle : ∀ {x : Slot}, x.idle → (x.form.cls == .l) = false := fun hx => by rw [hx.2]; rfl
    have hfind : (soleSlots i).find? (fun x => x.form.cls == .l) = none := by
      simp only [hl, List.find?_cons, hi, hidle ha, hidle hb, hidle hc, List.find?_nil]
    rw [State.besideMemory, hfind]
  · rfl

theorem checkSlots_idle {x : Slot} (h : x.idle) (s beside : State) {l : List Slot} {ends : List (Nat × SlotEnd)}
    (hl : checkSlots s beside l = .next ends) : checkSlots s beside (x :: l) = .next ((x.k, .commit) :: ends) := by
  have hr : (if readsRecord x.instr then beside else s) = s := by rw [h.1]; rfl
  rw [checkSlots, hr, exec_idle h, hl]
  rfl

theorem checkSlots_sole {ws : List (BitVec 32)} {c : State} (h : exec i (u.issuing ws i) = .next c) :
    checkSlots (u.started ws) ((u.started ws).besideMemory (soleSlots i)) (soleSlots i) = .next (soleEnds c.slotEnd) := by
  obtain ⟨x, y, z, hl, ⟨hx, hy, hz⟩, hix, hiy, hiz⟩ := soleSlots_eq i
  have hi : exec (soleSlot i).instr ((if readsRecord (soleSlot i).instr then (u.started ws).besideMemory (soleSlots i)
      else u.started ws).atSlot (soleSlot i)) = .next c := by
    rw [show (soleSlot i).instr = i from rfl, besideMemory_sole, atSlot_sole, h]
  have hidle : checkSlots (u.started ws) ((u.started ws).besideMemory (soleSlots i)) [x, y, z] =
      .next [(1, .commit), (2, .commit), (3, .commit)] := by
    rw [← hx, ← hy, ← hz]
    exact checkSlots_idle hix _ _ (checkSlots_idle hiy _ _ (checkSlots_idle hiz _ _ rfl))
  generalize (u.started ws).besideMemory (soleSlots i) = beside at hi hidle
  rw [hl, checkSlots, hi, hidle]
  rfl

/-- No `done` beside other slots is among them. -/
theorem notAlone_sole {e : SlotEnd} (l : List Slot) (h : e.Fair) : notAlone l (soleEnds e) = soleEnds e := by
  refine if_pos ?_
  simpa [soleEnds, stopWith] using h.ne

/-! ## The effects of the slots -/

/-- The slots act in this order: those of a phase before those of the next. -/
theorem actOrder_sole (i : Instr) : ∃ a b c : Slot, (a.idle ∧ b.idle ∧ c.idle) ∧
    (actOrder (soleSlots i) = [soleSlot i, a, b, c] ∧ phaseOf (soleSlot i) = 0 ∨
      actOrder (soleSlots i) = [a, b, c, soleSlot i] ∧ phaseOf (soleSlot i) ≠ 0) := by
  obtain ⟨a, b, c, hl, -, ha, hb, hc⟩ := soleSlots_eq i
  refine ⟨a, b, c, ⟨ha, hb, hc⟩, ?_⟩
  have hlt : phaseOf (soleSlot i) < 5 := by
    unfold phaseOf
    split
    · decide
    · split
      · decide
      · split <;> decide
  have hrange : List.range 5 = [0, 1, 2, 3, 4] := rfl
  rw [actOrder, hl, hrange]
  generalize hp : phaseOf (soleSlot i) = p at hlt
  interval_cases p <;> simp [hp, phaseOf_idle ha, phaseOf_idle hb, phaseOf_idle hc]

theorem actSlots_idle {x : Slot} (h : x.idle) (s : State) (l : List Slot) : actSlots (x :: l) s = actSlots l (s.idled x) := by
  rw [actSlots, if_pos (phaseOf_idle h), exec_idle h]

/-- A slot that holds a `nop` changes nothing of a state whose slot has committed but the place of the slot. -/
theorem idled_eq {t : State} (h : t.slotEnd = .commit) (x : Slot) : t.idled x = t.atSlot x := by
  rw [State.idled, ← h]
  rfl

theorem popRandom_none (h : s.iss.sr = false) : s.popRandom = s := if_neg (by rw [h]; exact Bool.false_ne_true)

/-- The state in which the instruction acts, its slot and those before it having ended so. -/
def State.acting (u : State) (ws : List (BitVec 32)) (i : Instr) (e : SlotEnd) : State :=
  { u.started ws with slotEnd := e, iss := { (u.issuing ws i).iss with checked := true } }

/-- The place that the last slot has left in the issue record, as a slot. -/
def State.lastPlace (s : State) : Slot :=
  { k := s.iss.slot, instr := .nop, form := viewOf .nop, unit := s.iss.unit, last := s.iss.last, twinned := s.iss.twinned }

theorem idled_idled (s : State) (x y : Slot) : (s.idled x).idled y = s.idled y := rfl

/-- The state in which the checks of the bundle have been made. -/
def State.passed (u : State) (ws : List (BitVec 32)) : State := (u.started ws).updIss (fun j => { j with checked := true })

/-- The slots act as the instruction does alone: the `nop`s before it and after it leave only the place of a slot. -/
theorem actSlots_sole (u : State) (ws : List (BitVec 32)) (h : (viewOf i).cls ≠ .none) : ∃ e, ∀ t, exec i (u.acting ws i e) = .next t →
    ∃ x : Slot, actSlots (actOrder (soleSlots i)) (u.passed ws) = .next (t.atSlot x) := by
  obtain ⟨a, b, c, ⟨ha, hb, hc⟩, ⟨hl, hp⟩ | ⟨hl, hp⟩⟩ := actOrder_sole i
  · have hfirst : (u.passed ws).atSlot (soleSlot i) = u.acting ws i u.slotEnd := rfl
    refine ⟨u.slotEnd, fun t ht => ⟨c, ?_⟩⟩
    have hend : t.slotEnd = .commit := (honest_of_slot (form_cls_ne h) rfl).slotEnd_checked rfl ht
    have hi : exec (soleSlot i).instr (u.acting ws i u.slotEnd) = .next t := ht
    rw [hl, actSlots, if_pos hp, hfirst, hi]
    dsimp only
    rw [actSlots_idle ha, actSlots_idle hb, actSlots_idle hc, idled_idled, idled_idled, idled_eq hend, actSlots]
  · have hlast : ((u.passed ws).idled c).atSlot (soleSlot i) = u.acting ws i .commit := rfl
    refine ⟨.commit, fun t ht => ⟨t.lastPlace, ?_⟩⟩
    have hi : exec (soleSlot i).instr (u.acting ws i .commit) = .next t := ht
    rw [hl, actSlots_idle ha, actSlots_idle hb, actSlots_idle hc, idled_idled, idled_idled, actSlots, if_neg hp, popRandom_none rfl, hlast, hi]
    rfl

/-! ## The run of the slots and the end of the bundle -/

theorem runSlots_stops {ws : List (BitVec 32)} {c : State} (h : exec i (u.issuing ws i) = .next c) (hf : c.slotEnd.Fair)
    (hc : c.slotEnd ≠ .commit) : runSlots (soleSlots i) (u.started ws) = .next (u.started ws, soleEnds c.slotEnd) := by
  have hall : (soleEnds c.slotEnd).all (fun e => e.2 == .commit) = false := by simp [soleEnds, hc]
  rw [runSlots, checkSlots_sole h]
  dsimp only
  rw [notAlone_sole _ hf, hall]
  rfl

theorem runSlots_commits {ws : List (BitVec 32)} {c t : State} {x : Slot} (h : exec i (u.issuing ws i) = .next c)
    (hc : c.slotEnd = .commit) (ht : actSlots (actOrder (soleSlots i)) (u.passed ws) = .next (t.atSlot x)) :
    runSlots (soleSlots i) (u.started ws) =
      .next ((t.atSlot x).updIss (fun j => { j with checked := false }), soleEnds .commit) := by
  have hchecked : (u.started ws).updIss (fun j => { j with checked := true }) = u.passed ws := rfl
  rw [runSlots, checkSlots_sole h, hc]
  dsimp only
  rw [notAlone_sole _ fair_commit, hchecked, ht]
  rfl

theorem endBundle_trap (s : State) {rank : Nat} (h : rank < 99) (cause : Byte) (info : Option Word) (extra src : Nat) (r : State) :
    s.endBundle [] (r, soleEnds (.trap rank cause info extra src)) = s.stopBundle cause info extra src 1 := by
  have hstops : stops (soleEnds (.trap rank cause info extra src)) = [(rank, 0, cause, info, extra, src)] := rfl
  have hmin : Nat.min 99 rank = rank := Nat.min_eq_right h.le
  have hworst : worst [(rank, 0, cause, info, extra, src)] = some (cause, info, extra, src, 1) := by
    simp [worst, hmin, maskOf]
  rw [State.endBundle]
  dsimp only
  rw [hstops, hworst]
  rfl

theorem endBundle_block (s : State) (w : Wait) (r : State) :
    s.endBundle [] (r, soleEnds (.block w)) = (s.upd (fun c => c.waitFor w)).passCore s.cur := rfl

theorem endBundle_stall (s r : State) : s.endBundle [] (r, soleEnds .stall) = s := rfl

theorem endBundle_commit (s r : State) : s.endBundle [] (r, soleEnds .commit) = match r.bodyFault with
    | some (cause, info) => s.enterTrap s.cur s.x
        { cause := cause, late := false, src := 0, snum := 0, info := info, emask := 0, epc := s.iss.pc } false
    | none => r.commitBundle (s.me.tvec.getLsbD 1) := rfl

/-! ## The issue of the bundle -/

theorem soleSlots_counted (h : (viewOf i).cls ≠ .none) : ((soleSlots i).filter (fun x => x.form.cls != .none)).length = 1 := by
  obtain ⟨a, b, c, hl, -, ha, hb, hc⟩ := soleSlots_eq i
  have hidle : ∀ {x : Slot}, x.idle → (x.form.cls != .none) = false := fun hx => by rw [hx.2]; rfl
  have hi : ((soleSlot i).form.cls != .none) = true := bne_iff_ne.2 h
  simp only [hl, List.filter_cons, hi, hidle ha, hidle hb, hidle hc, if_true, Bool.false_eq_true, if_false, List.filter_nil,
    List.length_cons, List.length_nil]

/-- The words of a bundle that holds one instruction and then three `nop`s are decoded and run. -/
theorem issueWords_sole {w : BitVec 32} (hw : w.getLsbD 31 = false) (hd : decodeWord w.toNat = .ok i) (hcls : (viewOf i).cls ≠ .none)
    {r : State × List (Nat × SlotEnd)} (hr : runSlots (soleSlots i) (u.started (soleWords w)) = .next r) :
    u.issueWords (soleWords w) =
      .next ((u.started (soleWords w)).endBundle ((u.started (soleWords w)).bundleChecks (soleSlots i)) r) := by
  have hread : (List.range (soleWords w).length).map (fun k => (k, readSlot ((soleWords w).getD k 0))) =
      [(0, .ok i), (1, .ok .nop), (2, .ok .nop), (3, .ok .nop)] := by
    have hi : readSlot w = .ok i := by rw [readSlot, hd]
    have hn : readSlot 0x08000000 = .ok .nop := rfl
    have hl : readSlot 0x88000000 = .ok .nop := rfl
    show [(0, readSlot w), (1, readSlot 0x08000000), (2, readSlot 0x08000000), (3, readSlot 0x88000000)] = _
    rw [hi, hn, hl]
  have h31 : w[31] = false := by rw [← BitVec.getLsbD_eq_getElem, hw]
  have hstops : badStops (soleWords w) = 0 := by simp [badStops, packNat, soleWords, h31]
  have hl : assignUnits [(0, some i), (1, some .nop), (2, some .nop), (3, some .nop)] [] none false = soleSlots i := rfl
  have hstart : ({ u with iss := Issue.start u.me.pc (soleWords w) 1 } : State) = u.started (soleWords w) := rfl
  unfold State.issueWords
  rw [hread]
  dsimp only [List.filterMap_cons, List.filterMap_nil]
  rw [hl, soleSlots_counted hcls, hstart, if_neg (not_not_intro hstops)]
  exact (if_pos rfl).trans (by rw [hr])

/-! ## The turn of the core -/

/-- No bank is waited for where none has a row that is being refreshed. -/
theorem bankWaits_none (h : ∀ k, (s.stack k).bankWait = []) (sec : Nat) : s.bankWaits sec = false := by
  rw [State.bankWaits, h]
  rfl

/-- The turn of a core that has nothing else to do first ends as its bundle does. -/
theorem coreTurn_issue {ws : List (BitVec 32)} {t : State} (hf : Fetches s u ws) (hb : ∀ k, (s.stack k).bankWait = [])
    (ht : u.issueWords ws = .next t) : s.coreTurn = .next t.advance := by
  obtain ⟨-, hstall, hidle, htask, hblocked, hhalted, hflight, hpending, hbreak, hfetch⟩ := hf
  have hchosen : s.chosen = s := by simp [State.chosen, hidle, htask, hblocked, hhalted]
  have hdue : s.me.flight.any (fun f => f.left == 0) = false := by
    rw [List.any_eq_false]
    exact fun f hm => by simpa using hflight f hm
  have hlate : (!s.me.pending.isEmpty && !s.me.hnd) = false := by
    obtain h | h := hpending <;> simp [h]
  have hissue : s.issueBundle = .next t := by
    have hb' : ({ s with iss := Issue.start s.me.pc [] 0 } : State).atBreakpoint s.me.pc = false := hbreak
    unfold State.issueBundle
    dsimp only
    rw [hb', hfetch, ← ht]
    rfl
  have hwaits : ((t.stackUse.drop s.stackUse.length).any (fun u => s.bankWaits u.1)) = false := by
    simp [bankWaits_none hb]
  unfold State.coreTurn
  dsimp only
  rw [hstall, hchosen, hidle, hdue, hlate, hissue]
  exact congrArg (fun b => Host.Outcome.next (State.advance (if b = true then s else t))) hwaits

/-- A step that is the turn of a core. -/
theorem step_issue {ws : List (BitVec 32)} {t : State} (ha : s.agenda = []) (hf : Fetches s u ws) (hb : ∀ k, (s.stack k).bankWait = [])
    (ht : u.issueWords ws = .next t) : step s = .next { t.advance with agenda := [] } := by
  have hturn : s.turn = s.coreTurn := if_neg (by rw [hf.1]; exact Bool.false_ne_true)
  rw [step_turn ha, hturn, coreTurn_issue hf hb ht, thenAgenda]

section Sole

variable {w : BitVec 32} {c : State} (ha : s.agenda = []) (hb : ∀ k, (s.stack k).bankWait = []) (hf : Fetches s u (soleWords w))
  (hw : w.getLsbD 31 = false) (hd : decodeWord w.toNat = .ok i) (hcls : (viewOf i).cls ≠ .none)
  (hbundle : (u.started (soleWords w)).bundleChecks (soleSlots i) = []) (hc : exec i (u.issuing (soleWords w) i) = .next c)
include ha hb hf hw hd hcls hbundle

/-- The step is the end of the bundle that its slots' run leaves. -/
theorem step_sole {r : State × List (Nat × SlotEnd)} (hr : runSlots (soleSlots i) (u.started (soleWords w)) = .next r) :
    step s = .next { ((u.started (soleWords w)).endBundle [] r).advance with agenda := [] } :=
  step_issue ha hf hb (by rw [issueWords_sole hw hd hcls hr, hbundle])

include hc

/-- A bundle whose instruction does not commit ends as that does. -/
theorem step_stops (he : c.slotEnd ≠ .commit) : step s =
    .next { ((u.started (soleWords w)).endBundle [] (u.started (soleWords w), soleEnds c.slotEnd)).advance with agenda := [] } :=
  step_sole ha hb hf hw hd hcls hbundle
    (runSlots_stops hc ((honest_of_slot (form_cls_ne hcls) rfl).slotEnd_fair rfl hc) he)

/-- A bundle whose instruction commits ends with its effect, or with the fault of the body it skips (R97, R177). -/
theorem step_commits (he : c.slotEnd = .commit) : ∃ e, ∀ t, exec i (u.acting (soleWords w) i e) = .next t →
    ∃ x : Slot, step s = .next { ((u.started (soleWords w)).endBundle []
      ((t.atSlot x).updIss (fun j => { j with checked := false }), soleEnds .commit)).advance with agenda := [] } := by
  obtain ⟨e, h⟩ := actSlots_sole u (soleWords w) hcls
  refine ⟨e, fun t ht => ?_⟩
  obtain ⟨x, hx⟩ := h t ht
  exact ⟨x, step_sole ha hb hf hw hd hcls hbundle (runSlots_commits hc he hx)⟩

end Sole

/-! ## The end of the cycle -/

/-- `t` is in the cycle of `s`. -/
structure SameCycle (s t : State) : Prop where
  cycle : t.cycle = s.cycle

theorem SameCycle.trans {t : State} (h : SameCycle s t) (g : SameCycle t u) : SameCycle s u := ⟨g.cycle.trans h.cycle⟩

theorem SameCycle.foldl {α : Type} {f : State → α → State} (h : ∀ u a, SameCycle u (f u a)) (l : List α) (s : State) :
    SameCycle s (l.foldl f s) := by
  induction l generalizing s with
  | nil => exact ⟨rfl⟩
  | cons a l ih => exact (h s a).trans (ih (f s a))

theorem HomeStep.sameCycle {t : State} (h : HomeStep s t) : SameCycle s t := by
  obtain ⟨_, _, _, _, _, _, _, rfl⟩ := h
  exact ⟨rfl⟩

theorem sameCycle_count (s : State) (island n : Nat) : SameCycle s (s.count island n 1) := ⟨rfl⟩

theorem sameCycle_islandsHold (s : State) (held : List (Nat × Nat)) : SameCycle s (s.islandsHold held) := by
  refine SameCycle.foldl (fun t n => ?_) (List.range 32) s
  dsimp only
  split <;> exact ⟨rfl⟩

theorem sameCycle_countCycle (s : State) : SameCycle s s.countCycle := by
  unfold State.countCycle
  extract_lets held islands counted now waited
  have hcounted : SameCycle islands counted := by
    refine SameCycle.foldl (fun t w => ?_) held islands
    exact sameCycle_count ..
  have hwaited : SameCycle counted waited := by
    refine SameCycle.foldl (fun t w => ?_) _ counted
    exact sameCycle_count ..
  have hislands : SameCycle s islands := sameCycle_islandsHold s held
  exact ⟨((hislands.trans hcounted).trans hwaited).cycle⟩

theorem sameCycle_flushLogs (s : State) : SameCycle s s.flushLogs := by
  have helog : ∀ (t : State) (r : List Byte), SameCycle t (t.appendElog r) := fun t r => ⟨(homeStep_homeStore t _ r).sameCycle.cycle⟩
  have htrace : ∀ (t : State) (r : List Byte), SameCycle t (t.appendTrace r) := fun t r => ⟨(homeStep_homeStore t _ r).sameCycle.cycle⟩
  have hdue : SameCycle s { s with logDue := [], traceDue := [] } := ⟨rfl⟩
  exact (hdue.trans (SameCycle.foldl helog (inOrder s.logDue) _)).trans (SameCycle.foldl htrace _ _)

theorem sameCycle_runClock (s : State) : SameCycle s s.runClock := by
  unfold State.runClock
  extract_lets
  split <;> exact ⟨rfl⟩

/-- The end of a cycle begins the next one. -/
theorem tick_cycle (s : State) : s.tick.cycle = s.cycle + 1 := by
  have h : SameCycle s s.countCycle.flushLogs.runClock :=
    ((sameCycle_countCycle s).trans (sameCycle_flushLogs _)).trans (sameCycle_runClock _)
  exact congrArg (· + 1) h.cycle

/-! ## The agents -/

theorem step_agents (ha : s.agenda = []) (he : s.evTurn = true) (hr : s.resetDue = none) (hc : s.chances = []) :
    step s = thenAgenda [] (s.autoEvent.elim (.next s.tick) (fun e => exec e s)) := by
  rw [step_turn ha, State.turn, if_pos he, hr, hc]
  cases s.autoEvent <;> rfl

/-- Settles O60: the sole instruction of a bundle is checked first (`runSlots_stops`, `runSlots_commits`), since none but a `done`
beside other slots is stopped for its neighbours (`honest_of_slot`), and the bundle ends as its slot does. -/
theorem stepRunsDecoded : Obligations.StepRunsDecoded := by
  unfold Obligations.StepRunsDecoded
  refine ⟨fun e rest s t ha he ht => ?_, fun s u v c w i j ha hb hf hw hd hcls hv hbundle hj hc => ?_,
    fun s ha he hr hc => ⟨fun e t hs ht => ?_, fun hs => ?_⟩⟩
  · rw [step_event ha he, ht, thenAgenda]
  · subst hj hv
    have hstop : c.slotEnd ≠ .commit → _ := step_stops ha hb hf hw hd hcls hbundle hc
    refine ⟨fun hend => ?_, fun rank cause info extra src hr hend => ?_, fun b hend => ?_, fun hend => ?_⟩
    · obtain ⟨e, h⟩ := step_commits ha hb hf hw hd hcls hbundle hc hend
      refine ⟨e, fun t ht => ?_⟩
      obtain ⟨x, hx⟩ := h t ht
      refine ⟨x.k, x.unit, x.last, x.twinned, (t.atSlot x).updIss (fun j => { j with checked := false }), rfl, fun hn => ?_,
        fun cause info hn => ?_⟩
      · rw [hx, endBundle_commit, hn]
        rfl
      · rw [hx, endBundle_commit, hn]
        rfl
    · rw [hstop (by rw [hend]; exact SlotEnd.noConfusion), hend, endBundle_trap _ hr]
      rfl
    · rw [hstop (by rw [hend]; exact SlotEnd.noConfusion), hend, endBundle_block]
      rfl
    · rw [hstop (by rw [hend]; exact SlotEnd.noConfusion), hend, endBundle_stall]
      rfl
  · rw [step_agents ha he hr hc, hs, Option.elim_some, ht, thenAgenda]
  · rw [step_agents ha he hr hc, hs]
    exact ⟨rfl, tick_cycle s, rfl⟩

end Sys2Proof.Machine
end

section
/-! SUPPORT. Loads, stores, gathers, scatters and atomics on global memory, and cache maintenance (R20, R138, R139, R141 to R145, R147,
R150), settled (O15). -/

namespace Sys2Proof.Machine

open Sys2Proof.Spec

variable {s : State} {i : Instr} {a : Word}

/-! ## Checks that a global access passes -/

/-- A canonical range of global bytes passes where the log has room (R20, R147). -/
theorem globalEnd_ok {n : Nat} (hg : globalAt a n) (hroom : s.logRoom = .commit) : (globalOk a n).and s.logRoom = .commit := by
  rw [globalOk_ok hg, commit_and, hroom]

/-- A scalar access that is global by its form or by its address passes its checks where the log has room (R138, R147). -/
theorem scalarEnd_global {generic : Bool} (ha : a.toNat % 8 = 0) (hg : globalAt a 8) (hout : (generic && inAperture a) = false)
    (hroom : s.logRoom = .commit) : s.scalarEnd a generic = .commit := by
  rw [State.scalarEnd, need_ok _ (beq_iff_eq.mpr ha), commit_and, hout, if_neg Bool.false_ne_true,
    globalEnd_ok hg hroom]

theorem wideEnd_global (ha : a.toNat % 64 = 0) (hg : globalAt a 512) (hroom : s.logRoom = .commit) : s.wideEnd a = .commit := by
  rw [State.wideEnd, need_ok _ (beq_iff_eq.mpr ha), commit_and, globalEnd_ok hg hroom]

theorem mem_activeLanes {mask : Pred} {j : Nat} : j ∈ activeLanes mask ↔ j < 128 ∧ mask.getLsbD j = true := by
  rw [activeLanes, List.mem_filter, List.mem_range]

/-- The addresses of the active lanes are aligned to 4 bytes and canonical (R138, R142, R144). -/
def State.lanesAt (s : State) (a : Word) (offs : Vec) : Prop :=
  ∀ j < 128, s.me.ap.getLsbD j = true → (laneAddr a offs j).toNat % 4 = 0 ∧ canonical (laneAddr a offs j) = true

theorem gatherEnd_global {offs : Vec} (h : s.lanesAt a offs) (hroom : s.logRoom = .commit) : s.gatherEnd a offs = .commit := by
  have hlane : ∀ v ∈ (activeLanes s.me.ap).map (laneAddr a offs), v.toNat % 4 = 0 ∧ canonical v = true := by
    intro v hv
    obtain ⟨j, hj, rfl⟩ := List.mem_map.mp hv
    obtain ⟨hlt, hap⟩ := mem_activeLanes.mp hj
    exact h j hlt hap
  have haligned : ((activeLanes s.me.ap).map (laneAddr a offs)).all (fun v => v.toNat % 4 == 0) = true :=
    List.all_eq_true.mpr fun v hv => beq_iff_eq.mpr (hlane v hv).1
  have hcanon : ((activeLanes s.me.ap).map (laneAddr a offs)).find? (fun v => !canonical v) = none :=
    List.find?_eq_none.mpr fun v hv => by simp [(hlane v hv).2]
  simp only [State.gatherEnd, need_ok _ haligned, hcanon, Option.elim_none, commit_and, hroom]

/-! ## Scalar loads and stores -/

/-- A global scalar load takes an entry with its address and destination, and blocks (R139, R147). -/
theorem logs_loadS {x : Src} {imm : BitVec 7} {n generic : Bool} {d : Nat} (he : exec i s = loadS (viewOf i) imm generic s)
    (hv : lo64 (s.vals (viewOf i)).a = srcS s x) (hd : s.logDest (viewOf i) = regD n d) (ha : (ea s x imm 8).toNat % 8 = 0)
    (hg : globalAt (ea s x imm 8) 8) (hout : (generic && inAperture (ea s x imm 8)) = false) :
    Logs i s { entry s .load (ea s x imm 8) true with d := regD n d } := by
  have hA : eaS (lo64 (s.vals (viewOf i)).a) imm = ea s x imm 8 := by rw [hv, eaS_eq]
  refine logs_of_issue he (fun hroom => ?_) ?_
  · dsimp only
    rw [hA, scalarEnd_global ha hg hout hroom, hout]
    rfl
  · dsimp only
    rw [hA, hout, ← hd]
    rfl

/-- A global scalar store takes an entry with its address and data (R139, R145, R147). -/
theorem storeS_global {v : View} {data : Word} {generic : Bool} (hout : (generic && inAperture a) = false) :
    storeS a data generic (s.noted v) = (s.noted v).logged { entry s .store a false with data := wide data } := by
  rw [storeS, hout]
  rfl

theorem logs_storeS {pre : State → Vals → SlotEnd} {x : Src} {imm : BitVec 7} {d : Nat} {generic : Bool}
    (he : exec i s = issuePre (viewOf i) pre (fun s x => s.scalarEnd (eaS (lo64 x.a) imm) generic)
      (fun x s => storeS (eaS (lo64 x.a) imm) (lo64 x.d) generic s) s)
    (hv : lo64 (s.vals (viewOf i)).a = srcS s x) (hd : lo64 (s.vals (viewOf i)).d = s.me.readS d) (ha : (ea s x imm 8).toNat % 8 = 0)
    (hg : globalAt (ea s x imm 8) 8) (hout : (generic && inAperture (ea s x imm 8)) = false) :
    Logs i s { entry s .store (ea s x imm 8) false with data := wide (s.me.readS d) } := by
  refine logs_of_issue he (fun hroom => ?_) ?_
  · rw [hv, eaS_eq, scalarEnd_global ha hg hout hroom]
  · rw [hv, hd, eaS_eq, storeS_global hout]

/-- The data of a guarded scalar store is the value of its latch (R145). -/
theorem guardData_scalar (s : State) (l : BitVec 4) : s.guardData l false = latchValue s l.toNat := by
  rw [State.guardData]
  exact if_neg fun h => Bool.false_ne_true h.1

theorem logs_guardedS {pre : State → Vals → SlotEnd} {o : GSI} {generic : Bool}
    (he : exec i s = issuePre (viewOf i) pre
      (fun s x => (s.twinCheck o.l.toNat (partner o.l.toNat)).and (s.scalarEnd (eaS (lo64 x.a) o.imm) generic))
      (fun x s => storeS (eaS (lo64 x.a) o.imm) (lo64 (s.guardData o.l false)) generic s) s)
    (hview : viewOf i = vGd o) (ha : (ea s o.a o.imm 8).toNat % 8 = 0) (hg : globalAt (ea s o.a o.imm 8) 8)
    (hk : latchValue s o.l.toNat = latchValue s (twinLatch o.l.toNat))
    (hout : (generic && inAperture (ea s o.a o.imm 8)) = false) :
    Logs i s { entry s .store (ea s o.a o.imm 8) false with data := wide (lo64 (latchValue s o.l.toNat)) } := by
  intro hn hc
  have hguard : guardOk o.l = true := by simpa only [hview, vGd] using encOk_of_clear hc
  have hA : lo64 (s.vals (viewOf i)).a = srcS s o.a := by rw [hview]; rfl
  refine logs_of_issue he (fun hroom => ?_) ?_ hn hc
  · rw [hA, eaS_eq, guarded_ok hguard hk, scalarEnd_global ha hg hout hroom]
  · rw [hA, eaS_eq, guardData_scalar, storeS_global hout]
    rfl

/-! ## Vector loads and stores -/

theorem logs_vldg {o : PRR} (ha : (srcS s o.a + srcS s o.b).toNat % 64 = 0) (hg : globalAt (srcS s o.a + srcS s o.b) 512) :
    Logs (.vldg o) s { entry s .vload (srcS s o.a + srcS s o.b) true with d := vecD s o.n o.d.toNat, mask := s.me.ap } :=
  logs_of_issue rfl (fun hroom => wideEnd_global ha hg hroom) rfl

theorem logs_vstg {o : DAB6} (ha : (srcS s o.a + srcS s o.b).toNat % 64 = 0) (hg : globalAt (srcS s o.a + srcS s o.b) 512) :
    Logs (.vstg o) s { entry s .vstore (srcS s o.a + srcS s o.b) false with
      data := s.readV s.cur s.x (s.me.vname o.d.toNat), mask := s.me.ap } :=
  logs_of_issue rfl (fun hroom => wideEnd_global ha hg hroom) rfl

/-- The operand form of a guarded vector store whose A is no push target (R145). -/
theorem viewOf_vstgGd {l : BitVec 4} {x y : Src} {p : BitVec 2} (hx : popped x = false) :
    viewOf (.vstgGd l x y p) = { vL1 false x p with b := some (sSrc y), encOk := guardOk l, latches := pairOf l } :=
  if_neg (hx ▸ Bool.false_ne_true)

theorem logs_vstgGd {l : BitVec 4} {x y : Src} {p : BitVec 2} (hx : popped x = false)
    (ha : (srcS s x + srcS s y).toNat % 64 = 0) (hg : globalAt (srcS s x + srcS s y) 512)
    (hk : latchValue s l.toNat = latchValue s (twinLatch l.toNat)) :
    Logs (.vstgGd l x y p) s { entry s .vstore (srcS s x + srcS s y) false with data := s.guardData l true, mask := s.me.ap } := by
  intro hn hc
  have hview := viewOf_vstgGd (l := l) (y := y) (p := p) hx
  have hguard : guardOk l = true := by simpa only [hview] using encOk_of_clear hc
  have hA : lo64 (s.vals (viewOf (.vstgGd l x y p))).a = srcS s x := by rw [hview]; rfl
  have hB : lo64 (s.vals (viewOf (.vstgGd l x y p))).b = srcS s y := by rw [hview]; rfl
  refine logs_of_issue rfl (fun hroom => ?_) ?_ hn hc
  · dsimp only
    rw [hA, hB, guarded_ok hguard hk, hx, wideEnd_global ha hg hroom]
    rfl
  · dsimp only
    rw [hA, hB, hx]
    rfl

/-! ## Gathers, scatters and vector atomics -/

theorem logs_vgath {o : PRR} (h : s.lanesAt (srcS s o.a) (srcV s o.b)) :
    Logs (.vgath o) s { entry s .gather (srcS s o.a) true with
      offs := srcV s o.b, d := vecD s o.n o.d.toNat, mask := s.me.ap } :=
  logs_of_issue rfl (fun hroom => gatherEnd_global h hroom) rfl

theorem logs_vscat {o : PRR} (h : s.lanesAt (srcS s o.a) (srcV s o.b)) :
    Logs (.vscat o) s { entry s .scatter (srcS s o.a) false with
      offs := srcV s o.b, data := s.readV s.cur s.x (s.me.vname o.d.toNat), mask := s.me.ap } :=
  logs_of_issue rfl (fun hroom => gatherEnd_global h hroom) rfl

theorem logs_vamo {o : PRR} (h : s.lanesAt (srcS s o.a &&& ~~~3) (srcV s o.b)) :
    Logs (.vamo o) s { entry s (.vamo ((srcS s o.a).setWidth 2)) (srcS s o.a &&& ~~~3) true with
      offs := srcV s o.b, data := s.readV s.cur s.x (s.me.vname o.d.toNat), d := vecD s o.n o.d.toNat, mask := s.me.ap } :=
  logs_of_issue rfl (fun hroom => gatherEnd_global h hroom) rfl

/-! ## Scalar atomics -/

/-- The compare value of a scalar atomic is D (R143). -/
theorem amog_compare (s : State) (o : SR3) : lo64 (s.vals (viewOf (.amog o))).d = s.me.readS o.d.toNat := lo64_wide _

theorem logs_amog {o : SR3} (hg : globalAt (srcS s o.a &&& ~~~7) 8) : Logs (.amog o) s (amoEntry s o (srcS s o.a &&& ~~~7)) := by
  refine logs_of_issue rfl (fun hroom => globalEnd_ok hg hroom) ?_
  rw [amog_compare]
  rfl

theorem logs_amo {o : SR3} (hg : globalAt (srcS s o.a &&& ~~~7) 8) (hout : inAperture (srcS s o.a &&& ~~~7) = false) :
    Logs (.amo o) s (amoEntry s o (srcS s o.a &&& ~~~7)) := by
  have hA : amoAddr (lo64 (s.vals (viewOf (.amo o))).a) = srcS s o.a &&& ~~~7 := rfl
  have hD : lo64 (s.vals (viewOf (.amo o))).d = s.me.readS o.d.toNat := amog_compare s o
  refine logs_of_issue rfl (fun hroom => ?_) ?_
  · dsimp only
    rw [hA, hout]
    exact globalEnd_ok hg hroom
  · dsimp only
    rw [hA, hD, hout]
    rfl

/-! ## Cache maintenance -/

theorem maintEnd_global {n : Word} (hn : n ≠ 0) (h32 : n.toNat ≤ 2 ^ 32) (hr : a.toNat + n.toNat ≤ 0xFFFF_FFFF_0000_0000)
    (hg : globalAt a n.toNat) (hroom : s.logRoom = .commit) : s.maintEnd a n = .commit := by
  have hrange : (decide (n.toNat ≤ 2 ^ 32) && rangeOk a n) = true := by
    rw [Bool.and_eq_true, decide_eq_true_iff, rangeOk, Bool.or_eq_true, decide_eq_true_iff]
    exact ⟨h32, .inl hr⟩
  rw [State.maintEnd, need_ok _ hrange, commit_and, if_neg hn, globalEnd_ok hg hroom]

/-- A range of no bytes passes, wherever it begins (R150). -/
theorem maintEnd_empty : s.maintEnd a 0 = .commit := by
  rw [State.maintEnd, need_ok _ (by simp [rangeOk]), commit_and, if_pos rfl]

/-- A range too long, or not below the aperture, fails its check (R150). -/
theorem maintEnd_bad {n : Word} (h : 2 ^ 32 < n.toNat ∨ n ≠ 0 ∧ 0xFFFF_FFFF_0000_0000 < a.toNat + n.toNat) :
    s.maintEnd a n = stopWith 13 0x4C := by
  have hbad : (decide (n.toNat ≤ 2 ^ 32) && rangeOk a n) = false := by
    rw [Bool.and_eq_false_iff, decide_eq_false_iff_not, rangeOk, Bool.or_eq_false_iff, decide_eq_false_iff_not, beq_eq_false_iff_ne]
    exact h.imp Nat.not_le.mpr fun ⟨hn, hr⟩ => ⟨Nat.not_le.mpr hr, hn⟩
  rw [State.maintEnd, hbad]
  rfl

section maintenance

variable {op : LogOp} {d : BitVec 6} {x : Src} {p : BitVec 2}

/-- A slot that maintains, by an operation of the log, the range that A and D give (R150). -/
structure Maintains (i : Instr) (op : LogOp) (d : BitVec 6) (x : Src) (s : State) : Prop where
  issues : exec i s = issuePre (viewOf i) (fun _ v => maintLen (lo64 v.d)) (fun s v => s.maintEnd (lo64 v.a) (lo64 v.d))
    (fun v s => s.maint op (lo64 v.a) (lo64 v.d)) s
  base : lo64 (s.vals (viewOf i)).a = srcS s x
  length : lo64 (s.vals (viewOf i)).d = s.me.readS (d.toNat % 32)

theorem maintains_cinv : Maintains (.cinv d x p) .cinv d x s := ⟨rfl, rfl, lo64_wide _⟩

theorem maintains_cwb : Maintains (.cwb d x p) .cwb d x s := ⟨rfl, rfl, lo64_wide _⟩

theorem Maintains.logs (h : Maintains i op d x s) {n : Word} (hd : n = s.me.readS (d.toNat % 32)) (hn : n ≠ 0)
    (h32 : n.toNat ≤ 2 ^ 32) (hr : (srcS s x).toNat + n.toNat ≤ 0xFFFF_FFFF_0000_0000) (hg : globalAt (srcS s x) n.toNat) :
    Logs i s { entry s op (srcS s x) false with cmp := n } := by
  subst hd
  refine logs_of_issue h.issues (fun hroom => ?_) ?_
  · rw [h.base, h.length, maintEnd_global hn h32 hr hg hroom]
  · rw [h.base, h.length, State.maint, if_neg hn]
    rfl

theorem Maintains.empty (h : Maintains i op d x s) (hd : s.me.readS (d.toNat % 32) = 0) : Gives i s (s.noted (viewOf i)) := by
  refine gives_of_issue h.issues ?_ ?_
  · rw [h.base, h.length, hd, maintEnd_empty]
  · rw [h.length, hd, State.maint, if_pos rfl]

theorem Maintains.stops (h : Maintains i op d x s) {n : Word} (hd : n = s.me.readS (d.toNat % 32)) (hp : Passes i s)
    (hbad : 2 ^ 32 < n.toNat ∨ n ≠ 0 ∧ 0xFFFF_FFFF_0000_0000 < (srcS s x).toNat + n.toNat) : stopsWith i s 0x4C := by
  subst hd
  refine stops_of_issue h.issues hp (rank := 13) ?_
  rw [h.base, h.length, maintEnd_bad hbad]

end maintenance

/-- Settles O15, instruction by instruction. -/
theorem globalAccesses : Obligations.GlobalAccesses := by
  unfold Obligations.GlobalAccesses
  refine ⟨?_, ?_, ?_, ?_, ?_, ?_, ?_, ?_, ?_, ?_⟩
  · rintro o s _ rfl ha hg
    exact ⟨logs_loadS rfl rfl rfl ha hg rfl, fun hout => logs_loadS rfl rfl rfl ha hg hout⟩
  · rintro o s _ rfl ha hg
    exact ⟨logs_storeS rfl rfl (lo64_wide _) ha hg rfl, fun hout => logs_storeS rfl rfl (lo64_wide _) ha hg hout⟩
  · rintro o s _ rfl ha hg hk
    exact ⟨logs_guardedS rfl rfl ha hg hk rfl, fun hout => logs_guardedS rfl rfl ha hg hk hout⟩
  · rintro o s _ rfl ha hg
    exact logs_vldg ha hg
  · rintro o s _ rfl ha hg
    exact logs_vstg ha hg
  · rintro l x y p s _ rfl hx ha hg hk
    exact logs_vstgGd hx ha hg hk
  · rintro o s a _ rfl
    refine ⟨?_, ?_⟩
    · rintro rfl h
      exact ⟨logs_vgath h, logs_vscat h⟩
    · rintro rfl h
      exact logs_vamo h
  · rintro o s _ rfl hg
    exact ⟨logs_amog hg, fun hout => logs_amo hg hout⟩
  · rintro d x p s n hd hn h32 hr hg
    exact ⟨maintains_cinv.logs hd hn h32 hr hg, maintains_cwb.logs hd hn h32 hr hg⟩
  · rintro d x p s n i hd hi
    obtain ⟨op, h⟩ : ∃ op, Maintains i op d x s := by
      obtain rfl | rfl := hi
      · exact ⟨_, maintains_cinv⟩
      · exact ⟨_, maintains_cwb⟩
    exact ⟨fun h0 => h.empty (hd.symm.trans h0), fun hp hbad => h.stops hd hp hbad⟩

end Sys2Proof.Machine
end

section
/-! SUPPORT. Scalar arithmetic (R165 to R172): the words of the model by their numbers, and what each slot puts in flight, settled (O1,
O2). -/

namespace Sys2Proof.Machine

open Sys2Proof.Spec

variable {s : State}

/-! ## Slots -/

/-- The scalar result of a slot that writes a register (R165). -/
theorem scalarOf_eq (s : State) {v : View} {d : Nat} (h : v.dWrite = .s d) (w : Word) :
    scalarOf s v w = scalarResult (latchOf v.cls v.g s.iss.unit) v.n d v.lat w := by
  rw [scalarOf, resultOf, h, ite_self]
  rfl

/-- A scalar register that a slot reads as D. -/
theorem vals_scalarD {v : View} {r : Nat} (h : v.dRead = some (false, r)) : lo64 (s.vals v).d = s.me.readS r := by
  simp only [State.vals, h]
  exact lo64_wide _

/-- A slot with no checks of its own that computes a word puts it in flight. -/
theorem flies_word {i : Instr} {f : Vals → Word} {d : Nat} {w : Word}
    (he : exec i s = issue (viewOf i) noCheck (fun x t => t.deliverS (viewOf i) (f x)) s) (hd : (viewOf i).dWrite = .s d)
    (hw : f (s.vals (viewOf i)) = w) :
    Flies i s (scalarResult (latchOf (viewOf i).cls (viewOf i).g s.iss.unit) (viewOf i).n d (viewOf i).lat w) := by
  rw [← scalarOf_eq s hd, ← hw]
  exact gives_of_issue he rfl (noted_deliverS _)

section registers

variable {i : SRR → Instr} {o : SRR} (f : Word → Word → Word) {w : Word}

theorem flies_scalar2 {cls : Cls} {lat : Nat} (he : exec (i o) s = scalar2 (viewOf (i o)) f s) (hv : viewOf (i o) = vSRR cls lat o)
    (hw : f (srcS s o.a) (srcS s o.b) = w) : Flies (i o) s (scalarResult (latchOf cls o.g s.iss.unit) o.n o.d.toNat lat w) := by
  have h := flies_word (d := o.d.toNat) (w := w) he (by rw [hv]; rfl) (by rw [hv]; exact hw)
  rwa [hv] at h

theorem alu_scalar2 (he : exec (i o) s = scalar2 (viewOf (i o)) f s) (hv : viewOf (i o) = vSRR .a 1 o)
    (hw : f (srcS s o.a) (srcS s o.b) = w) : Alu i o s w := flies_scalar2 f he hv hw

theorem mul_scalar2 {lat : Nat} (he : exec (i o) s = scalar2 (viewOf (i o)) f s) (hv : viewOf (i o) = vSRR .m lat o)
    (hw : f (srcS s o.a) (srcS s o.b) = w) : Mul i o s lat w := flies_scalar2 f he hv hw

end registers

/-- `sel` reads D besides its sources (R168). -/
theorem alu_sel (s : State) (o : SRR) : Alu .sel o s (if s.me.readS o.d.toNat ≠ 0 then srcS s o.a else srcS s o.b) :=
  flies_word (i := .sel o) rfl rfl (by
    rw [vals_scalarD (v := viewOf (.sel o)) rfl]
    rfl)

/-- A slot of one source: `enc` is whether its fields hold assigned values. -/
theorem flies_scalar1 (f : Word → Word) {i : Instr} {g n enc : Bool} {d : BitVec 5} {a : Src} {p : BitVec 2} {w : Word}
    (he : exec i s = scalar1 (viewOf i) f s) (hv : viewOf i = { vS1 .a 1 g n d a p with encOk := enc }) (hw : f (srcS s a) = w) :
    Flies i s (scalarResult (some (aluLatch s g)) n d.toNat 1 w) := by
  have h := flies_word (d := d.toNat) (w := w) he (by rw [hv]; rfl) (by rw [hv]; exact hw)
  rwa [hv] at h

/-! ## Words -/

theorem add_eq_ofNat (a b : Word) : a + b = .ofNat 64 (a.toNat + b.toNat) := by
  rw [BitVec.ofNat_add, BitVec.ofNat_toNat, BitVec.ofNat_toNat, BitVec.setWidth_eq, BitVec.setWidth_eq]

theorem mul_eq_ofNat (a b : Word) : a * b = .ofNat 64 (a.toNat * b.toNat) := by
  rw [BitVec.ofNat_mul, BitVec.ofNat_toNat, BitVec.ofNat_toNat, BitVec.setWidth_eq, BitVec.setWidth_eq]

theorem sub_eq_ofInt (a b : Word) : a - b = .ofInt 64 (a.toInt - b.toInt) := by
  rw [Int.sub_eq_add_neg, BitVec.ofInt_add, BitVec.ofInt_neg, BitVec.ofInt_toInt, BitVec.ofInt_toInt, BitVec.sub_eq_add_neg]

theorem shiftLeft_eq_ofNat (a : Word) (k : Nat) : a <<< k = .ofNat 64 (a.toNat * 2 ^ k) := by
  apply BitVec.eq_of_toNat_eq
  rw [BitVec.toNat_shiftLeft, Nat.shiftLeft_eq, BitVec.toNat_ofNat]

theorem shiftRight_eq_ofNat (a : Word) (k : Nat) : a >>> k = .ofNat 64 (a.toNat / 2 ^ k) := by
  apply BitVec.eq_of_toNat_eq
  rw [BitVec.toNat_ushiftRight, Nat.shiftRight_eq_div_pow, BitVec.toNat_ofNat,
    Nat.mod_eq_of_lt (Nat.lt_of_le_of_lt (Nat.div_le_self ..) a.isLt)]

theorem sshiftRight_eq_ofInt (a : Word) (k : Nat) : a.sshiftRight k = .ofInt 64 (a.toInt / 2 ^ k) := by
  rw [← BitVec.ofInt_toInt (x := a.sshiftRight k), BitVec.toInt_sshiftRight, Int.shiftRight_eq_div_pow]
  norm_cast

/-- A rotation by B modulo 64 (R166). -/
theorem rotateLeft_amount (a b : Word) : a.rotateLeft (amount b) = a <<< (b.toNat % 64) ||| a >>> (64 - b.toNat % 64) := by
  rw [amount, BitVec.rotateLeft_mod_eq_rotateLeft, BitVec.rotateLeft_def]

theorem rotateRight_amount (a b : Word) : a.rotateRight (amount b) = a >>> (b.toNat % 64) ||| a <<< (64 - b.toNat % 64) := by
  rw [amount, BitVec.rotateRight_mod_eq_rotateRight, BitVec.rotateRight_def]

theorem boolWord_slt (a b : Word) : boolWord (a.slt b) = if a.toInt < b.toInt then 1 else 0 := by
  simp only [boolWord, BitVec.slt_iff_toInt_lt]

theorem boolWord_ult (a b : Word) : boolWord (a.ult b) = if a.toNat < b.toNat then 1 else 0 := by
  simp only [boolWord, BitVec.ult_iff_toNat_lt]

theorem signedMin_eq (a b : Word) : (if b.slt a then b else a) = if a.toInt ≤ b.toInt then a else b := by
  simp only [BitVec.slt_iff_toInt_lt, ← Int.not_le, ite_not]

/-- Of two words that stand for the same number either is the maximum. -/
theorem signedMax_eq (a b : Word) : (if a.slt b then b else a) = if a.toInt ≤ b.toInt then b else a := by
  by_cases h : a.toInt = b.toInt
  · rw [BitVec.eq_of_toInt_eq h, ite_self, ite_self]
  · simp only [BitVec.slt_iff_toInt_lt, lt_iff_le_and_ne, h, ne_eq, not_false_eq_true, and_true]

theorem unsignedMin_eq (a b : Word) : (if b.ult a then b else a) = if a.toNat ≤ b.toNat then a else b := by
  simp only [BitVec.ult_iff_toNat_lt, ← Nat.not_le, ite_not]

theorem unsignedMax_eq (a b : Word) : (if a.ult b then b else a) = if a.toNat ≤ b.toNat then b else a := by
  by_cases h : a.toNat = b.toNat
  · rw [BitVec.eq_of_toNat_eq h, ite_self, ite_self]
  · simp only [BitVec.ult_iff_toNat_lt, lt_iff_le_and_ne, h, ne_eq, not_false_eq_true, and_true]

/-- Settles O1: each operation of the model is, on every pair of words, the word of the tables. -/
theorem registerArithmetic : Obligations.RegisterArithmetic := by
  unfold Obligations.RegisterArithmetic
  rintro o s a b rfl rfl
  exact ⟨alu_scalar2 (· + ·) rfl rfl (add_eq_ofNat _ _), alu_scalar2 (· - ·) rfl rfl (sub_eq_ofInt _ _),
    alu_scalar2 (· &&& ·) rfl rfl rfl, alu_scalar2 (· &&& ~~~ ·) rfl rfl rfl, alu_scalar2 (· ||| ·) rfl rfl rfl,
    alu_scalar2 (· ^^^ ·) rfl rfl rfl,
    alu_scalar2 (fun a b => a <<< amount b) rfl rfl (shiftLeft_eq_ofNat _ _),
    alu_scalar2 (fun a b => a >>> amount b) rfl rfl (shiftRight_eq_ofNat _ _),
    alu_scalar2 (fun a b => a.sshiftRight (amount b)) rfl rfl (sshiftRight_eq_ofInt _ _),
    alu_scalar2 (fun a b => a.rotateLeft (amount b)) rfl rfl (rotateLeft_amount _ _),
    alu_scalar2 (fun a b => a.rotateRight (amount b)) rfl rfl (rotateRight_amount _ _),
    alu_scalar2 leaWord rfl rfl rfl,
    alu_scalar2 (fun a b => boolWord (a.slt b)) rfl rfl (boolWord_slt _ _),
    alu_scalar2 (fun a b => boolWord (a.ult b)) rfl rfl (boolWord_ult _ _),
    alu_scalar2 (fun a b => if b.slt a then b else a) rfl rfl (signedMin_eq _ _),
    alu_scalar2 (fun a b => if a.slt b then b else a) rfl rfl (signedMax_eq _ _),
    alu_scalar2 (fun a b => if b.ult a then b else a) rfl rfl (unsignedMin_eq _ _),
    alu_scalar2 (fun a b => if a.ult b then b else a) rfl rfl (unsignedMax_eq _ _),
    mul_scalar2 (· * ·) rfl rfl (mul_eq_ofNat _ _),
    mul_scalar2 (fun a b => .ofInt 64 (a.toInt * b.toInt / 2 ^ 64)) rfl rfl rfl,
    mul_scalar2 (fun a b => .ofNat 64 (a.toNat * b.toNat / 2 ^ 64)) rfl rfl rfl,
    mul_scalar2 divS rfl rfl rfl, mul_scalar2 divU rfl rfl rfl, mul_scalar2 remS rfl rfl rfl, mul_scalar2 remU rfl rfl rfl,
    alu_sel s o, rfl, rfl⟩

/-! ## Immediates and constants -/

theorem add_simm (a : Word) (imm : BitVec 7) : a + simm imm = .ofInt 64 (a.toInt + imm.toInt) := by
  rw [BitVec.ofInt_add, BitVec.ofInt_toInt]
  rfl

/-- The old D, 16 bits up, with an immediate below it (R170). -/
theorem shifted_or_imm (a : Word) (imm : BitVec 16) : (a <<< 16) ||| imm.setWidth 64 = .ofNat 64 (a.toNat * 65536 + imm.toNat) := by
  have hand : a <<< 16 &&& imm.setWidth 64 = 0#64 := by
    ext j hj
    by_cases h : j < 16
    · simp [h]
    · simp [BitVec.getLsbD_of_ge imm j (by omega), ← BitVec.getLsbD_eq_getElem]
  rw [← BitVec.add_eq_or_of_and_eq_zero _ _ hand, show 65536 = 2 ^ 16 from rfl, BitVec.ofNat_add, shiftLeft_eq_ofNat, BitVec.ofNat_toNat]

/-! ## Unary forms -/

/-- The place of the first set bit among `n`, or `n` where none is set. -/
theorem find?_range_getD {f : Nat → Bool} {n k : Nat} (h : ((List.range n).find? f).getD n = k) :
    k ≤ n ∧ (∀ j < k, f j = false) ∧ (k < n → f k = true) := by
  cases hf : (List.range n).find? f with
  | none =>
    obtain rfl : n = k := by rwa [hf] at h
    rw [List.find?_range_eq_none] at hf
    exact ⟨le_rfl, fun j hj => by simpa using hf j hj, fun hn => absurd hn (lt_irrefl n)⟩
  | some m =>
    obtain rfl : m = k := by rwa [hf] at h
    rw [List.find?_range_eq_some] at hf
    obtain ⟨hset, hm, hclear⟩ := hf
    exact ⟨(List.mem_range.mp hm).le, fun j hj => by simpa using hclear j hj, fun _ => hset⟩

/-- The leading zeros of a word end at a set bit, or with the word (R171). -/
theorem leadingZeros_spec (a : Word) : leadingZeros 64 a.toNat ≤ 64 ∧ (∀ j < leadingZeros 64 a.toNat, a.getLsbD (63 - j) = false) ∧
    (leadingZeros 64 a.toNat < 64 → a.getLsbD (63 - leadingZeros 64 a.toNat) = true) := find?_range_getD rfl

theorem trailingZeros_spec (a : Word) : trailingZeros 64 a.toNat ≤ 64 ∧ (∀ j < trailingZeros 64 a.toNat, a.getLsbD j = false) ∧
    (trailingZeros 64 a.toNat < 64 → a.getLsbD (trailingZeros 64 a.toNat) = true) := find?_range_getD rfl

theorem oneBits_eq (a : Word) : oneBits 64 a.toNat = (List.range 64).countP (fun j => a.getLsbD j) := List.countP_eq_length_filter.symm

theorem sextWord_eq (w : BitVec 2) (a : Word) : sextWord w a = (a.setWidth (8 * 2 ^ w.toNat)).signExtend 64 := by
  rw [sextWord, BitVec.ofNat_toNat]
  rfl

theorem zextWord_eq (w : BitVec 2) (a : Word) : zextWord w a = (a.setWidth (8 * 2 ^ w.toNat)).setWidth 64 := by
  apply BitVec.eq_of_toNat_eq
  rw [zextWord, BitVec.toNat_ofNat, BitVec.toNat_setWidth, BitVec.toNat_setWidth]
  rfl

/-! ## Coordinates -/

/-- `crd` of an assigned coordinate (R172). -/
theorem flies_crd {g n : Bool} {d : BitVec 5} {k : BitVec 4} {p : BitVec 2} {c : Nat} (hc : k.toNat ≤ 12 → s.coordinate k.toNat = c) :
    Flies (.crd g d n k p) s (scalarResult (some (aluLatch s g)) n d.toNat 1 (.ofNat 64 c)) := fun h =>
  flies_word (i := .crd g d n k p) rfl rfl (congrArg (BitVec.ofNat 64) (hc (of_decide_eq_true (encOk_of_clear h)))) h

/-- The coordinates of a task of a launch that is there (R172). -/
theorem coordinate_eq {t : Task} {l : Launch} (ht : s.me.task = some t) (hl : s.launch t.launch = some l) (k : Nat) :
    s.coordinate k = [t.crew, t.rank, t.ctxr, t.stage, t.line, l.crews, l.rcd.cpc, l.rcd.tpc, l.rcd.stages, t.task, s.cur, s.x,
      l.rcd.heat].getD k 0 := by
  have hlaunch : s.launchOf s.cur s.x = some l := (congrArg (·.bind fun t => s.launch t.launch) ht).trans hl
  simp only [State.coordinate, ht, hlaunch]

/-- Settles O2, form by form. -/
theorem immediateAndUnary : Obligations.ImmediateAndUnary := by
  unfold Obligations.ImmediateAndUnary
  refine ⟨?_, ?_, ?_, ?_, ?_, ?_⟩
  · rintro o s _ rfl
    exact ⟨flies_scalar1 (· + simm o.imm) rfl rfl (add_simm _ _), flies_scalar1 (· &&& simm o.imm) rfl rfl rfl,
      flies_scalar1 (· ||| simm o.imm) rfl rfl rfl, flies_scalar1 (· ^^^ simm o.imm) rfl rfl rfl⟩
  · rintro o s _ rfl
    exact ⟨flies_scalar1 (· <<< o.sh.toNat) rfl rfl (shiftLeft_eq_ofNat _ _),
      flies_scalar1 (· >>> o.sh.toNat) rfl rfl (shiftRight_eq_ofNat _ _),
      flies_scalar1 (·.sshiftRight o.sh.toNat) rfl rfl (sshiftRight_eq_ofInt _ _)⟩
  · rintro o s a rfl
    obtain ⟨hclz, hleading, hone⟩ := leadingZeros_spec (srcS s o.a)
    obtain ⟨hctz, htrailing, hlow⟩ := trailingZeros_spec (srcS s o.a)
    exact ⟨⟨_, hclz, hleading, hone, flies_scalar1 (fun a => .ofNat 64 (leadingZeros 64 a.toNat)) rfl rfl rfl⟩,
      ⟨_, hctz, htrailing, hlow, flies_scalar1 (fun a => .ofNat 64 (trailingZeros 64 a.toNat)) rfl rfl rfl⟩,
      flies_scalar1 (fun a => .ofNat 64 (oneBits 64 a.toNat)) rfl rfl (congrArg _ (oneBits_eq _)),
      fun w => ⟨flies_scalar1 (sextWord w) rfl rfl (sextWord_eq w _), flies_scalar1 (zextWord w) rfl rfl (zextWord_eq w _)⟩⟩
  · intro g n d k p s t l ht hl
    refine flies_crd fun hk => ?_
    rw [coordinate_eq ht hl]
    generalize k.toNat = c at hk ⊢
    interval_cases c <;> rfl
  · exact fun g d imm s => flies_word (i := .li g d imm) rfl rfl rfl
  · exact fun g d imm s => flies_word (i := .lih g d imm) rfl rfl (by
      rw [vals_scalarD (v := viewOf (.lih g d imm)) rfl, shifted_or_imm])

end Sys2Proof.Machine
end

section
/-! SUPPORT. The launch of a task by a task (R183, R298, R299, R303, R353), settled (O22). -/

namespace Sys2Proof.Machine

open Sys2Proof.Spec

variable {s t u : State} {l : Launch} {r : Record}

/-! ## What the journal keeps -/

/-- `t` has the contexts and the cores' turn of `s`, and its launches and intakes. -/
structure KeepsLaunches (s t : State) : Prop where
  ctxs : t.ctxs = s.ctxs
  cores : t.cores = s.cores
  cur : t.cur = s.cur
  launches : t.launches = s.launches
  nextLaunch : t.nextLaunch = s.nextLaunch
  intake : t.intake = s.intake

theorem KeepsLaunches.trans (h : KeepsLaunches s t) (g : KeepsLaunches t u) : KeepsLaunches s u :=
  ⟨g.ctxs.trans h.ctxs, g.cores.trans h.cores, g.cur.trans h.cur, g.launches.trans h.launches, g.nextLaunch.trans h.nextLaunch,
    g.intake.trans h.intake⟩

theorem HomeStep.keepsLaunches (h : HomeStep s t) : KeepsLaunches s t := by
  obtain ⟨_, _, _, _, _, _, _, rfl⟩ := h
  exact ⟨rfl, rfl, rfl, rfl, rfl, rfl⟩

theorem Reported.keepsLaunches (h : Reported s t) : KeepsLaunches s t := by
  obtain ⟨_, _, _, _, _, _, _, rfl⟩ := h
  exact ⟨rfl, rfl, rfl, rfl, rfl, rfl⟩

/-- The running context is the same. -/
theorem KeepsLaunches.me (h : KeepsLaunches s t) : t.me = s.me := by
  simp only [State.me, State.ctx, State.x, State.core, h.ctxs, h.cores, h.cur]

/-- A change of a launch that is there. -/
theorem updLaunch_of_mem {n : Nat} (f : Launch → Launch) (h : s.launch n = some l) :
    s.updLaunch n f = { s with launches := mset s.launches n (f l) } := by
  rw [State.launch] at h
  rw [State.updLaunch, h]

/-- An entry of the journal changes the state of its launch, and no other launch, no intake and no context (R353 to R355). -/
theorem keepsLaunches_journal {st : LaunchState} (h : s.launch l.id = some l) :
    KeepsLaunches { s with launches := mset s.launches l.id { l with state := st } } (s.journal l st) := by
  have hentry (a : Nat) (b : List Byte) (f : Regs → Regs) :
      KeepsLaunches { s with launches := mset s.launches l.id { l with state := st } }
        (((s.homeStore a b).updRegs f).updLaunch l.id (fun l => { l with state := st })) := by
    have hs := (homeStep_homeStore s a b).keepsLaunches
    have hl : ((s.homeStore a b).updRegs f).launch l.id = some l := (congrArg (mfind · l.id) hs.launches).trans h
    rw [updLaunch_of_mem _ hl]
    exact ⟨hs.ctxs, hs.cores, hs.cur, congrArg (mset · l.id _) hs.launches, hs.nextLaunch, hs.intake⟩
  unfold State.journal
  dsimp only
  split
  · exact (hentry _ _ _).trans (reported_offer _ _).keepsLaunches
  · exact hentry _ _ _

/-! ## Acceptance -/

/-- A launch as the intake takes it from a task: the next id, the record, the address space and the pools, and the time (R183, R303). -/
structure Launch.TakenAs (n : Launch) (s : State) (k : Launch) (r : Record) : Prop where
  id : n.id = s.nextLaunch.toNat
  state : n.state = .accepted
  rcd : n.rcd = r
  asn : n.asn = k.asn
  ptroot : n.ptroot = k.ptroot
  pooldir : n.pooldir = k.pooldir
  poolcnt : n.poolcnt = k.poolcnt
  fromLnch : n.fromLnch = true
  acceptedAt : n.acceptedAt = s.now

/-- Acceptance from a task of launch `k` answers the id of a launch that stands last in its die's intake, and leaves the contexts as
they are (R303). -/
theorem accept_fromLnch (s : State) (die : Nat) (k : Launch) (r : Record) (queue qidx : Nat) {t : State × Nat}
    (ht : s.accept die k.asn k.ptroot k.pooldir k.poolcnt queue qidx true r = t) :
    t.2 = s.nextLaunch.toNat ∧ (∃ n, t.1.launch s.nextLaunch.toNat = some n ∧ n.TakenAs s k r) ∧
      mget [] t.1.intake die = mget [] s.intake die ++ [s.nextLaunch.toNat] ∧ t.1.nextLaunch = nextId s.nextLaunch ∧
      t.1.me = s.me := by
  subst ht
  unfold State.accept
  extract_lets id prev n taken sched placed
  have hn : placed.launch n.id = some n := mfind_mset_same _ _ _
  have h := keepsLaunches_journal (st := .accepted) hn
  refine ⟨rfl, ⟨n, ?_, ⟨rfl, rfl, rfl, rfl, rfl, rfl, rfl, rfl, rfl⟩⟩, ?_, h.nextLaunch, h.me⟩
  · rw [State.launch, h.launches]
    exact mfind_mset_same _ _ _
  · rw [h.intake]
    exact mget_mset_same _ _ _ _

/-! ## The record -/

/-- The PRIO of a record that passes is below 16 (R299). -/
theorem prio_lt (h : s.recordBad r = none) : r.prio < 16 := by
  by_contra hp
  simp [State.recordBad, List.find?_eq_none, hp] at h

/-- Lowering the PRIO of a record changes no check of it. -/
theorem recordBad_prio {p : Nat} (hr : r.prio < 16) (hp : p < 16) : s.recordBad { r with prio := p } = s.recordBad r := by
  unfold State.recordBad
  simp only [hr, hp, decide_true]
  rfl

/-- The record that `lnch` submits passes where the one it read does, at most at its parent's PRIO (R183). -/
theorem lnchRecord_passes {a : Nat} {k : Launch} (hr : recordOf (s.localBytes s.cur s.x a 64).1 = r) (h : s.recordBad r = none)
    (hk : s.launchOf s.cur s.x = some k) :
    s.lnchRecord a = { r with prio := min r.prio k.rcd.prio } ∧ s.recordBad (s.lnchRecord a) = none := by
  have hp := prio_lt h
  have he : s.lnchRecord a = { r with prio := min r.prio k.rcd.prio } := by
    simp only [State.lnchRecord, hr, hk, if_pos hp]
    rfl
  exact ⟨he, by rw [he, recordBad_prio hp (by omega), h]⟩

/-! ## The slot -/

variable {d : BitVec 5} {a : Src} {p : BitVec 2} {n : Nat} {k : Launch}

/-- A `lnch` of a record that passes, with room in the intake and no power failure, has its launch accepted (R183, R303, R358). -/
theorem gives_lnch (ha : (srcS s a).toNat % 64 = 0) (hl : ownAt s (srcS s a) 64 n) (hr : r = recordOf (s.localBytes s.cur s.x n 64).1)
    (hb : s.recordBad r = none) (hk : s.launchOf s.cur s.x = some k) (hroom : (mget [] s.intake (coreDie s.cur)).length < 256)
    (hpower : s.regs.failing = false) {t : State × Nat}
    (ht : (s.noted (viewOf (.lnch d a p))).accept (coreDie s.cur) k.asn k.ptroot k.pooldir k.poolcnt 0xFFFF k.id true
      { r with prio := min r.prio k.rcd.prio } = t) :
    Gives (.lnch d a p) s (t.1.deliverS (viewOf (.lnch d a p)) (.ofNat 64 t.2)) := by
  obtain ⟨hlocal, hw, hf, -, hp⟩ := hl
  obtain ⟨hrcd, hpass⟩ := lnchRecord_passes hr.symm hb hk
  have hown : s.checkOwn (srcS s a) 64 = .ok n := checkOwn_ok hlocal hw hf
  have hfree : s.intakeFull (coreDie s.cur) = false := decide_eq_false (Nat.not_le.mpr hroom)
  refine gives_of_issue rfl ?_ ?_
  · change (need ((srcS s a).toNat % 64 == 0) 0x4B).and (withAddr (s.checkOwn (srcS s a) 64) _) = _
    rw [need_ok _ (beq_iff_eq.mpr ha), commit_and, hown]
    simp only [withAddr, hp, hpass, hfree, hpower, Bool.false_eq_true, if_false, Option.isNone_none, need_ok, commit_and, Bool.or_self]
  · change (if (s.localBytes s.cur s.x (addrOf (s.checkOwn (srcS s a) 64)) 64).2 then _ else
      match s.launchOf s.cur s.x with
        | some l => State.deliverS (State.accept (s.noted _) (coreDie s.cur) l.asn l.ptroot l.pooldir l.poolcnt 0xFFFF l.id true
            (s.lnchRecord (addrOf (s.checkOwn (srcS s a) 64)))).1 _ _
        | none => _) = _
    rw [hown, hk, ← ht, ← hrcd]
    exact if_neg (Bool.eq_false_iff.mp hp)

/-- The id of a launch is on its way to D of the `lnch` that made it (R183). -/
theorem flight_deliverS_lnch (s : State) (w : Word) :
    (s.deliverS (viewOf (.lnch d a p)) w).me.flight = s.me.flight ++ [scalarResult none false d.toNat 1 w] :=
  congrArg Ctx.flight (ctx_updCtx_same s s.cur s.x _)

/-- Settles O22. -/
theorem launchFromTask : Obligations.LaunchFromTask := by
  unfold Obligations.LaunchFromTask
  intro d a p s l k r hc ha hl hr hb hk hroom hpower
  obtain ⟨t, ht⟩ : ∃ t, (s.noted (viewOf (.lnch d a p))).accept (coreDie s.cur) k.asn k.ptroot k.pooldir k.poolcnt 0xFFFF k.id true
      { r with prio := min r.prio k.rcd.prio } = t := ⟨_, rfl⟩
  obtain ⟨hid, ⟨n, hn, htaken⟩, hintake, hnext, hme⟩ := accept_fromLnch _ _ k _ _ _ ht
  refine ⟨_, n, gives_lnch ha hl hr hb hk hroom hpower ht hc, hn, htaken.id, htaken.state, htaken.rcd, htaken.asn, htaken.ptroot,
    htaken.pooldir, htaken.poolcnt, htaken.fromLnch, htaken.acceptedAt, hintake, hnext, ?_⟩
  rw [flight_deliverS_lnch, hme, hid]
  rfl

end Sys2Proof.Machine
end

section
/-! SUPPORT. The elements and the flags of vector results (R90, R189), and integer and float compares (R191, R196), settled (O4). -/

namespace Sys2Proof.Machine

open Sys2Proof.Spec

variable {s : State}

/-! ## Elements of a result -/

/-- A result computed element by element carries its function. -/
theorem carries_resultOf_elementwise (s : State) (v : View) (w : Nat) (f : Nat → Nat × Flags) (fl : Flags) :
    Carries s w (resultOf s v (elementwise w s.me.ap f).1 s.me.ap fl) (fun e => (f e).1) :=
  ⟨rfl, fun _ he => elem_elementwise _ _ he⟩

/-- The flags of a result computed element by element are those of the active elements, and a twin raises none (R189). -/
theorem flags_resultOf_elementwise (s : State) (v : View) (val : Vec) (mask : Pred) (w : Nat) (f : Nat → Nat × Flags) :
    (resultOf s v val mask (elementwise w s.me.ap f).2).flags = flagsOf s v.g w (fun e => (f e).2) := by
  rw [flags_elementwise]
  rfl

/-- Flags that no element raises. -/
theorem orFlags_replicate_zero (n : Nat) : orFlags (List.replicate n 0) = 0 := by
  induction n with
  | zero => rfl
  | succ n ih => exact ih

/-- Elements that raise no flag leave none. -/
theorem flagsOf_zero (s : State) (g : Bool) (w : Nat) : flagsOf s g w (fun _ => 0) = 0 := by
  simp only [flagsOf, ite_self, List.map_const', orFlags_replicate_zero]

/-! ## Compares -/

/-- The elements of a compare: all ones where the test holds, with its flags (R191). -/
def compared (w : Nat) (test : Nat → Nat → Bool × Flags) (a b : Vec) (e : Nat) : Nat × Flags :=
  (if (test (elem w a e) (elem w b e)).1 then 2 ^ w - 1 else 0, (test (elem w a e) (elem w b e)).2)

/-- What a compare puts in flight. -/
def compareResult (s : State) (o : VCM) (w : Nat) (test : Nat → Nat → Bool × Flags) : InFlight :=
  resultOf s (vVCM o) (elementwise w s.me.ap (compared w test (srcV s o.a) (srcV s o.b))).1 s.me.ap
    (elementwise w s.me.ap (compared w test (srcV s o.a) (srcV s o.b))).2

/-- A clear compare puts its result in flight. -/
theorem exec_compareAs {i : VCM → Instr} {o : VCM} {width : State → Nat} {test : State → Nat → Nat → Bool × Flags}
    (he : exec (i o) s = compareAs (viewOf (i o)) width test s) (hv : viewOf (i o) = vVCM o)
    (hw : width (s.noted (vVCM o)) = width s) (ht : test (s.noted (vVCM o)) = test s) (hc : s.Clear (viewOf (i o))) :
    exec (i o) s = .next (s.flying (viewOf (i o)) [compareResult s o (width s) (test s)]) := by
  have h := gives_of_issue he rfl rfl hc
  rw [h, hv, ← hw, ← ht]
  rfl

/-- The conditions of an integer compare (R191). -/
def conditionHolds (s : State) (c a b : Nat) : Bool :=
  match c with
  | 0 => a = b
  | 1 => a ≠ b
  | 2 => num s a < num s b
  | 3 => num s a ≤ num s b
  | 4 => num s b < num s a
  | 5 => num s b ≤ num s a
  | _ => a &&& b ≠ 0

/-- The test that the model makes of an integer condition. -/
theorem intTest_eq_conditionHolds (s : State) (c a b : Nat) : intTest s.me.iw s.me.us c a b = conditionHolds s c a b := by
  match c with
  | 0 | 2 | 3 | 4 | 5 => rfl
  | 1 => exact (decide_not ..).symm
  | _ + 6 => exact (decide_not ..).symm

/-- A clear `vcmp` puts its result in flight. -/
theorem exec_vcmp (o : VCM) (hc : s.Clear (viewOf (.vcmp o))) : exec (.vcmp o) s = .next (s.flying (viewOf (.vcmp o))
    [compareResult s o s.me.iw (fun a b => (conditionHolds s o.c.toNat a b, 0))]) := by
  simp only [← intTest_eq_conditionHolds]
  exact exec_compareAs (i := .vcmp) (width := fun t => t.me.iw) (test := fun t a b => (intTest t.me.iw t.me.us o.c.toNat a b, 0))
    rfl rfl rfl rfl hc

/-- A clear `vfcmp` puts its result in flight. -/
theorem exec_vfcmp (o : VCM) (hc : s.Clear (viewOf (.vfcmp o))) : exec (.vfcmp o) s = .next (s.flying (viewOf (.vfcmp o))
    [compareResult s o (floatWidth s.me.ff) (fun a b => (floatFmt s.me.ff).test o.c.toNat a b)]) :=
  exec_compareAs (i := .vfcmp) (width := fun t => floatWidth t.me.ff) (test := fun t a b => (floatFmt t.me.ff).test o.c.toNat a b)
    rfl rfl rfl rfl hc

/-- Settles O4: both compares are `compareAs`, and the model's integer test is `conditionHolds`. -/
theorem vectorCompares : Obligations.VectorCompares := by
  unfold Obligations.VectorCompares
  refine fun o s => ⟨fun hc => ?_, fun hc => ?_⟩
  · exact ⟨_, exec_vcmp o hc, (flags_resultOf_elementwise ..).trans (flagsOf_zero ..), rfl, rfl, rfl, rfl,
      carries_resultOf_elementwise ..⟩
  · exact ⟨_, exec_vfcmp o hc, rfl, rfl, rfl, rfl, flags_resultOf_elementwise .., carries_resultOf_elementwise ..⟩

end Sys2Proof.Machine
end

section
/-! SUPPORT. Selection, permutes, insertion, extraction, broadcast, indices and transposition (R192, R206 to R209), settled (O7). -/

namespace Sys2Proof.Machine

open Sys2Proof.Spec

variable {s : State}

/-! ## Packed lists -/

/-- An element of a vector that is packed from a function. -/
theorem elem_packList_range {w n e : Nat} (f : Nat → Nat) (hn : w * n ≤ 4096) (he : e < n) :
    elem w (packList w ((List.range n).map f)) e = f e % 2 ^ w := by
  rw [elem_packList (by simpa using hn) (by simpa using he), List.getD_eq_getElem?_getD, List.getElem?_map, List.getElem?_range he]
  rfl

/-- The elements of a vector with one of them replaced. -/
theorem elems_set (w : Nat) (v : Vec) (k x : Nat) :
    (elems w v).set k x = (List.range (4096 / w)).map (fun e => if e = k then x else elem w v e) := by
  refine List.ext_getElem (by simp [elems]) fun e he _ => ?_
  simp [elems, List.getElem_set, eq_comm]

/-! ## Slots of the permute unit -/

section Permutes

variable {i : Instr} {act : Vals → State → State} {d w : Nat} {f : Nat → Nat}

/-- Where a result of the permute unit goes. -/
theorem bound_resultOf_permute {v : View} (hcls : v.cls = .p) (hd : v.dWrite = .v d) (val : Vec) (mask : Pred) (fl : Flags) :
    Bound s (resultOf s v val mask fl) v.n d 7 v.lat := by
  refine ⟨?_, ?_, rfl, rfl⟩
  · rw [resultOf, hd]
    rfl
  · rw [resultOf, hcls]
    rfl

/-- A slot that computes its active elements moves them. -/
theorem moves_elementwise (he : exec i s = issue (viewOf i) noCheck act s) (hcls : (viewOf i).cls = .p) (hd : (viewOf i).dWrite = .v d)
    (ha : act (s.vals (viewOf i)) (s.noted (viewOf i)) =
      (s.noted (viewOf i)).deliver (viewOf i) (elementwise w s.me.ap (fun e => (f e, 0))).1 s.me.ap 0) :
    Moves i s (viewOf i).n d (viewOf i).lat w f := fun hc =>
  ⟨_, gives_of_issue he rfl (ha.trans (noted_deliver ..)) hc, resultOf_flags .., bound_resultOf_permute hcls hd ..,
    carries_resultOf_elementwise ..⟩

/-- A permute moves the lanes that its function names. -/
theorem moves_permute {g : Vals → Nat → Option Nat} (he : exec i s = permute (viewOf i) g s) (hcls : (viewOf i).cls = .p)
    (hd : (viewOf i).dWrite = .v d) (hf : ∀ j, (g (s.vals (viewOf i)) j).elim 0 (elem 32 (s.vals (viewOf i)).a) = f j) :
    Moves i s (viewOf i).n d (viewOf i).lat 32 f :=
  moves_elementwise he hcls hd (by simp only [← hf]; rfl)

/-- A slot that computes every element moves them all. -/
theorem movesAll_packList (he : exec i s = issue (viewOf i) noCheck act s) (hcls : (viewOf i).cls = .p) (hd : (viewOf i).dWrite = .v d)
    (ha : act (s.vals (viewOf i)) (s.noted (viewOf i)) =
      (s.noted (viewOf i)).deliver (viewOf i) (packList w ((List.range (4096 / w)).map f)) allLanes 0) :
    MovesAll i s (viewOf i).n d (viewOf i).lat w f := fun hc =>
  ⟨_, gives_of_issue he rfl (ha.trans (noted_deliver ..)) hc, resultOf_flags .., bound_resultOf_permute hcls hd .., rfl,
    fun _ hlt => elem_packList_range f (Nat.mul_div_le 4096 w) hlt⟩

end Permutes

/-! ## Permutes -/

/-- Bit `k` of a word, by its number. -/
theorem getLsbD_iff_div (b : Word) (k : Nat) : b.getLsbD k = true ↔ b.toNat / 2 ^ k % 2 = 1 := by
  rw [BitVec.getLsbD, Nat.testBit_eq_decide_div_mod_eq, decide_eq_true_iff]

theorem moves_vperm (s : State) (o : PRR) : Moves (.vperm o) s o.n o.d.toNat 2 32
    (fun j => elem 32 (srcV s o.a) (16 * (j / 16) + elem 32 (srcV s o.b) j % 16)) :=
  moves_permute (i := .vperm o) rfl rfl rfl fun _ => rfl

theorem moves_vshf (s : State) (o : PRR) : Moves (.vshf o) s o.n o.d.toNat 2 32 (fun j =>
    if (srcS s o.b).toNat / 16 % 2 = 1 ∧ 16 ≤ j % 16 + (srcS s o.b).toNat % 16 then 0
    else elem 32 (srcV s o.a) (16 * (j / 16) + (j % 16 + (srcS s o.b).toNat % 16) % 16)) := by
  refine moves_permute (i := .vshf o) rfl rfl rfl fun j => ?_
  have hbit : _ ↔ (srcS s o.b).toNat / 16 % 2 = 1 := getLsbD_iff_div (srcS s o.b) 4
  simp only [← hbit]
  exact apply_ite (fun k => Option.elim k 0 (elem 32 (srcV s o.a))) _ _ _

theorem moves_vxcl (s : State) (o : PRR) : Moves (.vxcl o) s o.n o.d.toNat 4 32 (fun j => elem 32 (srcV s o.a)
    (16 * (if (srcS s o.b).toNat / 8 % 2 = 1 then (j / 16) ^^^ ((srcS s o.b).toNat % 8) else (j / 16 + (srcS s o.b).toNat % 8) % 8)
      + j % 16)) := by
  refine moves_permute (i := .vxcl o) rfl rfl rfl fun j => ?_
  have hbit : _ ↔ (srcS s o.b).toNat / 8 % 2 = 1 := getLsbD_iff_div (srcS s o.b) 3
  simp only [← hbit]
  rfl

/-! ## Elements moved -/

theorem movesAll_vins (s : State) (o : PRR) : MovesAll (.vins o) s o.n o.d.toNat 2 s.me.iw (fun e =>
    if e = (srcS s o.b).toNat % (4096 / s.me.iw) then (srcS s o.a).toNat
    else elem s.me.iw (s.readV s.cur s.x (s.me.vname o.d.toNat)) e) :=
  movesAll_packList (i := .vins o) rfl rfl rfl (by rw [← elems_set]; rfl)

theorem flies_vext (s : State) (o : SR3) : Flies (.vext o) s (scalarResult (some 7) o.n o.d.toNat 2
    (.ofInt 64 (num s (elem s.me.iw (srcV s o.a) ((srcS s o.b).toNat % (4096 / s.me.iw)))))) :=
  gives_of_issue rfl rfl ((noted_deliverS _).trans (by rw [scalarOf_eq s rfl]; rfl))

theorem moves_vbcast (s : State) (d : BitVec 6) (n : Bool) (a : Src) (p : BitVec 2) :
    Moves (.vbcast d n a p) s n d.toNat 2 s.me.iw (fun _ => (srcS s a).toNat) :=
  moves_elementwise (i := .vbcast d n a p) rfl rfl rfl rfl

theorem moves_viota (s : State) (d : BitVec 6) (n c : Bool) (p : BitVec 2) :
    Moves (.viota d n c p) s n d.toNat 2 s.me.iw (fun e => if c then e % (512 / s.me.iw) else e) :=
  moves_elementwise (i := .viota d n c p) rfl rfl rfl rfl

/-- A selection writes every lane (R192). -/
theorem exec_vsel (o : VRR) (hc : s.Clear (viewOf (.vsel o))) : exec (.vsel o) s = .next (s.flying (viewOf (.vsel o))
    [resultOf s (vVRR .v 2 o) (mergeLanes s.me.ap (srcV s o.a) (srcV s o.b)) allLanes 0]) :=
  gives_of_issue (i := .vsel o) rfl rfl rfl hc

/-! ## Transposition -/

/-- The results of a list, put in flight one after the other. -/
theorem flying_foldl_deliverAs_map {v : View} (d : Nat → Dest) (l : Nat → Option Nat) (lat : Nat) (val : Nat → Vec) (mask : Pred)
    (fl : Flags) (k : List Nat) (f : List InFlight) :
    k.foldl (fun t r => t.deliverAs (d r) (l r) lat (val r) mask fl) (s.flying v f) = s.flying v (f ++ k.map (fun r =>
      { left := lat, lat := lat, dest := d r, latch := l r, val := val r, mask := mask, flags := fl })) := by
  induction k generalizing f with
  | nil => rw [List.map_nil, List.append_nil, List.foldl_nil]
  | cons r k ih => rw [List.foldl_cons, flying_deliverAs, ih, List.map_cons, List.append_assoc, List.singleton_append]

/-- Result `r` of a transposition of the registers from `d` on (R209). -/
def transposedResult (s : State) (d r : Nat) : InFlight :=
  { left := 2, lat := 2, dest := .v (s.me.vname (d + r)), latch := if r = 0 then some 7 else none,
    val := transposed s.me.iw ((List.range 8).map (fun k => s.readV s.cur s.x (s.me.vname (d + k)))) r, mask := allLanes, flags := 0 }

/-- A clear transposition puts its eight results in flight. -/
theorem exec_vtrn (d : BitVec 6) (p : BitVec 2) (hc : s.Clear (viewOf (.vtrn d p))) : exec (.vtrn d p) s =
    .next (s.flying (viewOf (.vtrn d p)) ((List.range 8).map (transposedResult s d.toNat))) := by
  have hrange : List.range 8 = 0 :: List.range' 1 7 := rfl
  refine gives_of_issue (i := .vtrn d p) rfl rfl ?_ hc
  dsimp only
  rw [hrange, List.foldl_cons]
  exact flying_foldl_deliverAs_map _ _ _ _ _ _ _ [_]

/-- An element of a row of the transposition: element `r` of its group of eight, of the register that its place in the group names. -/
theorem elem_transposed {w m k r : Nat} (g : Nat → Vec) (hk : k < 8) (hlt : 8 * m + k < 4096 / w) :
    elem w (transposed w ((List.range 8).map g) r) (8 * m + k) = elem w (g k) (8 * m + r) := by
  have hrow : (8 * m + k) % 8 = k := by omega
  have hgroup : (8 * m + k) / 8 = m := by omega
  rw [transposed, elem_packList_range _ (Nat.mul_div_le 4096 w) hlt, hrow, hgroup, Nat.mod_eq_of_lt (elem_lt ..),
    List.getD_eq_getElem?_getD, List.getElem?_map, List.getElem?_range hk]
  rfl

/-- Settles O7, instruction by instruction. -/
theorem vectorMoves : Obligations.VectorMoves := by
  unfold Obligations.VectorMoves
  refine ⟨fun o s hc => ?_, fun o s b hb => ?_, fun o s => flies_vext s o,
    fun d n c a p s => ⟨moves_vbcast s d n a p, moves_viota s d n c p⟩, fun d p s hc => ?_⟩
  · exact ⟨_, exec_vsel o hc, resultOf_flags .., rfl, ⟨rfl, rfl, rfl, rfl⟩, fun j hj => lane_ofLanes _ hj⟩
  · subst hb
    exact ⟨moves_vperm s o, moves_vshf s o, moves_vxcl s o, movesAll_vins s o⟩
  · refine ⟨_, exec_vtrn d p hc, by rw [List.length_map, List.length_range], fun r hr => ⟨transposedResult s d.toNat r, ?_,
      rfl, rfl, rfl, rfl, rfl, rfl, fun m k hk hlt => elem_transposed _ hk hlt⟩⟩
    rw [List.getElem?_map, List.getElem?_range hr]
    rfl

end Sys2Proof.Machine
end

section
/-! SUPPORT. Predicate operations, counts of predicates, and the VMODE that `pset` writes (R212 to R214), settled (O9). -/

namespace Sys2Proof.Machine

open Sys2Proof.Spec

section Predicates

variable {s : State} {i : Instr} {d : Nat}

/-! ## Predicate operations -/

/-- Lane `j` of a predicate carried as lanes (R212). -/
theorem elem_predLanes (q : Pred) {j : Nat} (hj : j < 128) : elem 32 (predLanes q) j = if q.getLsbD j then 2 ^ 32 - 1 else 0 := by
  rw [predLanes, elem_packList_range _ (by decide) hj]
  cases q.getLsbD j <;> rfl

/-- A predicate operation puts its predicate in flight, as lanes for the latch. -/
theorem predOp_flies {f : Ctx → Pred} (he : exec i s = predOp (viewOf i) f s) (hcls : (viewOf i).cls = .p) (hlat : (viewOf i).lat = 1)
    (hd : (viewOf i).dWrite = .p d) : PredOp i s (viewOf i).n d (f s.me) := by
  intro hc
  refine ⟨resultOf s (viewOf i) (predLanes (f s.me)) allLanes 0, gives_of_issue he rfl rfl hc, resultOf_flags .., ?_, ?_, hlat, hlat, rfl,
    fun j hj => elem_predLanes _ hj⟩
  · rw [resultOf, hd]
    rfl
  · rw [resultOf, hcls]
    rfl

/-! ## Counts -/

/-- A slot of the permute unit that computes a word puts it in flight for D and `l7` (R213). -/
theorem flies_permuteWord {act : Vals → State → State} {w : Word} (he : exec i s = issue (viewOf i) noCheck act s)
    (hcls : (viewOf i).cls = .p) (hd : (viewOf i).dWrite = .s d)
    (ha : act (s.vals (viewOf i)) (s.noted (viewOf i)) = (s.noted (viewOf i)).deliverS (viewOf i) w) :
    Flies i s (scalarResult (some 7) (viewOf i).n d (viewOf i).lat w) := by
  have hlatch : latchOf (viewOf i).cls (viewOf i).g s.iss.unit = some 7 := by rw [hcls]; rfl
  rw [← hlatch, ← scalarOf_eq s hd]
  exact gives_of_issue he rfl (ha.trans (noted_deliverS _))

theorem oneBits_pred (q : Pred) : oneBits 128 q.toNat = (List.range 128).countP (fun j => q.getLsbD j) :=
  List.countP_eq_length_filter.symm

/-- The trailing zeros of a predicate end at its first set bit. -/
theorem trailingZeros_pred {q : Pred} {k : Nat} (hk : k < 128) (hset : q.getLsbD k = true) (hclear : ∀ j < k, q.getLsbD j = false) :
    trailingZeros 128 q.toNat = k := by
  have hfind : (List.range 128).find? (fun j => q.toNat.testBit j) = some k :=
    List.find?_range_eq_some.2 ⟨hset, List.mem_range.2 hk, fun j hj => congrArg not (hclear j hj)⟩
  rw [trailingZeros, hfind]
  rfl

end Predicates

section Counts

variable {s : State} (d : BitVec 5) (n : Bool) (a : BitVec 3) (p : BitVec 2)

theorem flies_ppop : Flies (.ppop d n a p) s (scalarResult (some 7) n d.toNat 1
    (.ofNat 64 ((List.range 128).countP (fun j => (s.me.readP a.toNat).getLsbD j)))) :=
  flies_permuteWord (i := .ppop d n a p) rfl rfl rfl (by rw [← oneBits_pred]; rfl)

/-- The word of a `pfirst`: −1 for an empty predicate, and else the place of its first bit (R213). -/
theorem flies_pfirst : Flies (.pfirst d n a p) s (scalarResult (some 7) n d.toNat 1
    (if s.me.readP a.toNat = 0 then BitVec.allOnes 64 else .ofNat 64 (trailingZeros 128 (s.me.readP a.toNat).toNat))) :=
  flies_permuteWord (i := .pfirst d n a p) rfl rfl rfl rfl

end Counts

/-! ## VMODE -/

/-- What `pset` writes is its immediate: VMODE keeps the eleven bits that it has (R89, R214). -/
theorem vmode_writeCtl_imm (c : Ctx) (imm : BitVec 11) : (c.writeCtl 0 (lo64 (imm.setWidth 4096))).vmode = imm.setWidth 64 := by
  have hlo : lo64 (imm.setWidth 4096) = imm.setWidth 64 := BitVec.setWidth_setWidth_of_le _ (by decide)
  have hlt : imm.toNat < 2 ^ 11 := imm.isLt
  have hm : imm.toNat &&& 2047 = imm.toNat % 2 ^ 11 := Nat.and_two_pow_sub_one_eq_mod imm.toNat 11
  change lo64 (imm.setWidth 4096) &&& 2047#64 = _
  rw [hlo]
  refine BitVec.eq_of_toNat_eq ?_
  rw [BitVec.toNat_and, BitVec.toNat_setWidth_of_le (by decide)]
  exact hm.trans (Nat.mod_eq_of_lt hlt)

/-- Settles O9, instruction by instruction. -/
theorem predicates : Obligations.Predicates := by
  unfold Obligations.Predicates
  refine ⟨fun d a b n p s => ⟨
      predOp_flies (i := .pand d n a b p) (f := fun c => c.readP a.toNat &&& c.readP b.toNat) rfl rfl rfl rfl,
      predOp_flies (i := .por d n a b p) (f := fun c => c.readP a.toNat ||| c.readP b.toNat) rfl rfl rfl rfl,
      predOp_flies (i := .pxor d n a b p) (f := fun c => c.readP a.toNat ^^^ c.readP b.toNat) rfl rfl rfl rfl,
      predOp_flies (i := .pnot d n a p) (f := fun c => ~~~c.readP a.toNat) rfl rfl rfl rfl⟩,
    fun d a n p s => ⟨flies_ppop d n a p, fun h0 => ?_, fun k hk hset hclear => ?_⟩, fun imm s hc => ?_⟩
  · have h := flies_pfirst (s := s) d n a p
    rwa [if_pos h0] at h
  · have h := flies_pfirst (s := s) d n a p
    have hne : s.me.readP a.toNat ≠ 0 := fun h0 => by simp [h0] at hset
    rwa [if_neg hne, trailingZeros_pred hk hset hclear] at h
  · exact ⟨_, gives_of_issue (i := .pset imm) rfl rfl rfl hc, rfl, rfl, rfl, rfl, rfl, fun c => vmode_writeCtl_imm c imm⟩

end Sys2Proof.Machine
end

section
/-! SUPPORT. Tile and array instructions join the queues of their units (R216, R221, R225 to R230, R242, R245 to R254), settled (O20). -/

namespace Sys2Proof.Machine

open Sys2Proof.Spec

variable {s : State} {i : Instr} {a b : Word}

/-! ## Operands -/

theorem lo64_zero : lo64 0 = 0 := by simp [lo64]

/-- A unit's slot reads 0 for a stream, which it leaves to the unit, and else its source (R221, R245). -/
theorem lo64_unitSrc (s : State) (x : Src) : lo64 ((unitSrc x).elim 0 s.operand) = unitWord s x := by
  unfold unitSrc unitWord
  split
  · exact lo64_zero
  · rfl

/-- The address or factor of a tile that is not peeked is read by the slot (R221). -/
theorem lo64_tileSrc {x : Src} (h : peeks x = false) : lo64 ((tileSrc x).elim 0 s.operand) = srcS s x := by
  rw [tileSrc, h]
  rfl

/-- No source of a tile instruction that passes its checks peeks a stream (R221). -/
theorem peeks_of_matrixBad {core x : Nat} {table : List Word} {known : Bool} (h : s.matrixBad core x i a b table known = none) {y : Src}
    (hy : y ∈ matrixSources i) : peeks y = false := by
  rw [Bool.eq_false_iff]
  intro hp
  have hany : (matrixSources i).any peeks = true := List.any_eq_true.mpr ⟨y, hy, hp⟩
  unfold State.matrixBad at h
  simp only [hany, true_or, if_true] at h
  split_ifs at h

/-! ## The matrix queue -/

/-- Whether an instruction sets the count of steps back as it joins (R225). -/
def clearsSteps : Instr → Bool
  | .zstR _ _ _ _ => true
  | _ => false

/-- An instruction that reads no group table joins the matrix queue. -/
theorem joinsMatrix_plain (he : exec i s = matrixIssue i s) (hg : (productOf i).any (·.grouped) = false)
    (ha : lo64 (s.vals (viewOf i)).a = a) (hb : lo64 (s.vals (viewOf i)).b = b) : JoinsMatrix i s a b [] (clearsSteps i) 0 := by
  intro hok hroom
  refine gives_of_issue he ?_ ?_
  · simp only [hg, ha, hb, Bool.false_and, Bool.false_eq_true, if_false, commit_and, hok]
    exact if_neg (Nat.not_le.mpr hroom)
  · simp only [hg, ha, hb, Bool.false_and, Bool.false_eq_true, if_false]
    rfl

/-- A grouped product reads its table at issue, for which its bundle stalls one cycle more (R228). -/
theorem joinsMatrix_grouped {l : Nat} (he : exec i s = matrixIssue i s) (hg : (productOf i).any (·.grouped) = true)
    (ha : lo64 (s.vals (viewOf i)).a = a) (hb : lo64 (s.vals (viewOf i)).b = b) (hl : localOf b = some l)
    (hf : s.localFault s.cur s.x l 128 = none) (hp : (s.localBytes s.cur s.x l 128).2 = false) (hh : s.heldBack l 128 = false) :
    JoinsMatrix i s a b (s.groupTable s.cur s.x b) (clearsSteps i) 1 := by
  intro hok hroom
  refine gives_of_issue he ?_ ?_
  · simp only [hg, ha, hb, hl, Option.getD_some, hf, hp, Option.isNone_none, Bool.true_and, Bool.and_false, Bool.not_false, if_true,
      hold_free hh, commit_and, hok]
    exact if_neg (Nat.not_le.mpr hroom)
  · simp only [hg, ha, hb, hl, Option.getD_some, if_true, Bool.true_and]
    change (if ((s.localFault s.cur s.x l 128).isNone && (s.localBytes s.cur s.x l 128).2) = true then _ else State.upd _ fun c =>
      c.joinMatrix (s.matrixEntry s.cur s.x (s.wordFor i) i a b (if ((s.localFault s.cur s.x l 128).isNone &&
        !((s.localFault s.cur s.x l 128).isNone && (s.localBytes s.cur s.x l 128).2)) = true then s.groupTable s.cur s.x b else [])
          false) _ _) = _
    rw [hf, hp]
    rfl

/-- A tile instruction that peeks a stream does not pass its checks; one that does not reads its operand (R221). -/
theorem joinsMatrix_operand {x : Src} {table : List Word} {retires : Bool} {stall : Nat} (hx : x ∈ matrixSources i)
    (h : peeks x = false → JoinsMatrix i s a b table retires stall) : JoinsMatrix i s a b table retires stall :=
  fun hok => h (peeks_of_matrixBad hok hx) hok

/-! ## The crossbar queue -/

theorem joinsCrossbar_of (he : exec i s = xbarIssue i s) (ha : lo64 (s.vals (viewOf i)).a = a) (hb : lo64 (s.vals (viewOf i)).b = b) :
    JoinsCrossbar i s a b := by
  intro hok hroom
  refine gives_of_issue he ?_ ?_
  · simp only [ha, hb, hok]
    exact if_neg (Nat.not_le.mpr hroom)
  · simp only [ha, hb]
    rfl

/-- Settles O20, instruction by instruction. -/
theorem unitQueues : Obligations.UnitQueues := by
  unfold Obligations.UnitQueues
  refine ⟨?_, fun e t u f x p s => ⟨?_, ?_, ?_, ?_, ?_, ?_⟩, ?_, ?_, ?_, ?_⟩
  · rintro o s _ _ rfl rfl
    have ha := lo64_unitSrc s o.a
    have hb := lo64_unitSrc s o.b
    exact ⟨joinsMatrix_plain rfl rfl ha hb, joinsMatrix_plain rfl rfl ha hb, fun l hl hf hp hh =>
      ⟨joinsMatrix_grouped rfl rfl ha hb hl hf hp hh, joinsMatrix_grouped rfl rfl ha hb hl hf hp hh⟩⟩
  · exact joinsMatrix_plain rfl rfl lo64_zero lo64_zero
  · exact joinsMatrix_operand List.mem_cons_self fun hx => joinsMatrix_plain rfl rfl (lo64_tileSrc hx) lo64_zero
  · exact joinsMatrix_operand List.mem_cons_self fun hx => joinsMatrix_plain rfl rfl (lo64_tileSrc hx) lo64_zero
  · exact joinsMatrix_operand List.mem_cons_self fun hx => joinsMatrix_plain rfl rfl (lo64_tileSrc hx) lo64_zero
  · exact joinsMatrix_operand List.mem_cons_self fun hx => joinsMatrix_plain rfl rfl lo64_zero (lo64_tileSrc hx)
  · exact joinsMatrix_plain rfl rfl lo64_zero lo64_zero
  · rintro z o s _ _ rfl rfl
    have ha := lo64_unitSrc s o.a
    have hb := lo64_unitSrc s o.b
    exact ⟨joinsCrossbar_of rfl ha hb, joinsCrossbar_of rfl ha hb, joinsCrossbar_of rfl ha hb⟩
  · rintro o s _ rfl
    have ha := lo64_unitSrc s o.a
    exact ⟨joinsCrossbar_of rfl ha lo64_zero, joinsCrossbar_of rfl ha lo64_zero, joinsCrossbar_of rfl ha lo64_zero,
      joinsCrossbar_of rfl ha lo64_zero, joinsCrossbar_of rfl ha lo64_zero, joinsCrossbar_of rfl ha lo64_zero,
      joinsCrossbar_of rfl ha lo64_zero⟩
  · exact fun k p s => joinsCrossbar_of rfl lo64_zero lo64_zero
  · exact fun d k p s => gives_of_issue (i := .xstat d k p) rfl rfl rfl

end Sys2Proof.Machine
end

section
/-! SUPPORT. Rows of accumulator tiles, the lanes of a list, and sums over lists (R58, R90, R93). -/

namespace Sys2Proof.Machine

variable {s : State} {core tile : Nat}

/-! ## Rows of a tile -/

/-- What a map that lists a value for each of some keys holds at one of them. -/
theorem mget_map_of_mem {α : Type} (d : α) (g : Nat → α) {l : List Nat} {r : Nat} (h : r ∈ l) :
    mget d (l.map (fun k => (k, g k))) r = g r := by
  suffices hf : mfind (l.map (fun k => (k, g k))) r = some (g r) by rw [mget, hf, Option.getD_some]
  induction l with
  | nil => cases h
  | cons k l ih =>
    rw [List.map_cons, mfind]
    by_cases hk : k = r
    · rw [if_pos hk, hk]
    · rw [if_neg hk, ih ((List.mem_cons.mp h).resolve_left (Ne.symm hk))]

/-- Writing rows one after the other. -/
theorem writeRows_cons (s : State) (core tile : Nat) (w : Nat × Vec) (rows : Map Vec) :
    s.writeRows core tile (w :: rows) = (s.writeRows core tile [w]).writeRows core tile rows := rfl

theorem accRow_writeRow (s : State) (core tile : Nat) (w : Nat × Vec) (r : Nat) :
    (s.writeRows core tile [w]).accRow core tile r = if r = w.1 then { data := w.2, poison := false } else s.accRow core tile r := by
  have hacc : (s.writeRows core tile [w]).acc = mset s.acc (accKey core tile w.1) { data := w.2, poison := false } := rfl
  rw [State.accRow, hacc]
  split
  · next h => rw [h, mget_mset_same]
  · next h => rw [mget_mset_other _ _ _ (fun he : accKey core tile r = accKey core tile w.1 => h (Nat.add_left_cancel he)), State.accRow]

/-- A row that is not written keeps what it held. -/
theorem accRow_writeRows_other {rows : Map Vec} {r : Nat} (h : r ∉ rows.map (·.1)) :
    (s.writeRows core tile rows).accRow core tile r = s.accRow core tile r := by
  induction rows generalizing s with
  | nil => rfl
  | cons w rows ih =>
    rw [List.map_cons, List.mem_cons, not_or] at h
    rw [writeRows_cons, ih h.2, accRow_writeRow, if_neg h.1]

/-- A row that is written once holds what was written. -/
theorem accRow_writeRows_mem {rows : Map Vec} (hn : (rows.map (·.1)).Nodup) {w : Nat × Vec} (hw : w ∈ rows) :
    (s.writeRows core tile rows).accRow core tile w.1 = { data := w.2, poison := false } := by
  induction rows generalizing s with
  | nil => cases hw
  | cons v rows ih =>
    rw [List.map_cons, List.nodup_cons] at hn
    rw [writeRows_cons]
    obtain rfl | hw := List.mem_cons.mp hw
    · rw [accRow_writeRows_other hn.1, accRow_writeRow, if_pos rfl]
    · exact ih hn.2 hw

/-! ## Lists of lanes -/

theorem ofLaneList_eq_packList (l : List Lane) : ofLaneList l = packList 32 (l.map BitVec.toNat) := by
  rw [ofLaneList, packList, List.foldr_map]
  refine congrArg (fun g => BitVec.ofNat 4096 (l.foldr g 0)) (funext₂ fun v n => ?_)
  rw [Nat.mod_eq_of_lt v.isLt]
  rfl

theorem lane_ofLaneList (f : Nat → Lane) {j : Nat} (hj : j < 128) : lane (ofLaneList ((List.range 128).map f)) j = f j := by
  apply BitVec.eq_of_toNat_eq
  rw [ofLaneList_eq_packList, List.map_map]
  exact (elem_packList_range (w := 32) (BitVec.toNat ∘ f) (by decide) hj).trans (Nat.mod_eq_of_lt (f j).isLt)

/-! ## Sums -/

/-- A sum that is run up member by member. -/
theorem foldl_add_eq_sum {α : Type} (l : List α) (f : α → Nat) : l.foldl (fun n a => n + f a) 0 = (l.map f).sum := by
  rw [List.sum_eq_foldl, List.foldl_map]

end Sys2Proof.Machine
end

section
/-! SUPPORT. The arithmetic of the matrix unit: a step's elements, exact or rounded once, and the elements of the tile instructions (R223,
R229, R230). -/

namespace Sys2Proof.Machine

/-! ## Saturation -/

/-- An INT32 result is kept within its range, and told when it was not in it (R223). -/
theorem sat32_eq (i : Int) : sat32 i = (.ofInt 32 (max (-2 ^ 31) (min i (2 ^ 31 - 1))), if i < -2 ^ 31 ∨ 2 ^ 31 ≤ i then 1 else 0) := by
  unfold sat32
  by_cases hlow : i < -2147483648
  · rw [if_pos hlow, if_pos (.inl (by omega)), show max (-2 ^ 31) (min i (2 ^ 31 - 1)) = -2147483648 by omega]
    rfl
  · by_cases hhigh : 2147483647 < i
    · rw [if_neg hlow, if_pos hhigh, if_pos (.inr (by omega)), show max (-2 ^ 31) (min i (2 ^ 31 - 1)) = 2147483647 by omega]
      rfl
    · rw [if_neg hlow, if_neg hhigh, if_neg (by omega), show max (-2 ^ 31) (min i (2 ^ 31 - 1)) = i by omega]

/-! ## Exact sums of products -/

/-- A sum of products that has met no NaN and no infinity. -/
def Dot.exact (n : Int) : Dot := { nan := false, nv := false, pos := false, neg := false, sum := n }

/-- The product of two finite values, in units of `2^-64`. -/
def prodUnits : Num → Num → Int
  | .fin a m e, .fin b n k => (if a = b then 1 else -1) * ((m * n * 2 ^ (e + k + 64).toNat : Nat) : Int)
  | _, _ => 0

theorem Dot.add_fin (d : Dot) {x y : Num} (hx : x.isFin = true) (hy : y.isFin = true) :
    d.add x y = { d with sum := d.sum + prodUnits x y } := by
  cases x <;> cases hx
  cases y <;> cases hy
  rename_i a m e b n k
  simp only [Dot.add, prodOf, prodUnits]
  by_cases hab : a = b
  · simp [hab]
  · simp [hab, Int.sub_eq_add_neg]

/-- The products of finite values add up exactly (R223). -/
theorem dotOf_finite {a b : List Num} (ha : ∀ x ∈ a, x.isFin = true) (hb : ∀ y ∈ b, y.isFin = true) :
    dotOf a b = .exact ((a.zip b).map (fun p => prodUnits p.1 p.2)).sum := by
  have hrun : ∀ (l : List (Num × Num)) (d : Dot), (∀ p ∈ l, p.1.isFin = true ∧ p.2.isFin = true) →
      l.foldl (fun d p => d.add p.1 p.2) d = { d with sum := d.sum + (l.map (fun p => prodUnits p.1 p.2)).sum } := by
    intro l
    induction l with
    | nil => intro d _; simp
    | cons p l ih =>
      intro d h
      obtain ⟨hp1, hp2⟩ := h p List.mem_cons_self
      rw [List.foldl_cons, Dot.add_fin d hp1 hp2, ih _ (fun q hq => h q (List.mem_cons_of_mem _ hq)), List.map_cons, List.sum_cons,
        Int.add_assoc]
  rw [dotOf, hrun _ _ (fun p hp => ⟨ha _ (List.of_mem_zip hp).1, hb _ (List.of_mem_zip hp).2⟩), Int.zero_add, Dot.exact]

/-- The exact sum of the products of two lists of finite values, given for each what its product is. -/
theorem dotOf_map {α : Type} {f : α → Num} (hf : ∀ x, (f x).isFin = true) (g : α → α → Int)
    (hg : ∀ x y, prodUnits (f x) (f y) = g x y) (xs ys : List α) : dotOf (xs.map f) (ys.map f) = .exact ((xs.zip ys).map (fun p => g p.1 p.2)).sum := by
  rw [dotOf_finite (List.forall_mem_map.mpr fun x _ => hf x) (List.forall_mem_map.mpr fun y _ => hf y), List.zip_map, List.map_map]
  simp only [Function.comp_def, Prod.map, hg]

theorem prodUnits_ofInt (x y : Int) : prodUnits (Num.ofInt x 0) (Num.ofInt y 0) = x * y * 2 ^ 64 := by
  have habs : ∀ i : Int, ((i.natAbs : Nat) : Int) = if i < 0 then -i else i := fun i => by split <;> omega
  simp only [Num.ofInt, prodUnits, Nat.cast_mul, habs]
  by_cases hx : x < 0 <;> by_cases hy : y < 0 <;> simp [hx, hy]

/-! ## The elements of a step -/

/-- An element of an integer step: the exact sum of the products joins the tile's element, and the result saturates (R223). -/
theorem stepElem_int (xs ys : List Int) (sa sb : Int) (z : Lane) :
    stepElem true [{ nan := false, scale := sa, vals := xs.map (fun i => Num.ofInt i 0) }]
      [{ nan := false, scale := sb, vals := ys.map (fun i => Num.ofInt i 0) }] z =
      (let r := sat32 (z.toInt + ((xs.zip ys).map (fun p => p.1 * p.2)).sum)
       (r.1, 0, r.2)) := by
  have hsum : (dotOf (xs.map (fun i => Num.ofInt i 0)) (ys.map (fun i => Num.ofInt i 0))).sum / 2 ^ 64 =
      ((xs.zip ys).map (fun p => p.1 * p.2)).sum := by
    rw [dotOf_map (f := fun i => Num.ofInt i 0) (fun _ => rfl) (fun x y => x * y * 2 ^ 64) prodUnits_ofInt, Dot.exact,
      List.sum_map_mul_right]
    exact Int.mul_ediv_cancel _ (by decide)
  simp only [stepElem, if_true, List.zip_cons_cons, List.zip_nil_right, List.foldl_cons, List.foldl_nil, hsum, Int.zero_add]

/-- The same with the sum, the bounds and the count of saturations written out (R223). -/
theorem stepElem_saturates {xs ys : List Int} {z : Lane} {n : Int} (hn : n = z.toInt + ((xs.zip ys).map (fun p => p.1 * p.2)).sum) :
    stepElem true [{ nan := false, scale := 0, vals := xs.map (fun i => Num.ofInt i 0) }]
      [{ nan := false, scale := 0, vals := ys.map (fun i => Num.ofInt i 0) }] z =
      (.ofInt 32 (max (-2 ^ 31) (min n (2 ^ 31 - 1))), 0, if n < -2 ^ 31 ∨ 2 ^ 31 ≤ n then 1 else 0) := by
  rw [stepElem_int, ← hn, sat32_eq]

/-- An element of a float step with one block: the partial of the block is added to the tile's element (R223). -/
theorem stepElem_float (a b : Block) (z : Lane) : stepElem false [a] [b] z =
    (.ofNat 32 (fp32.add .rne z.toNat (partOf a b).1).1, (partOf a b).2 ||| (fp32.add .rne z.toNat (partOf a b).1).2, 0) := by
  simp [stepElem]

/-- A block that is a NaN block has a NaN for its partial (R223). -/
theorem partOf_nan {a b : Block} (h : a.nan = true ∨ b.nan = true) : partOf a b = (fp32.nan, 0) :=
  if_pos ((Bool.or_eq_true ..).mpr h)

/-- The partial of two blocks of finite elements is their exact sum rounded once (R223). -/
theorem partOf_finite {a b : Block} {n : Int} (ha : a.nan = false) (hb : b.nan = false)
    (hd : dotOf a.vals b.vals = .exact n) :
    partOf a b = fp32.rnd .rne (decide (n < 0)) n.natAbs (a.scale + b.scale - 64) := by
  simp [partOf, ha, hb, hd, Dot.exact]

theorem prodUnits_fin (s t : Bool) (m n e k : Nat) : prodUnits (.fin s m ((e : Int) - 32)) (.fin t n ((k : Int) - 32)) =
    (if s = t then 1 else -1) * ((m * n * 2 ^ (e + k) : Nat) : Int) := by
  have he : ((e : Int) - 32 + ((k : Int) - 32) + 64).toNat = e + k := by omega
  rw [prodUnits, he]

/-- An element of a float step with one block of finite elements: the exact sum of the products, rounded once, is added (R223). -/
theorem stepElem_rounds {xs ys : List (Bool × Nat × Nat)} {sa sb : Int} {z : Lane} {n : Int}
    (hn : n = ((xs.zip ys).map (fun p =>
      (if p.1.1 = p.2.1 then 1 else -1) * ((p.1.2.1 * p.2.2.1 * 2 ^ (p.1.2.2 + p.2.2.2) : Nat) : Int))).sum) :
    let num := fun (q : Bool × Nat × Nat) => Num.fin q.1 q.2.1 ((q.2.2 : Int) - 32)
    let p := fp32.rnd .rne (decide (n < 0)) n.natAbs (sa + sb - 64)
    let t := fp32.add .rne z.toNat p.1
    stepElem false [{ nan := false, scale := sa, vals := xs.map num }] [{ nan := false, scale := sb, vals := ys.map num }] z =
      (.ofNat 32 t.1, p.2 ||| t.2, 0) := by
  intro num p t
  have hd : dotOf (xs.map num) (ys.map num) = .exact n := by
    rw [dotOf_map (fun _ => rfl) _ (fun x y => prodUnits_fin x.1 y.1 x.2.1 y.2.1 x.2.2 y.2.2), ← hn]
  rw [stepElem_float, partOf_finite rfl rfl hd]

/-- A NaN block gives a NaN (R223). -/
theorem stepElem_nan {a b : Block} (z : Lane) (h : a.nan = true ∨ b.nan = true) : stepElem false [a] [b] z =
    (.ofNat 32 (fp32.add .rne z.toNat fp32.nan).1, (fp32.add .rne z.toNat fp32.nan).2, 0) := by
  rw [stepElem_float, partOf_nan h]
  exact congrArg (fun g => (_, g, 0)) BitVec.zero_or

/-- One block of a float step. -/
def floatStep (r : Lane × Flags × Nat) (q : Block × Block) : Lane × Flags × Nat :=
  (.ofNat 32 (fp32.add .rne r.1.toNat (partOf q.1 q.2).1).1,
    r.2.1 ||| (partOf q.1 q.2).2 ||| (fp32.add .rne r.1.toNat (partOf q.1 q.2).1).2, 0)

theorem stepElem_eq_foldl (a b : List Block) (z : Lane) : stepElem false a b z = (a.zip b).foldl floatStep (z, 0, 0) := rfl

/-- The flags that a run of blocks begins with stay, and change nothing else. -/
theorem foldl_floatStep (l : List (Block × Block)) (z : Lane) (g : Flags) :
    l.foldl floatStep (z, g, 0) = ((l.foldl floatStep (z, 0, 0)).1, g ||| (l.foldl floatStep (z, 0, 0)).2.1, 0) := by
  induction l generalizing z g with
  | nil => simp
  | cons q l ih =>
    have hstep : ∀ f : Flags, floatStep (z, f, 0) q = ((floatStep (z, 0, 0) q).1, f ||| (floatStep (z, 0, 0) q).2.1, 0) := fun f => by
      simp [floatStep, BitVec.or_assoc]
    have hq : floatStep (z, 0, 0) q = ((floatStep (z, 0, 0) q).1, (floatStep (z, 0, 0) q).2.1, 0) := rfl
    have hrest := ih (floatStep (z, 0, 0) q).1 (floatStep (z, 0, 0) q).2.1
    rw [← hq] at hrest
    rw [List.foldl_cons, List.foldl_cons, hstep g, ih, hrest, BitVec.or_assoc]

/-- The blocks of a float step follow one another (R223). -/
theorem stepElem_float_cons (a b : Block) (as bs : List Block) (z : Lane) : stepElem false (a :: as) (b :: bs) z =
    (let first := stepElem false [a] [b] z
     let rest := stepElem false as bs first.1
     (rest.1, first.2.1 ||| rest.2.1, 0)) :=
  foldl_floatStep (as.zip bs) (floatStep (z, 0, 0) (a, b)).1 (floatStep (z, 0, 0) (a, b)).2.1

/-! ## The elements of the tile instructions -/

theorem zaccElem_int (d a : Lane) : zaccElem true d a = (.ofInt 32 (max (-2 ^ 31) (min (d.toInt + a.toInt) (2 ^ 31 - 1))), 0,
    if d.toInt + a.toInt < -2 ^ 31 ∨ 2 ^ 31 ≤ d.toInt + a.toInt then 1 else 0) := by
  rw [zaccElem, if_pos rfl, sat32_eq]

end Sys2Proof.Machine
end

section
/-! SUPPORT. The matrix unit at work: instructions that start, panels that are gathered, steps that start, and the rows of the tile
instructions (R216, R217, R221, R226, R229 to R232). -/

namespace Sys2Proof.Machine

variable {s : State} {core x : Nat} {e : UnitEntry} {m : MatrixBusy}

/-! ## Starting -/

/-- The state in which an instruction has been taken from the queue of a context. -/
def taken (s : State) (core x : Nat) (rest : List UnitEntry) : State := s.updCtx core x (fun k => { k with mq := rest })

theorem ctx_taken (s : State) (core x : Nat) (rest : List UnitEntry) : (taken s core x rest).ctx core x = { s.ctx core x with mq := rest } :=
  mget_mset_same ..

theorem physTile_taken (s : State) (core x : Nat) (rest : List UnitEntry) (z : Nat) :
    (taken s core x rest).physTile core x z = s.physTile core x z := by
  rw [State.physTile, ctx_taken, State.physTile]

/-- What is checked as an instruction starts does not depend on the queue it is taken from. -/
theorem startBad_taken (s : State) (core x : Nat) (rest : List UnitEntry) (i : Instr) (e : UnitEntry) :
    (taken s core x rest).startBad core x i e = s.startBad core x i e := by
  unfold State.startBad
  simp only [physTile_taken]
  rfl

/-- The instruction that the unit takes from a queue (R216). -/
def startOf (s : State) (core x : Nat) (e : UnitEntry) : MatrixBusy :=
  { x := x, entry := e, step := 0, free := s.cycle, flags := 0, sat := 0,
    work := (productOf e.instr).elim [] (fun f => s.workRows core (s.physTile core x f.tile) f.acc), pa := Panel.empty, pb := Panel.empty }

variable {rest : List UnitEntry}

theorem startOf_taken (s : State) (core x : Nat) (rest : List UnitEntry) (e : UnitEntry) :
    startOf (taken s core x rest) core x e = startOf s core x e := by
  simp only [startOf, physTile_taken]
  rfl

/-- The unit takes the next instruction, which starts or is discarded with its fault (R216, R217, R226). -/
theorem exec_start (hc : s.matrixCanStart core = true) (hx : s.nextMatrix core = some x) (hq : (s.ctx core x).mq = e :: rest) :
    exec (.matrixInstructionStart core) s = .next (match s.startBad core x e.instr e with
      | some c => (taken s core x rest).matrixFault core x e c
      | none => (taken s core x rest).setMatrix core (startOf s core x e)) := by
  rw [← startOf_taken s core x rest, ← startBad_taken s core x rest]
  change execMatrixInstructionStart core s = _
  simp only [execMatrixInstructionStart, hc, hx, hq, Bool.not_true, Bool.false_eq_true, if_false]
  rw [← taken]
  cases (taken s core x rest).startBad core x e.instr e <;> rfl

/-- A product begins with the rows of its tile, or with zeros (R227). -/
theorem work_startOf {f : Product} (hf : productOf e.instr = some f) {r : Nat} (hr : r < 64) : mget 0 (startOf s core x e).work r =
    if f.acc then (s.accRow core (s.physTile core x f.tile) r).data else 0 := by
  have hmem := List.mem_range.mpr hr
  have hwork : (startOf s core x e).work = s.workRows core (s.physTile core x f.tile) f.acc := by rw [startOf, hf]; rfl
  rw [hwork, State.workRows]
  split
  · exact mget_map_of_mem 0 (fun r => (s.accRow core (s.physTile core x f.tile) r).data) hmem
  · exact mget_map_of_mem 0 (fun _ => 0) hmem

/-! ## Gathering and stepping -/

theorem core_matrix_setMatrix (s : State) (core : Nat) (m : MatrixBusy) : ((s.setMatrix core m).core core).matrix = some m :=
  congrArg Core.matrix (mget_mset_same ..)

section Step

variable {f : Product} {u : UnitStep} (hm : (s.core core).matrix = some m)
include hm

/-- A step that the pace and the ramp limiter let start does (R217, R218, R317). -/
theorem exec_step (hu : s.unitNext m = .step f u) (hw : s.warmHeld core m.x = false)
    (hr : s.rampFits core (m.stepCycles f u / 4) (s.ctx core m.x).isAwaited = true) :
    exec (.matrixStep core) s = .next (s.startStep core m f u) := by
  have hready : s.matrixStepReady core = true := by simp only [State.matrixStepReady, hm, hu, hw, hr, Bool.not_false, Bool.true_and]
  change execMatrixStep core s = _
  simp only [execMatrixStep, hready, hm, hu, Bool.not_true, Bool.false_eq_true, if_false]

/-- What gathering for either operand comes to: more bytes for its panel, a fault, or nothing yet (R221). -/
theorem exec_gather {g : Gather} {put : Panel → MatrixBusy}
    (hu : s.unitNext m = .gatherA f u ∧ g = s.gatherA core m f u ∧ put = (fun p => { m with pa := p }) ∨
      s.unitNext m = .gatherB f u ∧ g = s.gatherB core m f u ∧ put = (fun p => { m with pb := p })) :
    (∀ p v, g = .more p v → exec (.matrixStep core) s = .next (v.setMatrix core (put p))) ∧
    (∀ c, g = .fault c → exec (.matrixStep core) s = .next (s.matrixFault core m.x m.entry c)) ∧
    (g = .wait → exec (.matrixStep core) s = .next s) := by
  have hready : s.matrixStepReady core = g.moves := by
    rcases hu with ⟨hu, rfl, -⟩ | ⟨hu, rfl, -⟩ <;> simp only [State.matrixStepReady, hm, hu]
  change (∀ p v, _ → execMatrixStep core s = _) ∧ (∀ c, _ → execMatrixStep core s = _) ∧ (_ → execMatrixStep core s = _)
  refine ⟨fun p v hg => ?more, fun c hg => ?fault, fun hg => ?wait⟩
  case more | fault =>
    rw [hg] at hready hu
    rcases hu with ⟨hu, hop, rfl⟩ | ⟨hu, hop, rfl⟩ <;>
      simp only [execMatrixStep, hready, hm, hu, ← hop, Gather.moves, Bool.not_true, Bool.false_eq_true, if_false]
  case wait => simp only [execMatrixStep, hready, hg, Gather.moves, Bool.not_false, if_true]

end Step

/-! ## What a row does -/

/-- The next row of a tile instruction is the one that its count of rows names (R217). -/
theorem step_of_unitNext_row {r : Nat} (h : s.unitNext m = .row r) : m.step = r := by
  unfold State.unitNext at h
  split at h
  · cases h
  · split at h
    · split at h
      · cases h
        rfl
      · cases h
    · split at h
      · cases h
      · split_ifs at h

/-- A tile instruction whose row waits for its banks does nothing (R61). -/
theorem exec_row_waits {r : Nat} (hm : (s.core core).matrix = some m) (hu : s.unitNext m = .row r)
    (hb : s.reserved core (s.banksOf core m.x (m.entry.rowExtent r).1 (m.entry.rowExtent r).2) = true) :
    exec (.matrixStep core) s = .next s := by
  have hready : s.matrixStepReady core = false := by simp only [State.matrixStepReady, hm, hu, hb, Bool.not_true]
  change execMatrixStep core s = _
  simp only [execMatrixStep, hready, Bool.not_false, if_true]

/-- The row that is due, with its banks free: the state before it. -/
structure RowDue (s : State) (core : Nat) (m : MatrixBusy) (r : Nat) : Prop where
  busy : (s.core core).matrix = some m
  next : s.unitNext m = .row r
  banks : s.reserved core (s.banksOf core m.x (m.entry.rowExtent r).1 (m.entry.rowExtent r).2) = false

/-- A row has its effect: the state `w`, in which the unit goes on as `k`. -/
def RowRuns (s : State) (core : Nat) (m : MatrixBusy) (r : Nat) (w : State) (k : MatrixBusy) : Prop :=
  exec (.matrixStep core) s = .next (w.setMatrix core k) ∧ k.x = m.x ∧ k.entry = m.entry ∧ k.step = r + 1

/-- What the unit goes on with after a row. -/
def MatrixBusy.after (k : MatrixBusy) (s : State) (m : MatrixBusy) : MatrixBusy :=
  { k with step := m.step + 1, free := s.cycle + (if m.step + 1 = unitRows m.entry.instr then 0 else 1) }

variable {r : Nat} {w : State} {k l : MatrixBusy}

theorem exec_row (h : RowDue s core m r) : exec (.matrixStep core) s = .next (s.unitRow core m) := by
  obtain ⟨hm, hu, hb⟩ := h
  have hready : s.matrixStepReady core = true := by simp only [State.matrixStepReady, hm, hu, hb, Bool.not_false]
  change execMatrixStep core s = _
  simp only [execMatrixStep, hready, hm, hu, Bool.not_true, Bool.false_eq_true, if_false]

/-- A row whose bytes are not poisoned has the effect of its instruction (R217, R229, R230). -/
theorem rowRuns_of_effect (h : RowDue s core m r) (hl : s.loadRows core m = (l, false)) (he : s.rowEffect core l = (w, k)) (hx : k.x = m.x)
    (hentry : k.entry = m.entry) : RowRuns s core m r w (k.after s m) := by
  refine ⟨?_, hx, hentry, congrArg (· + 1) (step_of_unitNext_row h.next)⟩
  rw [exec_row h, State.unitRow, hl]
  simp only [he, Bool.false_eq_true, if_false]
  rfl

/-! ## What a `zld` reads -/

/-- A `zld` that has read the bytes of its rows. -/
def MatrixBusy.reading (m : MatrixBusy) (b : List Byte) : MatrixBusy :=
  { m with work := (List.range 64).map (fun r => (r, ofVecBytes ((b.drop (512 * r)).take 512))) }

theorem loadRows_first {z : Bool} {t : BitVec 4} {a : Src} {q : BitVec 2} (hi : m.entry.instr = .zld z t a q) (h0 : m.step = 0) :
    s.loadRows core m = (m.reading (s.localBytes core m.x ((localOf m.entry.a).getD 0) 32768).1,
      (s.localBytes core m.x ((localOf m.entry.a).getD 0) 32768).2) := by
  simp only [State.loadRows, MatrixBusy.reading, hi, h0]

/-- Nothing is read after the first row, and by no other instruction (R229). -/
theorem loadRows_none (h : m.step = 0 → ∀ z t a q, m.entry.instr ≠ .zld z t a q) : s.loadRows core m = (m, false) := by
  unfold State.loadRows
  split
  · next hi h0 => exact absurd hi (h h0 _ _ _ _)
  · rfl

/-- Bytes 512 i to 512 i + 511 of an extent are those of row `i` (R229). -/
theorem byteOf_reading (m : MatrixBusy) (b : List Byte) {i j : Nat} (hi : i < 64) (hj : j < 512) :
    byteOf (mget 0 (m.reading b).work i) j = b.getD (512 * i + j) 0 := by
  rw [MatrixBusy.reading, mget_map_of_mem 0 (fun r => ofVecBytes ((b.drop (512 * r)).take 512)) (List.mem_range.mpr hi),
    byteOf_ofVecBytes _ hj, List.getD_eq_getElem?_getD, List.getElem?_take_of_lt hj, List.getElem?_drop, ← List.getD_eq_getElem?_getD]

/-! ## What a row writes -/

/-- Elements computed for the 128 lanes of a row are written, with their flags and saturations. -/
theorem putRow_lanes (s : State) (core : Nat) (m : MatrixBusy) (tile : Nat) (out : Nat → Lane × Flags × Nat) :
    s.putRow core m tile ((List.range 128).map out) =
      (s.writeRows core tile [(m.step, ofLaneList ((List.range 128).map (fun j => (out j).1)))],
        { m with flags := m.flags ||| orFlags ((List.range 128).map (fun j => (out j).2.1))
                 sat := m.sat + ((List.range 128).map (fun j => (out j).2.2)).sum }) := by
  rw [State.putRow, foldl_add_eq_sum]
  simp only [List.map_map, Function.comp_def]

/-- A row of a `zst` stores the bytes of its elements at the row's own address (R230). -/
theorem storeRow_lanes (s : State) (core : Nat) (m : MatrixBusy) (tile : Nat) (g : BitVec 4) :
    s.storeRow core m tile g = (s.localStore core m.x (m.entry.rowExtent m.step).1
      ((List.range 128).flatMap (fun j => (zstElem (s.tagOf core tile) g.toNat (lane (s.accRow core tile m.step).data j)).1)) [] false,
        { m with flags := m.flags ||| orFlags ((List.range 128).map (fun j =>
          (zstElem (s.tagOf core tile) g.toNat (lane (s.accRow core tile m.step).data j)).2)) }) := by
  simp only [State.storeRow, lanesOf, List.map_map, List.flatMap_map, Function.comp_def]

/-- The address of row `r` of a `zst` (R230). -/
theorem rowExtent_zst {t : BitVec 4} {a : Src} {g : BitVec 4} {q : BitVec 2} (hi : e.instr = .zst t a g q ∨ e.instr = .zstR t a g q) (r : Nat) :
    (e.rowExtent r).1 = (localOf e.a).getD 0 + 128 * (if g = 5 ∨ g = 6 then 2 else 4) * r := by
  have hrow : zstRow g = 128 * (if g = 5 ∨ g = 6 then 2 else 4) := by
    have h5 : g = 5 ↔ g.toNat = 5 := BitVec.toNat_inj.symm
    have h6 : g = 6 ↔ g.toNat = 6 := BitVec.toNat_inj.symm
    simp only [zstRow, zstSize, h5, h6]
    split <;> rfl
  rw [← hrow]
  obtain hi | hi := hi <;> simp only [UnitEntry.rowExtent, hi]

end Sys2Proof.Machine
end

section
/-! SUPPORT. The rows of each tile instruction (R217, R229, R230). -/

namespace Sys2Proof.Machine

variable {s : State} {core r : Nat} {m : MatrixBusy}

/-- A tile of the task whose instruction the unit has. -/
def tileOf (s : State) (core : Nat) (m : MatrixBusy) (t : BitVec 4) : Nat := s.physTile core m.x t.toNat

/-- The present row of such a tile. -/
def tileRow (s : State) (core : Nat) (m : MatrixBusy) (r : Nat) (t : BitVec 4) : Vec := (s.accRow core (tileOf s core m t) r).data

theorem row_zzero {z : Bool} {t : BitVec 4} {q : BitVec 2} (h : RowDue s core m r) (hi : m.entry.instr = .zzero z t q) :
    ∃ w k, RowRuns s core m r w k ∧ ∀ i < 64, (w.accRow core (tileOf s core m t) i).data = 0 := by
  have hl : s.loadRows core m = (m, false) := loadRows_none (fun _ _ _ _ _ hz => by rw [hi] at hz; cases hz)
  have he : s.rowEffect core m = (s.writeRows core (tileOf s core m t) ((List.range 64).map (fun r => (r, 0))), m) := by
    simp only [State.rowEffect, hi]
    rfl
  refine ⟨_, _, rowRuns_of_effect h hl he rfl rfl, fun i hi64 => ?_⟩
  have hmem : (i, (0 : Vec)) ∈ (List.range 64).map (fun r => (r, (0 : Vec))) := List.mem_map.mpr ⟨i, List.mem_range.mpr hi64, rfl⟩
  have hnd : (((List.range 64).map (fun r => (r, (0 : Vec)))).map (·.1)).Nodup := by
    rw [List.map_map]
    exact List.nodup_range.map (fun _ _ h => h)
  exact congrArg AccRow.data (accRow_writeRows_mem hnd hmem)

section Zld

variable {z : Bool} {t : BitVec 4} {a : Src} {q : BitVec 2} (h : RowDue s core m r) (hi : m.entry.instr = .zld z t a q)
include h hi

theorem rowEffect_zld {l : MatrixBusy} (hentry : l.entry = m.entry) (hstep : l.step = m.step) (hx : l.x = m.x) :
    s.rowEffect core l = (s.writeRows core (tileOf s core m t) [(r, mget 0 l.work r)], l) := by
  simp only [State.rowEffect, hentry, hi, hstep, step_of_unitNext_row h.next, hx]
  rfl

/-- A `zld` whose extent holds a poisoned byte faults at its first row (R226, R229). -/
theorem row_zld_poisoned (h0 : r = 0) (hp : (s.localBytes core m.x (m.entry.rowExtent r).1 32768).2 = true) :
    exec (.matrixStep core) s = .next (s.matrixFault core m.x m.entry 0x47) := by
  have hstep : m.step = 0 := (step_of_unitNext_row h.next).trans h0
  have hext : (m.entry.rowExtent r).1 = (localOf m.entry.a).getD 0 := by simp only [UnitEntry.rowExtent, hi]
  rw [hext] at hp
  rw [exec_row h, State.unitRow, loadRows_first hi hstep, hp]
  rfl

/-- The first row of a `zld` reads the bytes of them all. -/
theorem row_zld_first (h0 : r = 0) (hp : (s.localBytes core m.x (m.entry.rowExtent r).1 32768).2 = false) : ∃ k,
    (∀ i < 64, ∀ j < 512, byteOf (mget 0 k.work i) j = (s.localBytes core m.x (m.entry.rowExtent r).1 32768).1.getD (512 * i + j) 0) ∧
    RowRuns s core m r (s.writeRows core (tileOf s core m t) [(0, mget 0 k.work 0)]) k := by
  have hstep : m.step = 0 := (step_of_unitNext_row h.next).trans h0
  have hext : (m.entry.rowExtent r).1 = (localOf m.entry.a).getD 0 := by simp only [UnitEntry.rowExtent, hi]
  rw [hext] at hp ⊢
  have hl := loadRows_first (s := s) (core := core) hi hstep
  rw [hp] at hl
  have he := rowEffect_zld h hi (l := m.reading (s.localBytes core m.x ((localOf m.entry.a).getD 0) 32768).1) rfl rfl rfl
  have hruns := rowRuns_of_effect h hl he rfl rfl
  rw [h0] at hruns ⊢
  exact ⟨MatrixBusy.after (m.reading _) s m, fun i hi j hj => byteOf_reading m _ hi hj, hruns⟩

theorem row_zld_later (h0 : r ≠ 0) : ∃ k, k.work = m.work ∧
    RowRuns s core m r (s.writeRows core (tileOf s core m t) [(r, mget 0 m.work r)]) k := by
  have hl : s.loadRows core m = (m, false) := loadRows_none (fun hs => absurd ((step_of_unitNext_row h.next).symm.trans hs) h0)
  exact ⟨m.after s m, rfl, rowRuns_of_effect h hl (rowEffect_zld h hi rfl rfl rfl) rfl rfl⟩

end Zld

/-- A row of a `zst` or `zst.r` stores its converted elements (R230). -/
theorem row_zst {t g : BitVec 4} {a : Src} {q : BitVec 2} (h : RowDue s core m r)
    (hi : m.entry.instr = .zst t a g q ∨ m.entry.instr = .zstR t a g q) :
    let out := fun j => zstElem (s.tagOf core (tileOf s core m t)) g.toNat (lane (tileRow s core m r t) j)
    ∃ k, k.sat = m.sat ∧ k.flags = m.flags ||| orFlags ((List.range 128).map (fun j => (out j).2)) ∧
      RowRuns s core m r (s.localStore core m.x ((localOf m.entry.a).getD 0 + 128 * (if g = 5 ∨ g = 6 then 2 else 4) * r)
        ((List.range 128).flatMap (fun j => (out j).1)) [] false) k := by
  have hl : s.loadRows core m = (m, false) := loadRows_none (fun _ _ _ _ _ hz => by rcases hi with hi | hi <;> (rw [hi] at hz; cases hz))
  have he : s.rowEffect core m = s.storeRow core m (tileOf s core m t) g := by
    rcases hi with hi | hi <;> (simp only [State.rowEffect, hi]; rfl)
  rw [storeRow_lanes, step_of_unitNext_row h.next, rowExtent_zst hi] at he
  have hruns := rowRuns_of_effect h hl he rfl rfl
  refine ⟨_, ?_, ?_, hruns⟩
  · rfl
  · rfl

/-- A row whose elements are computed lane by lane is written. -/
theorem row_computed {t : BitVec 4} {out : Nat → Lane × Flags × Nat} (h : RowDue s core m r)
    (hn : ∀ z t a q, m.entry.instr ≠ .zld z t a q)
    (he : s.rowEffect core m = s.putRow core m (tileOf s core m t) ((List.range 128).map out)) :
    ∃ d k, RowRuns s core m r (s.writeRows core (tileOf s core m t) [(r, d)]) k ∧ (∀ j < 128, lane d j = (out j).1) ∧
      k.flags = m.flags ||| orFlags ((List.range 128).map (fun j => (out j).2.1)) ∧
      k.sat = m.sat + ((List.range 128).map (fun j => (out j).2.2)).sum := by
  rw [putRow_lanes, step_of_unitNext_row h.next] at he
  have hruns := rowRuns_of_effect h (loadRows_none (fun _ => hn)) he rfl rfl
  exact ⟨_, _, hruns, fun j hj => lane_ofLaneList _ hj, rfl, rfl⟩

/-- A row of a `zcvt` (R229). -/
theorem row_zcvt {t v : BitVec 4} {a : Src} {q : BitVec 2} (h : RowDue s core m r) (hi : m.entry.instr = .zcvt t v a q) :
    let out := fun j => zcvtElem (s.tagOf core (tileOf s core m v)) (bits m.entry.b.toNat 31 0) (lane (tileRow s core m r v) j)
    ∃ d k, RowRuns s core m r (s.writeRows core (tileOf s core m t) [(r, d)]) k ∧ (∀ j < 128, lane d j = (out j).1) ∧
      k.flags = m.flags ||| orFlags ((List.range 128).map (fun j => (out j).2.1)) := by
  intro out
  have he : s.rowEffect core m = s.putRow core m (tileOf s core m t) ((List.range 128).map out) := by
    simp only [State.rowEffect, hi, lanesOf, List.map_map, step_of_unitNext_row h.next]
    rfl
  obtain ⟨d, k, hruns, hd, hflags, -⟩ := row_computed h (fun _ _ _ _ hz => by rw [hi] at hz; cases hz) he
  exact ⟨d, k, hruns, hd, hflags⟩

/-- A row of a `zacc` (R229). -/
theorem row_zacc {t v : BitVec 4} {q : BitVec 2} (h : RowDue s core m r) (hi : m.entry.instr = .zacc t v q) :
    let out := fun j => zaccElem (s.tagOf core (tileOf s core m t)) (lane (tileRow s core m r t) j) (lane (tileRow s core m r v) j)
    ∃ d k, RowRuns s core m r (s.writeRows core (tileOf s core m t) [(r, d)]) k ∧ (∀ j < 128, lane d j = (out j).1) ∧
      k.flags = m.flags ||| orFlags ((List.range 128).map (fun j => (out j).2.1)) ∧
      k.sat = m.sat + ((List.range 128).map (fun j => (out j).2.2)).sum := by
  intro out
  have he : s.rowEffect core m = s.putRow core m (tileOf s core m t) ((List.range 128).map out) := by
    simp only [State.rowEffect, hi, lanesOf, List.zip_map', List.map_map, step_of_unitNext_row h.next]
    rfl
  exact row_computed h (fun _ _ _ _ hz => by rw [hi] at hz; cases hz) he

end Sys2Proof.Machine
end

section
/-! SUPPORT. Matrix instructions that are done, dummy steps and the windows of the ramp limiter (R217, R226 to R229, R232, R316, R317), and
the work of the matrix unit settled (O33). -/

namespace Sys2Proof.Machine

open Sys2Proof.Spec

variable {s : State} {core : Nat} {m : MatrixBusy}

/-! ## What an instruction leaves in its tile -/

section Tagged

variable {t v : BitVec 4} {int : Bool} {a : Src} {q : BitVec 2}

theorem finishUnit_zzero (hi : m.entry.instr = .zzero int t q) :
    s.finishUnit core m = s.setTag core (s.physTile core m.x t.toNat) int := by
  simp only [State.finishUnit, hi]

theorem finishUnit_zld (hi : m.entry.instr = .zld int t a q) :
    s.finishUnit core m = s.setTag core (s.physTile core m.x t.toNat) int := by
  simp only [State.finishUnit, hi]

theorem finishUnit_zcvt (hi : m.entry.instr = .zcvt t v a q) :
    s.finishUnit core m = s.setTag core (s.physTile core m.x t.toNat) false := by
  simp only [State.finishUnit, hi]

end Tagged

/-- A store of a tile and an accumulation leave the type of every tile (R229, R230). -/
theorem finishUnit_untagged (h : (∃ z a g p, m.entry.instr = .zst z a g p ∨ m.entry.instr = .zstR z a g p) ∨
    (∃ z v p, m.entry.instr = .zacc z v p)) : s.finishUnit core m = s := by
  rcases h with ⟨z, a, g, p, hi | hi⟩ | ⟨z, v, p, hi⟩ <;> simp only [State.finishUnit, hi, productOf]

theorem finishUnit_product {f : Product} (h : productOf m.entry.instr = some f) : s.finishUnit core m =
    (s.writeRows core (s.physTile core m.x f.tile) (m.work.filter (fun r => (f.rows m.entry.b m.entry.table).contains r.1))).setTag core
      (s.physTile core m.x f.tile) (m.entry.int f) := by
  unfold State.finishUnit
  split
  · next hi => rw [hi] at h; cases h
  · next hi => rw [hi] at h; cases h
  · next hi => rw [hi] at h; cases h
  · rw [h]

/-- What an instruction leaves behind are rows and types of tiles. -/
theorem finishUnit_eq (s : State) (core : Nat) (m : MatrixBusy) :
    s.finishUnit core m = { s with acc := (s.finishUnit core m).acc, ztag := (s.finishUnit core m).ztag } := by
  unfold State.finishUnit
  split
  · rfl
  · rfl
  · rfl
  · split <;> rfl

theorem tagOf_setTag (s : State) (core tile : Nat) (int : Bool) : (s.setTag core tile int).tagOf core tile = int := mget_mset_same ..

/-- The rows that a product has worked on go to its tile, where its groups own them (R227, R228). -/
theorem accRow_product {f : Product} (h : productOf m.entry.instr = some f) (hn : (m.work.map (·.1)).Nodup) :
    (∀ w ∈ m.work, w.1 ∈ f.rows m.entry.b m.entry.table →
      (s.finishUnit core m).accRow core (s.physTile core m.x f.tile) w.1 = { data := w.2, poison := false }) ∧
    ∀ r, r ∉ f.rows m.entry.b m.entry.table →
      (s.finishUnit core m).accRow core (s.physTile core m.x f.tile) r = s.accRow core (s.physTile core m.x f.tile) r := by
  have hrow : ∀ r, (s.finishUnit core m).accRow core (s.physTile core m.x f.tile) r = (s.writeRows core (s.physTile core m.x f.tile)
      (m.work.filter (fun r => (f.rows m.entry.b m.entry.table).contains r.1))).accRow core (s.physTile core m.x f.tile) r := fun r => by
    rw [finishUnit_product h]
    rfl
  refine ⟨fun w hw hr => ?_, fun r hr => ?_⟩
  · rw [hrow]
    exact accRow_writeRows_mem (hn.sublist (List.filter_sublist.map _)) (List.mem_filter.mpr ⟨hw, List.contains_iff_mem.mpr hr⟩)
  · rw [hrow]
    refine accRow_writeRows_other fun hmem => ?_
    obtain ⟨w, hw, rfl⟩ := List.mem_map.mp hmem
    exact hr (List.contains_iff_mem.mp (List.mem_filter.mp hw).2)

/-! ## Completion -/

theorem ragOf_eq (table : List Word) : ragOf table = (table.map (fun w => bits w.toNat 38 32)).sum - 64 := by
  rw [ragOf, foldl_add_eq_sum]

/-- What the counters of a context take from an instruction that is done (R224, R228). -/
def Ctx.counted (c : Ctx) (m : MatrixBusy) : Ctx :=
  { c with mxsat := c.mxsat + .ofNat 64 m.sat, mxrag := c.mxrag + .ofNat 64 (ragOf m.entry.table), fflags := c.fflags ||| m.flags }

/-- The state that an instruction leaves when it is done and no flag of it traps: its tile, the free unit, and the counts and flags. -/
def State.completed (s : State) (core : Nat) (m : MatrixBusy) : State :=
  ((s.finishUnit core m).updCore core (fun k => { k with matrix := none, matrixLast := m.x, matrixEnd := some s.cycle })).updCtx core m.x
    (fun c => c.counted m)

/-- Flags that no trap is enabled for, or that come in a handler, are only accrued (R94, R328). -/
theorem unitFlags_quiet {x : Nat} {f : Flags} (src : Nat) (h : f &&& (s.ctx core x).tvec.extractLsb' 57 5 = 0 ∨ (s.ctx core x).hnd = true) :
    s.unitFlags core x f src = s.updCtx core x (fun c => { c with fflags := c.fflags ||| f }) := by
  have hctx : (s.updCtx core x (fun c => { c with fflags := c.fflags ||| f })).ctx core x =
      { s.ctx core x with fflags := (s.ctx core x).fflags ||| f } := mget_mset_same ..
  unfold State.unitFlags
  dsimp only
  rw [hctx]
  exact if_pos h

theorem ctx_finishUnit (s : State) (core : Nat) (m : MatrixBusy) (c x : Nat) : (s.finishUnit core m).ctx c x = s.ctx c x := by
  rw [finishUnit_eq]
  rfl

theorem exec_complete (hd : s.matrixDone core = true) (hm : (s.core core).matrix = some m)
    (hq : m.flags &&& (s.ctx core m.x).tvec.extractLsb' 57 5 = 0 ∨ (s.ctx core m.x).hnd = true) :
    exec (.matrixInstructionComplete core) s = .next (s.completed core m) := by
  have hcycle : (s.finishUnit core m).cycle = s.cycle := by rw [finishUnit_eq]
  change execMatrixInstructionComplete core s = _
  simp only [execMatrixInstructionComplete, hd, hm, Bool.not_true, Bool.false_eq_true, if_false]
  rw [unitFlags_quiet, updCtx_updCtx]
  · rfl
  · have hctx : ∀ (t : State) (f : Ctx → Ctx), (t.updCtx core m.x f).ctx core m.x = f (t.ctx core m.x) := fun _ _ => mget_mset_same ..
    rw [hctx]
    have hcore : ∀ (t : State) (f : Core → Core), (t.updCore core f).ctx core m.x = t.ctx core m.x := fun _ _ => rfl
    rw [hcore, ctx_finishUnit]
    exact hq

theorem completed_matrix (s : State) (core : Nat) (m : MatrixBusy) : ((s.completed core m).core core).matrix = none :=
  congrArg Core.matrix (mget_mset_same ..)

theorem completed_ctx (s : State) (core : Nat) (m : MatrixBusy) : (s.completed core m).ctx core m.x = (s.ctx core m.x).counted m := by
  have hctx : (s.completed core m).ctx core m.x = ((s.finishUnit core m).ctx core m.x).counted m := mget_mset_same ..
  rw [hctx, ctx_finishUnit]

theorem completed_acc (s : State) (core : Nat) (m : MatrixBusy) : (s.completed core m).acc = (s.finishUnit core m).acc := by
  rw [State.completed, updCtx_acc, updCore_acc]

theorem completed_ztag (s : State) (core : Nat) (m : MatrixBusy) : (s.completed core m).ztag = (s.finishUnit core m).ztag := by
  rw [State.completed, updCtx_ztag, updCore_ztag]

theorem completed_tagOf (s : State) (core : Nat) (m : MatrixBusy) (c tile : Nat) :
    (s.completed core m).tagOf c tile = (s.finishUnit core m).tagOf c tile := by
  rw [State.tagOf, completed_ztag, State.tagOf]

theorem completed_accRow (s : State) (core : Nat) (m : MatrixBusy) (c tile r : Nat) :
    (s.completed core m).accRow c tile r = (s.finishUnit core m).accRow c tile r := by
  rw [State.accRow, completed_acc, State.accRow]

theorem completed_of_tagged {tile : Nat} {int : Bool} (hf : s.finishUnit core m = s.setTag core tile int) :
    (s.completed core m).acc = s.acc ∧ (s.completed core m).tagOf core tile = int := by
  rw [completed_acc, completed_tagOf, hf]
  exact ⟨rfl, tagOf_setTag ..⟩

theorem completed_of_untagged (hf : s.finishUnit core m = s) :
    (s.completed core m).acc = s.acc ∧ (s.completed core m).ztag = s.ztag := by
  rw [completed_acc, completed_ztag, hf]
  exact ⟨rfl, rfl⟩

/-- A product leaves the type of its combination and the rows that its groups own; the others are as they were (R226 to R228). -/
theorem completed_product {f : Product} (hf : productOf m.entry.instr = some f) (hn : (m.work.map (·.1)).Nodup) :
    (s.completed core m).tagOf core (s.physTile core m.x f.tile) = m.entry.int f ∧
    (∀ w ∈ m.work, w.1 ∈ f.rows m.entry.b m.entry.table →
      (s.completed core m).accRow core (s.physTile core m.x f.tile) w.1 = { data := w.2, poison := false }) ∧
    ∀ r < 64, r ∉ f.rows m.entry.b m.entry.table →
      (s.completed core m).accRow core (s.physTile core m.x f.tile) r = s.accRow core (s.physTile core m.x f.tile) r := by
  obtain ⟨hmem, hother⟩ := accRow_product (s := s) (core := core) hf hn
  have htag : (s.finishUnit core m).tagOf core (s.physTile core m.x f.tile) = m.entry.int f := by
    rw [finishUnit_product hf, tagOf_setTag]
  simp only [completed_tagOf, completed_accRow]
  exact ⟨htag, hmem, fun r _ hr => hother r hr⟩

/-! ## The ramp limiter -/

/-- The limiters of the islands after a dummy step (R316, R317). -/
def State.dummyRamps (s : State) (core : Nat) : Map Ramp :=
  ((s.rampCount core 8).updRamp (coreIsland core) (fun r => { r with dummies := r.dummies + 1 })).ramps

/-- The performance counters after a dummy step (R368). -/
def State.dummyPmc (s : State) (core : Nat) : Map Word :=
  mset s.regs.pmc (8 * coreIsland core + 1) (mget 0 s.regs.pmc (8 * coreIsland core + 1) + 1)

/-- A dummy step counts in the limiter and in a performance counter of its island, and does nothing else (R232, R317). -/
theorem exec_dummy (hw : s.dummyWanted (coreIsland core) = true) (hu : s.dummyUnit core = true) :
    exec (.dummyStep core) s = .next { s with ramps := s.dummyRamps core, regs := { s.regs with pmc := s.dummyPmc core } } := by
  change execDummyStep core s = _
  simp only [execDummyStep, hw, hu, Bool.and_self, Bool.not_true, Bool.false_eq_true, if_false]
  rfl

theorem ramp_dummy (s : State) (core : Nat) : mget Ramp.reset (s.dummyRamps core) (coreIsland core) =
    { s.rampNow (coreIsland core) with
      count := (s.rampNow (coreIsland core)).count + 8
      dummies := (s.rampNow (coreIsland core)).dummies + 1
      waiting := (s.rampNow (coreIsland core)).waiting.filter (fun w => w.1 != core) } := by
  have hcount : (s.rampCount core 8).ramp (coreIsland core) = { s.rampNow (coreIsland core) with
      count := (s.rampNow (coreIsland core)).count + 8
      waiting := (s.rampNow (coreIsland core)).waiting.filter (fun w => w.1 != core) } := mget_mset_same ..
  rw [State.dummyRamps, State.updRamp, mget_mset_same, hcount]

theorem exec_windowEnd {n : Nat} (h : s.windowOver n = true) : exec (.rampWindowEnd n) s = .next (s.updRamp n (fun r => { r with
    window := r.window + 1, last := r.count, count := 0, dummiesLast := r.dummies, dummies := 0 })) := by
  change execRampWindowEnd n s = _
  rw [execRampWindowEnd, h]
  rfl

/-- Settles O33, event by event; the elements of a step are those of `stepElem_saturates`, `stepElem_rounds` and `stepElem_float_cons`. -/
theorem matrixWork : Obligations.MatrixWork := by
  unfold Obligations.MatrixWork
  refine ⟨fun core x s e rest hc hx hq => ?starts, fun core s m f u hm => ⟨fun hu hw hr => exec_step hm hu hw hr,
      fun hu => exec_gather hm (.inl ⟨hu, rfl, rfl⟩), fun hu => exec_gather hm (.inr ⟨hu, rfl, rfl⟩)⟩,
    fun core r s m hm hu => ⟨fun hb => exec_row_waits hm hu hb, fun hb => ?rows⟩,
    fun a d => ⟨rfl, rfl, rfl, rfl, rfl, rfl, zaccElem_int d a, fun _ => rfl⟩, ?completes, ?dummies, fun n s h => exec_windowEnd h,
    fun xs ys z n _ hn => stepElem_saturates hn, fun xs ys sa sb z n _ hn => stepElem_rounds hn,
    fun a b as bs z => ⟨stepElem_nan z, stepElem_float_cons a b as bs z⟩⟩
  case starts =>
    have h := exec_start hc hx hq
    refine ⟨fun hb => ?_, fun c hb => ?_⟩
    · rw [hb] at h
      have hmq : (((taken s core x rest).setMatrix core (startOf s core x e)).ctx core x).mq = rest :=
        congrArg Ctx.mq (ctx_taken s core x rest)
      exact ⟨_, _, h, core_matrix_setMatrix .., rfl, rfl, rfl, rfl, rfl, rfl, hmq, fun f hf r hr => work_startOf hf hr⟩
    · rwa [hb] at h
  case rows =>
    have h : RowDue s core m r := ⟨hm, hu, hb⟩
    exact ⟨fun e t q hi => row_zzero h hi, fun e t a q hi => ⟨fun h0 hp => row_zld_poisoned h hi h0 hp,
      fun h0 hp => row_zld_first h hi h0 hp, fun h0 => row_zld_later h hi h0⟩, fun t a g q hi => row_zst h hi,
      fun t v a q hi => row_zcvt h hi, fun t v q hi => row_zacc h hi⟩
  case completes =>
    rintro core s m _ hd hm rfl hq
    have hctx := completed_ctx s core m
    refine ⟨_, exec_complete hd hm hq, completed_matrix .., congrArg Ctx.fflags hctx, congrArg Ctx.mxsat hctx, ?_,
      fun e z p hi => completed_of_tagged (hi.elim finishUnit_zzero fun ⟨_, hz⟩ => finishUnit_zld hz),
      fun z v a p hi => completed_of_tagged (finishUnit_zcvt hi), fun hi => completed_of_untagged (finishUnit_untagged hi),
      fun f hf hn => completed_product hf hn⟩
    rw [← ragOf_eq]
    exact congrArg Ctx.mxrag hctx
  case dummies =>
    rintro core _ s rfl hw hu
    have hramp := ramp_dummy s core
    exact ⟨_, _, exec_dummy hw hu, congrArg Ramp.count hramp, congrArg Ramp.dummies hramp, mget_mset_same ..⟩

end Sys2Proof.Machine
end
